-- ==== Sys2Proof/Word.lean ====
section
/-! DEFINITION. The word types of the module and the sparse tables the state is made of. -/

namespace Sys2Proof

/-- A byte of companion memory, HBM or a local store. -/
abbrev Byte := BitVec 8

/-- A register word: every access to management space is 64 bits wide (R445). -/
abbrev Word := BitVec 64

/-- A SHA-256 value, or any other byte string, in memory order (R3). -/
abbrev Bytes := List (BitVec 8)

/-- A sparse table: entries by key, keys strictly rising; a key with no entry is absent. -/
abbrev Tab (α : Type) := List (Nat × α)

/-- The store of register fields: key (field, instance), keys strictly rising in lexicographic order. -/
abbrev FieldTab := List ((Nat × Nat) × Nat)

end Sys2Proof
end

