-- ==== Sys2Proof/Syntax.lean ====
section
/-! DEFINITION. The commands the block takes: one constructor per row of the table of operations and events, with the
operands that the world outside the block supplies. A chain row names the accepted request whose current instruction
runs (its operands stand in the request's entry and argument block, R51, R54); a Spoke row carries the 64-bit
instruction word (R212); a register row carries the caller and the value written (R6); an event row carries what the
outside decides (a pin, a message, a measurement). -/

namespace Sys2Proof

/-- Who makes an access (R309, R332, R352, R367, R372, R399, R432): management space, a management ring (R56), the RTP,
or the aperture of a tenant. -/
inductive Caller where
  | mgmt
  | mgmtRing
  | rtp
  | aperture (tenant : BitVec 12)
  deriving DecidableEq, Repr

/-- An entry of a Spoke's segment table (R218, Table 9.7): its kind, where the dispatch resolved it to (an HBM
address, or the Spoke and local-store address of a kind 6 entry) and its size in bytes. -/
structure Segment where
  kind : Nat
  base : Nat
  peer : Nat
  size : Nat
  deriving DecidableEq, Repr

/-- What the step engine fills a Spoke with at dispatch (R149, R177, R210, R211, R218, R237): the tile's chain and code, the
model slot whose program lists it (the target's, or a draft's), the sessions whose positions it computes, its arguments and
segments. -/
structure TileDesc where
  chain : Nat
  code : List (BitVec 64)
  slot : Nat
  seqs : List Nat
  targs : List (BitVec 64)
  segs : List Segment
  deriving DecidableEq, Repr

/-- What a patrol read of one block finds: a number of erroneous bytes among the 80 that the code covers (R293), or a
protected pair of a metadata block that disagrees (R295). -/
inductive EccFinding where
  | errors (bytes : Nat)
  | pairMismatch
  deriving DecidableEq, Repr

/-- A shard query (R282): the index number and tenant, k, the walk flag, the query code, the filter block with its
bitsets (R273), and the requester's epoch stamp. -/
structure ShardQuery where
  index : Nat
  tenant : Nat
  k : Nat
  walk : Bool
  epoch : Nat
  query : List (BitVec 8)
  filter : List (BitVec 8)
  bitsets : List (List (BitVec 8))
  deriving DecidableEq, Repr

/-- One entry of a result list (R275). -/
structure Hit where
  id : BitVec 64
  attr : BitVec 64
  dist : Nat
  module : Nat
  deriving DecidableEq, Repr

/-- A shard's answer (R282, R283). -/
inductive ShardAnswer where
  | list (hits : List Hit)
  | refused
  | redirect (owner : Nat)
  deriving DecidableEq, Repr

/-- A neighbour-tier block access (R302): a store of ciphertext with its tag word, or a fetch. -/
inductive NbrAccess where
  | store (range block : Nat) (data : List (BitVec 8)) (tagWord : BitVec 64)
  | fetch (range block : Nat)
  deriving DecidableEq, Repr

/-- A range entry of the composition map (Table 13.7) without its complement words. -/
structure RangeEntry where
  base2m : Nat
  kind : Nat
  owner : Nat
  user : Nat
  departing : Bool
  len2m : Nat
  since : Nat
  deriving DecidableEq, Repr

/-- A member record of the composition map (Table 13.8) without its complement word. -/
structure MemberRec where
  mstate : Nat
  role : Nat
  homing : Bool
  stoty : Nat
  deriving DecidableEq, Repr

/-- A proposal of PREPARE (Table 13.9): the new epoch, the changed entries by their number in the table and the changed
member records, and the domain-key versions it carries (R356). -/
structure Proposal where
  epoch : Nat
  entries : List (Nat × RangeEntry)
  members : List (Nat × MemberRec)
  dkVersion : Nat
  deriving DecidableEq, Repr

/-- What the RTP learns of a peer in the handshake of order 7 (R362): whether its chain verifies, the owner-key digest and the mode
of its AK certificate, its nonce and AK, and the sealed secret that a lower-ID peer sends. -/
structure PeerCert where
  chainOk : Bool
  ownerDg : List (BitVec 8)
  conf : Bool
  nonce : List (BitVec 8)
  ak : List (BitVec 8)
  secret : List (BitVec 8)
  deriving DecidableEq, Repr

/-- A received flit (R311): whether its CRC and codeword are good, how many symbols FEC corrected on each bad lane's
count per 10^9 (R312), and whether this replay is the sixteenth within one millisecond. -/
structure FlitInfo where
  crcOk : Bool
  fecOk : Bool
  sixteenth : Bool
  lane : Nat
  corrPerBillion : Nat
  deriving DecidableEq, Repr

/-- An item of an index (R264); the owner is the session handle of its VINSERT, 0 if none (R267). -/
structure VItem where
  code : List (BitVec 8)
  attr : Nat
  id : Nat
  owner : Nat
  deriving DecidableEq, Repr

/-- A slot of a published version (R265, R266): its item, tombstone bit and generation, and the valid edges of its
neighbour list as slot and generation. -/
structure VSlot where
  item : VItem
  tomb : Bool
  gen : Nat
  edges : List (Nat × Nat)
  deriving DecidableEq, Repr

/-- What a side record deletes or replaces (Table 11.3). -/
inductive SideLoc where
  | none
  | slot (n : Nat)
  | record (seq : Nat)
  deriving DecidableEq, Repr

/-- A side record (Table 11.3) with its code. -/
structure SideRec where
  seq : Nat
  insert : Bool
  loc : SideLoc
  item : VItem
  deriving DecidableEq, Repr

namespace Machine

/-- One row of KV in one layer: element codes, and scale bytes where the form has block scaling (R101, R114). -/
structure LayerRow where
  elems : List Nat
  scales : List Nat
  deriving DecidableEq, Repr

/-- One row of KV: its layers. -/
abbrev KvRow := List LayerRow

/-- One ring entry taken in (Table 3.3): its two words, and its place in the module-wide decode order (R25). -/
structure Entry where
  lo : Nat
  hi : Nat
  order : Nat
  deriving DecidableEq, Repr

/-- What the current instruction of a request waits for. -/
inductive Wait where
  /-- Nothing: the instruction may run. -/
  | none
  /-- A wait that is judged again when the command comes again (R33, R42, R60, R128, R340, R350); a cancel ends it at
  once (R63). -/
  | retry
  /-- The same, and a deadline ends it at once too (R325, R326, R386). -/
  | timed
  /-- A STEP or PREFILL that waits for HOT or to enrol; a deadline ends it at once too (R137, R138). -/
  | enrol
  /-- A STEP or PREFILL in a peloton: it ends at a boundary (R165, R166). -/
  | step
  /-- A motion of the pannier engine; `lower`: it reads a lower tier, so a deadline ends the wait (R93). -/
  | motion (lower : Bool)
  /-- A wait on a sync counter (R414); `registered` is false on a foreign counter (R412). -/
  | sync (counter : Nat) (eq : Bool) (value : Nat) (registered : Bool)
  /-- Shard answers of a SEARCH (R282). -/
  | shards
  /-- A merge of an index, by its number (R280). -/
  | merge (index n : Nat)
  /-- A tandem copy that becomes valid (R373). -/
  | seed
  /-- A checkpoint being written (R386). -/
  | ckpt
  /-- An admitted overlay (R148, R350). -/
  | overlay
  /-- The partner's acknowledgement of a delta number (R377): the completion is held back, or the READY of a move. -/
  | tandem (delta : Nat)
  deriving DecidableEq, Repr

/-- Where a request stands (R57, R58, R71): its body runs; its record waits for completion slots; its trailer runs. -/
inductive Phase where
  | body
  | record
  | trailer
  deriving DecidableEq, Repr

/-- What a request in the table is: an accepted request; a record alone (R65, R69: nothing runs); the replay of the
replay-area entry of an accepted count (R65 to R67). -/
inductive ReqKind where
  | normal
  | plain
  | replay (entry : Nat)
  deriving DecidableEq, Repr

/-- What a chunked TOKIN carries to the next chunk (R248): the operand A, handle and limit that every chunk repeats, the
bytes held back, the tokens so far and the invalid bytes counted. -/
structure Carry where
  opndA : Nat
  handle : Nat
  limit : Nat
  held : Bytes
  tokens : List (BitVec 32)
  invalid : Nat
  deriving DecidableEq, Repr

/-- A sharded SEARCH on its way (R282, R283): index, k, result buffer and snapshot; the query; the shards that have not
answered, as shard, module asked and whether it is asked for the second time; the missing shards, the number that
answered, and the list so far. -/
structure ShardWait where
  index : Nat
  k : Nat
  buffer : Nat
  version : Nat
  side : Nat
  query : ShardQuery
  waitFor : List (Nat × Nat × Bool)
  missing : List Nat
  answered : Nat
  hits : List Hit
  deriving DecidableEq, Repr

/-- A candidate list whose ACCEPT is to come (R157, R161): the step number it carries, its drafts, the position of its
first block; `first`: the first pending position that its step computed; `late`: the order-4 wait has ended without it. -/
structure Await where
  step : Nat
  drafts : List Nat
  pos0 : Nat
  first : Nat
  late : Bool
  deriving DecidableEq, Repr

/-- A STEP in progress (R144, R153, R160, R174, R175, R258): its limits, K (0 full logits), depth, mask bitmap as first
position, span and bits, draft model slot, list and cog; the steps and drafts so far; the automaton of R259 as the
tokens since its last start or reset and the forced entry with its index; the list that waits. -/
structure StepRun where
  maxNew : Nat
  k : Nat
  depth : Nat
  mask : Option (Nat × Nat × Bytes)
  draft : Option Nat
  clist : Nat
  cog : Nat
  confirmed : Nat
  steps : Nat
  proposed : Nat
  kept : Nat
  h : List Nat
  force : Option (Nat × Nat)
  await : Option Await
  /-- In a STEP of a restored copy: the position at which the step to be redone starts; those before it whose rows the copy lacks
  are computed with it (R381, Table 16.1). -/
  start : Option Nat
  deriving DecidableEq, Repr

/-- A request (R52, R70, R72): header fields, entries taken in, progress, and what its records will say. -/
structure Req where
  ring : Nat
  kind : ReqKind
  reqId : Nat
  deadline : Nat
  epoch : Nat
  rflags : Nat
  acceptNs : Nat
  acceptIdx : Nat
  instrs : List Entry
  /-- Position of COMPLETE, once taken in. -/
  completeAt : Option Nat
  /-- No more entries join: the trailer has ended (R52). -/
  closed : Bool
  started : Bool
  phase : Phase
  pc : Nat
  wait : Wait
  /-- A cancel, teardown or MALFORMED end is owed at the next instruction boundary: its status (R52, R63, R336). -/
  owed : Option Nat
  /-- What the completion says instead, where an end owed stems from an entry: index, opcode and tag (R52, R330). -/
  endAs : Option (Nat × Nat × Nat)
  noTrailer : Bool
  /-- Sessions whose SCLOSE has cancelled it (R33). -/
  closedBy : List Nat
  status : Nat
  tag : Nat
  index : Nat
  opcode : Nat
  isTrailerFail : Bool
  result : Bytes
  /-- Session named, log lengths of R72, and what the provenance record collects (Table 3.8). -/
  named : Option Nat
  logCut : Option Nat
  logApp : Option Nat
  logConf : Option Nat
  steps : Nat
  /-- Tokens its STEPs confirmed, in log order, each with the session's handle (R255). -/
  confirmed : List (Nat × BitVec 32)
  seeds : List Nat
  /-- Cog of its most recent TOKIN (R244). -/
  cog : Option Nat
  modelDg : Option Bytes
  /-- Adapter version in force at its first step on each model slot (R169). -/
  versions : List (Nat × Bytes)
  /-- Model slots on which it has started a STEP or PREFILL (R342). -/
  ranOn : List Nat
  clistDg : Option Bytes
  ovlDg : Option Bytes
  /-- The digests that its provenance record takes from its session, held since the session was scrubbed (R72). -/
  provHeld : Option (List Bytes)
  draftDepth : Option Nat
  carry : Option Carry
  shards : Option ShardWait
  /-- The STEP of a restored copy, to be redone from its last boundary (R381). -/
  redo : Option StepRun
  deriving DecidableEq, Repr

end Machine

/-- An outbound MOVE of a session in a copy (R86, R375): destination, move number, destination handle, `dst_tandem`, whether
the commit record is written, and the request that waits. -/
structure CopyMove where
  dest : Nat
  moveId : Nat
  handle : Nat
  dstTandem : Bool
  committed : Bool
  rid : Option Nat
  deriving DecidableEq, Repr

/-- A session of a tandem copy or a checkpoint (Table 16.1, R388): its descriptor, log and scratch, and the digests of
the model, cog and list it names (R380); `image`: its WARM image in HBM is held; `move`: its
outbound move. -/
structure CopySession where
  gen : Nat
  tenant : Nat
  state : Nat
  depth : Nat
  warmTier : Nat
  modelSlot : Nat
  cls : Nat
  closing : Bool
  closeOrder : Nat
  vecItems : Nat
  prefixHandle : Nat
  prefixTokens : Nat
  lastActiveNs : Nat
  resumeHintNs : Nat
  hintDepth : Nat
  hintTier : Nat
  cog : Nat
  clist : Nat
  draftSlot : Nat
  maxContext : Nat
  parkCount : Nat
  reviveCount : Nat
  moveCount : Nat
  qStatus : Nat
  qSite : Nat
  openNs : Nat
  userTag : List (BitVec 8)
  log : List (BitVec 32)
  scratch : List (BitVec 8)
  modelDg : List (BitVec 8)
  cogDg : List (BitVec 8)
  draftDg : List (BitVec 8)
  listDg : List (BitVec 8)
  image : Bool
  move : Option CopyMove
  deriving DecidableEq, Repr

/-- A request of a tandem copy (Table 16.1): the request with its next instruction, its STEP and what its records will
say, and the slots of its ring taken in when it was copied. -/
structure CopyRequest where
  req : Machine.Req
  upto : Nat
  deriving DecidableEq, Repr

/-- A prefix record of a copy with its log copy. -/
structure CopyPrefix where
  tenant : Nat
  handle : Nat
  pstate : Nat
  modelSlot : Nat
  cls : Nat
  cap : Nat
  tokens : Nat
  log : List (BitVec 32)
  digest : List (BitVec 8)
  weights : List (BitVec 8)
  pinNs : Nat
  supplier : Nat
  deriving DecidableEq, Repr

/-- An index of a copy: configuration, published version and side records. -/
structure CopyIndex where
  cfg : BitVec 64
  shards : List Nat
  version : Nat
  slots : List VSlot
  entrySlots : List Nat
  side : List SideRec
  nextSeq : Nat
  deriving DecidableEq, Repr

/-- A tandem copy or the content of a checkpoint (Table 16.1): its core by session number, request, prefix record, sync
counter and index; `frames`: what the frames held cover, oldest received first, as session number, or 2^24 plus the
number of a prefix record, with rows and bytes. -/
structure TandemCopy where
  sessions : List (Nat × CopySession)
  requests : List (Nat × CopyRequest)
  prefixes : List (Nat × CopyPrefix)
  counters : List (Nat × Nat)
  indexes : List (Nat × CopyIndex)
  frames : List (Nat × Nat × Nat)
  deriving DecidableEq, Repr

/-- A delta of a tandem copy (R375, R376): what has changed since the last one, and the entries that are gone. `start`:
the first delta of a seeding, with the source's homing mode and DK version (R373); `final`: the final delta of a
HANDOVER (R384). -/
structure TandemDelta where
  start : Option (Bool × Nat)
  changed : TandemCopy
  goneSessions : List Nat
  goneRequests : List Nat
  gonePrefixes : List Nat
  goneIndexes : List Nat
  final : Bool
  deriving DecidableEq, Repr

/-- What a reader finds in a slot of a pool (R390): the manifest's magic and version, whether its signature verifies
under an AK of the reader's owner or the owner key, its sequence and DK version, whether every shard's digest matches,
and the content. -/
structure CkptFound where
  magicOk : Bool
  versionOk : Bool
  signatureOk : Bool
  seq : Nat
  dkVersion : Nat
  digestsOk : Bool
  content : TandemCopy
  deriving DecidableEq, Repr

/-- A shard of a checkpoint as its manifest lists it (Table 16.5). -/
structure ShardEntry where
  offset : Nat
  length : Nat
  kind : Nat
  digest : List (BitVec 8)
  deriving DecidableEq, Repr

/-- A slice under self-test (Table 16.6). -/
inductive Slice where
  | spoke (i : Nat)
  | lane (port lane : Nat)
  | hub (partition : Nat)
  | channel (c : Nat)
  deriving DecidableEq, Repr

/-- What the PMC reads at a sample (R417, R418): measured input and fixed power and the demand of each limited domain,
in W, and the means of the last 10 ms. -/
structure PowerSample where
  input : Nat
  fixed : Nat
  demandLinks : Nat
  demandMem : Nat
  demandCompute : Nat
  linksW : Nat
  memW : Nat
  computeW : Nat
  deriving DecidableEq, Repr

/-- An update of the energy counters (R424), in µJ: a step's energy with the positions of each request's ring, or an
amount charged to a tenant and a ring, or to no tenant. -/
inductive EnergyReport where
  | step (tenant energy : Nat) (rings : List (Nat × Nat))
  | work (tenant : Nat) (ring : Option Nat) (energy : Nat)
  | unattributed (energy : Nat)
  deriving DecidableEq, Repr

/-- What wakes the module from STANDBY (R431). -/
inductive WakeSource where
  | command (who : Caller)
  | tailLine (ring : BitVec 16)
  deriving DecidableEq, Repr

/-- How power is lost (R435, Table 19.12). -/
inductive LossCause where
  | inputLow
  | overvoltage
  | rail (index : Nat)
  | vio
  deriving DecidableEq, Repr

/-- The straps sampled at order 7 of Table 19.5 (R443). -/
structure Straps where
  traySlot : BitVec 6
  bootSel : Bool
  deriving DecidableEq, Repr

/-- What the checks of the boot find (R357, Table 15.3): for components 0 to 2, whether the image in slot A and in
slot B is accepted; the Spokes whose boot BIST fails (R394). -/
structure BootOutcome where
  slotAOk : List Bool
  slotBOk : List Bool
  failedSpokes : List Nat
  deriving DecidableEq, Repr

/-- Instructions of the IEEE 1149.1 port named in Table 15.5. -/
inductive JtagInstr where
  | idcode
  | bypass
  | sample
  | extest
  | coreHalt (core : Nat)
  | coreRegs (core : Nat)
  deriving DecidableEq, Repr

/-- The commands of the block: one constructor per row of spec/opcode_table.json. -/
inductive Instr where
  /-- SOPEN (R32). -/
  | sopen (rid : Nat)
  /-- SCLOSE (R33). -/
  | sclose (rid : Nat)
  /-- PARK (R82). -/
  | park (rid : Nat)
  /-- REVIVE (R83). -/
  | revive (rid : Nat)
  /-- MOVE (R86). -/
  | move (rid : Nat)
  /-- DEPTH (R76). -/
  | depth (rid : Nat)
  /-- DEPTH_HINT (R76). -/
  | depthHint (rid : Nat)
  /-- PFXPIN (R128). -/
  | pfxpin (rid : Nat)
  /-- PFXFORK (R129). -/
  | pfxfork (rid : Nat)
  /-- PFXDROP (R130). -/
  | pfxdrop (rid : Nat)
  /-- MLOAD_MODEL (R340). -/
  | mloadModel (rid : Nat)
  /-- MLOAD_COG (R241). -/
  | mloadCog (rid : Nat)
  /-- MLOAD_LIST (R257). -/
  | mloadList (rid : Nat)
  /-- MUNLOAD_MODEL (R342). -/
  | munloadModel (rid : Nat)
  /-- MUNLOAD_COG (R243). -/
  | munloadCog (rid : Nat)
  /-- MUNLOAD_LIST (R243). -/
  | munloadList (rid : Nat)
  /-- TOKIN_NATIVE (R246). -/
  | tokinNative (rid : Nat)
  /-- TOKIN_BYTE (R249). -/
  | tokinByte (rid : Nat)
  /-- TOKIN_IDS (R250). -/
  | tokinIds (rid : Nat)
  /-- TOKOUT (R255). -/
  | tokout (rid : Nat)
  /-- CONSTRAIN (R258). -/
  | constrain (rid : Nat)
  /-- STEP (R144). -/
  | step (rid : Nat)
  /-- DRAFT (R173). -/
  | draft (rid : Nat)
  /-- ACCEPT (R64). -/
  | accept (ring : BitVec 16) (lo hi : BitVec 64)
  /-- PREFILL (R140). -/
  | prefill (rid : Nat)
  /-- SEARCH_FLAT (R277). -/
  | searchFlat (rid : Nat)
  /-- SEARCH_GRAPH (R278). -/
  | searchGraph (rid : Nat)
  /-- SEARCH_SHARDED (R282). -/
  | searchSharded (rid : Nat)
  /-- VINSERT (R267). -/
  | vinsert (rid : Nat)
  /-- VDELETE (R268). -/
  | vdelete (rid : Nat)
  /-- VMERGE (R280). -/
  | vmerge (rid : Nat)
  /-- SWAIT (R414). -/
  | swait (rid : Nat)
  /-- SSIGNAL (R413). -/
  | ssignal (rid : Nat)
  /-- FENCE (R60). -/
  | fence (rid : Nat)
  /-- CADENCE (R422). -/
  | cadence (rid : Nat)
  /-- OVERLAY (R350). -/
  | overlay (rid : Nat)
  /-- CKPT (R386). -/
  | ckpt (rid : Nat)
  /-- TANDEM (R373). -/
  | tandem (rid : Nat)
  /-- TANDEM_RELEASE (R373). -/
  | tandemRelease (rid : Nat)
  /-- COMPLETE (R62). -/
  | complete (rid : Nat)
  /-- ADD (R213). -/
  | add (spk : Nat) (w : BitVec 64)
  /-- ADDI (R213). -/
  | addi (spk : Nat) (w : BitVec 64)
  /-- SUB (R213). -/
  | sub (spk : Nat) (w : BitVec 64)
  /-- MUL (R213). -/
  | mul (spk : Nat) (w : BitVec 64)
  /-- AND (R213). -/
  | sand (spk : Nat) (w : BitVec 64)
  /-- OR (R213). -/
  | sor (spk : Nat) (w : BitVec 64)
  /-- XOR (R213). -/
  | sxor (spk : Nat) (w : BitVec 64)
  /-- SHL (R213). -/
  | shl (spk : Nat) (w : BitVec 64)
  /-- SHR (R213). -/
  | shr (spk : Nat) (w : BitVec 64)
  /-- SAR (R213). -/
  | sar (spk : Nat) (w : BitVec 64)
  /-- LUI (R213). -/
  | lui (spk : Nat) (w : BitVec 64)
  /-- LD (R213). -/
  | ld (spk : Nat) (w : BitVec 64)
  /-- ST (R213). -/
  | st (spk : Nat) (w : BitVec 64)
  /-- BEQ (R213). -/
  | beq (spk : Nat) (w : BitVec 64)
  /-- BNE (R213). -/
  | bne (spk : Nat) (w : BitVec 64)
  /-- BLT (R213). -/
  | blt (spk : Nat) (w : BitVec 64)
  /-- BGE (R213). -/
  | bge (spk : Nat) (w : BitVec 64)
  /-- JMP (R213). -/
  | jmp (spk : Nat) (w : BitVec 64)
  /-- MFS (R211). -/
  | mfs (spk : Nat) (w : BitVec 64)
  /-- VADD (R214). -/
  | vadd (spk : Nat) (w : BitVec 64)
  /-- VSUB (R214). -/
  | vsub (spk : Nat) (w : BitVec 64)
  /-- VMUL (R214). -/
  | vmul (spk : Nat) (w : BitVec 64)
  /-- VDIV (R214). -/
  | vdiv (spk : Nat) (w : BitVec 64)
  /-- VSQRT (R214). -/
  | vsqrt (spk : Nat) (w : BitVec 64)
  /-- VFMA (R214). -/
  | vfma (spk : Nat) (w : BitVec 64)
  /-- VRCP (R214). -/
  | vrcp (spk : Nat) (w : BitVec 64)
  /-- VRSQ (R214). -/
  | vrsq (spk : Nat) (w : BitVec 64)
  /-- VEXP2 (R214). -/
  | vexp2 (spk : Nat) (w : BitVec 64)
  /-- VLOG2 (R214). -/
  | vlog2 (spk : Nat) (w : BitVec 64)
  /-- VEXP (R214). -/
  | vexp (spk : Nat) (w : BitVec 64)
  /-- VMIN (R214). -/
  | vmin (spk : Nat) (w : BitVec 64)
  /-- VMAX (R214). -/
  | vmax (spk : Nat) (w : BitVec 64)
  /-- VCMP (R214). -/
  | vcmp (spk : Nat) (w : BitVec 64)
  /-- VSEL (R214). -/
  | vsel (spk : Nat) (w : BitVec 64)
  /-- VIADD (R214). -/
  | viadd (spk : Nat) (w : BitVec 64)
  /-- VISUB (R214). -/
  | visub (spk : Nat) (w : BitVec 64)
  /-- VIMUL (R214). -/
  | vimul (spk : Nat) (w : BitVec 64)
  /-- VAND (R214). -/
  | vand (spk : Nat) (w : BitVec 64)
  /-- VOR (R214). -/
  | vor (spk : Nat) (w : BitVec 64)
  /-- VXOR (R214). -/
  | vxor (spk : Nat) (w : BitVec 64)
  /-- VSHL (R214). -/
  | vshl (spk : Nat) (w : BitVec 64)
  /-- VSHR (R214). -/
  | vshr (spk : Nat) (w : BitVec 64)
  /-- VPOP (R214). -/
  | vpop (spk : Nat) (w : BitVec 64)
  /-- VRED (R206). -/
  | vred (spk : Nat) (w : BitVec 64)
  /-- VLD (R215). -/
  | vld (spk : Nat) (w : BitVec 64)
  /-- VST (R215). -/
  | vst (spk : Nat) (w : BitVec 64)
  /-- VCVT (R215). -/
  | vcvt (spk : Nat) (w : BitVec 64)
  /-- VACR (R214). -/
  | vacr (spk : Nat) (w : BitVec 64)
  /-- VACW (R214). -/
  | vacw (spk : Nat) (w : BitVec 64)
  /-- VBCAST (R214). -/
  | vbcast (spk : Nat) (w : BitVec 64)
  /-- VIDX (R214). -/
  | vidx (spk : Nat) (w : BitVec 64)
  /-- MMA (R201). -/
  | mma (spk : Nat) (w : BitVec 64)
  /-- CPIN (R219). -/
  | cpin (spk : Nat) (w : BitVec 64)
  /-- CPOUT (R219). -/
  | cpout (spk : Nat) (w : BitVec 64)
  /-- CPLS (R219). -/
  | cpls (spk : Nat) (w : BitVec 64)
  /-- CPPEER (R219). -/
  | cppeer (spk : Nat) (w : BitVec 64)
  /-- COPY_COMPLETE (R221). -/
  | copyComplete (spk copy : Nat)
  /-- COPY_TIMEOUT (R226). -/
  | copyTimeout (spk copy : Nat)
  /-- COPY_ERR (R230). -/
  | copyErr (spk copy : Nat)
  /-- SCSIG (R223). -/
  | scsig (spk : Nat) (w : BitVec 64)
  /-- CFENCE (R223). -/
  | cfence (spk : Nat) (w : BitVec 64)
  /-- TBEGIN (R224). -/
  | tbegin (spk : Nat) (w : BitVec 64)
  /-- TEND (R225). -/
  | tend (spk : Nat) (w : BitVec 64)
  /-- TILE_OVERRUN (R226). -/
  | tileOverrun (spk : Nat)
  /-- CONTEXT_SWAP_DONE (R227). -/
  | contextSwapDone (spk : Nat)
  /-- TILE_START (R149). -/
  | tileStart (place spk : Nat) (tile : TileDesc)
  /-- ACCEPT_WAIT_END (R161). -/
  | acceptWaitEnd (place : Nat) (tiles : Nat)
  /-- PELOTON_PLACE_GRANT (R136). -/
  | pelotonPlaceGrant (place : Nat) (tiles : Nat)
  /-- PREEMPT_COMPLETE (R346). -/
  | preemptComplete (place : Nat)
  /-- RING_ENABLE (R47). -/
  | ringEnable (who : Caller) (val : BitVec 64)
  /-- RING_DISABLE (R74). -/
  | ringDisable (who : Caller) (val : BitVec 64)
  /-- RING_DRAINED (R74). -/
  | ringDrained (ring : BitVec 16)
  /-- CANCEL_GO (R63). -/
  | cancelGo (who : Caller) (val : BitVec 64)
  /-- TAIL_LINE_INVALIDATE (R19). -/
  | tailLineInvalidate (ring : BitVec 16)
  /-- RING_SERVICE (R50). -/
  | ringService (ring : BitVec 16)
  /-- DUPLICATE_REPLAY (R66). -/
  | duplicateReplay (rid : Nat)
  /-- CQ_SPACE_REREAD (R71). -/
  | cqSpaceReread (rid : Nat)
  /-- TRAILER (R58). -/
  | trailer (rid : Nat)
  /-- TIME_LINE_UPDATE (R15). -/
  | timeLineUpdate
  /-- TIMELINE_STALE_COUNT (R16). -/
  | timelineStaleCount
  /-- TIMELINE_ENABLE (R16). -/
  | timelineEnable (who : Caller) (val : BitVec 64)
  /-- TIMELINE_DISABLE (R16). -/
  | timelineDisable (who : Caller) (val : BitVec 64)
  /-- DESC_SELECT (R43). -/
  | descSelect (who : Caller) (val : BitVec 64)
  /-- PFX_SELECT (R134). -/
  | pfxSelect (who : Caller) (val : BitVec 64)
  /-- HOT_IDLE_EXPIRY (R35). -/
  | hotIdleExpiry (sid : Nat)
  /-- WARM_IDLE_EXPIRY (R35). -/
  | warmIdleExpiry (sid : Nat)
  /-- SPEC_REVIVE_START (R95). -/
  | specReviveStart (sid : Nat)
  /-- SHADOW_HOLD_EXPIRY (R96). -/
  | shadowHoldExpiry (sid : Nat)
  /-- MOTION_COMPLETE (R75). -/
  | motionComplete (sid : Nat)
  /-- TIER_LATE (R92). -/
  | tierLate (sid : Nat)
  /-- TIER_TIMEOUT (R94). -/
  | tierTimeout (sid : Nat) (read : Bool)
  /-- TIER_ERROR (R94). -/
  | tierError (sid : Nat) (read : Bool)
  /-- MOVE_OFFER (R86). -/
  | moveOffer (src : BitVec 8) (hdr : List (BitVec 8))
  /-- MOVE_SECTION (R86). -/
  | moveSection (moveId : BitVec 64) (bytes : List (BitVec 8))
  /-- MOVE_TRAILER (R87). -/
  | moveTrailer (moveId : BitVec 64) (bytes : List (BitVec 8)) (wrapOk : Bool)
  /-- MOVE_READY (R86). -/
  | moveReady (sid : Nat) (handle : BitVec 48) (dstTandem : Bool)
  /-- MOVE_COMMIT (R86). -/
  | moveCommit (moveId : BitVec 64)
  /-- MOVE_DONE (R86). -/
  | moveDone (sid : Nat)
  /-- POOL_TIMEOUT (R88). -/
  | poolTimeout (sid : Nat)
  /-- REG_WRITE (R6). -/
  | regWrite (who : Caller) (addr : BitVec 32) (val : BitVec 64)
  /-- HOMING_WRITE (R81). -/
  | homingWrite (who : Caller) (val : BitVec 64)
  /-- SHAPER_CONFIG (R331). -/
  | shaperConfig (who : Caller) (val : BitVec 64)
  /-- SHAPER_ADMIT (R328). -/
  | shaperAdmit (kind : BitVec 2) (index : BitVec 16) (refill : Nat)
  /-- HWIN_CONFIG (R298). -/
  | hwinConfig (who : Caller) (val : BitVec 64)
  /-- KEY_ROTATE (R304). -/
  | keyRotate (who : Caller)
  /-- ROTATE_PASS_END (R304). -/
  | rotatePassEnd (tenant : BitVec 12)
  /-- RESERIAL (R306). -/
  | reserial (who : Caller)
  /-- PATROL (R295). -/
  | patrol (addr : BitVec 39) (finding : EccFinding)
  /-- CE_HOUR_WINDOW (R296). -/
  | ceHourWindow
  /-- INDEX_CREATE (R264). -/
  | indexCreate (who : Caller)
  /-- INDEX_DESTROY (R285). -/
  | indexDestroy (who : Caller)
  /-- MERGE_COMPLETE (R281). -/
  | mergeComplete (index : BitVec 10)
  /-- SHARD_QUERY (R282). -/
  | shardQuery (src : BitVec 8) (q : ShardQuery)
  /-- SHARD_ANSWER (R282). -/
  | shardAnswer (rid : Nat) (src : BitVec 8) (ans : ShardAnswer)
  /-- SHARD_TIMEOUT (R283). -/
  | shardTimeout (rid : Nat)
  /-- NBR_TIER_ACCESS (R302). -/
  | nbrTierAccess (src : BitVec 8) (acc : NbrAccess)
  /-- LEND_STREAM (R327). -/
  | lendStream (range : BitVec 6) (blocks : Nat)
  /-- DONOR_SCRUB (R370). -/
  | donorScrub (src : BitVec 8) (ranges : List Nat)
  /-- MAP_FORM (R319). -/
  | mapForm (who : Caller)
  /-- MAP_PROPOSE (R322). -/
  | mapPropose (who : Caller)
  /-- MAP_CLEAR (R322). -/
  | mapClear (who : Caller)
  /-- MAP_PREPARE (R322). -/
  | mapPrepare (src : BitVec 8) (p : Proposal)
  /-- MAP_ACK (R322). -/
  | mapAck (src : BitVec 8) (epoch : BitVec 32) (ack : Bool)
  /-- MAP_PREP_TIMEOUT (R322). -/
  | mapPrepTimeout
  /-- MAP_COMMIT (R322). -/
  | mapCommit (src : BitVec 8) (epoch : BitVec 32)
  /-- MAP_ABORT (R322). -/
  | mapAbort (src : BitVec 8) (epoch : BitVec 32)
  /-- RANGE_DRAINED (R326). -/
  | rangeDrained
  /-- MAP_HANDOVER (R326). -/
  | mapHandover (src : BitVec 8) (base2m : BitVec 43)
  /-- HEARTBEAT (R318). -/
  | heartbeat
  /-- PEER_UNREACHABLE (R318). -/
  | peerUnreachable (peer : BitVec 8)
  /-- PORT_ENABLE (R313). -/
  | portEnable (who : Caller) (stoty : Bool) (val : BitVec 64)
  /-- PORT_RETRAIN (R313). -/
  | portRetrain (who : Caller) (stoty : Bool) (val : BitVec 64)
  /-- TRAINING_STAGE_DONE (R313). -/
  | trainingStageDone (port : Nat) (lanesLocked : BitVec 9)
  /-- CAPABILITY_BLOCK (R314). -/
  | capabilityBlock (port : Nat) (block : List (BitVec 8))
  /-- LINK_HANDSHAKE (R362). -/
  | linkHandshake (port : Nat) (peer : PeerCert)
  /-- LINK_UP (R313). -/
  | linkUp (port : Nat)
  /-- TRAINING_RETRY (R313). -/
  | trainingRetry (port : Nat)
  /-- FLIT_RECEIVE (R311). -/
  | flitReceive (port : Nat) (flit : FlitInfo)
  /-- LANE_SWAP_DONE (R312). -/
  | laneSwapDone (port : Nat)
  /-- FALOLO_SNOOP (R315): the companion takes a line for itself and writes bytes of it from this address on (none: it only
  takes it). -/
  | faloloSnoop (lineAddr : BitVec 52) (bytes : List (BitVec 8))
  /-- STOTY_MESSAGE (R317). -/
  | stotyMessage (src : BitVec 8) (cls : BitVec 3) (stream seq : Nat) (payload : List (BitVec 8))
  /-- TANDEM_DELTA (R376). -/
  | tandemDelta (src : BitVec 8) (number : BitVec 32) (delta : TandemDelta)
  /-- TANDEM_ACK (R377). -/
  | tandemAck (src : BitVec 8) (number : BitVec 32) (copyValid : Bool)
  /-- CKPT_COMPLETE (R389): every pool write has succeeded, or one has failed after the first `shards` shards were visible. -/
  | ckptComplete (ok : Bool) (shards : Nat)
  /-- TDM_RESTORE (R380). -/
  | tdmRestore (who : Caller) (val : BitVec 64) (found : Option TandemCopy)
  /-- TDM_FOLLOW (R384). -/
  | tdmFollow (who : Caller) (val : BitVec 64)
  /-- TDM_CK_RESTORE (R391). -/
  | tdmCkRestore (who : Caller) (val : BitVec 64) (slots : List CkptFound)
  /-- TDM_RESTORE_ONE (R385). -/
  | tdmRestoreOne (who : Caller) (val : BitVec 64) (slots : List CkptFound)
  /-- TDM_CKPT (R386). -/
  | tdmCkpt (who : Caller) (val : BitVec 64)
  /-- TDM_RELEASE (R378). -/
  | tdmRelease (who : Caller) (val : BitVec 64)
  /-- RESTORE_COMPLETE (R380). -/
  | restoreComplete (badUnits : List (Nat × Nat))
  /-- SPOKE_TEST_ROTATE (R393). -/
  | spokeTestRotate (wheel : BitVec 2)
  /-- LANE_TEST_ROTATE (R393). -/
  | laneTestRotate (port lane : Nat)
  /-- HUB_TEST_ROTATE (R393). -/
  | hubTestRotate (partition : Nat)
  /-- CHANNEL_TEST_ROTATE (R393). -/
  | channelTestRotate (channel : BitVec 8)
  /-- BIST_COMPLETE (R394). -/
  | bistComplete (slice : Slice) (pass patched : Bool)
  /-- BIST_OVERDUE (R395). -/
  | bistOverdue (spk : Nat)
  /-- FUSE_COMMIT (R397). -/
  | fuseCommit (who : Caller)
  /-- TEST_NOW (R395). -/
  | testNow (who : Caller)
  /-- TENANT_ACTIVATE (R334). -/
  | tenantActivate (who : Caller)
  /-- TENANT_RESTART (R334). -/
  | tenantRestart (who : Caller)
  /-- TENANT_AUTO_RESTART (R334). -/
  | tenantAutoRestart (tenant : BitVec 12)
  /-- TENANT_RESET (R338). -/
  | tenantReset (who : Caller)
  /-- SCRUB_COMPLETE (R370). -/
  | scrubComplete (tenant : BitVec 12)
  /-- OVERLAY_APPLY (R148). -/
  | overlayApply
  /-- RTP_STAGE (R359). -/
  | rtpStage (who : Caller) (val : BitVec 64)
  /-- RTP_ACTIVATE (R359). -/
  | rtpActivate (who : Caller) (val : BitVec 64)
  /-- RTP_RATCHET (R358). -/
  | rtpRatchet (who : Caller) (val : BitVec 64)
  /-- CLAIM (R360). -/
  | claim (who : Caller) (val : BitVec 64)
  /-- SET_OVL_KEY (R360). -/
  | setOvlKey (who : Caller) (val : BitVec 64)
  /-- CONF_OPEN (R360). -/
  | confOpen (who : Caller) (val : BitVec 64)
  /-- RELEASE (R360). -/
  | ownerRelease (who : Caller) (val : BitVec 64)
  /-- DEBUG_UNLOCK (R360). -/
  | debugUnlock (who : Caller) (val : BitVec 64)
  /-- DK_EXPORT (R360). -/
  | dkExport (who : Caller) (val : BitVec 64)
  /-- DK_IMPORT (R360). -/
  | dkImport (who : Caller) (val : BitVec 64)
  /-- TENANT_KEY (R370). -/
  | tenantKey (who : Caller) (val : BitVec 64)
  /-- DK_ROTATE (R356). -/
  | dkRotate (who : Caller) (val : BitVec 64)
  /-- REPORT_REQUEST (R363). -/
  | reportRequest (who : Caller) (val : BitVec 64)
  /-- SEAL (R365). -/
  | sealBatch (who : Caller) (val : BitVec 64)
  /-- RTP_OP_COMPLETE (R364). -/
  | rtpOpComplete
  /-- FW_SWAP_SWITCH (R398). -/
  | fwSwapSwitch
  /-- FW_SWAP_ACCEPT (R398). -/
  | fwSwapAccept
  /-- FW_SWAP_TIMEOUT (R398). -/
  | fwSwapTimeout
  /-- INT_CLAIM (R404). -/
  | intClaim (target : BitVec 4)
  /-- INT_EOI (R405). -/
  | intEoi (target : BitVec 4) (val : BitVec 64)
  /-- INT_SRC_CONFIG (R401). -/
  | intSrcConfig (source : BitVec 11) (val : BitVec 64)
  /-- INT_SOFT (R400). -/
  | intSoft (val : BitVec 64)
  /-- WATCH_ARM (R414). -/
  | watchArm (slot : BitVec 8) (val : BitVec 64)
  /-- SYNC_CNT_WRITE (R413). -/
  | syncCntWrite (counter : BitVec 16) (val : BitVec 64)
  /-- SYNC_OWN_WRITE (R412). -/
  | syncOwnWrite (word : BitVec 10) (val : BitVec 64)
  /-- PMC_SAMPLE (R418). -/
  | pmcSample (m : PowerSample)
  /-- ENERGY_UPDATE (R424). -/
  | energyUpdate (e : EnergyReport)
  /-- CADENCE_WINDOW_START (R423). -/
  | cadenceWindowStart (hint : Nat)
  /-- CADENCE_WINDOW_END (R422). -/
  | cadenceWindowEnd (hint : Nat)
  /-- THROTTLE_SET (R426). -/
  | throttleSet (sensor : Nat) (temp : BitVec 11)
  /-- THROTTLE_STEP_DOWN (R426). -/
  | throttleStepDown (site : Nat)
  /-- THROTTLE_STEP_UP (R426). -/
  | throttleStepUp (site : Nat)
  /-- SENSOR_TRIP (R427). -/
  | sensorTrip (sensor : Nat) (temp : BitVec 11)
  /-- THERM_TRIP_N_LOW (R428). -/
  | thermTripNLow
  /-- COOLANT_OK_FALL (R428). -/
  | coolantOkFall
  /-- BRAKED_ENTER (R428). -/
  | brakedEnter
  /-- UNBRAKE (R430). -/
  | unbrake (who : Caller)
  /-- LEAVE_COMPLETE (R430). -/
  | leaveComplete
  /-- STANDBY (R431). -/
  | standby (who : Caller)
  /-- WAKE (R431). -/
  | wake (src : WakeSource)
  /-- VIN_APPLY (R438). -/
  | vinApply (mv : BitVec 16)
  /-- PWR_EN_RISE (R438). -/
  | pwrEnRise
  /-- RAIL_STAGE_DONE (R438). -/
  | railStageDone
  /-- PWR_EN_FALL (R440). -/
  | pwrEnFall
  /-- POWER_LOSS (R435). -/
  | powerLoss (cause : LossCause)
  /-- MOD_RESET_N_FALL (R442). -/
  | modResetNFall
  /-- RESET_RELEASE (R443). -/
  | resetRelease (straps : Straps)
  /-- BOOT_COMPLETE (R357). -/
  | bootComplete (b : BootOutcome)
  /-- REFCLK_CHANGE (R453). -/
  | refclkChange (group : BitVec 2) (ok : Bool)
  /-- I3C_ADDRESS_ASSIGN (R444). -/
  | i3cAddressAssign (addr : BitVec 7)
  /-- READ (R445). -/
  | busRead (addr : BitVec 32)
  /-- WRITE (R445). -/
  | busWrite (addr : BitVec 32) (val : BitVec 64)
  /-- REC_DATA (R446). -/
  | recData (offset : BitVec 32) (bytes : List (BitVec 8))
  /-- REC_COMMIT (R446). -/
  | recCommit (length : BitVec 32)
  /-- JTAG_INSTRUCTION (R449). -/
  | jtagInstruction (ir : JtagInstr)
  /-- SESSION_SCRUB_DONE (R32). -/
  | sessionScrubDone (sid : Nat)
  /-- INDEX_DESTROY_DONE (R285). -/
  | indexDestroyDone (index : BitVec 10)
  /-- COOLANT_OK_RISE (R430). -/
  | coolantOkRise
  /-- THERM_TRIP_N_RISE (R448). -/
  | thermTripNRise
  /-- SENSOR_BELOW_THROTTLE (R427). -/
  | sensorBelowThrottle (sensor : Nat) (temp : BitVec 11)
  /-- LOSS_OF_WIDTH (R312). -/
  | lossOfWidth (port : Nat) (lanesGood : BitVec 9)
  /-- FW_SWAP_LOAD_DONE (R398). -/
  | fwSwapLoadDone
  /-- RAIL_WARN (R448). -/
  | railWarn (rail : BitVec 4) (warn : Bool) (mv : BitVec 16)
  /-- SUPPLY_DROOP (R419). -/
  | supplyDroop (spk : Nat)
  /-- OVERVOLTAGE_RESTART (R433). -/
  | overvoltageRestart (mv : BitVec 16)
  /-- TEST_LOGIC_RESET (R449). -/
  | testLogicReset
  deriving DecidableEq, Repr

end Sys2Proof
end

