-- ==== Sys2Proof/WellFormed.lean ====
section
/-! DEFINITION. The checks on a command: the unit it names is one the module has (R2, R187, R311, R393, R425). -/

namespace Sys2Proof

/-- Number of Spokes (R2, R187). -/
def numSpokes : Nat := 272

/-- Number of link ports (R2, R311). -/
def numPorts : Nat := 18

/-- Number of resident peloton places (R2, R136). -/
def numPlaces : Nat := 8

/-- Number of temperature sensors (Table 18.3). -/
def numSensors : Nat := 60

/-- Lanes of a port, the spare among them (R311). -/
def numLanes : Nat := 9

/-- Hub SRAM partitions and cores under test (Table 16.6). -/
def numHubParts : Nat := 25

/-- Number of session slots (R24). -/
def numSlots : Nat := 2 ^ 24

/-- A slice under self-test is one the module has (Table 16.6). -/
def Slice.wf : Slice → Bool
  | .spoke i => decide (i < numSpokes)
  | .lane p l => decide (p < numPorts) && decide (l < numLanes)
  | .hub n => decide (n < numHubParts)
  | .channel c => decide (c < 256)

/-- The unit that a command names, as the check of WellFormed.lean reads it. -/
inductive UnitRef where
  | none
  | spoke (i : Nat)
  | port (p : Nat)
  | lane (p l : Nat)
  | place (p : Nat)
  | placeSpoke (p i : Nat)
  | sensor (n : Nat)
  | hub (n : Nat)
  | slot (n : Nat)
  | slice (x : Slice)
  deriving DecidableEq, Repr

/-- The unit is one the module has. -/
def UnitRef.wf : UnitRef → Bool
  | .none => true
  | .spoke i => decide (i < numSpokes)
  | .port p => decide (p < numPorts)
  | .lane p l => decide (p < numPorts) && decide (l < numLanes)
  | .place p => decide (p < numPlaces)
  | .placeSpoke p i => decide (p < numPlaces) && decide (i < numSpokes)
  | .sensor n => decide (n < numSensors)
  | .hub n => decide (n < numHubParts)
  | .slot n => decide (n < numSlots)
  | .slice x => x.wf

/-- The unit each command names. -/
def Instr.unit : Instr → UnitRef
  | .sopen _ => .none
  | .sclose _ => .none
  | .park _ => .none
  | .revive _ => .none
  | .move _ => .none
  | .depth _ => .none
  | .depthHint _ => .none
  | .pfxpin _ => .none
  | .pfxfork _ => .none
  | .pfxdrop _ => .none
  | .mloadModel _ => .none
  | .mloadCog _ => .none
  | .mloadList _ => .none
  | .munloadModel _ => .none
  | .munloadCog _ => .none
  | .munloadList _ => .none
  | .tokinNative _ => .none
  | .tokinByte _ => .none
  | .tokinIds _ => .none
  | .tokout _ => .none
  | .constrain _ => .none
  | .step _ => .none
  | .draft _ => .none
  | .accept _ _ _ => .none
  | .prefill _ => .none
  | .searchFlat _ => .none
  | .searchGraph _ => .none
  | .searchSharded _ => .none
  | .vinsert _ => .none
  | .vdelete _ => .none
  | .vmerge _ => .none
  | .swait _ => .none
  | .ssignal _ => .none
  | .fence _ => .none
  | .cadence _ => .none
  | .overlay _ => .none
  | .ckpt _ => .none
  | .tandem _ => .none
  | .tandemRelease _ => .none
  | .complete _ => .none
  | .add spk _ => .spoke spk
  | .addi spk _ => .spoke spk
  | .sub spk _ => .spoke spk
  | .mul spk _ => .spoke spk
  | .sand spk _ => .spoke spk
  | .sor spk _ => .spoke spk
  | .sxor spk _ => .spoke spk
  | .shl spk _ => .spoke spk
  | .shr spk _ => .spoke spk
  | .sar spk _ => .spoke spk
  | .lui spk _ => .spoke spk
  | .ld spk _ => .spoke spk
  | .st spk _ => .spoke spk
  | .beq spk _ => .spoke spk
  | .bne spk _ => .spoke spk
  | .blt spk _ => .spoke spk
  | .bge spk _ => .spoke spk
  | .jmp spk _ => .spoke spk
  | .mfs spk _ => .spoke spk
  | .vadd spk _ => .spoke spk
  | .vsub spk _ => .spoke spk
  | .vmul spk _ => .spoke spk
  | .vdiv spk _ => .spoke spk
  | .vsqrt spk _ => .spoke spk
  | .vfma spk _ => .spoke spk
  | .vrcp spk _ => .spoke spk
  | .vrsq spk _ => .spoke spk
  | .vexp2 spk _ => .spoke spk
  | .vlog2 spk _ => .spoke spk
  | .vexp spk _ => .spoke spk
  | .vmin spk _ => .spoke spk
  | .vmax spk _ => .spoke spk
  | .vcmp spk _ => .spoke spk
  | .vsel spk _ => .spoke spk
  | .viadd spk _ => .spoke spk
  | .visub spk _ => .spoke spk
  | .vimul spk _ => .spoke spk
  | .vand spk _ => .spoke spk
  | .vor spk _ => .spoke spk
  | .vxor spk _ => .spoke spk
  | .vshl spk _ => .spoke spk
  | .vshr spk _ => .spoke spk
  | .vpop spk _ => .spoke spk
  | .vred spk _ => .spoke spk
  | .vld spk _ => .spoke spk
  | .vst spk _ => .spoke spk
  | .vcvt spk _ => .spoke spk
  | .vacr spk _ => .spoke spk
  | .vacw spk _ => .spoke spk
  | .vbcast spk _ => .spoke spk
  | .vidx spk _ => .spoke spk
  | .mma spk _ => .spoke spk
  | .cpin spk _ => .spoke spk
  | .cpout spk _ => .spoke spk
  | .cpls spk _ => .spoke spk
  | .cppeer spk _ => .spoke spk
  | .copyComplete spk _ => .spoke spk
  | .copyTimeout spk _ => .spoke spk
  | .copyErr spk _ => .spoke spk
  | .scsig spk _ => .spoke spk
  | .cfence spk _ => .spoke spk
  | .tbegin spk _ => .spoke spk
  | .tend spk _ => .spoke spk
  | .tileOverrun spk => .spoke spk
  | .contextSwapDone spk => .spoke spk
  | .tileStart place spk _ => .placeSpoke place spk
  | .acceptWaitEnd place _ => .place place
  | .pelotonPlaceGrant place _ => .place place
  | .preemptComplete place => .place place
  | .ringEnable _ _ => .none
  | .ringDisable _ _ => .none
  | .ringDrained _ => .none
  | .cancelGo _ _ => .none
  | .tailLineInvalidate _ => .none
  | .ringService _ => .none
  | .duplicateReplay _ => .none
  | .cqSpaceReread _ => .none
  | .trailer _ => .none
  | .timeLineUpdate => .none
  | .timelineStaleCount => .none
  | .timelineEnable _ _ => .none
  | .timelineDisable _ _ => .none
  | .descSelect _ _ => .none
  | .pfxSelect _ _ => .none
  | .hotIdleExpiry sid => .slot sid
  | .warmIdleExpiry sid => .slot sid
  | .specReviveStart sid => .slot sid
  | .shadowHoldExpiry sid => .slot sid
  | .motionComplete sid => .slot sid
  | .tierLate sid => .slot sid
  | .tierTimeout sid _ => .slot sid
  | .tierError sid _ => .slot sid
  | .moveOffer _ _ => .none
  | .moveSection _ _ => .none
  | .moveTrailer _ _ _ => .none
  | .moveReady sid _ _ => .slot sid
  | .moveCommit _ => .none
  | .moveDone sid => .slot sid
  | .poolTimeout sid => .slot sid
  | .regWrite _ _ _ => .none
  | .homingWrite _ _ => .none
  | .shaperConfig _ _ => .none
  | .shaperAdmit _ _ _ => .none
  | .hwinConfig _ _ => .none
  | .keyRotate _ => .none
  | .rotatePassEnd _ => .none
  | .reserial _ => .none
  | .patrol _ _ => .none
  | .ceHourWindow => .none
  | .indexCreate _ => .none
  | .indexDestroy _ => .none
  | .mergeComplete _ => .none
  | .shardQuery _ _ => .none
  | .shardAnswer _ _ _ => .none
  | .shardTimeout _ => .none
  | .nbrTierAccess _ _ => .none
  | .lendStream _ _ => .none
  | .donorScrub _ _ => .none
  | .mapForm _ => .none
  | .mapPropose _ => .none
  | .mapClear _ => .none
  | .mapPrepare _ _ => .none
  | .mapAck _ _ _ => .none
  | .mapPrepTimeout => .none
  | .mapCommit _ _ => .none
  | .mapAbort _ _ => .none
  | .rangeDrained => .none
  | .mapHandover _ _ => .none
  | .heartbeat => .none
  | .peerUnreachable _ => .none
  | .portEnable _ _ _ => .none
  | .portRetrain _ _ _ => .none
  | .trainingStageDone port _ => .port port
  | .capabilityBlock port _ => .port port
  | .linkHandshake port _ => .port port
  | .linkUp port => .port port
  | .trainingRetry port => .port port
  | .flitReceive port _ => .port port
  | .laneSwapDone port => .port port
  | .faloloSnoop _ _ => .none
  | .stotyMessage _ _ _ _ _ => .none
  | .tandemDelta _ _ _ => .none
  | .tandemAck _ _ _ => .none
  | .ckptComplete _ _ => .none
  | .tdmRestore _ _ _ => .none
  | .tdmFollow _ _ => .none
  | .tdmCkRestore _ _ _ => .none
  | .tdmRestoreOne _ _ _ => .none
  | .tdmCkpt _ _ => .none
  | .tdmRelease _ _ => .none
  | .restoreComplete _ => .none
  | .spokeTestRotate _ => .none
  | .laneTestRotate port lane => .lane port lane
  | .hubTestRotate partition => .hub partition
  | .channelTestRotate _ => .none
  | .bistComplete slice _ _ => .slice slice
  | .bistOverdue spk => .spoke spk
  | .fuseCommit _ => .none
  | .testNow _ => .none
  | .tenantActivate _ => .none
  | .tenantRestart _ => .none
  | .tenantAutoRestart _ => .none
  | .tenantReset _ => .none
  | .scrubComplete _ => .none
  | .overlayApply => .none
  | .rtpStage _ _ => .none
  | .rtpActivate _ _ => .none
  | .rtpRatchet _ _ => .none
  | .claim _ _ => .none
  | .setOvlKey _ _ => .none
  | .confOpen _ _ => .none
  | .ownerRelease _ _ => .none
  | .debugUnlock _ _ => .none
  | .dkExport _ _ => .none
  | .dkImport _ _ => .none
  | .tenantKey _ _ => .none
  | .dkRotate _ _ => .none
  | .reportRequest _ _ => .none
  | .sealBatch _ _ => .none
  | .rtpOpComplete => .none
  | .fwSwapSwitch => .none
  | .fwSwapAccept => .none
  | .fwSwapTimeout => .none
  | .intClaim _ => .none
  | .intEoi _ _ => .none
  | .intSrcConfig _ _ => .none
  | .intSoft _ => .none
  | .watchArm _ _ => .none
  | .syncCntWrite _ _ => .none
  | .syncOwnWrite _ _ => .none
  | .pmcSample _ => .none
  | .energyUpdate _ => .none
  | .cadenceWindowStart _ => .none
  | .cadenceWindowEnd _ => .none
  | .throttleSet sensor _ => .sensor sensor
  | .throttleStepDown site => .sensor site
  | .throttleStepUp site => .sensor site
  | .sensorTrip sensor _ => .sensor sensor
  | .thermTripNLow => .none
  | .coolantOkFall => .none
  | .brakedEnter => .none
  | .unbrake _ => .none
  | .leaveComplete => .none
  | .standby _ => .none
  | .wake _ => .none
  | .vinApply _ => .none
  | .pwrEnRise => .none
  | .railStageDone => .none
  | .pwrEnFall => .none
  | .powerLoss _ => .none
  | .modResetNFall => .none
  | .resetRelease _ => .none
  | .bootComplete _ => .none
  | .refclkChange _ _ => .none
  | .i3cAddressAssign _ => .none
  | .busRead _ => .none
  | .busWrite _ _ => .none
  | .recData _ _ => .none
  | .recCommit _ => .none
  | .jtagInstruction _ => .none
  | .sessionScrubDone sid => .slot sid
  | .indexDestroyDone _ => .none
  | .coolantOkRise => .none
  | .thermTripNRise => .none
  | .sensorBelowThrottle sensor _ => .sensor sensor
  | .lossOfWidth port _ => .port port
  | .fwSwapLoadDone => .none
  | .railWarn _ _ _ => .none
  | .supplyDroop spk => .spoke spk
  | .overvoltageRestart _ => .none
  | .testLogicReset => .none

/-- A command is well formed: the unit it names exists. -/
def Instr.wf (i : Instr) : Bool := i.unit.wf

end Sys2Proof
end

