-- ==== Sys2Proof/Decode.lean ====
section
/-! DEFINITION. The decoder of table words. No row of the table of commands carries bits, so no word spells a
command: a command comes from outside as a constructor of `Instr`. The fields of a chain instruction (Table 3.4) and
of a Spoke instruction (R212) are read where they are used, in Machine/Chain.lean and Machine/Operands.lean. -/

namespace Sys2Proof

/-- The command that a word of `nbits` bits spells by the table's bits: none, since no row gives bits. -/
def decodeTableWord (_nbits _w : Nat) : Option Instr := none

end Sys2Proof
end

