-- ==== Sys2Proof/Machine/RegMap.lean ====
section
/-! DEFINITION. The register map of management space: one `Fld` for each field of the field tables of chapters 1 to
19 (R5, R6, Table 0.3) and one `Reg` for each register address, with the stride and the number of its instances. A
reset value the tables give as a number stands here; one they give in words (fuses, boot value, strap) is 0 here and
its field is read from the structured state (Machine/Regs.lean) or set at reset. -/

namespace Sys2Proof.Machine

/-- The access codes of Table 0.3 that the field tables use (R6). -/
inductive Access where
  | ro
  | rw
  | rw1c
  | wo
  | rwl
  deriving DecidableEq, Repr

/-- A register field: `key` is 64 times the register's address plus the low bit, `lo` and `width` its place. -/
structure Fld where
  key : Nat
  lo : Nat
  width : Nat
  acc : Access
  reset : Nat
  deriving DecidableEq, Repr

/-- A register: the address of its first instance, the stride and the number of the instances, and its fields. -/
structure Reg where
  addr : Nat
  stride : Nat
  count : Nat
  fields : List Fld
  deriving DecidableEq, Repr

-- Table 1.6 (01_architecture.md)
def F.MOD_ID_stepping : Fld := ⟨0x0, 0, 12, .ro, 176⟩
def F.MOD_ID_part : Fld := ⟨0xC, 12, 16, .ro, 1856⟩
def F.MOD_ID_wheel_dies : Fld := ⟨0x1C, 28, 4, .ro, 4⟩
def F.MOD_ID_hbm_stacks : Fld := ⟨0x20, 32, 4, .ro, 8⟩
/-- MOD_ID: 0x0. -/
def R.MOD_ID : Reg :=
  ⟨0x0, 0, 1,
   [F.MOD_ID_stepping, F.MOD_ID_part, F.MOD_ID_wheel_dies, F.MOD_ID_hbm_stacks]⟩

-- Table 1.7 (01_architecture.md)
def F.MOD_TIMELINE_ADDR_line_addr : Fld := ⟨0x406, 6, 46, .rw, 0⟩
def F.MOD_TIMELINE_ADDR_enable : Fld := ⟨0x43F, 63, 1, .rw, 0⟩
/-- MOD_TIMELINE_ADDR: 0x10. -/
def R.MOD_TIMELINE_ADDR : Reg :=
  ⟨0x10, 0, 1,
   [F.MOD_TIMELINE_ADDR_line_addr, F.MOD_TIMELINE_ADDR_enable]⟩

-- Table 1.8 (01_architecture.md)
def F.MOD_TIMELINE_STAT_stale : Fld := ⟨0x600, 0, 1, .ro, 1⟩
def F.MOD_TIMELINE_STAT_stale_seen : Fld := ⟨0x601, 1, 1, .rw1c, 0⟩
def F.MOD_TIMELINE_STAT_regress_seen : Fld := ⟨0x602, 2, 1, .rw1c, 0⟩
def F.MOD_TIMELINE_STAT_regress_count : Fld := ⟨0x610, 16, 16, .ro, 0⟩
/-- MOD_TIMELINE_STAT: 0x18. -/
def R.MOD_TIMELINE_STAT : Reg :=
  ⟨0x18, 0, 1,
   [F.MOD_TIMELINE_STAT_stale, F.MOD_TIMELINE_STAT_stale_seen, F.MOD_TIMELINE_STAT_regress_seen,
    F.MOD_TIMELINE_STAT_regress_count]⟩

-- Table 1.9 (01_architecture.md)
def F.MOD_TIMELINE_LAST_last_ns : Fld := ⟨0x800, 0, 64, .ro, 0⟩
/-- MOD_TIMELINE_LAST: 0x20. -/
def R.MOD_TIMELINE_LAST : Reg :=
  ⟨0x20, 0, 1,
   [F.MOD_TIMELINE_LAST_last_ns]⟩

-- Table 2.10 (02_sessions.md)
def F.SES_STAT_integ_count : Fld := ⟨0x8000000, 0, 16, .rw1c, 0⟩
def F.SES_STAT_stale_count : Fld := ⟨0x8000010, 16, 16, .rw1c, 0⟩
def F.SES_STAT_quota_count : Fld := ⟨0x8000020, 32, 16, .rw1c, 0⟩
def F.SES_STAT_fallback_count : Fld := ⟨0x8000030, 48, 15, .rw1c, 0⟩
def F.SES_STAT_table_full : Fld := ⟨0x800003F, 63, 1, .rw1c, 0⟩
/-- SES_STAT: 0x200000. -/
def R.SES_STAT : Reg :=
  ⟨0x200000, 0, 1,
   [F.SES_STAT_integ_count, F.SES_STAT_stale_count, F.SES_STAT_quota_count, F.SES_STAT_fallback_count,
    F.SES_STAT_table_full]⟩

-- Table 2.11 (02_sessions.md)
def F.SES_DESC_SEL_handle : Fld := ⟨0x8000400, 0, 48, .wo, 0⟩
def F.SES_DESC_SEL_valid : Fld := ⟨0x800043F, 63, 1, .ro, 0⟩
/-- SES_DESC_SEL: 0x200010. -/
def R.SES_DESC_SEL : Reg :=
  ⟨0x200010, 0, 1,
   [F.SES_DESC_SEL_handle, F.SES_DESC_SEL_valid]⟩

-- Table 2.12 (02_sessions.md)
def F.SES_TQ_LIMITS_max_sessions : Fld := ⟨0x8400000, 0, 24, .rwl, 0⟩
/-- SES_TQ_LIMITS: 0x210000. -/
def R.SES_TQ_LIMITS : Reg :=
  ⟨0x210000, 64, 4096,
   [F.SES_TQ_LIMITS_max_sessions]⟩

-- Table 2.13 (02_sessions.md)
def F.SES_TQ_BYTES_hot_16m : Fld := ⟨0x8400200, 0, 16, .rwl, 0⟩
def F.SES_TQ_BYTES_warm_hbm_16m : Fld := ⟨0x8400210, 16, 16, .rwl, 0⟩
def F.SES_TQ_BYTES_warm_host_64m : Fld := ⟨0x8400220, 32, 16, .rwl, 0⟩
def F.SES_TQ_BYTES_warm_nbr_64m : Fld := ⟨0x8400230, 48, 16, .rwl, 0⟩
/-- SES_TQ_BYTES: 0x210008. -/
def R.SES_TQ_BYTES : Reg :=
  ⟨0x210008, 64, 4096,
   [F.SES_TQ_BYTES_hot_16m, F.SES_TQ_BYTES_warm_hbm_16m, F.SES_TQ_BYTES_warm_host_64m,
    F.SES_TQ_BYTES_warm_nbr_64m]⟩

-- Table 2.14 (02_sessions.md)
def F.SES_TQ_POLICY_hot_idle_ms : Fld := ⟨0x8400400, 0, 16, .rwl, 0⟩
def F.SES_TQ_POLICY_warm_idle_s : Fld := ⟨0x8400410, 16, 16, .rwl, 0⟩
def F.SES_TQ_POLICY_warm_tier : Fld := ⟨0x8400420, 32, 2, .rwl, 0⟩
def F.SES_TQ_POLICY_evict_on_revive : Fld := ⟨0x8400422, 34, 1, .rwl, 0⟩
def F.SES_TQ_POLICY_spec_revive : Fld := ⟨0x8400423, 35, 1, .rwl, 0⟩
def F.SES_TQ_POLICY_deepest : Fld := ⟨0x8400424, 36, 1, .rwl, 1⟩
def F.SES_TQ_POLICY_idle_depth : Fld := ⟨0x8400425, 37, 1, .rwl, 0⟩
/-- SES_TQ_POLICY: 0x210010. -/
def R.SES_TQ_POLICY : Reg :=
  ⟨0x210010, 64, 4096,
   [F.SES_TQ_POLICY_hot_idle_ms, F.SES_TQ_POLICY_warm_idle_s, F.SES_TQ_POLICY_warm_tier,
    F.SES_TQ_POLICY_evict_on_revive, F.SES_TQ_POLICY_spec_revive, F.SES_TQ_POLICY_deepest,
    F.SES_TQ_POLICY_idle_depth]⟩

-- Table 2.15 (02_sessions.md)
def F.SES_TQ_COUNT_sessions : Fld := ⟨0x8400600, 0, 24, .ro, 0⟩
def F.SES_TQ_COUNT_hot : Fld := ⟨0x8400618, 24, 24, .ro, 0⟩
def F.SES_TQ_COUNT_quarantined : Fld := ⟨0x8400630, 48, 16, .ro, 0⟩
/-- SES_TQ_COUNT: 0x210018. -/
def R.SES_TQ_COUNT : Reg :=
  ⟨0x210018, 64, 4096,
   [F.SES_TQ_COUNT_sessions, F.SES_TQ_COUNT_hot, F.SES_TQ_COUNT_quarantined]⟩

-- Table 2.16 (02_sessions.md)
def F.SES_TQ_USED_hot_16m : Fld := ⟨0x8400800, 0, 16, .ro, 0⟩
def F.SES_TQ_USED_warm_hbm_16m : Fld := ⟨0x8400810, 16, 16, .ro, 0⟩
def F.SES_TQ_USED_warm_host_64m : Fld := ⟨0x8400820, 32, 16, .ro, 0⟩
def F.SES_TQ_USED_warm_nbr_64m : Fld := ⟨0x8400830, 48, 16, .ro, 0⟩
/-- SES_TQ_USED: 0x210020. -/
def R.SES_TQ_USED : Reg :=
  ⟨0x210020, 64, 4096,
   [F.SES_TQ_USED_hot_16m, F.SES_TQ_USED_warm_hbm_16m, F.SES_TQ_USED_warm_host_64m,
    F.SES_TQ_USED_warm_nbr_64m]⟩

-- Table 3.11 (03_chain_programs.md)
def F.CFE_CAPS_isa_2_0 : Fld := ⟨0x4000000, 0, 1, .ro, 1⟩
def F.CFE_CAPS_isa_3_0 : Fld := ⟨0x4000001, 1, 1, .ro, 1⟩
def F.CFE_CAPS_isa_3_1 : Fld := ⟨0x4000002, 2, 1, .ro, 1⟩
def F.CFE_CAPS_max_req_instr : Fld := ⟨0x4000010, 16, 16, .ro, 256⟩
def F.CFE_CAPS_window : Fld := ⟨0x4000020, 32, 16, .ro, 1024⟩
/-- CFE_CAPS: 0x100000. -/
def R.CFE_CAPS : Reg :=
  ⟨0x100000, 0, 1,
   [F.CFE_CAPS_isa_2_0, F.CFE_CAPS_isa_3_0, F.CFE_CAPS_isa_3_1, F.CFE_CAPS_max_req_instr,
    F.CFE_CAPS_window]⟩

-- Table 3.12 (03_chain_programs.md)
def F.CFE_STAT_dup_count : Fld := ⟨0x4000200, 0, 16, .rw1c, 0⟩
def F.CFE_STAT_stale_dup_count : Fld := ⟨0x4000210, 16, 16, .rw1c, 0⟩
def F.CFE_STAT_malformed_count : Fld := ⟨0x4000220, 32, 16, .rw1c, 0⟩
def F.CFE_STAT_stray_count : Fld := ⟨0x4000230, 48, 16, .rw1c, 0⟩
/-- CFE_STAT: 0x100008. -/
def R.CFE_STAT : Reg :=
  ⟨0x100008, 0, 1,
   [F.CFE_STAT_dup_count, F.CFE_STAT_stale_dup_count, F.CFE_STAT_malformed_count, F.CFE_STAT_stray_count]⟩

-- Table 3.13 (03_chain_programs.md)
def F.CFE_RING_SEL_ring : Fld := ⟨0x4000400, 0, 16, .rw, 0⟩
/-- CFE_RING_SEL: 0x100010. -/
def R.CFE_RING_SEL : Reg :=
  ⟨0x100010, 0, 1,
   [F.CFE_RING_SEL_ring]⟩

-- Table 3.14 (03_chain_programs.md)
def F.CFE_RING_CTRL_enable : Fld := ⟨0x4000600, 0, 1, .rw, 0⟩
def F.CFE_RING_CTRL_cb_addr : Fld := ⟨0x4000608, 8, 44, .rw, 0⟩
/-- CFE_RING_CTRL: 0x100018. -/
def R.CFE_RING_CTRL : Reg :=
  ⟨0x100018, 0, 1,
   [F.CFE_RING_CTRL_enable, F.CFE_RING_CTRL_cb_addr]⟩

-- Table 3.15 (03_chain_programs.md)
def F.CFE_RING_CFG_tenant : Fld := ⟨0x4000800, 0, 12, .rwl, 0⟩
def F.CFE_RING_CFG_mgmt : Fld := ⟨0x400080C, 12, 1, .rwl, 0⟩
def F.CFE_RING_CFG_models : Fld := ⟨0x400080D, 13, 1, .rwl, 0⟩
/-- CFE_RING_CFG: 0x100020. -/
def R.CFE_RING_CFG : Reg :=
  ⟨0x100020, 0, 1,
   [F.CFE_RING_CFG_tenant, F.CFE_RING_CFG_mgmt, F.CFE_RING_CFG_models]⟩

-- Table 3.16 (03_chain_programs.md)
def F.CFE_RING_STAT_state : Fld := ⟨0x4000A00, 0, 2, .ro, 0⟩
def F.CFE_RING_STAT_err : Fld := ⟨0x4000A02, 2, 4, .ro, 0⟩
def F.CFE_RING_STAT_isa : Fld := ⟨0x4000A08, 8, 8, .ro, 0⟩
def F.CFE_RING_STAT_inflight : Fld := ⟨0x4000A10, 16, 16, .ro, 0⟩
def F.CFE_RING_STAT_cq_full : Fld := ⟨0x4000A20, 32, 16, .rw1c, 0⟩
/-- CFE_RING_STAT: 0x100028. -/
def R.CFE_RING_STAT : Reg :=
  ⟨0x100028, 0, 1,
   [F.CFE_RING_STAT_state, F.CFE_RING_STAT_err, F.CFE_RING_STAT_isa, F.CFE_RING_STAT_inflight,
    F.CFE_RING_STAT_cq_full]⟩

-- Table 3.17 (03_chain_programs.md)
def F.CFE_CANCEL_ID_req_id : Fld := ⟨0x4000C00, 0, 64, .rw, 0⟩
/-- CFE_CANCEL_ID: 0x100030. -/
def R.CFE_CANCEL_ID : Reg :=
  ⟨0x100030, 0, 1,
   [F.CFE_CANCEL_ID_req_id]⟩

-- Table 3.18 (03_chain_programs.md)
def F.CFE_CANCEL_GO_ring : Fld := ⟨0x4000E00, 0, 16, .wo, 0⟩
/-- CFE_CANCEL_GO: 0x100038. -/
def R.CFE_CANCEL_GO : Reg :=
  ⟨0x100038, 0, 1,
   [F.CFE_CANCEL_GO_ring]⟩

-- Table 3.19 (03_chain_programs.md)
def F.CFE_POOL_in_use : Fld := ⟨0x4001000, 0, 18, .ro, 0⟩
/-- CFE_POOL: 0x100040. -/
def R.CFE_POOL : Reg :=
  ⟨0x100040, 0, 1,
   [F.CFE_POOL_in_use]⟩

-- Table 3.20 (03_chain_programs.md)
def F.CFE_TQ_INFLIGHT_max_inflight : Fld := ⟨0x4400000, 0, 16, .rwl, 1024⟩
def F.CFE_TQ_INFLIGHT_inflight : Fld := ⟨0x4400020, 32, 16, .ro, 0⟩
/-- CFE_TQ_INFLIGHT: 0x110000. -/
def R.CFE_TQ_INFLIGHT : Reg :=
  ⟨0x110000, 16, 4096,
   [F.CFE_TQ_INFLIGHT_max_inflight, F.CFE_TQ_INFLIGHT_inflight]⟩

-- Table 4.10 (04_park_revive_move.md)
def F.PNE_CAPS_pan_1_0 : Fld := ⟨0x10000000, 0, 1, .ro, 1⟩
def F.PNE_CAPS_pan_2_0 : Fld := ⟨0x10000001, 1, 1, .ro, 1⟩
def F.PNE_CAPS_max_motions : Fld := ⟨0x10000010, 16, 9, .ro, 256⟩
/-- PNE_CAPS: 0x400000. -/
def R.PNE_CAPS : Reg :=
  ⟨0x400000, 0, 1,
   [F.PNE_CAPS_pan_1_0, F.PNE_CAPS_pan_2_0, F.PNE_CAPS_max_motions]⟩

-- Table 4.11 (04_park_revive_move.md)
def F.PNE_CFG_homing : Fld := ⟨0x10000200, 0, 1, .rwl, 0⟩
def F.PNE_CFG_max_motions : Fld := ⟨0x10000210, 16, 9, .rw, 256⟩
def F.PNE_CFG_pool_timeout_ms : Fld := ⟨0x10000220, 32, 16, .rw, 100⟩
/-- PNE_CFG: 0x400008. -/
def R.PNE_CFG : Reg :=
  ⟨0x400008, 0, 1,
   [F.PNE_CFG_homing, F.PNE_CFG_max_motions, F.PNE_CFG_pool_timeout_ms]⟩

-- Table 4.12 (04_park_revive_move.md)
def F.PNE_TIER_CFG_host_window_kib : Fld := ⟨0x10000400, 0, 8, .rw, 64⟩
def F.PNE_TIER_CFG_nbr_window_kib : Fld := ⟨0x10000408, 8, 8, .rw, 96⟩
def F.PNE_TIER_CFG_late_us : Fld := ⟨0x10000410, 16, 16, .rw, 1000⟩
def F.PNE_TIER_CFG_tier_timeout_ms : Fld := ⟨0x10000420, 32, 16, .rw, 20⟩
/-- PNE_TIER_CFG: 0x400010. -/
def R.PNE_TIER_CFG : Reg :=
  ⟨0x400010, 0, 1,
   [F.PNE_TIER_CFG_host_window_kib, F.PNE_TIER_CFG_nbr_window_kib, F.PNE_TIER_CFG_late_us,
    F.PNE_TIER_CFG_tier_timeout_ms]⟩

-- Table 4.13 (04_park_revive_move.md)
def F.PNE_SPEC_CFG_lead_hbm_us : Fld := ⟨0x10000600, 0, 16, .rw, 100⟩
def F.PNE_SPEC_CFG_lead_host_us : Fld := ⟨0x10000610, 16, 16, .rw, 600⟩
def F.PNE_SPEC_CFG_lead_nbr_us : Fld := ⟨0x10000620, 32, 16, .rw, 450⟩
def F.PNE_SPEC_CFG_shadow_hold_ms : Fld := ⟨0x10000630, 48, 16, .rw, 50⟩
/-- PNE_SPEC_CFG: 0x400018. -/
def R.PNE_SPEC_CFG : Reg :=
  ⟨0x400018, 0, 1,
   [F.PNE_SPEC_CFG_lead_hbm_us, F.PNE_SPEC_CFG_lead_host_us, F.PNE_SPEC_CFG_lead_nbr_us,
    F.PNE_SPEC_CFG_shadow_hold_ms]⟩

-- Table 4.14 (04_park_revive_move.md)
def F.PNE_STAT_active : Fld := ⟨0x10000800, 0, 9, .ro, 0⟩
def F.PNE_STAT_queued : Fld := ⟨0x10000810, 16, 20, .ro, 0⟩
def F.PNE_STAT_shadows : Fld := ⟨0x10000830, 48, 16, .ro, 0⟩
/-- PNE_STAT: 0x400020. -/
def R.PNE_STAT : Reg :=
  ⟨0x400020, 0, 1,
   [F.PNE_STAT_active, F.PNE_STAT_queued, F.PNE_STAT_shadows]⟩

-- Table 4.15 (04_park_revive_move.md)
def F.PNE_CNT_MOTION_parks : Fld := ⟨0x10000A00, 0, 16, .rw1c, 0⟩
def F.PNE_CNT_MOTION_revives : Fld := ⟨0x10000A10, 16, 16, .rw1c, 0⟩
def F.PNE_CNT_MOTION_moves : Fld := ⟨0x10000A20, 32, 16, .rw1c, 0⟩
def F.PNE_CNT_MOTION_move_wait : Fld := ⟨0x10000A30, 48, 16, .rw1c, 0⟩
/-- PNE_CNT_MOTION: 0x400028. -/
def R.PNE_CNT_MOTION : Reg :=
  ⟨0x400028, 0, 1,
   [F.PNE_CNT_MOTION_parks, F.PNE_CNT_MOTION_revives, F.PNE_CNT_MOTION_moves, F.PNE_CNT_MOTION_move_wait]⟩

-- Table 4.16 (04_park_revive_move.md)
def F.PNE_CNT_FAULT_tier_late : Fld := ⟨0x10000C00, 0, 16, .rw1c, 0⟩
def F.PNE_CNT_FAULT_tier_fault : Fld := ⟨0x10000C10, 16, 16, .rw1c, 0⟩
def F.PNE_CNT_FAULT_pool_lost : Fld := ⟨0x10000C20, 32, 8, .rw1c, 0⟩
def F.PNE_CNT_FAULT_refused : Fld := ⟨0x10000C28, 40, 8, .rw1c, 0⟩
def F.PNE_CNT_FAULT_nan_blocks : Fld := ⟨0x10000C30, 48, 16, .rw1c, 0⟩
/-- PNE_CNT_FAULT: 0x400030. -/
def R.PNE_CNT_FAULT : Reg :=
  ⟨0x400030, 0, 1,
   [F.PNE_CNT_FAULT_tier_late, F.PNE_CNT_FAULT_tier_fault, F.PNE_CNT_FAULT_pool_lost,
    F.PNE_CNT_FAULT_refused, F.PNE_CNT_FAULT_nan_blocks]⟩

-- Table 4.17 (04_park_revive_move.md)
def F.PNE_CNT_SPEC_spec_start : Fld := ⟨0x10000E00, 0, 16, .rw1c, 0⟩
def F.PNE_CNT_SPEC_spec_hit : Fld := ⟨0x10000E10, 16, 16, .rw1c, 0⟩
def F.PNE_CNT_SPEC_spec_drop : Fld := ⟨0x10000E20, 32, 16, .rw1c, 0⟩
def F.PNE_CNT_SPEC_spec_skip : Fld := ⟨0x10000E30, 48, 16, .rw1c, 0⟩
/-- PNE_CNT_SPEC: 0x400038. -/
def R.PNE_CNT_SPEC : Reg :=
  ⟨0x400038, 0, 1,
   [F.PNE_CNT_SPEC_spec_start, F.PNE_CNT_SPEC_spec_hit, F.PNE_CNT_SPEC_spec_drop,
    F.PNE_CNT_SPEC_spec_skip]⟩

-- Table 5.11 (05_kv_paging.md)
def F.PGM_CAPS_min_page_log2 : Fld := ⟨0xC000000, 0, 4, .ro, 4⟩
def F.PGM_CAPS_max_page_log2 : Fld := ⟨0xC000004, 4, 4, .ro, 12⟩
def F.PGM_CAPS_max_levels : Fld := ⟨0xC000008, 8, 3, .ro, 4⟩
def F.PGM_CAPS_classes : Fld := ⟨0xC000010, 16, 9, .ro, 256⟩
def F.PGM_CAPS_prefixes : Fld := ⟨0xC000020, 32, 17, .ro, 65536⟩
/-- PGM_CAPS: 0x300000. -/
def R.PGM_CAPS : Reg :=
  ⟨0x300000, 0, 1,
   [F.PGM_CAPS_min_page_log2, F.PGM_CAPS_max_page_log2, F.PGM_CAPS_max_levels, F.PGM_CAPS_classes,
    F.PGM_CAPS_prefixes]⟩

-- Table 5.12 (05_kv_paging.md)
def F.PGM_STAT_frames_low : Fld := ⟨0xC000200, 0, 1, .ro, 0⟩
def F.PGM_STAT_frames_low_seen : Fld := ⟨0xC000201, 1, 1, .rw1c, 0⟩
def F.PGM_STAT_stage_low : Fld := ⟨0xC000202, 2, 1, .ro, 0⟩
def F.PGM_STAT_stage_low_seen : Fld := ⟨0xC000203, 3, 1, .rw1c, 0⟩
def F.PGM_STAT_serial_low : Fld := ⟨0xC000204, 4, 1, .ro, 0⟩
def F.PGM_STAT_integ_count : Fld := ⟨0xC000210, 16, 16, .rw1c, 0⟩
/-- PGM_STAT: 0x300008. -/
def R.PGM_STAT : Reg :=
  ⟨0x300008, 0, 1,
   [F.PGM_STAT_frames_low, F.PGM_STAT_frames_low_seen, F.PGM_STAT_stage_low, F.PGM_STAT_stage_low_seen,
    F.PGM_STAT_serial_low, F.PGM_STAT_integ_count]⟩

-- Table 5.13 (05_kv_paging.md)
def F.PGM_CNT_cow_count : Fld := ⟨0xC000400, 0, 16, .rw1c, 0⟩
def F.PGM_CNT_frame_wait : Fld := ⟨0xC000410, 16, 16, .rw1c, 0⟩
def F.PGM_CNT_stage_wait : Fld := ⟨0xC000420, 32, 16, .rw1c, 0⟩
def F.PGM_CNT_lease_held : Fld := ⟨0xC000430, 48, 16, .rw1c, 0⟩
/-- PGM_CNT: 0x300010. -/
def R.PGM_CNT : Reg :=
  ⟨0x300010, 0, 1,
   [F.PGM_CNT_cow_count, F.PGM_CNT_frame_wait, F.PGM_CNT_stage_wait, F.PGM_CNT_lease_held]⟩

-- Table 5.14 (05_kv_paging.md)
def F.PGM_CFG_pool_gib : Fld := ⟨0xC000600, 0, 7, .rwl, 16⟩
def F.PGM_CFG_stage_low_pct : Fld := ⟨0xC000608, 8, 7, .rw, 90⟩
def F.PGM_CFG_frames_low_gib : Fld := ⟨0xC000610, 16, 16, .rw, 8⟩
/-- PGM_CFG: 0x300018. -/
def R.PGM_CFG : Reg :=
  ⟨0x300018, 0, 1,
   [F.PGM_CFG_pool_gib, F.PGM_CFG_stage_low_pct, F.PGM_CFG_frames_low_gib]⟩

-- Table 5.15 (05_kv_paging.md)
def F.PGM_STAGE_STAT_quanta_total : Fld := ⟨0xC000800, 0, 20, .ro, 0⟩
def F.PGM_STAGE_STAT_quanta_used : Fld := ⟨0xC000814, 20, 20, .ro, 0⟩
def F.PGM_STAGE_STAT_stripes_free : Fld := ⟨0xC000828, 40, 11, .ro, 0⟩
/-- PGM_STAGE_STAT: 0x300020. -/
def R.PGM_STAGE_STAT : Reg :=
  ⟨0x300020, 0, 1,
   [F.PGM_STAGE_STAT_quanta_total, F.PGM_STAGE_STAT_quanta_used, F.PGM_STAGE_STAT_stripes_free]⟩

-- Table 5.16 (05_kv_paging.md)
def F.PGM_CLASS_SEL_class : Fld := ⟨0xC000A00, 0, 8, .rw, 0⟩
/-- PGM_CLASS_SEL: 0x300028. -/
def R.PGM_CLASS_SEL : Reg :=
  ⟨0x300028, 0, 1,
   [F.PGM_CLASS_SEL_class]⟩

-- Table 5.17 (05_kv_paging.md)
def F.PGM_CLASS_INFO_layers : Fld := ⟨0xC000C00, 0, 8, .ro, 0⟩
def F.PGM_CLASS_INFO_row_bytes : Fld := ⟨0xC000C08, 8, 16, .ro, 0⟩
def F.PGM_CLASS_INFO_active : Fld := ⟨0xC000C18, 24, 1, .ro, 0⟩
def F.PGM_CLASS_INFO_superblocks : Fld := ⟨0xC000C20, 32, 16, .ro, 0⟩
/-- PGM_CLASS_INFO: 0x300030. -/
def R.PGM_CLASS_INFO : Reg :=
  ⟨0x300030, 0, 1,
   [F.PGM_CLASS_INFO_layers, F.PGM_CLASS_INFO_row_bytes, F.PGM_CLASS_INFO_active,
    F.PGM_CLASS_INFO_superblocks]⟩

-- Table 5.18 (05_kv_paging.md)
def F.PGM_CLASS_FREE_free_units : Fld := ⟨0xC000E00, 0, 32, .ro, 0⟩
def F.PGM_CLASS_FREE_used_units : Fld := ⟨0xC000E20, 32, 32, .ro, 0⟩
/-- PGM_CLASS_FREE: 0x300038. -/
def R.PGM_CLASS_FREE : Reg :=
  ⟨0x300038, 0, 1,
   [F.PGM_CLASS_FREE_free_units, F.PGM_CLASS_FREE_used_units]⟩

-- Table 5.19 (05_kv_paging.md)
def F.PGM_SERIAL_next_serial : Fld := ⟨0xC001000, 0, 48, .ro, 0⟩
/-- PGM_SERIAL: 0x300040. -/
def R.PGM_SERIAL : Reg :=
  ⟨0x300040, 0, 1,
   [F.PGM_SERIAL_next_serial]⟩

-- Table 5.20 (05_kv_paging.md)
def F.PGM_PFX_TEN_tenant : Fld := ⟨0xC001200, 0, 12, .rw, 0⟩
def F.PGM_PFX_TEN_valid : Fld := ⟨0xC00123F, 63, 1, .ro, 0⟩
/-- PGM_PFX_TEN: 0x300048. -/
def R.PGM_PFX_TEN : Reg :=
  ⟨0x300048, 0, 1,
   [F.PGM_PFX_TEN_tenant, F.PGM_PFX_TEN_valid]⟩

-- Table 5.21 (05_kv_paging.md)
def F.PGM_PFX_SEL_handle : Fld := ⟨0xC001400, 0, 64, .wo, 0⟩
/-- PGM_PFX_SEL: 0x300050. -/
def R.PGM_PFX_SEL : Reg :=
  ⟨0x300050, 0, 1,
   [F.PGM_PFX_SEL_handle]⟩

-- Table 5.22 (05_kv_paging.md)
def F.PGM_TQ_PAGE_cap_log2 : Fld := ⟨0xC400000, 0, 4, .rwl, 10⟩
def F.PGM_TQ_PAGE_max_prefixes : Fld := ⟨0xC400008, 8, 16, .rwl, 16⟩
def F.PGM_TQ_PAGE_prefixes : Fld := ⟨0xC400018, 24, 16, .ro, 0⟩
/-- PGM_TQ_PAGE: 0x310000. -/
def R.PGM_TQ_PAGE : Reg :=
  ⟨0x310000, 16, 4096,
   [F.PGM_TQ_PAGE_cap_log2, F.PGM_TQ_PAGE_max_prefixes, F.PGM_TQ_PAGE_prefixes]⟩

-- Table 6.7 (06_steps.md)
def F.STE_CAPS_max_seq : Fld := ⟨0x14000000, 0, 13, .ro, 4096⟩
def F.STE_CAPS_resident : Fld := ⟨0x14000010, 16, 4, .ro, 8⟩
def F.STE_CAPS_in_flight : Fld := ⟨0x14000014, 20, 4, .ro, 4⟩
def F.STE_CAPS_max_k : Fld := ⟨0x14000018, 24, 9, .ro, 256⟩
def F.STE_CAPS_max_draft : Fld := ⟨0x14000021, 33, 4, .ro, 8⟩
/-- STE_CAPS: 0x500000. -/
def R.STE_CAPS : Reg :=
  ⟨0x500000, 0, 1,
   [F.STE_CAPS_max_seq, F.STE_CAPS_resident, F.STE_CAPS_in_flight, F.STE_CAPS_max_k,
    F.STE_CAPS_max_draft]⟩

-- Table 6.8 (06_steps.md)
def F.STE_CFG_max_seq : Fld := ⟨0x14000200, 0, 13, .ro, 4096⟩
def F.STE_CFG_prefill_chunk : Fld := ⟨0x14000210, 16, 16, .ro, 256⟩
def F.STE_CFG_mixed_budget : Fld := ⟨0x14000220, 32, 16, .ro, 2048⟩
def F.STE_CFG_catchup_max : Fld := ⟨0x14000230, 48, 8, .ro, 64⟩
def F.STE_CFG_accept_wait_10us : Fld := ⟨0x14000238, 56, 8, .ro, 5⟩
/-- STE_CFG: 0x500008. -/
def R.STE_CFG : Reg :=
  ⟨0x500008, 0, 1,
   [F.STE_CFG_max_seq, F.STE_CFG_prefill_chunk, F.STE_CFG_mixed_budget, F.STE_CFG_catchup_max,
    F.STE_CFG_accept_wait_10us]⟩

-- Table 6.9 (06_steps.md)
def F.STE_STAT_role : Fld := ⟨0x14000400, 0, 3, .ro, 2⟩
def F.STE_STAT_resident : Fld := ⟨0x14000404, 4, 4, .ro, 0⟩
def F.STE_STAT_in_flight : Fld := ⟨0x14000408, 8, 3, .ro, 0⟩
def F.STE_STAT_enrolled : Fld := ⟨0x14000410, 16, 16, .ro, 0⟩
def F.STE_STAT_waiting : Fld := ⟨0x14000420, 32, 32, .ro, 0⟩
/-- STE_STAT: 0x500010. -/
def R.STE_STAT : Reg :=
  ⟨0x500010, 0, 1,
   [F.STE_STAT_role, F.STE_STAT_resident, F.STE_STAT_in_flight, F.STE_STAT_enrolled, F.STE_STAT_waiting]⟩

-- Table 6.10 (06_steps.md)
def F.STE_STEPS_steps : Fld := ⟨0x14000600, 0, 64, .ro, 0⟩
/-- STE_STEPS: 0x500018. -/
def R.STE_STEPS : Reg :=
  ⟨0x500018, 0, 1,
   [F.STE_STEPS_steps]⟩

-- Table 6.11 (06_steps.md)
def F.STE_CNT_DEFER_accept_late : Fld := ⟨0x14000800, 0, 16, .rw1c, 0⟩
def F.STE_CNT_DEFER_res_full : Fld := ⟨0x14000810, 16, 16, .rw1c, 0⟩
def F.STE_CNT_DEFER_role_wait : Fld := ⟨0x14000820, 32, 16, .rw1c, 0⟩
def F.STE_CNT_DEFER_pel_wait : Fld := ⟨0x14000830, 48, 16, .rw1c, 0⟩
/-- STE_CNT_DEFER: 0x500020. -/
def R.STE_CNT_DEFER : Reg :=
  ⟨0x500020, 0, 1,
   [F.STE_CNT_DEFER_accept_late, F.STE_CNT_DEFER_res_full, F.STE_CNT_DEFER_role_wait,
    F.STE_CNT_DEFER_pel_wait]⟩

-- Table 6.12 (06_steps.md)
def F.STE_CNT_END_deadline_end : Fld := ⟨0x14000A00, 0, 16, .rw1c, 0⟩
def F.STE_CNT_END_cancel_end : Fld := ⟨0x14000A10, 16, 16, .rw1c, 0⟩
def F.STE_CNT_END_length_end : Fld := ⟨0x14000A20, 32, 16, .rw1c, 0⟩
def F.STE_CNT_END_bad_accept : Fld := ⟨0x14000A30, 48, 16, .rw1c, 0⟩
/-- STE_CNT_END: 0x500028. -/
def R.STE_CNT_END : Reg :=
  ⟨0x500028, 0, 1,
   [F.STE_CNT_END_deadline_end, F.STE_CNT_END_cancel_end, F.STE_CNT_END_length_end,
    F.STE_CNT_END_bad_accept]⟩

-- Table 6.13 (06_steps.md)
def F.STE_PEL_SEL_peloton : Fld := ⟨0x14000C00, 0, 3, .rw, 0⟩
/-- STE_PEL_SEL: 0x500030. -/
def R.STE_PEL_SEL : Reg :=
  ⟨0x500030, 0, 1,
   [F.STE_PEL_SEL_peloton]⟩

-- Table 6.14 (06_steps.md)
def F.STE_PEL_INFO_tenant : Fld := ⟨0x14000E00, 0, 12, .ro, 0⟩
def F.STE_PEL_INFO_model_slot : Fld := ⟨0x14000E0C, 12, 8, .ro, 0⟩
def F.STE_PEL_INFO_valid : Fld := ⟨0x14000E14, 20, 1, .ro, 0⟩
def F.STE_PEL_INFO_in_flight : Fld := ⟨0x14000E15, 21, 1, .ro, 0⟩
def F.STE_PEL_INFO_seqs : Fld := ⟨0x14000E20, 32, 13, .ro, 0⟩
/-- STE_PEL_INFO: 0x500038. -/
def R.STE_PEL_INFO : Reg :=
  ⟨0x500038, 0, 1,
   [F.STE_PEL_INFO_tenant, F.STE_PEL_INFO_model_slot, F.STE_PEL_INFO_valid, F.STE_PEL_INFO_in_flight,
    F.STE_PEL_INFO_seqs]⟩

-- Table 7.3 (07_drafting.md)
def F.STE_DRAFT_PROP_proposed : Fld := ⟨0x14001000, 0, 64, .ro, 0⟩
/-- STE_DRAFT_PROP: 0x500040. -/
def R.STE_DRAFT_PROP : Reg :=
  ⟨0x500040, 0, 1,
   [F.STE_DRAFT_PROP_proposed]⟩

-- Table 7.4 (07_drafting.md)
def F.STE_DRAFT_ACC_confirmed : Fld := ⟨0x14001200, 0, 64, .ro, 0⟩
/-- STE_DRAFT_ACC: 0x500048. -/
def R.STE_DRAFT_ACC : Reg :=
  ⟨0x500048, 0, 1,
   [F.STE_DRAFT_ACC_confirmed]⟩

-- Table 7.5 (07_drafting.md)
def F.STE_DRAFT_CNT_draft_discard : Fld := ⟨0x14001400, 0, 16, .rw1c, 0⟩
def F.STE_DRAFT_CNT_draft_recompute : Fld := ⟨0x14001410, 16, 16, .rw1c, 0⟩
def F.STE_DRAFT_CNT_draft_off : Fld := ⟨0x14001420, 32, 16, .rw1c, 0⟩
def F.STE_DRAFT_CNT_draft_short : Fld := ⟨0x14001430, 48, 16, .rw1c, 0⟩
/-- STE_DRAFT_CNT: 0x500050. -/
def R.STE_DRAFT_CNT : Reg :=
  ⟨0x500050, 0, 1,
   [F.STE_DRAFT_CNT_draft_discard, F.STE_DRAFT_CNT_draft_recompute, F.STE_DRAFT_CNT_draft_off,
    F.STE_DRAFT_CNT_draft_short]⟩

-- Table 8.13 (08_spoke_arithmetic.md)
def F.SPK_CAPS_formats : Fld := ⟨0x3C000000, 0, 11, .ro, 2047⟩
def F.SPK_CAPS_mx : Fld := ⟨0x3C00000B, 11, 1, .ro, 1⟩
def F.SPK_CAPS_spokes : Fld := ⟨0x3C000010, 16, 9, .ro, 272⟩
def F.SPK_CAPS_per_wheel : Fld := ⟨0x3C000020, 32, 7, .ro, 68⟩
def F.SPK_CAPS_service_per_wheel : Fld := ⟨0x3C000028, 40, 7, .ro, 64⟩
/-- SPK_CAPS: 0xF00000. -/
def R.SPK_CAPS : Reg :=
  ⟨0xF00000, 0, 1,
   [F.SPK_CAPS_formats, F.SPK_CAPS_mx, F.SPK_CAPS_spokes, F.SPK_CAPS_per_wheel,
    F.SPK_CAPS_service_per_wheel]⟩

-- Table 8.14 (08_spoke_arithmetic.md)
def F.SPK_MOD_in_service : Fld := ⟨0x3C000200, 0, 9, .ro, 256⟩
def F.SPK_MOD_healthy : Fld := ⟨0x3C000210, 16, 9, .ro, 0⟩
def F.SPK_MOD_failed : Fld := ⟨0x3C000220, 32, 9, .ro, 0⟩
/-- SPK_MOD: 0xF00008. -/
def R.SPK_MOD : Reg :=
  ⟨0xF00008, 0, 1,
   [F.SPK_MOD_in_service, F.SPK_MOD_healthy, F.SPK_MOD_failed]⟩

-- Table 8.15 (08_spoke_arithmetic.md)
def F.SPK_SEL_spoke : Fld := ⟨0x3C000400, 0, 9, .rw, 0⟩
/-- SPK_SEL: 0xF00010. -/
def R.SPK_SEL : Reg :=
  ⟨0xF00010, 0, 1,
   [F.SPK_SEL_spoke]⟩

-- Table 8.16 (08_spoke_arithmetic.md)
def F.SPK_STATE_state : Fld := ⟨0x3C000600, 0, 3, .ro, 0⟩
def F.SPK_STATE_patched : Fld := ⟨0x3C000603, 3, 1, .ro, 0⟩
def F.SPK_STATE_fused : Fld := ⟨0x3C000604, 4, 1, .ro, 0⟩
def F.SPK_STATE_wheel : Fld := ⟨0x3C000608, 8, 2, .ro, 0⟩
def F.SPK_STATE_place : Fld := ⟨0x3C000610, 16, 7, .ro, 0⟩
def F.SPK_STATE_last_test_s : Fld := ⟨0x3C000620, 32, 32, .ro, 0⟩
/-- SPK_STATE: 0xF00018. -/
def R.SPK_STATE : Reg :=
  ⟨0xF00018, 0, 1,
   [F.SPK_STATE_state, F.SPK_STATE_patched, F.SPK_STATE_fused, F.SPK_STATE_wheel, F.SPK_STATE_place,
    F.SPK_STATE_last_test_s]⟩

-- Table 8.17 (08_spoke_arithmetic.md)
def F.SPK_ERR_ls_corr : Fld := ⟨0x3C000800, 0, 16, .rw1c, 0⟩
def F.SPK_ERR_acc_corr : Fld := ⟨0x3C000810, 16, 16, .rw1c, 0⟩
def F.SPK_ERR_ls_uncorr : Fld := ⟨0x3C000820, 32, 8, .rw1c, 0⟩
def F.SPK_ERR_acc_uncorr : Fld := ⟨0x3C000828, 40, 8, .rw1c, 0⟩
def F.SPK_ERR_stretch : Fld := ⟨0x3C000830, 48, 16, .rw1c, 0⟩
/-- SPK_ERR: 0xF00020. -/
def R.SPK_ERR : Reg :=
  ⟨0xF00020, 0, 1,
   [F.SPK_ERR_ls_corr, F.SPK_ERR_acc_corr, F.SPK_ERR_ls_uncorr, F.SPK_ERR_acc_uncorr, F.SPK_ERR_stretch]⟩

-- Table 9.10 (09_spoke_isa.md)
def F.SPK_ISA_isa_1_0 : Fld := ⟨0x3C000A00, 0, 1, .ro, 1⟩
def F.SPK_ISA_isa_1_1 : Fld := ⟨0x3C000A01, 1, 1, .ro, 1⟩
def F.SPK_ISA_ucode : Fld := ⟨0x3C000A10, 16, 16, .ro, 515⟩
def F.SPK_ISA_max_code : Fld := ⟨0x3C000A20, 32, 14, .ro, 8192⟩
def F.SPK_ISA_segments : Fld := ⟨0x3C000A30, 48, 6, .ro, 32⟩
/-- SPK_ISA: 0xF00028. -/
def R.SPK_ISA : Reg :=
  ⟨0xF00028, 0, 1,
   [F.SPK_ISA_isa_1_0, F.SPK_ISA_isa_1_1, F.SPK_ISA_ucode, F.SPK_ISA_max_code, F.SPK_ISA_segments]⟩

-- Table 9.11 (09_spoke_isa.md)
def F.SPK_CTX_slots_used : Fld := ⟨0x3C000C00, 0, 12, .ro, 0⟩
def F.SPK_CTX_stripes : Fld := ⟨0x3C000C0C, 12, 4, .ro, 0⟩
def F.SPK_CTX_copy_timeout_us : Fld := ⟨0x3C000C10, 16, 16, .rw, 100⟩
/-- SPK_CTX: 0xF00030. -/
def R.SPK_CTX : Reg :=
  ⟨0xF00030, 0, 1,
   [F.SPK_CTX_slots_used, F.SPK_CTX_stripes, F.SPK_CTX_copy_timeout_us]⟩

-- Table 9.12 (09_spoke_isa.md)
def F.SPK_FAULT_code : Fld := ⟨0x3C000E00, 0, 8, .ro, 0⟩
def F.SPK_FAULT_tenant : Fld := ⟨0x3C000E08, 8, 12, .ro, 0⟩
def F.SPK_FAULT_pc : Fld := ⟨0x3C000E14, 20, 13, .ro, 0⟩
def F.SPK_FAULT_valid : Fld := ⟨0x3C000E3F, 63, 1, .rw1c, 0⟩
/-- SPK_FAULT: 0xF00038. -/
def R.SPK_FAULT : Reg :=
  ⟨0xF00038, 0, 1,
   [F.SPK_FAULT_code, F.SPK_FAULT_tenant, F.SPK_FAULT_pc, F.SPK_FAULT_valid]⟩

-- Table 9.13 (09_spoke_isa.md)
def F.SPK_CNT_preempt : Fld := ⟨0x3C001000, 0, 16, .rw1c, 0⟩
def F.SPK_CNT_save_wait : Fld := ⟨0x3C001010, 16, 16, .rw1c, 0⟩
def F.SPK_CNT_step_redo : Fld := ⟨0x3C001020, 32, 8, .rw1c, 0⟩
def F.SPK_CNT_machine_repeat : Fld := ⟨0x3C001028, 40, 8, .rw1c, 0⟩
def F.SPK_CNT_prog_fault : Fld := ⟨0x3C001030, 48, 16, .rw1c, 0⟩
/-- SPK_CNT: 0xF00040. -/
def R.SPK_CNT : Reg :=
  ⟨0xF00040, 0, 1,
   [F.SPK_CNT_preempt, F.SPK_CNT_save_wait, F.SPK_CNT_step_redo, F.SPK_CNT_machine_repeat,
    F.SPK_CNT_prog_fault]⟩

-- Table 10.11 (10_text_unit.md)
def F.TXU_CAPS_cogs : Fld := ⟨0x18000000, 0, 5, .ro, 16⟩
def F.TXU_CAPS_max_v : Fld := ⟨0x18000008, 8, 21, .ro, 1048576⟩
def F.TXU_CAPS_lists : Fld := ⟨0x18000020, 32, 13, .ro, 4096⟩
def F.TXU_CAPS_states_log2 : Fld := ⟨0x18000030, 48, 8, .ro, 22⟩
def F.TXU_CAPS_cog_1_0 : Fld := ⟨0x18000038, 56, 1, .ro, 1⟩
def F.TXU_CAPS_list_1_0 : Fld := ⟨0x18000039, 57, 1, .ro, 1⟩
/-- TXU_CAPS: 0x600000. -/
def R.TXU_CAPS : Reg :=
  ⟨0x600000, 0, 1,
   [F.TXU_CAPS_cogs, F.TXU_CAPS_max_v, F.TXU_CAPS_lists, F.TXU_CAPS_states_log2, F.TXU_CAPS_cog_1_0,
    F.TXU_CAPS_list_1_0]⟩

-- Table 10.12 (10_text_unit.md)
def F.TXU_CNT_TEXT_invalid_bytes : Fld := ⟨0x18000200, 0, 16, .rw1c, 0⟩
def F.TXU_CNT_TEXT_nomatch_bytes : Fld := ⟨0x18000210, 16, 16, .rw1c, 0⟩
def F.TXU_CNT_TEXT_truncated : Fld := ⟨0x18000220, 32, 16, .rw1c, 0⟩
def F.TXU_CNT_TEXT_carry_drop : Fld := ⟨0x18000230, 48, 16, .rw1c, 0⟩
/-- TXU_CNT_TEXT: 0x600008. -/
def R.TXU_CNT_TEXT : Reg :=
  ⟨0x600008, 0, 1,
   [F.TXU_CNT_TEXT_invalid_bytes, F.TXU_CNT_TEXT_nomatch_bytes, F.TXU_CNT_TEXT_truncated,
    F.TXU_CNT_TEXT_carry_drop]⟩

-- Table 10.13 (10_text_unit.md)
def F.TXU_CNT_CLIST_dead_end : Fld := ⟨0x18000400, 0, 16, .rw1c, 0⟩
def F.TXU_CNT_CLIST_escapes : Fld := ⟨0x18000410, 16, 16, .rw1c, 0⟩
def F.TXU_CNT_CLIST_forced : Fld := ⟨0x18000420, 32, 16, .rw1c, 0⟩
def F.TXU_CNT_CLIST_clist_refused : Fld := ⟨0x18000430, 48, 16, .rw1c, 0⟩
/-- TXU_CNT_CLIST: 0x600010. -/
def R.TXU_CNT_CLIST : Reg :=
  ⟨0x600010, 0, 1,
   [F.TXU_CNT_CLIST_dead_end, F.TXU_CNT_CLIST_escapes, F.TXU_CNT_CLIST_forced,
    F.TXU_CNT_CLIST_clist_refused]⟩

-- Table 10.14 (10_text_unit.md)
def F.TXU_MEM_hbm_mib : Fld := ⟨0x18000600, 0, 32, .ro, 0⟩
def F.TXU_MEM_cache_miss : Fld := ⟨0x18000620, 32, 16, .rw1c, 0⟩
/-- TXU_MEM: 0x600018. -/
def R.TXU_MEM : Reg :=
  ⟨0x600018, 0, 1,
   [F.TXU_MEM_hbm_mib, F.TXU_MEM_cache_miss]⟩

-- Table 10.15 (10_text_unit.md)
def F.TXU_COG_SEL_cog : Fld := ⟨0x18000800, 0, 4, .rw, 0⟩
/-- TXU_COG_SEL: 0x600020. -/
def R.TXU_COG_SEL : Reg :=
  ⟨0x600020, 0, 1,
   [F.TXU_COG_SEL_cog]⟩

-- Table 10.16 (10_text_unit.md)
def F.TXU_COG_INFO_state : Fld := ⟨0x18000A00, 0, 2, .ro, 0⟩
def F.TXU_COG_INFO_shared : Fld := ⟨0x18000A02, 2, 1, .ro, 0⟩
def F.TXU_COG_INFO_owner : Fld := ⟨0x18000A04, 4, 12, .ro, 0⟩
def F.TXU_COG_INFO_v : Fld := ⟨0x18000A10, 16, 21, .ro, 0⟩
def F.TXU_COG_INFO_users : Fld := ⟨0x18000A25, 37, 27, .ro, 0⟩
/-- TXU_COG_INFO: 0x600028. -/
def R.TXU_COG_INFO : Reg :=
  ⟨0x600028, 0, 1,
   [F.TXU_COG_INFO_state, F.TXU_COG_INFO_shared, F.TXU_COG_INFO_owner, F.TXU_COG_INFO_v,
    F.TXU_COG_INFO_users]⟩

-- Table 10.17 (10_text_unit.md)
def F.TXU_COG_TOK_fb_base : Fld := ⟨0x18000C00, 0, 20, .ro, 0⟩
def F.TXU_COG_TOK_marker : Fld := ⟨0x18000C20, 32, 20, .ro, 0⟩
def F.TXU_COG_TOK_marker_valid : Fld := ⟨0x18000C34, 52, 1, .ro, 0⟩
/-- TXU_COG_TOK: 0x600030. -/
def R.TXU_COG_TOK : Reg :=
  ⟨0x600030, 0, 1,
   [F.TXU_COG_TOK_fb_base, F.TXU_COG_TOK_marker, F.TXU_COG_TOK_marker_valid]⟩

-- Table 10.18 (10_text_unit.md)
def F.TXU_LIST_SEL_list : Fld := ⟨0x18000E00, 0, 12, .rw, 0⟩
/-- TXU_LIST_SEL: 0x600038. -/
def R.TXU_LIST_SEL : Reg :=
  ⟨0x600038, 0, 1,
   [F.TXU_LIST_SEL_list]⟩

-- Table 10.19 (10_text_unit.md)
def F.TXU_LIST_INFO_state : Fld := ⟨0x18001000, 0, 2, .ro, 0⟩
def F.TXU_LIST_INFO_shared : Fld := ⟨0x18001002, 2, 1, .ro, 0⟩
def F.TXU_LIST_INFO_escape_mode : Fld := ⟨0x18001003, 3, 1, .ro, 0⟩
def F.TXU_LIST_INFO_owner : Fld := ⟨0x18001004, 4, 12, .ro, 0⟩
def F.TXU_LIST_INFO_states : Fld := ⟨0x18001010, 16, 23, .ro, 0⟩
def F.TXU_LIST_INFO_attach : Fld := ⟨0x18001027, 39, 25, .ro, 0⟩
/-- TXU_LIST_INFO: 0x600040. -/
def R.TXU_LIST_INFO : Reg :=
  ⟨0x600040, 0, 1,
   [F.TXU_LIST_INFO_state, F.TXU_LIST_INFO_shared, F.TXU_LIST_INFO_escape_mode, F.TXU_LIST_INFO_owner,
    F.TXU_LIST_INFO_states, F.TXU_LIST_INFO_attach]⟩

-- Table 10.20 (10_text_unit.md)
def F.TXU_DG_dg : Fld := ⟨0x18004000, 0, 64, .ro, 0⟩
/-- TXU_DG: 0x600100. -/
def R.TXU_DG : Reg :=
  ⟨0x600100, 8, 4,
   [F.TXU_DG_dg]⟩

-- Table 11.10 (11_vector_search.md)
def F.NMS_CAPS_indexes : Fld := ⟨0x1C000000, 0, 11, .ro, 1024⟩
def F.NMS_CAPS_max_k : Fld := ⟨0x1C000010, 16, 11, .ro, 1024⟩
def F.NMS_CAPS_max_log2 : Fld := ⟨0x1C000020, 32, 6, .ro, 34⟩
def F.NMS_CAPS_side_max : Fld := ⟨0x1C000028, 40, 17, .ro, 65536⟩
def F.NMS_CAPS_clauses : Fld := ⟨0x1C000039, 57, 4, .ro, 8⟩
/-- NMS_CAPS: 0x700000. -/
def R.NMS_CAPS : Reg :=
  ⟨0x700000, 0, 1,
   [F.NMS_CAPS_indexes, F.NMS_CAPS_max_k, F.NMS_CAPS_max_log2, F.NMS_CAPS_side_max, F.NMS_CAPS_clauses]⟩

-- Table 11.11 (11_vector_search.md)
def F.NMS_CFG_shard_timeout_us : Fld := ⟨0x1C000200, 0, 16, .rw, 2000⟩
def F.NMS_CFG_merge_at_pct : Fld := ⟨0x1C000210, 16, 7, .rw, 75⟩
/-- NMS_CFG: 0x700008. -/
def R.NMS_CFG : Reg :=
  ⟨0x700008, 0, 1,
   [F.NMS_CFG_shard_timeout_us, F.NMS_CFG_merge_at_pct]⟩

-- Table 11.12 (11_vector_search.md)
def F.NMS_CNT_partial : Fld := ⟨0x1C000400, 0, 16, .rw1c, 0⟩
def F.NMS_CNT_shard_missing : Fld := ⟨0x1C000410, 16, 16, .rw1c, 0⟩
def F.NMS_CNT_shard_late : Fld := ⟨0x1C000420, 32, 16, .rw1c, 0⟩
def F.NMS_CNT_gen_skip : Fld := ⟨0x1C000430, 48, 16, .rw1c, 0⟩
/-- NMS_CNT: 0x700010. -/
def R.NMS_CNT : Reg :=
  ⟨0x700010, 0, 1,
   [F.NMS_CNT_partial, F.NMS_CNT_shard_missing, F.NMS_CNT_shard_late, F.NMS_CNT_gen_skip]⟩

-- Table 11.13 (11_vector_search.md)
def F.NMS_CNT2_side_full : Fld := ⟨0x1C000600, 0, 16, .rw1c, 0⟩
def F.NMS_CNT2_del_miss : Fld := ⟨0x1C000610, 16, 16, .rw1c, 0⟩
def F.NMS_CNT2_merges : Fld := ⟨0x1C000620, 32, 16, .rw1c, 0⟩
/-- NMS_CNT2: 0x700018. -/
def R.NMS_CNT2 : Reg :=
  ⟨0x700018, 0, 1,
   [F.NMS_CNT2_side_full, F.NMS_CNT2_del_miss, F.NMS_CNT2_merges]⟩

-- Table 11.14 (11_vector_search.md)
def F.NMS_IDX_SEL_index : Fld := ⟨0x1C000800, 0, 10, .rw, 0⟩
/-- NMS_IDX_SEL: 0x700020. -/
def R.NMS_IDX_SEL : Reg :=
  ⟨0x700020, 0, 1,
   [F.NMS_IDX_SEL_index]⟩

-- Table 11.15 (11_vector_search.md)
def F.NMS_IDX_CFG_tenant : Fld := ⟨0x1C000A00, 0, 12, .rwl, 0⟩
def F.NMS_IDX_CFG_width : Fld := ⟨0x1C000A0C, 12, 2, .rwl, 0⟩
def F.NMS_IDX_CFG_graph : Fld := ⟨0x1C000A0E, 14, 1, .rwl, 0⟩
def F.NMS_IDX_CFG_degree : Fld := ⟨0x1C000A10, 16, 2, .rwl, 0⟩
def F.NMS_IDX_CFG_beam : Fld := ⟨0x1C000A20, 32, 11, .rwl, 64⟩
def F.NMS_IDX_CFG_max_log2 : Fld := ⟨0x1C000A30, 48, 6, .rwl, 20⟩
/-- NMS_IDX_CFG: 0x700028. -/
def R.NMS_IDX_CFG : Reg :=
  ⟨0x700028, 0, 1,
   [F.NMS_IDX_CFG_tenant, F.NMS_IDX_CFG_width, F.NMS_IDX_CFG_graph, F.NMS_IDX_CFG_degree,
    F.NMS_IDX_CFG_beam, F.NMS_IDX_CFG_max_log2]⟩

-- Table 11.16 (11_vector_search.md)
def F.NMS_IDX_CMD_cmd : Fld := ⟨0x1C000C00, 0, 2, .wo, 0⟩
/-- NMS_IDX_CMD: 0x700030. -/
def R.NMS_IDX_CMD : Reg :=
  ⟨0x700030, 0, 1,
   [F.NMS_IDX_CMD_cmd]⟩

-- Table 11.17 (11_vector_search.md)
def F.NMS_IDX_STAT_state : Fld := ⟨0x1C000E00, 0, 2, .ro, 0⟩
def F.NMS_IDX_STAT_merging : Fld := ⟨0x1C000E02, 2, 1, .ro, 0⟩
def F.NMS_IDX_STAT_damaged : Fld := ⟨0x1C000E03, 3, 1, .ro, 0⟩
def F.NMS_IDX_STAT_side_records : Fld := ⟨0x1C000E04, 4, 17, .ro, 0⟩
def F.NMS_IDX_STAT_slots : Fld := ⟨0x1C000E18, 24, 34, .ro, 0⟩
/-- NMS_IDX_STAT: 0x700038. -/
def R.NMS_IDX_STAT : Reg :=
  ⟨0x700038, 0, 1,
   [F.NMS_IDX_STAT_state, F.NMS_IDX_STAT_merging, F.NMS_IDX_STAT_damaged, F.NMS_IDX_STAT_side_records,
    F.NMS_IDX_STAT_slots]⟩

-- Table 11.18 (11_vector_search.md)
def F.NMS_IDX_VER_version : Fld := ⟨0x1C001000, 0, 32, .ro, 0⟩
def F.NMS_IDX_VER_extents : Fld := ⟨0x1C001020, 32, 32, .ro, 0⟩
/-- NMS_IDX_VER: 0x700040. -/
def R.NMS_IDX_VER : Reg :=
  ⟨0x700040, 0, 1,
   [F.NMS_IDX_VER_version, F.NMS_IDX_VER_extents]⟩

-- Table 11.19 (11_vector_search.md)
def F.NMS_IDX_SHARD_shards : Fld := ⟨0x1C004000, 0, 64, .rwl, 0⟩
/-- NMS_IDX_SHARD: 0x700100. -/
def R.NMS_IDX_SHARD : Reg :=
  ⟨0x700100, 8, 4,
   [F.NMS_IDX_SHARD_shards]⟩

-- Table 12.7 (12_memory_tiers.md)
def F.MEM_CAPS_stacks : Fld := ⟨0x20000000, 0, 4, .ro, 8⟩
def F.MEM_CAPS_channels : Fld := ⟨0x20000004, 4, 9, .ro, 256⟩
def F.MEM_CAPS_windows : Fld := ⟨0x20000010, 16, 8, .ro, 64⟩
def F.MEM_CAPS_nbr_ranges : Fld := ⟨0x20000018, 24, 8, .ro, 64⟩
/-- MEM_CAPS: 0x800000. -/
def R.MEM_CAPS : Reg :=
  ⟨0x800000, 0, 1,
   [F.MEM_CAPS_stacks, F.MEM_CAPS_channels, F.MEM_CAPS_windows, F.MEM_CAPS_nbr_ranges]⟩

-- Table 12.8 (12_memory_tiers.md)
def F.MEM_CFG_patrol_h : Fld := ⟨0x20000200, 0, 8, .rw, 24⟩
def F.MEM_CFG_ce_warn : Fld := ⟨0x20000210, 16, 16, .rw, 256⟩
/-- MEM_CFG: 0x800008. -/
def R.MEM_CFG : Reg :=
  ⟨0x800008, 0, 1,
   [F.MEM_CFG_patrol_h, F.MEM_CFG_ce_warn]⟩

-- Table 12.9 (12_memory_tiers.md)
def F.MEM_STAT_ce_warn_seen : Fld := ⟨0x20000400, 0, 1, .rw1c, 0⟩
def F.MEM_STAT_ue_seen : Fld := ⟨0x20000401, 1, 1, .rw1c, 0⟩
def F.MEM_STAT_integ_seen : Fld := ⟨0x20000402, 2, 1, .rw1c, 0⟩
def F.MEM_STAT_rekey_active : Fld := ⟨0x20000403, 3, 1, .ro, 0⟩
def F.MEM_STAT_integ_count : Fld := ⟨0x20000410, 16, 16, .rw1c, 0⟩
def F.MEM_STAT_patrol_cmp : Fld := ⟨0x20000420, 32, 16, .rw1c, 0⟩
/-- MEM_STAT: 0x800010. -/
def R.MEM_STAT : Reg :=
  ⟨0x800010, 0, 1,
   [F.MEM_STAT_ce_warn_seen, F.MEM_STAT_ue_seen, F.MEM_STAT_integ_seen, F.MEM_STAT_rekey_active,
    F.MEM_STAT_integ_count, F.MEM_STAT_patrol_cmp]⟩

-- Table 12.10 (12_memory_tiers.md)
def F.MEM_CNT_ECC_ce_total : Fld := ⟨0x20000600, 0, 32, .rw1c, 0⟩
def F.MEM_CNT_ECC_ue_total : Fld := ⟨0x20000620, 32, 16, .rw1c, 0⟩
def F.MEM_CNT_ECC_patrol_passes : Fld := ⟨0x20000630, 48, 16, .ro, 0⟩
/-- MEM_CNT_ECC: 0x800018. -/
def R.MEM_CNT_ECC : Reg :=
  ⟨0x800018, 0, 1,
   [F.MEM_CNT_ECC_ce_total, F.MEM_CNT_ECC_ue_total, F.MEM_CNT_ECC_patrol_passes]⟩

-- Table 12.11 (12_memory_tiers.md)
def F.MEM_KEY_SEL_tenant : Fld := ⟨0x20000800, 0, 12, .rw, 0⟩
/-- MEM_KEY_SEL: 0x800020. -/
def R.MEM_KEY_SEL : Reg :=
  ⟨0x800020, 0, 1,
   [F.MEM_KEY_SEL_tenant]⟩

-- Table 12.12 (12_memory_tiers.md)
def F.MEM_KEY_STAT_current : Fld := ⟨0x20000A00, 0, 8, .ro, 0⟩
def F.MEM_KEY_STAT_retiring : Fld := ⟨0x20000A08, 8, 8, .ro, 0⟩
def F.MEM_KEY_STAT_rotating : Fld := ⟨0x20000A10, 16, 1, .ro, 0⟩
def F.MEM_KEY_STAT_units_left : Fld := ⟨0x20000A20, 32, 32, .ro, 0⟩
/-- MEM_KEY_STAT: 0x800028. -/
def R.MEM_KEY_STAT : Reg :=
  ⟨0x800028, 0, 1,
   [F.MEM_KEY_STAT_current, F.MEM_KEY_STAT_retiring, F.MEM_KEY_STAT_rotating, F.MEM_KEY_STAT_units_left]⟩

-- Table 12.13 (12_memory_tiers.md)
def F.MEM_KEY_CMD_cmd : Fld := ⟨0x20000C00, 0, 2, .wo, 0⟩
/-- MEM_KEY_CMD: 0x800030. -/
def R.MEM_KEY_CMD : Reg :=
  ⟨0x800030, 0, 1,
   [F.MEM_KEY_CMD_cmd]⟩

-- Table 12.14 (12_memory_tiers.md)
def F.MEM_HWIN_SEL_window : Fld := ⟨0x20000E00, 0, 6, .rw, 0⟩
/-- MEM_HWIN_SEL: 0x800038. -/
def R.MEM_HWIN_SEL : Reg :=
  ⟨0x800038, 0, 1,
   [F.MEM_HWIN_SEL_window]⟩

-- Table 12.15 (12_memory_tiers.md)
def F.MEM_HWIN_ADDR_base : Fld := ⟨0x20001015, 21, 31, .rwl, 0⟩
/-- MEM_HWIN_ADDR: 0x800040. -/
def R.MEM_HWIN_ADDR : Reg :=
  ⟨0x800040, 0, 1,
   [F.MEM_HWIN_ADDR_base]⟩

-- Table 12.16 (12_memory_tiers.md)
def F.MEM_HWIN_CFG_enable : Fld := ⟨0x20001200, 0, 1, .rwl, 0⟩
def F.MEM_HWIN_CFG_tier : Fld := ⟨0x20001201, 1, 1, .rwl, 0⟩
def F.MEM_HWIN_CFG_all_tenants : Fld := ⟨0x20001202, 2, 1, .rwl, 0⟩
def F.MEM_HWIN_CFG_tenant : Fld := ⟨0x20001204, 4, 12, .rwl, 0⟩
def F.MEM_HWIN_CFG_size_2m : Fld := ⟨0x20001210, 16, 22, .rwl, 0⟩
def F.MEM_HWIN_CFG_in_use : Fld := ⟨0x20001226, 38, 22, .ro, 0⟩
/-- MEM_HWIN_CFG: 0x800048. -/
def R.MEM_HWIN_CFG : Reg :=
  ⟨0x800048, 0, 1,
   [F.MEM_HWIN_CFG_enable, F.MEM_HWIN_CFG_tier, F.MEM_HWIN_CFG_all_tenants, F.MEM_HWIN_CFG_tenant,
    F.MEM_HWIN_CFG_size_2m, F.MEM_HWIN_CFG_in_use]⟩

-- Table 12.17 (12_memory_tiers.md)
def F.MEM_HWIN_TAG_tag_base : Fld := ⟨0x20001412, 18, 34, .rwl, 0⟩
/-- MEM_HWIN_TAG: 0x800050. -/
def R.MEM_HWIN_TAG : Reg :=
  ⟨0x800050, 0, 1,
   [F.MEM_HWIN_TAG_tag_base]⟩

-- Table 12.18 (12_memory_tiers.md)
def F.MEM_NBR_SEL_range : Fld := ⟨0x20001600, 0, 6, .rw, 0⟩
def F.MEM_NBR_SEL_dir : Fld := ⟨0x20001606, 6, 1, .rw, 0⟩
/-- MEM_NBR_SEL: 0x800058. -/
def R.MEM_NBR_SEL : Reg :=
  ⟨0x800058, 0, 1,
   [F.MEM_NBR_SEL_range, F.MEM_NBR_SEL_dir]⟩

-- Table 12.19 (12_memory_tiers.md)
def F.MEM_NBR_INFO_module : Fld := ⟨0x20001800, 0, 8, .ro, 0⟩
def F.MEM_NBR_INFO_state : Fld := ⟨0x20001808, 8, 2, .ro, 0⟩
def F.MEM_NBR_INFO_size_2m : Fld := ⟨0x20001820, 32, 22, .ro, 0⟩
/-- MEM_NBR_INFO: 0x800060. -/
def R.MEM_NBR_INFO : Reg :=
  ⟨0x800060, 0, 1,
   [F.MEM_NBR_INFO_module, F.MEM_NBR_INFO_state, F.MEM_NBR_INFO_size_2m]⟩

-- Table 12.20 (12_memory_tiers.md)
def F.MEM_FAULT_kind : Fld := ⟨0x20001A00, 0, 4, .ro, 0⟩
def F.MEM_FAULT_tenant : Fld := ⟨0x20001A04, 4, 12, .ro, 0⟩
def F.MEM_FAULT_tier : Fld := ⟨0x20001A10, 16, 3, .ro, 0⟩
def F.MEM_FAULT_channel : Fld := ⟨0x20001A13, 19, 8, .ro, 0⟩
def F.MEM_FAULT_poisoned : Fld := ⟨0x20001A1B, 27, 1, .ro, 0⟩
def F.MEM_FAULT_valid : Fld := ⟨0x20001A3F, 63, 1, .rw1c, 0⟩
/-- MEM_FAULT: 0x800068. -/
def R.MEM_FAULT : Reg :=
  ⟨0x800068, 0, 1,
   [F.MEM_FAULT_kind, F.MEM_FAULT_tenant, F.MEM_FAULT_tier, F.MEM_FAULT_channel, F.MEM_FAULT_poisoned,
    F.MEM_FAULT_valid]⟩

-- Table 12.21 (12_memory_tiers.md)
def F.MEM_CH_SEL_channel : Fld := ⟨0x20001C00, 0, 8, .rw, 0⟩
/-- MEM_CH_SEL: 0x800070. -/
def R.MEM_CH_SEL : Reg :=
  ⟨0x800070, 0, 1,
   [F.MEM_CH_SEL_channel]⟩

-- Table 12.22 (12_memory_tiers.md)
def F.MEM_CH_STAT_ce_hour : Fld := ⟨0x20001E00, 0, 16, .ro, 0⟩
def F.MEM_CH_STAT_ce_total : Fld := ⟨0x20001E10, 16, 16, .rw1c, 0⟩
def F.MEM_CH_STAT_ue : Fld := ⟨0x20001E20, 32, 8, .rw1c, 0⟩
/-- MEM_CH_STAT: 0x800078. -/
def R.MEM_CH_STAT : Reg :=
  ⟨0x800078, 0, 1,
   [F.MEM_CH_STAT_ce_hour, F.MEM_CH_STAT_ce_total, F.MEM_CH_STAT_ue]⟩

-- Table 13.12 (13_links_composition.md)
def F.FLL_CAPS_proto : Fld := ⟨0x24000000, 0, 8, .ro, 7⟩
def F.FLL_CAPS_first_port : Fld := ⟨0x24000008, 8, 5, .ro, 0⟩
def F.FLL_CAPS_ports : Fld := ⟨0x2400000D, 13, 5, .ro, 4⟩
def F.FLL_CAPS_lanes : Fld := ⟨0x24000012, 18, 4, .ro, 9⟩
/-- FLL_CAPS: 0x900000. -/
def R.FLL_CAPS : Reg :=
  ⟨0x900000, 0, 1,
   [F.FLL_CAPS_proto, F.FLL_CAPS_first_port, F.FLL_CAPS_ports, F.FLL_CAPS_lanes]⟩

def F.STL_CAPS_proto : Fld := ⟨0x28000000, 0, 8, .ro, 3⟩
def F.STL_CAPS_first_port : Fld := ⟨0x28000008, 8, 5, .ro, 4⟩
def F.STL_CAPS_ports : Fld := ⟨0x2800000D, 13, 5, .ro, 14⟩
def F.STL_CAPS_lanes : Fld := ⟨0x28000012, 18, 4, .ro, 9⟩
/-- STL_CAPS: 0xA00000. -/
def R.STL_CAPS : Reg :=
  ⟨0xA00000, 0, 1,
   [F.STL_CAPS_proto, F.STL_CAPS_first_port, F.STL_CAPS_ports, F.STL_CAPS_lanes]⟩

-- Table 13.13 (13_links_composition.md)
def F.FLL_PORT_CTRL_enable : Fld := ⟨0x24000400, 0, 1, .rw, 1⟩
def F.FLL_PORT_CTRL_retrain : Fld := ⟨0x24000401, 1, 1, .wo, 0⟩
def F.FLL_PORT_CTRL_retry_ms : Fld := ⟨0x24000408, 8, 16, .rw, 100⟩
def F.FLL_PORT_CTRL_swap_thresh : Fld := ⟨0x24000418, 24, 16, .rw, 1024⟩
/-- FLL_PORT_CTRL: 0x900010. -/
def R.FLL_PORT_CTRL : Reg :=
  ⟨0x900010, 0, 1,
   [F.FLL_PORT_CTRL_enable, F.FLL_PORT_CTRL_retrain, F.FLL_PORT_CTRL_retry_ms,
    F.FLL_PORT_CTRL_swap_thresh]⟩

/-- STL_PORT_CTRL: 0xA00010. -/
def R.STL_PORT_CTRL : Reg :=
  ⟨0xA00010, 0, 1,
   [F.FLL_PORT_CTRL_enable, F.FLL_PORT_CTRL_retrain, F.FLL_PORT_CTRL_retry_ms,
    F.FLL_PORT_CTRL_swap_thresh]⟩

-- Table 13.14 (13_links_composition.md)
def F.FLL_PORT_STAT_state : Fld := ⟨0x24000600, 0, 3, .ro, 0⟩
def F.FLL_PORT_STAT_err : Fld := ⟨0x24000603, 3, 4, .ro, 0⟩
def F.FLL_PORT_STAT_lanes_bad : Fld := ⟨0x24000608, 8, 9, .ro, 0⟩
def F.FLL_PORT_STAT_spare_for : Fld := ⟨0x24000611, 17, 4, .ro, 15⟩
def F.FLL_PORT_STAT_version : Fld := ⟨0x24000618, 24, 8, .ro, 0⟩
def F.FLL_PORT_STAT_up_s : Fld := ⟨0x24000620, 32, 32, .ro, 0⟩
/-- FLL_PORT_STAT: 0x900018. -/
def R.FLL_PORT_STAT : Reg :=
  ⟨0x900018, 0, 1,
   [F.FLL_PORT_STAT_state, F.FLL_PORT_STAT_err, F.FLL_PORT_STAT_lanes_bad, F.FLL_PORT_STAT_spare_for,
    F.FLL_PORT_STAT_version, F.FLL_PORT_STAT_up_s]⟩

/-- STL_PORT_STAT: 0xA00018. -/
def R.STL_PORT_STAT : Reg :=
  ⟨0xA00018, 0, 1,
   [F.FLL_PORT_STAT_state, F.FLL_PORT_STAT_err, F.FLL_PORT_STAT_lanes_bad, F.FLL_PORT_STAT_spare_for,
    F.FLL_PORT_STAT_version, F.FLL_PORT_STAT_up_s]⟩

-- Table 13.15 (13_links_composition.md)
def F.FLL_PORT_CNT_fec_uncorr : Fld := ⟨0x24000800, 0, 16, .rw1c, 0⟩
def F.FLL_PORT_CNT_replays : Fld := ⟨0x24000810, 16, 16, .rw1c, 0⟩
def F.FLL_PORT_CNT_retrains : Fld := ⟨0x24000820, 32, 16, .rw1c, 0⟩
def F.FLL_PORT_CNT_lane_swaps : Fld := ⟨0x24000830, 48, 8, .rw1c, 0⟩
/-- FLL_PORT_CNT: 0x900020. -/
def R.FLL_PORT_CNT : Reg :=
  ⟨0x900020, 0, 1,
   [F.FLL_PORT_CNT_fec_uncorr, F.FLL_PORT_CNT_replays, F.FLL_PORT_CNT_retrains,
    F.FLL_PORT_CNT_lane_swaps]⟩

/-- STL_PORT_CNT: 0xA00020. -/
def R.STL_PORT_CNT : Reg :=
  ⟨0xA00020, 0, 1,
   [F.FLL_PORT_CNT_fec_uncorr, F.FLL_PORT_CNT_replays, F.FLL_PORT_CNT_retrains,
    F.FLL_PORT_CNT_lane_swaps]⟩

-- Table 13.16 (13_links_composition.md)
def F.FLL_PORT_SEL_port : Fld := ⟨0x24000200, 0, 5, .rw, 0⟩
/-- FLL_PORT_SEL: 0x900008. -/
def R.FLL_PORT_SEL : Reg :=
  ⟨0x900008, 0, 1,
   [F.FLL_PORT_SEL_port]⟩

def F.STL_PORT_SEL_port : Fld := ⟨0x28000200, 0, 5, .rw, 4⟩
/-- STL_PORT_SEL: 0xA00008. -/
def R.STL_PORT_SEL : Reg :=
  ⟨0xA00008, 0, 1,
   [F.STL_PORT_SEL_port]⟩

-- Table 13.17 (13_links_composition.md)
def F.STL_PEER_module : Fld := ⟨0x28000A00, 0, 8, .ro, 0⟩
def F.STL_PEER_valid : Fld := ⟨0x28000A08, 8, 1, .ro, 0⟩
def F.STL_PEER_homing : Fld := ⟨0x28000A09, 9, 1, .ro, 0⟩
def F.STL_PEER_pannier : Fld := ⟨0x28000A10, 16, 8, .ro, 0⟩
def F.STL_PEER_chain_isa : Fld := ⟨0x28000A18, 24, 8, .ro, 0⟩
def F.STL_PEER_spoke_isa : Fld := ⟨0x28000A20, 32, 8, .ro, 0⟩
def F.STL_PEER_overlay : Fld := ⟨0x28000A28, 40, 8, .ro, 0⟩
def F.STL_PEER_ucode : Fld := ⟨0x28000A30, 48, 16, .ro, 0⟩
/-- STL_PEER: 0xA00028. -/
def R.STL_PEER : Reg :=
  ⟨0xA00028, 0, 1,
   [F.STL_PEER_module, F.STL_PEER_valid, F.STL_PEER_homing, F.STL_PEER_pannier, F.STL_PEER_chain_isa,
    F.STL_PEER_spoke_isa, F.STL_PEER_overlay, F.STL_PEER_ucode]⟩

-- Table 13.18 (13_links_composition.md)
def F.STL_CLASS_W_w_tandem : Fld := ⟨0x28000C00, 0, 8, .rw, 64⟩
def F.STL_CLASS_W_w_move : Fld := ⟨0x28000C08, 8, 8, .rw, 32⟩
def F.STL_CLASS_W_w_tier : Fld := ⟨0x28000C10, 16, 8, .rw, 64⟩
def F.STL_CLASS_W_w_search : Fld := ⟨0x28000C18, 24, 8, .rw, 16⟩
/-- STL_CLASS_W: 0xA00030. -/
def R.STL_CLASS_W : Reg :=
  ⟨0xA00030, 0, 1,
   [F.STL_CLASS_W_w_tandem, F.STL_CLASS_W_w_move, F.STL_CLASS_W_w_tier, F.STL_CLASS_W_w_search]⟩

-- Table 13.19 (13_links_composition.md)
def F.TSH_SEL_index : Fld := ⟨0x2C000000, 0, 16, .rw, 0⟩
def F.TSH_SEL_kind : Fld := ⟨0x2C000010, 16, 2, .rw, 0⟩
/-- TSH_SEL: 0xB00000. -/
def R.TSH_SEL : Reg :=
  ⟨0xB00000, 0, 1,
   [F.TSH_SEL_index, F.TSH_SEL_kind]⟩

-- Table 13.20 (13_links_composition.md)
def F.TSH_CFG_rate_mbs : Fld := ⟨0x2C000200, 0, 24, .rw, 0⟩
def F.TSH_CFG_burst_kib : Fld := ⟨0x2C000218, 24, 16, .rw, 64⟩
def F.TSH_CFG_overhead : Fld := ⟨0x2C000228, 40, 8, .rw, 0⟩
def F.TSH_CFG_mode : Fld := ⟨0x2C000230, 48, 1, .rw, 0⟩
def F.TSH_CFG_reset_to : Fld := ⟨0x2C000231, 49, 1, .rw, 1⟩
/-- TSH_CFG: 0xB00008. -/
def R.TSH_CFG : Reg :=
  ⟨0xB00008, 0, 1,
   [F.TSH_CFG_rate_mbs, F.TSH_CFG_burst_kib, F.TSH_CFG_overhead, F.TSH_CFG_mode, F.TSH_CFG_reset_to]⟩

-- Table 13.21 (13_links_composition.md)
def F.TSH_STAT_tokens : Fld := ⟨0x2C000400, 0, 32, .ro, 0⟩
def F.TSH_STAT_drops : Fld := ⟨0x2C000420, 32, 16, .rw1c, 0⟩
def F.TSH_STAT_held : Fld := ⟨0x2C000430, 48, 16, .rw1c, 0⟩
/-- TSH_STAT: 0xB00010. -/
def R.TSH_STAT : Reg :=
  ⟨0xB00010, 0, 1,
   [F.TSH_STAT_tokens, F.TSH_STAT_drops, F.TSH_STAT_held]⟩

-- Table 13.22 (13_links_composition.md)
def F.CMP_ID_module_id : Fld := ⟨0x30000000, 0, 8, .rwl, 0⟩
def F.CMP_ID_in_domain : Fld := ⟨0x30000008, 8, 1, .ro, 0⟩
def F.CMP_ID_coordinator : Fld := ⟨0x30000009, 9, 1, .ro, 0⟩
def F.CMP_ID_isolated : Fld := ⟨0x3000000A, 10, 1, .ro, 0⟩
def F.CMP_ID_auto_remove : Fld := ⟨0x3000000B, 11, 1, .rw, 1⟩
/-- CMP_ID: 0xC00000. -/
def R.CMP_ID : Reg :=
  ⟨0xC00000, 0, 1,
   [F.CMP_ID_module_id, F.CMP_ID_in_domain, F.CMP_ID_coordinator, F.CMP_ID_isolated,
    F.CMP_ID_auto_remove]⟩

-- Table 13.23 (13_links_composition.md)
def F.CMP_CFG_dead_ms : Fld := ⟨0x30000200, 0, 16, .rw, 10⟩
def F.CMP_CFG_prep_timeout_ms : Fld := ⟨0x30000210, 16, 16, .rw, 50⟩
/-- CMP_CFG: 0xC00008. -/
def R.CMP_CFG : Reg :=
  ⟨0xC00008, 0, 1,
   [F.CMP_CFG_dead_ms, F.CMP_CFG_prep_timeout_ms]⟩

-- Table 13.24 (13_links_composition.md)
def F.CMP_EPOCH_epoch : Fld := ⟨0x30000400, 0, 32, .ro, 0⟩
def F.CMP_EPOCH_served : Fld := ⟨0x30000420, 32, 8, .ro, 0⟩
def F.CMP_EPOCH_serving : Fld := ⟨0x30000428, 40, 1, .ro, 0⟩
/-- CMP_EPOCH: 0xC00010. -/
def R.CMP_EPOCH : Reg :=
  ⟨0xC00010, 0, 1,
   [F.CMP_EPOCH_epoch, F.CMP_EPOCH_served, F.CMP_EPOCH_serving]⟩

-- Table 13.25 (13_links_composition.md)
def F.CMP_STAT_change : Fld := ⟨0x30000600, 0, 2, .ro, 0⟩
def F.CMP_STAT_coord : Fld := ⟨0x30000602, 2, 8, .ro, 0⟩
def F.CMP_STAT_err : Fld := ⟨0x3000060A, 10, 4, .ro, 0⟩
def F.CMP_STAT_drain : Fld := ⟨0x30000620, 32, 32, .ro, 0⟩
/-- CMP_STAT: 0xC00018. -/
def R.CMP_STAT : Reg :=
  ⟨0xC00018, 0, 1,
   [F.CMP_STAT_change, F.CMP_STAT_coord, F.CMP_STAT_err, F.CMP_STAT_drain]⟩

-- Table 13.26 (13_links_composition.md)
def F.CMP_CNT_redirect_count : Fld := ⟨0x30000800, 0, 16, .rw1c, 0⟩
def F.CMP_CNT_epoch_wait : Fld := ⟨0x30000810, 16, 16, .rw1c, 0⟩
def F.CMP_CNT_aborts : Fld := ⟨0x30000820, 32, 16, .rw1c, 0⟩
def F.CMP_CNT_handovers : Fld := ⟨0x30000830, 48, 16, .rw1c, 0⟩
/-- CMP_CNT: 0xC00020. -/
def R.CMP_CNT : Reg :=
  ⟨0xC00020, 0, 1,
   [F.CMP_CNT_redirect_count, F.CMP_CNT_epoch_wait, F.CMP_CNT_aborts, F.CMP_CNT_handovers]⟩

-- Table 13.27 (13_links_composition.md)
def F.CMP_CMD_cmd : Fld := ⟨0x30000A00, 0, 2, .wo, 0⟩
/-- CMP_CMD: 0xC00028. -/
def R.CMP_CMD : Reg :=
  ⟨0xC00028, 0, 1,
   [F.CMP_CMD_cmd]⟩

-- Table 13.28 (13_links_composition.md)
def F.CMP_ENT_SEL_entry : Fld := ⟨0x30000C00, 0, 13, .rw, 0⟩
def F.CMP_ENT_SEL_member : Fld := ⟨0x30000C0D, 13, 1, .rw, 0⟩
def F.CMP_ENT_SEL_staged : Fld := ⟨0x30000C0E, 14, 1, .rw, 0⟩
/-- CMP_ENT_SEL: 0xC00030. -/
def R.CMP_ENT_SEL : Reg :=
  ⟨0xC00030, 0, 1,
   [F.CMP_ENT_SEL_entry, F.CMP_ENT_SEL_member, F.CMP_ENT_SEL_staged]⟩

-- Table 13.29 (13_links_composition.md)
def F.CMP_ENT_WIN_word : Fld := ⟨0x30004000, 0, 64, .rw, 0⟩
/-- CMP_ENT_WIN: 0xC00100. -/
def R.CMP_ENT_WIN : Reg :=
  ⟨0xC00100, 8, 4,
   [F.CMP_ENT_WIN_word]⟩

-- Table 14.9 (14_tenancy_scheduling.md)
def F.MOD_TEN_SEL_tenant : Fld := ⟨0xC00, 0, 12, .rw, 0⟩
/-- MOD_TEN_SEL: 0x30. -/
def R.MOD_TEN_SEL : Reg :=
  ⟨0x30, 0, 1,
   [F.MOD_TEN_SEL_tenant]⟩

-- Table 14.10 (14_tenancy_scheduling.md)
def F.MOD_TEN_CMD_cmd : Fld := ⟨0xE00, 0, 2, .wo, 0⟩
/-- MOD_TEN_CMD: 0x38. -/
def R.MOD_TEN_CMD : Reg :=
  ⟨0x38, 0, 1,
   [F.MOD_TEN_CMD_cmd]⟩

-- Table 14.11 (14_tenancy_scheduling.md)
def F.MOD_TEN_STAT_tstate : Fld := ⟨0x1000, 0, 2, .ro, 0⟩
def F.MOD_TEN_STAT_reset_refused : Fld := ⟨0x1002, 2, 1, .rw1c, 0⟩
def F.MOD_TEN_STAT_last_fault : Fld := ⟨0x1008, 8, 8, .ro, 0⟩
def F.MOD_TEN_STAT_ctx_faults : Fld := ⟨0x1010, 16, 16, .rw1c, 0⟩
def F.MOD_TEN_STAT_fault_s : Fld := ⟨0x1020, 32, 32, .ro, 0⟩
/-- MOD_TEN_STAT: 0x40. -/
def R.MOD_TEN_STAT : Reg :=
  ⟨0x40, 0, 1,
   [F.MOD_TEN_STAT_tstate, F.MOD_TEN_STAT_reset_refused, F.MOD_TEN_STAT_last_fault,
    F.MOD_TEN_STAT_ctx_faults, F.MOD_TEN_STAT_fault_s]⟩

-- Table 14.12 (14_tenancy_scheduling.md)
def F.MOD_OVL_DG_dg : Fld := ⟨0x4000, 0, 64, .ro, 0⟩
/-- MOD_OVL_DG: 0x100. -/
def R.MOD_OVL_DG : Reg :=
  ⟨0x100, 8, 4,
   [F.MOD_OVL_DG_dg]⟩

-- Table 14.13 (14_tenancy_scheduling.md)
def F.STE_SLOT_SEL_slot : Fld := ⟨0x14001600, 0, 8, .rw, 0⟩
/-- STE_SLOT_SEL: 0x500058. -/
def R.STE_SLOT_SEL : Reg :=
  ⟨0x500058, 0, 1,
   [F.STE_SLOT_SEL_slot]⟩

-- Table 14.14 (14_tenancy_scheduling.md)
def F.STE_SLOT_INFO_state : Fld := ⟨0x14001800, 0, 2, .ro, 0⟩
def F.STE_SLOT_INFO_draft : Fld := ⟨0x14001802, 2, 1, .ro, 0⟩
def F.STE_SLOT_INFO_tuning : Fld := ⟨0x14001803, 3, 1, .ro, 0⟩
def F.STE_SLOT_INFO_shared : Fld := ⟨0x14001804, 4, 1, .ro, 0⟩
def F.STE_SLOT_INFO_owner : Fld := ⟨0x14001808, 8, 12, .ro, 0⟩
def F.STE_SLOT_INFO_geom_class : Fld := ⟨0x14001814, 20, 8, .ro, 0⟩
def F.STE_SLOT_INFO_versions : Fld := ⟨0x14001820, 32, 8, .ro, 0⟩
def F.STE_SLOT_INFO_sessions : Fld := ⟨0x14001828, 40, 24, .ro, 0⟩
/-- STE_SLOT_INFO: 0x500060. -/
def R.STE_SLOT_INFO : Reg :=
  ⟨0x500060, 0, 1,
   [F.STE_SLOT_INFO_state, F.STE_SLOT_INFO_draft, F.STE_SLOT_INFO_tuning, F.STE_SLOT_INFO_shared,
    F.STE_SLOT_INFO_owner, F.STE_SLOT_INFO_geom_class, F.STE_SLOT_INFO_versions,
    F.STE_SLOT_INFO_sessions]⟩

-- Table 14.15 (14_tenancy_scheduling.md)
def F.STE_SCHED_slice_ms : Fld := ⟨0x14001A00, 0, 16, .rw, 100⟩
def F.STE_SCHED_pel_evict : Fld := ⟨0x14001A10, 16, 16, .rw1c, 0⟩
def F.STE_SCHED_preempt_pel : Fld := ⟨0x14001A20, 32, 16, .rw1c, 0⟩
/-- STE_SCHED: 0x500068. -/
def R.STE_SCHED : Reg :=
  ⟨0x500068, 0, 1,
   [F.STE_SCHED_slice_ms, F.STE_SCHED_pel_evict, F.STE_SCHED_preempt_pel]⟩

-- Table 14.16 (14_tenancy_scheduling.md)
def F.STE_TQ_SCHED_prio : Fld := ⟨0x14400000, 0, 2, .rwl, 2⟩
def F.STE_TQ_SCHED_max_pel : Fld := ⟨0x14400004, 4, 4, .rwl, 2⟩
def F.STE_TQ_SCHED_auto_restart : Fld := ⟨0x14400008, 8, 1, .rwl, 0⟩
def F.STE_TQ_SCHED_restart_ms : Fld := ⟨0x14400010, 16, 16, .rwl, 1000⟩
def F.STE_TQ_SCHED_model_gib : Fld := ⟨0x14400020, 32, 16, .rwl, 0⟩
def F.STE_TQ_SCHED_model_used_gib : Fld := ⟨0x14400030, 48, 16, .ro, 0⟩
/-- STE_TQ_SCHED: 0x510000. -/
def R.STE_TQ_SCHED : Reg :=
  ⟨0x510000, 16, 4096,
   [F.STE_TQ_SCHED_prio, F.STE_TQ_SCHED_max_pel, F.STE_TQ_SCHED_auto_restart, F.STE_TQ_SCHED_restart_ms,
    F.STE_TQ_SCHED_model_gib, F.STE_TQ_SCHED_model_used_gib]⟩

-- Table 15.13 (15_security.md)
def F.RTP_STAT_ready : Fld := ⟨0x400000, 0, 1, .ro, 0⟩
def F.RTP_STAT_conf : Fld := ⟨0x400001, 1, 1, .ro, 0⟩
def F.RTP_STAT_owned : Fld := ⟨0x400002, 2, 1, .ro, 0⟩
def F.RTP_STAT_fallback : Fld := ⟨0x400003, 3, 1, .ro, 0⟩
def F.RTP_STAT_slot_b : Fld := ⟨0x400004, 4, 3, .ro, 0⟩
def F.RTP_STAT_debug_open : Fld := ⟨0x400007, 7, 1, .ro, 0⟩
def F.RTP_STAT_queue : Fld := ⟨0x400010, 16, 16, .ro, 0⟩
def F.RTP_STAT_boots : Fld := ⟨0x400020, 32, 32, .ro, 0⟩
/-- RTP_STAT: 0x10000. -/
def R.RTP_STAT : Reg :=
  ⟨0x10000, 0, 1,
   [F.RTP_STAT_ready, F.RTP_STAT_conf, F.RTP_STAT_owned, F.RTP_STAT_fallback, F.RTP_STAT_slot_b,
    F.RTP_STAT_debug_open, F.RTP_STAT_queue, F.RTP_STAT_boots]⟩

-- Table 15.14 (15_security.md)
def F.RTP_CFG_conf_next : Fld := ⟨0x400200, 0, 1, .rw, 0⟩
def F.RTP_CFG_trace_en : Fld := ⟨0x400201, 1, 1, .rw, 0⟩
/-- RTP_CFG: 0x10008. -/
def R.RTP_CFG : Reg :=
  ⟨0x10008, 0, 1,
   [F.RTP_CFG_conf_next, F.RTP_CFG_trace_en]⟩

-- Table 15.15 (15_security.md)
def F.RTP_RATCHET_rtp_fw : Fld := ⟨0x400400, 0, 8, .ro, 0⟩
def F.RTP_RATCHET_hub_fw : Fld := ⟨0x400408, 8, 8, .ro, 0⟩
def F.RTP_RATCHET_ucode : Fld := ⟨0x400410, 16, 8, .ro, 0⟩
def F.RTP_RATCHET_owner : Fld := ⟨0x400418, 24, 8, .ro, 0⟩
/-- RTP_RATCHET: 0x10010. -/
def R.RTP_RATCHET : Reg :=
  ⟨0x10010, 0, 1,
   [F.RTP_RATCHET_rtp_fw, F.RTP_RATCHET_hub_fw, F.RTP_RATCHET_ucode, F.RTP_RATCHET_owner]⟩

-- Table 15.16 (15_security.md)
def F.RTP_NONCE_nonce : Fld := ⟨0x400600, 0, 64, .ro, 0⟩
/-- RTP_NONCE: 0x10018. -/
def R.RTP_NONCE : Reg :=
  ⟨0x10018, 0, 1,
   [F.RTP_NONCE_nonce]⟩

-- Table 15.17 (15_security.md)
def F.RTP_CMD_ADDR_addr : Fld := ⟨0x400806, 6, 46, .rw, 0⟩
/-- RTP_CMD_ADDR: 0x10020. -/
def R.RTP_CMD_ADDR : Reg :=
  ⟨0x10020, 0, 1,
   [F.RTP_CMD_ADDR_addr]⟩

def F.RTP_REQ_ADDR_addr : Fld := ⟨0x401006, 6, 46, .rw, 0⟩
/-- RTP_REQ_ADDR: 0x10040. -/
def R.RTP_REQ_ADDR : Reg :=
  ⟨0x10040, 0, 1,
   [F.RTP_REQ_ADDR_addr]⟩

-- Table 15.18 (15_security.md)
def F.RTP_CMD_cmd : Fld := ⟨0x400A00, 0, 3, .wo, 0⟩
def F.RTP_CMD_comp : Fld := ⟨0x400A03, 3, 2, .wo, 0⟩
def F.RTP_CMD_tenant : Fld := ⟨0x400A08, 8, 12, .wo, 0⟩
def F.RTP_CMD_state : Fld := ⟨0x400A14, 20, 2, .ro, 0⟩
def F.RTP_CMD_err : Fld := ⟨0x400A16, 22, 4, .ro, 0⟩
def F.RTP_CMD_len_64 : Fld := ⟨0x400A20, 32, 24, .wo, 0⟩
/-- RTP_CMD: 0x10028. -/
def R.RTP_CMD : Reg :=
  ⟨0x10028, 0, 1,
   [F.RTP_CMD_cmd, F.RTP_CMD_comp, F.RTP_CMD_tenant, F.RTP_CMD_state, F.RTP_CMD_err, F.RTP_CMD_len_64]⟩

-- Table 15.19 (15_security.md)
def F.RTP_APER_enable : Fld := ⟨0x400C00, 0, 1, .rwl, 0⟩
def F.RTP_APER_base : Fld := ⟨0x400C1C, 28, 24, .rwl, 0⟩
/-- RTP_APER: 0x10030. -/
def R.RTP_APER : Reg :=
  ⟨0x10030, 0, 1,
   [F.RTP_APER_enable, F.RTP_APER_base]⟩

-- Table 15.20 (15_security.md)
def F.RTP_REQ_CMD_op : Fld := ⟨0x401200, 0, 2, .wo, 0⟩
def F.RTP_REQ_CMD_tscope : Fld := ⟨0x401202, 2, 1, .wo, 0⟩
def F.RTP_REQ_CMD_tenant : Fld := ⟨0x401204, 4, 12, .wo, 0⟩
def F.RTP_REQ_CMD_ring : Fld := ⟨0x401210, 16, 16, .wo, 0⟩
def F.RTP_REQ_CMD_state : Fld := ⟨0x401220, 32, 2, .ro, 0⟩
def F.RTP_REQ_CMD_err : Fld := ⟨0x401222, 34, 4, .ro, 0⟩
/-- RTP_REQ_CMD: 0x10048. -/
def R.RTP_REQ_CMD : Reg :=
  ⟨0x10048, 0, 1,
   [F.RTP_REQ_CMD_op, F.RTP_REQ_CMD_tscope, F.RTP_REQ_CMD_tenant, F.RTP_REQ_CMD_ring,
    F.RTP_REQ_CMD_state, F.RTP_REQ_CMD_err]⟩

-- Table 15.21 (15_security.md)
def F.RTP_VLOG_STAT_written : Fld := ⟨0x401400, 0, 32, .ro, 0⟩
def F.RTP_VLOG_STAT_lost : Fld := ⟨0x401420, 32, 16, .rw1c, 0⟩
/-- RTP_VLOG_STAT: 0x10050. -/
def R.RTP_VLOG_STAT : Reg :=
  ⟨0x10050, 0, 1,
   [F.RTP_VLOG_STAT_written, F.RTP_VLOG_STAT_lost]⟩

-- Table 15.22 (15_security.md)
def F.RTP_VLOG_SEL_entry : Fld := ⟨0x401600, 0, 13, .rw, 0⟩
/-- RTP_VLOG_SEL: 0x10058. -/
def R.RTP_VLOG_SEL : Reg :=
  ⟨0x10058, 0, 1,
   [F.RTP_VLOG_SEL_entry]⟩

-- Table 16.10 (16_availability.md)
def F.TDM_CFG_keep_gib : Fld := ⟨0x34000000, 0, 16, .rwl, 0⟩
def F.TDM_CFG_auto_mask : Fld := ⟨0x34000010, 16, 5, .rw, 0⟩
def F.TDM_CFG_ckpt_min_s : Fld := ⟨0x34000020, 32, 16, .rw, 3600⟩
/-- TDM_CFG: 0xD00000. -/
def R.TDM_CFG : Reg :=
  ⟨0xD00000, 0, 1,
   [F.TDM_CFG_keep_gib, F.TDM_CFG_auto_mask, F.TDM_CFG_ckpt_min_s]⟩

-- Table 16.11 (16_availability.md)
def F.TDM_STAT_tstate : Fld := ⟨0x34000200, 0, 2, .ro, 0⟩
def F.TDM_STAT_partner : Fld := ⟨0x34000202, 2, 8, .ro, 0⟩
def F.TDM_STAT_keeping : Fld := ⟨0x3400020A, 10, 1, .ro, 0⟩
def F.TDM_STAT_source : Fld := ⟨0x3400020B, 11, 8, .ro, 0⟩
def F.TDM_STAT_follow : Fld := ⟨0x34000213, 19, 1, .ro, 0⟩
def F.TDM_STAT_err : Fld := ⟨0x34000214, 20, 4, .ro, 0⟩
def F.TDM_STAT_lag_mib : Fld := ⟨0x34000220, 32, 32, .ro, 0⟩
/-- TDM_STAT: 0xD00008. -/
def R.TDM_STAT : Reg :=
  ⟨0xD00008, 0, 1,
   [F.TDM_STAT_tstate, F.TDM_STAT_partner, F.TDM_STAT_keeping, F.TDM_STAT_source, F.TDM_STAT_follow,
    F.TDM_STAT_err, F.TDM_STAT_lag_mib]⟩

-- Table 16.12 (16_availability.md)
def F.TDM_DELTA_sent : Fld := ⟨0x34000400, 0, 32, .ro, 0⟩
def F.TDM_DELTA_acked : Fld := ⟨0x34000420, 32, 32, .ro, 0⟩
/-- TDM_DELTA: 0xD00010. -/
def R.TDM_DELTA : Reg :=
  ⟨0xD00010, 0, 1,
   [F.TDM_DELTA_sent, F.TDM_DELTA_acked]⟩

-- Table 16.13 (16_availability.md)
def F.TDM_CNT_ack_wait : Fld := ⟨0x34000600, 0, 16, .rw1c, 0⟩
def F.TDM_CNT_restores : Fld := ⟨0x34000610, 16, 8, .rw1c, 0⟩
def F.TDM_CNT_ckpt_fail : Fld := ⟨0x34000618, 24, 8, .rw1c, 0⟩
def F.TDM_CNT_ckpt_skip : Fld := ⟨0x34000620, 32, 16, .rw1c, 0⟩
def F.TDM_CNT_ck_ignored : Fld := ⟨0x34000630, 48, 16, .rw1c, 0⟩
/-- TDM_CNT: 0xD00018. -/
def R.TDM_CNT : Reg :=
  ⟨0xD00018, 0, 1,
   [F.TDM_CNT_ack_wait, F.TDM_CNT_restores, F.TDM_CNT_ckpt_fail, F.TDM_CNT_ckpt_skip,
    F.TDM_CNT_ck_ignored]⟩

-- Table 16.14 (16_availability.md)
def F.TDM_POOL_valid : Fld := ⟨0x34000800, 0, 1, .rw, 0⟩
def F.TDM_POOL_addr : Fld := ⟨0x34000806, 6, 46, .rw, 0⟩
/-- TDM_POOL: 0xD00020. -/
def R.TDM_POOL : Reg :=
  ⟨0xD00020, 0, 1,
   [F.TDM_POOL_valid, F.TDM_POOL_addr]⟩

-- Table 16.15 (16_availability.md)
def F.TDM_CKPT_seq : Fld := ⟨0x34000A00, 0, 32, .ro, 0⟩
def F.TDM_CKPT_state : Fld := ⟨0x34000A20, 32, 2, .ro, 0⟩
def F.TDM_CKPT_shards : Fld := ⟨0x34000A28, 40, 24, .ro, 0⟩
/-- TDM_CKPT: 0xD00028. -/
def R.TDM_CKPT : Reg :=
  ⟨0xD00028, 0, 1,
   [F.TDM_CKPT_seq, F.TDM_CKPT_state, F.TDM_CKPT_shards]⟩

-- Table 16.16 (16_availability.md)
def F.TDM_CMD_cmd : Fld := ⟨0x34000C00, 0, 3, .wo, 0⟩
def F.TDM_CMD_module : Fld := ⟨0x34000C08, 8, 8, .wo, 0⟩
def F.TDM_CMD_state : Fld := ⟨0x34000C10, 16, 2, .ro, 0⟩
def F.TDM_CMD_err : Fld := ⟨0x34000C12, 18, 4, .ro, 0⟩
/-- TDM_CMD: 0xD00030. -/
def R.TDM_CMD : Reg :=
  ⟨0xD00030, 0, 1,
   [F.TDM_CMD_cmd, F.TDM_CMD_module, F.TDM_CMD_state, F.TDM_CMD_err]⟩

-- Table 16.17 (16_availability.md)
def F.TDM_HANDLE_handle : Fld := ⟨0x34000E00, 0, 48, .wo, 0⟩
/-- TDM_HANDLE: 0xD00038. -/
def R.TDM_HANDLE : Reg :=
  ⟨0xD00038, 0, 1,
   [F.TDM_HANDLE_handle]⟩

-- Table 16.18 (16_availability.md)
def F.BRP_CFG_spoke_period_s : Fld := ⟨0x38000000, 0, 16, .rw, 300⟩
def F.BRP_CFG_lane_period_s : Fld := ⟨0x38000010, 16, 16, .rw, 3600⟩
def F.BRP_CFG_hub_period_s : Fld := ⟨0x38000020, 32, 16, .rw, 3600⟩
def F.BRP_CFG_chan_period_s : Fld := ⟨0x38000030, 48, 16, .rw, 3600⟩
/-- BRP_CFG: 0xE00000. -/
def R.BRP_CFG : Reg :=
  ⟨0xE00000, 0, 1,
   [F.BRP_CFG_spoke_period_s, F.BRP_CFG_lane_period_s, F.BRP_CFG_hub_period_s, F.BRP_CFG_chan_period_s]⟩

-- Table 16.19 (16_availability.md)
def F.BRP_STAT_overdue : Fld := ⟨0x38000200, 0, 1, .ro, 0⟩
def F.BRP_STAT_spoke_low : Fld := ⟨0x38000201, 1, 1, .ro, 0⟩
def F.BRP_STAT_hub_degraded : Fld := ⟨0x38000202, 2, 1, .ro, 0⟩
def F.BRP_STAT_fuse_low : Fld := ⟨0x38000203, 3, 1, .ro, 0⟩
def F.BRP_STAT_swap : Fld := ⟨0x38000204, 4, 2, .ro, 0⟩
/-- BRP_STAT: 0xE00008. -/
def R.BRP_STAT : Reg :=
  ⟨0xE00008, 0, 1,
   [F.BRP_STAT_overdue, F.BRP_STAT_spoke_low, F.BRP_STAT_hub_degraded, F.BRP_STAT_fuse_low,
    F.BRP_STAT_swap]⟩

-- Table 16.20 (16_availability.md)
def F.BRP_CNT_bist_pass : Fld := ⟨0x38000400, 0, 16, .rw1c, 0⟩
def F.BRP_CNT_bist_fail : Fld := ⟨0x38000410, 16, 16, .rw1c, 0⟩
def F.BRP_CNT_patches : Fld := ⟨0x38000420, 32, 16, .rw1c, 0⟩
def F.BRP_CNT_fw_swaps : Fld := ⟨0x38000430, 48, 8, .rw1c, 0⟩
def F.BRP_CNT_swap_err : Fld := ⟨0x38000438, 56, 8, .rw1c, 0⟩
/-- BRP_CNT: 0xE00010. -/
def R.BRP_CNT : Reg :=
  ⟨0xE00010, 0, 1,
   [F.BRP_CNT_bist_pass, F.BRP_CNT_bist_fail, F.BRP_CNT_patches, F.BRP_CNT_fw_swaps, F.BRP_CNT_swap_err]⟩

-- Table 16.21 (16_availability.md)
def F.BRP_FUSE_spoke_left : Fld := ⟨0x38000600, 0, 16, .ro, 0⟩
def F.BRP_FUSE_hbm_left : Fld := ⟨0x38000610, 16, 16, .ro, 0⟩
def F.BRP_FUSE_sram_left : Fld := ⟨0x38000620, 32, 16, .ro, 0⟩
/-- BRP_FUSE: 0xE00018. -/
def R.BRP_FUSE : Reg :=
  ⟨0xE00018, 0, 1,
   [F.BRP_FUSE_spoke_left, F.BRP_FUSE_hbm_left, F.BRP_FUSE_sram_left]⟩

-- Table 16.22 (16_availability.md)
def F.BRP_CMD_cmd : Fld := ⟨0x38000800, 0, 2, .wo, 0⟩
/-- BRP_CMD: 0xE00020. -/
def R.BRP_CMD : Reg :=
  ⟨0xE00020, 0, 1,
   [F.BRP_CMD_cmd]⟩

-- Table 17.5 (17_interrupts_sync.md)
def F.INT_CAPS_sources : Fld := ⟨0xC00000, 0, 12, .ro, 2048⟩
def F.INT_CAPS_priorities : Fld := ⟨0xC00010, 16, 7, .ro, 64⟩
def F.INT_CAPS_targets : Fld := ⟨0xC00018, 24, 5, .ro, 16⟩
def F.INT_CAPS_counters : Fld := ⟨0xC00020, 32, 17, .ro, 65536⟩
/-- INT_CAPS: 0x30000. -/
def R.INT_CAPS : Reg :=
  ⟨0x30000, 0, 1,
   [F.INT_CAPS_sources, F.INT_CAPS_priorities, F.INT_CAPS_targets, F.INT_CAPS_counters]⟩

-- Table 17.6 (17_interrupts_sync.md)
def F.INT_CFG_storm_n : Fld := ⟨0xC00200, 0, 8, .rw, 16⟩
/-- INT_CFG: 0x30008. -/
def R.INT_CFG : Reg :=
  ⟨0x30008, 0, 1,
   [F.INT_CFG_storm_n]⟩

-- Table 17.7 (17_interrupts_sync.md)
def F.INT_STAT_storm_seen : Fld := ⟨0xC00400, 0, 1, .rw1c, 0⟩
def F.INT_STAT_eoi_err : Fld := ⟨0xC00410, 16, 16, .rw1c, 0⟩
/-- INT_STAT: 0x30010. -/
def R.INT_STAT : Reg :=
  ⟨0x30010, 0, 1,
   [F.INT_STAT_storm_seen, F.INT_STAT_eoi_err]⟩

-- Table 17.8 (17_interrupts_sync.md)
def F.INT_SOFT_n : Fld := ⟨0xC00600, 0, 8, .wo, 0⟩
/-- INT_SOFT: 0x30018. -/
def R.INT_SOFT : Reg :=
  ⟨0x30018, 0, 1,
   [F.INT_SOFT_n]⟩

-- Table 17.9 (17_interrupts_sync.md)
def F.INT_TGT_CLAIM_source : Fld := ⟨0xC04000, 0, 11, .ro, 0⟩
def F.INT_TGT_CLAIM_valid : Fld := ⟨0xC0401F, 31, 1, .ro, 0⟩
/-- INT_TGT_CLAIM: 0x30100. -/
def R.INT_TGT_CLAIM : Reg :=
  ⟨0x30100, 64, 16,
   [F.INT_TGT_CLAIM_source, F.INT_TGT_CLAIM_valid]⟩

-- Table 17.10 (17_interrupts_sync.md)
def F.INT_TGT_EOI_source : Fld := ⟨0xC04200, 0, 11, .wo, 0⟩
/-- INT_TGT_EOI: 0x30108. -/
def R.INT_TGT_EOI : Reg :=
  ⟨0x30108, 64, 16,
   [F.INT_TGT_EOI_source]⟩

-- Table 17.11 (17_interrupts_sync.md)
def F.INT_TGT_STAT_depth : Fld := ⟨0xC04400, 0, 7, .ro, 0⟩
def F.INT_TGT_STAT_running : Fld := ⟨0xC04408, 8, 7, .ro, 64⟩
def F.INT_TGT_STAT_threshold : Fld := ⟨0xC04410, 16, 7, .rw, 64⟩
def F.INT_TGT_STAT_msg_prio : Fld := ⟨0xC04418, 24, 7, .ro, 64⟩
def F.INT_TGT_STAT_presented : Fld := ⟨0xC04420, 32, 11, .ro, 0⟩
def F.INT_TGT_STAT_pres_valid : Fld := ⟨0xC0442B, 43, 1, .ro, 0⟩
/-- INT_TGT_STAT: 0x30110. -/
def R.INT_TGT_STAT : Reg :=
  ⟨0x30110, 64, 16,
   [F.INT_TGT_STAT_depth, F.INT_TGT_STAT_running, F.INT_TGT_STAT_threshold, F.INT_TGT_STAT_msg_prio,
    F.INT_TGT_STAT_presented, F.INT_TGT_STAT_pres_valid]⟩

-- Table 17.12 (17_interrupts_sync.md)
def F.INT_TGT_MSI_ADDR_addr : Fld := ⟨0xC04602, 2, 50, .rw, 0⟩
/-- INT_TGT_MSI_ADDR: 0x30118. -/
def R.INT_TGT_MSI_ADDR : Reg :=
  ⟨0x30118, 64, 16,
   [F.INT_TGT_MSI_ADDR_addr]⟩

-- Table 17.13 (17_interrupts_sync.md)
def F.INT_TGT_MSI_DATA_data : Fld := ⟨0xC04800, 0, 32, .rw, 0⟩
/-- INT_TGT_MSI_DATA: 0x30120. -/
def R.INT_TGT_MSI_DATA : Reg :=
  ⟨0x30120, 64, 16,
   [F.INT_TGT_MSI_DATA_data]⟩

-- Table 17.14 (17_interrupts_sync.md)
def F.INT_WATCH_CFG_counter : Fld := ⟨0xC20000, 0, 16, .rw, 0⟩
def F.INT_WATCH_CFG_eq : Fld := ⟨0xC20010, 16, 1, .rw, 0⟩
def F.INT_WATCH_CFG_armed : Fld := ⟨0xC20011, 17, 1, .rw, 0⟩
def F.INT_WATCH_CFG_fired : Fld := ⟨0xC20012, 18, 1, .rw1c, 0⟩
/-- INT_WATCH_CFG: 0x30800. -/
def R.INT_WATCH_CFG : Reg :=
  ⟨0x30800, 16, 256,
   [F.INT_WATCH_CFG_counter, F.INT_WATCH_CFG_eq, F.INT_WATCH_CFG_armed, F.INT_WATCH_CFG_fired]⟩

-- Table 17.15 (17_interrupts_sync.md)
def F.INT_WATCH_VAL_value : Fld := ⟨0xC20200, 0, 64, .rw, 0⟩
/-- INT_WATCH_VAL: 0x30808. -/
def R.INT_WATCH_VAL : Reg :=
  ⟨0x30808, 16, 256,
   [F.INT_WATCH_VAL_value]⟩

-- Table 17.16 (17_interrupts_sync.md)
def F.INT_SRC_CFG_enable : Fld := ⟨0xC80000, 0, 1, .rw, 0⟩
def F.INT_SRC_CFG_level : Fld := ⟨0xC80001, 1, 1, .ro, 0⟩
def F.INT_SRC_CFG_target : Fld := ⟨0xC80004, 4, 4, .rw, 0⟩
def F.INT_SRC_CFG_prio : Fld := ⟨0xC80008, 8, 6, .rw, 63⟩
/-- INT_SRC_CFG: 0x32000. -/
def R.INT_SRC_CFG : Reg :=
  ⟨0x32000, 8, 2048,
   [F.INT_SRC_CFG_enable, F.INT_SRC_CFG_level, F.INT_SRC_CFG_target, F.INT_SRC_CFG_prio]⟩

-- Table 17.17 (17_interrupts_sync.md)
def F.INT_SRC_STAT_pending : Fld := ⟨0xD80000, 0, 1, .ro, 0⟩
def F.INT_SRC_STAT_active : Fld := ⟨0xD80001, 1, 1, .ro, 0⟩
def F.INT_SRC_STAT_storm : Fld := ⟨0xD80002, 2, 1, .rw1c, 0⟩
def F.INT_SRC_STAT_overflow : Fld := ⟨0xD80008, 8, 8, .rw1c, 0⟩
def F.INT_SRC_STAT_storm_run : Fld := ⟨0xD80010, 16, 8, .ro, 0⟩
/-- INT_SRC_STAT: 0x36000. -/
def R.INT_SRC_STAT : Reg :=
  ⟨0x36000, 8, 2048,
   [F.INT_SRC_STAT_pending, F.INT_SRC_STAT_active, F.INT_SRC_STAT_storm, F.INT_SRC_STAT_overflow,
    F.INT_SRC_STAT_storm_run]⟩

-- Table 17.18 (17_interrupts_sync.md)
def F.INT_RING_PEND_rings : Fld := ⟨0xE80000, 0, 64, .rw1c, 0⟩
/-- INT_RING_PEND: 0x3A000. -/
def R.INT_RING_PEND : Reg :=
  ⟨0x3A000, 8, 1024,
   [F.INT_RING_PEND_rings]⟩

-- Table 17.19 (17_interrupts_sync.md)
def F.INT_SYNC_OWN_owner0 : Fld := ⟨0xF00000, 0, 12, .rwl, 0⟩
def F.INT_SYNC_OWN_owner1 : Fld := ⟨0xF00010, 16, 12, .rwl, 0⟩
def F.INT_SYNC_OWN_owner2 : Fld := ⟨0xF00020, 32, 12, .rwl, 0⟩
def F.INT_SYNC_OWN_owner3 : Fld := ⟨0xF00030, 48, 12, .rwl, 0⟩
/-- INT_SYNC_OWN: 0x3C000. -/
def R.INT_SYNC_OWN : Reg :=
  ⟨0x3C000, 8, 1024,
   [F.INT_SYNC_OWN_owner0, F.INT_SYNC_OWN_owner1, F.INT_SYNC_OWN_owner2, F.INT_SYNC_OWN_owner3]⟩

-- Table 17.20 (17_interrupts_sync.md)
def F.SYNC_CNT_value : Fld := ⟨0x1000000, 0, 64, .rw, 0⟩
/-- SYNC_CNT: 0x40000. -/
def R.SYNC_CNT : Reg :=
  ⟨0x40000, 8, 65536,
   [F.SYNC_CNT_value]⟩

-- Table 18.6 (18_power_thermal.md)
def F.PMC_CAPS_tdp_w : Fld := ⟨0x800000, 0, 12, .ro, 2000⟩
def F.PMC_CAPS_cap_min_w : Fld := ⟨0x80000C, 12, 12, .ro, 600⟩
def F.PMC_CAPS_excursion_w : Fld := ⟨0x800018, 24, 12, .ro, 2400⟩
def F.PMC_CAPS_nominal_mhz : Fld := ⟨0x800024, 36, 10, .ro, 700⟩
def F.PMC_CAPS_sensors : Fld := ⟨0x800030, 48, 8, .ro, 60⟩
/-- PMC_CAPS: 0x20000. -/
def R.PMC_CAPS : Reg :=
  ⟨0x20000, 0, 1,
   [F.PMC_CAPS_tdp_w, F.PMC_CAPS_cap_min_w, F.PMC_CAPS_excursion_w, F.PMC_CAPS_nominal_mhz,
    F.PMC_CAPS_sensors]⟩

-- Table 18.7 (18_power_thermal.md)
def F.PMC_CFG_cap_w : Fld := ⟨0x800200, 0, 12, .rwl, 2000⟩
def F.PMC_CFG_order0 : Fld := ⟨0x80020C, 12, 2, .rwl, 0⟩
def F.PMC_CFG_order1 : Fld := ⟨0x80020E, 14, 2, .rwl, 1⟩
def F.PMC_CFG_order2 : Fld := ⟨0x800210, 16, 2, .rwl, 2⟩
def F.PMC_CFG_equalised : Fld := ⟨0x800212, 18, 1, .rwl, 0⟩
def F.PMC_CFG_eq_mhz : Fld := ⟨0x800214, 20, 10, .rwl, 630⟩
def F.PMC_CFG_cad_lead_us : Fld := ⟨0x800220, 32, 16, .rw, 200⟩
def F.PMC_CFG_wake_on_ring : Fld := ⟨0x800230, 48, 1, .rw, 1⟩
/-- PMC_CFG: 0x20008. -/
def R.PMC_CFG : Reg :=
  ⟨0x20008, 0, 1,
   [F.PMC_CFG_cap_w, F.PMC_CFG_order0, F.PMC_CFG_order1, F.PMC_CFG_order2, F.PMC_CFG_equalised,
    F.PMC_CFG_eq_mhz, F.PMC_CFG_cad_lead_us, F.PMC_CFG_wake_on_ring]⟩

-- Table 18.8 (18_power_thermal.md)
def F.PMC_STAT_pstate : Fld := ⟨0x800400, 0, 3, .ro, 0⟩
def F.PMC_STAT_thermal : Fld := ⟨0x800403, 3, 1, .ro, 0⟩
def F.PMC_STAT_eq_broken : Fld := ⟨0x800404, 4, 1, .ro, 0⟩
def F.PMC_STAT_eq_broken_seen : Fld := ⟨0x800405, 5, 1, .rw1c, 0⟩
def F.PMC_STAT_coolant : Fld := ⟨0x800406, 6, 1, .ro, 0⟩
def F.PMC_STAT_trip : Fld := ⟨0x800407, 7, 1, .ro, 0⟩
def F.PMC_STAT_trip_drive : Fld := ⟨0x800408, 8, 1, .ro, 0⟩
def F.PMC_STAT_cause : Fld := ⟨0x800409, 9, 2, .ro, 0⟩
def F.PMC_STAT_ceil_mhz : Fld := ⟨0x800410, 16, 10, .ro, 700⟩
def F.PMC_STAT_ok_ms : Fld := ⟨0x800420, 32, 32, .ro, 0⟩
/-- PMC_STAT: 0x20010. -/
def R.PMC_STAT : Reg :=
  ⟨0x20010, 0, 1,
   [F.PMC_STAT_pstate, F.PMC_STAT_thermal, F.PMC_STAT_eq_broken, F.PMC_STAT_eq_broken_seen,
    F.PMC_STAT_coolant, F.PMC_STAT_trip, F.PMC_STAT_trip_drive, F.PMC_STAT_cause, F.PMC_STAT_ceil_mhz,
    F.PMC_STAT_ok_ms]⟩

-- Table 18.9 (18_power_thermal.md)
def F.PMC_POWER_input_w : Fld := ⟨0x800600, 0, 16, .ro, 0⟩
def F.PMC_POWER_links_w : Fld := ⟨0x800610, 16, 12, .ro, 0⟩
def F.PMC_POWER_mem_w : Fld := ⟨0x80061C, 28, 12, .ro, 0⟩
def F.PMC_POWER_compute_w : Fld := ⟨0x800628, 40, 12, .ro, 0⟩
def F.PMC_POWER_fixed_w : Fld := ⟨0x800634, 52, 12, .ro, 0⟩
/-- PMC_POWER: 0x20018. -/
def R.PMC_POWER : Reg :=
  ⟨0x20018, 0, 1,
   [F.PMC_POWER_input_w, F.PMC_POWER_links_w, F.PMC_POWER_mem_w, F.PMC_POWER_compute_w,
    F.PMC_POWER_fixed_w]⟩

-- Table 18.10 (18_power_thermal.md)
def F.PMC_CMD_cmd : Fld := ⟨0x800800, 0, 3, .wo, 0⟩
def F.PMC_CMD_state : Fld := ⟨0x800804, 4, 2, .ro, 0⟩
def F.PMC_CMD_err : Fld := ⟨0x800806, 6, 4, .ro, 0⟩
/-- PMC_CMD: 0x20020. -/
def R.PMC_CMD : Reg :=
  ⟨0x20020, 0, 1,
   [F.PMC_CMD_cmd, F.PMC_CMD_state, F.PMC_CMD_err]⟩

-- Table 18.11 (18_power_thermal.md)
def F.PMC_CNT_throttles : Fld := ⟨0x800A00, 0, 16, .rw1c, 0⟩
def F.PMC_CNT_brakes : Fld := ⟨0x800A10, 16, 8, .rw1c, 0⟩
def F.PMC_CNT_eq_breaks : Fld := ⟨0x800A18, 24, 16, .rw1c, 0⟩
def F.PMC_CNT_cadence_drop : Fld := ⟨0x800A28, 40, 16, .rw1c, 0⟩
/-- PMC_CNT: 0x20028. -/
def R.PMC_CNT : Reg :=
  ⟨0x20028, 0, 1,
   [F.PMC_CNT_throttles, F.PMC_CNT_brakes, F.PMC_CNT_eq_breaks, F.PMC_CNT_cadence_drop]⟩

-- Table 18.12 (18_power_thermal.md)
def F.PMC_THERM_SEL_sensor : Fld := ⟨0x800C00, 0, 6, .rw, 0⟩
/-- PMC_THERM_SEL: 0x20030. -/
def R.PMC_THERM_SEL : Reg :=
  ⟨0x20030, 0, 1,
   [F.PMC_THERM_SEL_sensor]⟩

-- Table 18.13 (18_power_thermal.md)
def F.PMC_THERM_temp : Fld := ⟨0x800E00, 0, 11, .ro, 0⟩
def F.PMC_THERM_site : Fld := ⟨0x800E0C, 12, 3, .ro, 0⟩
def F.PMC_THERM_throttle_c : Fld := ⟨0x800E10, 16, 8, .rwl, 0⟩
def F.PMC_THERM_trip_c : Fld := ⟨0x800E18, 24, 8, .rwl, 0⟩
def F.PMC_THERM_throttling : Fld := ⟨0x800E20, 32, 1, .ro, 0⟩
def F.PMC_THERM_tripped : Fld := ⟨0x800E21, 33, 1, .ro, 0⟩
/-- PMC_THERM: 0x20038. -/
def R.PMC_THERM : Reg :=
  ⟨0x20038, 0, 1,
   [F.PMC_THERM_temp, F.PMC_THERM_site, F.PMC_THERM_throttle_c, F.PMC_THERM_trip_c,
    F.PMC_THERM_throttling, F.PMC_THERM_tripped]⟩

-- Table 18.14 (18_power_thermal.md)
def F.PMC_E_MOD_energy_uj : Fld := ⟨0x801000, 0, 64, .ro, 0⟩
/-- PMC_E_MOD: 0x20040. -/
def R.PMC_E_MOD : Reg :=
  ⟨0x20040, 0, 1,
   [F.PMC_E_MOD_energy_uj]⟩

-- Table 18.15 (18_power_thermal.md)
def F.PMC_TEN_SEL_tenant : Fld := ⟨0x801200, 0, 12, .rw, 0⟩
/-- PMC_TEN_SEL: 0x20048. -/
def R.PMC_TEN_SEL : Reg :=
  ⟨0x20048, 0, 1,
   [F.PMC_TEN_SEL_tenant]⟩

-- Table 18.16 (18_power_thermal.md)
def F.PMC_E_TEN_energy_uj : Fld := ⟨0x801400, 0, 64, .ro, 0⟩
/-- PMC_E_TEN: 0x20050. -/
def R.PMC_E_TEN : Reg :=
  ⟨0x20050, 0, 1,
   [F.PMC_E_TEN_energy_uj]⟩

-- Table 18.17 (18_power_thermal.md)
def F.PMC_RING_SEL_ring : Fld := ⟨0x801600, 0, 16, .rw, 0⟩
/-- PMC_RING_SEL: 0x20058. -/
def R.PMC_RING_SEL : Reg :=
  ⟨0x20058, 0, 1,
   [F.PMC_RING_SEL_ring]⟩

-- Table 18.18 (18_power_thermal.md)
def F.PMC_E_RING_energy_uj : Fld := ⟨0x801800, 0, 64, .ro, 0⟩
/-- PMC_E_RING: 0x20060. -/
def R.PMC_E_RING : Reg :=
  ⟨0x20060, 0, 1,
   [F.PMC_E_RING_energy_uj]⟩

-- Table 19.12 (19_module_interface.md)
def F.MOD_BOARD_tray_slot : Fld := ⟨0x1200, 0, 6, .ro, 0⟩
def F.MOD_BOARD_boot_sel : Fld := ⟨0x1206, 6, 1, .ro, 0⟩
def F.MOD_BOARD_refclk_ok : Fld := ⟨0x1208, 8, 4, .ro, 0⟩
def F.MOD_BOARD_reset_cause : Fld := ⟨0x1210, 16, 3, .ro, 0⟩
def F.MOD_BOARD_fault_rail : Fld := ⟨0x1218, 24, 4, .ro, 0⟩
/-- MOD_BOARD: 0x48. -/
def R.MOD_BOARD : Reg :=
  ⟨0x48, 0, 1,
   [F.MOD_BOARD_tray_slot, F.MOD_BOARD_boot_sel, F.MOD_BOARD_refclk_ok, F.MOD_BOARD_reset_cause,
    F.MOD_BOARD_fault_rail]⟩

-- Table 19.13 (19_module_interface.md)
def F.MOD_ALERT_en_brake : Fld := ⟨0x1400, 0, 1, .rw, 1⟩
def F.MOD_ALERT_en_trip : Fld := ⟨0x1401, 1, 1, .rw, 1⟩
def F.MOD_ALERT_en_rail : Fld := ⟨0x1402, 2, 1, .rw, 1⟩
def F.MOD_ALERT_en_time : Fld := ⟨0x1403, 3, 1, .rw, 0⟩
def F.MOD_ALERT_asserted : Fld := ⟨0x1408, 8, 1, .ro, 0⟩
/-- MOD_ALERT: 0x50. -/
def R.MOD_ALERT : Reg :=
  ⟨0x50, 0, 1,
   [F.MOD_ALERT_en_brake, F.MOD_ALERT_en_trip, F.MOD_ALERT_en_rail, F.MOD_ALERT_en_time,
    F.MOD_ALERT_asserted]⟩

-- Table 19.14 (19_module_interface.md)
def F.MOD_RAIL_SEL_rail : Fld := ⟨0x1600, 0, 4, .rw, 0⟩
/-- MOD_RAIL_SEL: 0x58. -/
def R.MOD_RAIL_SEL : Reg :=
  ⟨0x58, 0, 1,
   [F.MOD_RAIL_SEL_rail]⟩

-- Table 19.15 (19_module_interface.md)
def F.MOD_RAIL_mv : Fld := ⟨0x1800, 0, 16, .ro, 0⟩
def F.MOD_RAIL_i_10ma : Fld := ⟨0x1810, 16, 16, .ro, 0⟩
def F.MOD_RAIL_state : Fld := ⟨0x1820, 32, 2, .ro, 0⟩
def F.MOD_RAIL_warn : Fld := ⟨0x1822, 34, 1, .ro, 0⟩
def F.MOD_RAIL_warn_seen : Fld := ⟨0x1823, 35, 1, .rw1c, 0⟩
/-- MOD_RAIL: 0x60. -/
def R.MOD_RAIL : Reg :=
  ⟨0x60, 0, 1,
   [F.MOD_RAIL_mv, F.MOD_RAIL_i_10ma, F.MOD_RAIL_state, F.MOD_RAIL_warn, F.MOD_RAIL_warn_seen]⟩

def F.SES_DESC_WIN_word : Fld := ⟨0x8004000, 0, 64, .ro, 0⟩
/-- SES_DESC_WIN: 0x200100. -/
def R.SES_DESC_WIN : Reg :=
  ⟨0x200100, 8, 32,
   [F.SES_DESC_WIN_word]⟩

def F.PGM_PFX_WIN_word : Fld := ⟨0xC004000, 0, 64, .ro, 0⟩
/-- PGM_PFX_WIN: 0x300100. -/
def R.PGM_PFX_WIN : Reg :=
  ⟨0x300100, 8, 16,
   [F.PGM_PFX_WIN_word]⟩

def F.RTP_VLOG_WIN_word : Fld := ⟨0x404000, 0, 64, .ro, 0⟩
/-- RTP_VLOG_WIN: 0x10100. -/
def R.RTP_VLOG_WIN : Reg :=
  ⟨0x10100, 8, 4,
   [F.RTP_VLOG_WIN_word]⟩

def allRegs0 : List Reg :=
  [R.MOD_ID, R.MOD_TIMELINE_ADDR, R.MOD_TIMELINE_STAT, R.MOD_TIMELINE_LAST,
   R.SES_STAT, R.SES_DESC_SEL, R.SES_TQ_LIMITS, R.SES_TQ_BYTES,
   R.SES_TQ_POLICY, R.SES_TQ_COUNT, R.SES_TQ_USED, R.CFE_CAPS,
   R.CFE_STAT, R.CFE_RING_SEL, R.CFE_RING_CTRL, R.CFE_RING_CFG,
   R.CFE_RING_STAT, R.CFE_CANCEL_ID, R.CFE_CANCEL_GO, R.CFE_POOL]

def allRegs1 : List Reg :=
  [R.CFE_TQ_INFLIGHT, R.PNE_CAPS, R.PNE_CFG, R.PNE_TIER_CFG,
   R.PNE_SPEC_CFG, R.PNE_STAT, R.PNE_CNT_MOTION, R.PNE_CNT_FAULT,
   R.PNE_CNT_SPEC, R.PGM_CAPS, R.PGM_STAT, R.PGM_CNT,
   R.PGM_CFG, R.PGM_STAGE_STAT, R.PGM_CLASS_SEL, R.PGM_CLASS_INFO,
   R.PGM_CLASS_FREE, R.PGM_SERIAL, R.PGM_PFX_TEN, R.PGM_PFX_SEL]

def allRegs2 : List Reg :=
  [R.PGM_TQ_PAGE, R.STE_CAPS, R.STE_CFG, R.STE_STAT,
   R.STE_STEPS, R.STE_CNT_DEFER, R.STE_CNT_END, R.STE_PEL_SEL,
   R.STE_PEL_INFO, R.STE_DRAFT_PROP, R.STE_DRAFT_ACC, R.STE_DRAFT_CNT,
   R.SPK_CAPS, R.SPK_MOD, R.SPK_SEL, R.SPK_STATE,
   R.SPK_ERR, R.SPK_ISA, R.SPK_CTX, R.SPK_FAULT]

def allRegs3 : List Reg :=
  [R.SPK_CNT, R.TXU_CAPS, R.TXU_CNT_TEXT, R.TXU_CNT_CLIST,
   R.TXU_MEM, R.TXU_COG_SEL, R.TXU_COG_INFO, R.TXU_COG_TOK,
   R.TXU_LIST_SEL, R.TXU_LIST_INFO, R.TXU_DG, R.NMS_CAPS,
   R.NMS_CFG, R.NMS_CNT, R.NMS_CNT2, R.NMS_IDX_SEL,
   R.NMS_IDX_CFG, R.NMS_IDX_CMD, R.NMS_IDX_STAT, R.NMS_IDX_VER]

def allRegs4 : List Reg :=
  [R.NMS_IDX_SHARD, R.MEM_CAPS, R.MEM_CFG, R.MEM_STAT,
   R.MEM_CNT_ECC, R.MEM_KEY_SEL, R.MEM_KEY_STAT, R.MEM_KEY_CMD,
   R.MEM_HWIN_SEL, R.MEM_HWIN_ADDR, R.MEM_HWIN_CFG, R.MEM_HWIN_TAG,
   R.MEM_NBR_SEL, R.MEM_NBR_INFO, R.MEM_FAULT, R.MEM_CH_SEL,
   R.MEM_CH_STAT, R.FLL_CAPS, R.STL_CAPS, R.FLL_PORT_CTRL]

def allRegs5 : List Reg :=
  [R.STL_PORT_CTRL, R.FLL_PORT_STAT, R.STL_PORT_STAT, R.FLL_PORT_CNT,
   R.STL_PORT_CNT, R.FLL_PORT_SEL, R.STL_PORT_SEL, R.STL_PEER,
   R.STL_CLASS_W, R.TSH_SEL, R.TSH_CFG, R.TSH_STAT,
   R.CMP_ID, R.CMP_CFG, R.CMP_EPOCH, R.CMP_STAT,
   R.CMP_CNT, R.CMP_CMD, R.CMP_ENT_SEL, R.CMP_ENT_WIN]

def allRegs6 : List Reg :=
  [R.MOD_TEN_SEL, R.MOD_TEN_CMD, R.MOD_TEN_STAT, R.MOD_OVL_DG,
   R.STE_SLOT_SEL, R.STE_SLOT_INFO, R.STE_SCHED, R.STE_TQ_SCHED,
   R.RTP_STAT, R.RTP_CFG, R.RTP_RATCHET, R.RTP_NONCE,
   R.RTP_CMD_ADDR, R.RTP_REQ_ADDR, R.RTP_CMD, R.RTP_APER,
   R.RTP_REQ_CMD, R.RTP_VLOG_STAT, R.RTP_VLOG_SEL, R.TDM_CFG]

def allRegs7 : List Reg :=
  [R.TDM_STAT, R.TDM_DELTA, R.TDM_CNT, R.TDM_POOL,
   R.TDM_CKPT, R.TDM_CMD, R.TDM_HANDLE, R.BRP_CFG,
   R.BRP_STAT, R.BRP_CNT, R.BRP_FUSE, R.BRP_CMD,
   R.INT_CAPS, R.INT_CFG, R.INT_STAT, R.INT_SOFT,
   R.INT_TGT_CLAIM, R.INT_TGT_EOI, R.INT_TGT_STAT, R.INT_TGT_MSI_ADDR]

def allRegs8 : List Reg :=
  [R.INT_TGT_MSI_DATA, R.INT_WATCH_CFG, R.INT_WATCH_VAL, R.INT_SRC_CFG,
   R.INT_SRC_STAT, R.INT_RING_PEND, R.INT_SYNC_OWN, R.SYNC_CNT,
   R.PMC_CAPS, R.PMC_CFG, R.PMC_STAT, R.PMC_POWER,
   R.PMC_CMD, R.PMC_CNT, R.PMC_THERM_SEL, R.PMC_THERM,
   R.PMC_E_MOD, R.PMC_TEN_SEL, R.PMC_E_TEN, R.PMC_RING_SEL]

def allRegs9 : List Reg :=
  [R.PMC_E_RING, R.MOD_BOARD, R.MOD_ALERT, R.MOD_RAIL_SEL,
   R.MOD_RAIL, R.SES_DESC_WIN, R.PGM_PFX_WIN, R.RTP_VLOG_WIN]

/-- Every register of management space. -/
def allRegs : List Reg :=
  allRegs0 ++ allRegs1 ++ allRegs2 ++ allRegs3 ++ allRegs4 ++ allRegs5 ++ allRegs6 ++ allRegs7 ++ allRegs8 ++ allRegs9

end Sys2Proof.Machine
end

