-- ==== Sys2Proof/Machine/State.lean ====
section
/-! DEFINITION. The state of the module as plain data: the store of register fields, the memories, the session,
step, text, search, memory, link, composition, security, availability, interrupt, power and board state, and the
queue of waiting commands; the fault and refusal reasons; the state after reset. -/

namespace Sys2Proof.Machine

/-- Why a command stops the model. Raised by a command that names a unit the module does not have (a Spoke above 271,
a port above 17, a place above 7, a sensor above 59, a lane above 8, a hub partition above 24, R2). Safe: such a
command has no counterpart on the hardware. -/
inductive Fault where
  /-- Raised by every command whose unit number is out of range (WellFormed.lean lists the checks); safe. -/
  | noSuchUnit
  deriving DecidableEq, Repr

/-- Why a command has no meaning in the model. -/
inductive Refusal where
  /-- Raised by an arm of exec whose command is not modelled yet; safe: the model stops. -/
  | notModelled (mnemonic : String)
  deriving DecidableEq, Repr



/-- One interrupt source (Tables 17.2, 17.16, 17.17): `pending` and `active` give its state. -/
structure IntSrc where
  enable : Bool
  target : Nat
  prio : Nat
  pending : Bool
  active : Bool
  storm : Bool
  overflow : Nat
  stormRun : Nat
  deriving DecidableEq, Repr

/-- A source at reset (Tables 17.16, 17.17). -/
def IntSrc.reset : IntSrc := ⟨false, 0, 63, false, false, false, 0, 0⟩

/-- The interrupt controller and the sync counters (chapter 17) beyond what the register fields hold. -/
structure IntrState where
  /-- Sources that differ from their reset state, by number. -/
  srcs : Tab IntSrc
  /-- Level sources whose condition holds (R400). -/
  levels : List Nat
  /-- Priority stack of each target, top first: source and priority (R404). -/
  prioStacks : Tab (List (Nat × Nat))
  /-- Edges latched in retention during standby, oldest first (R410). -/
  latched : List Nat
  /-- Sync counters that are not 0 (R412). -/
  counters : Tab Nat
  /-- Owners of the counter groups that are not the group's own number (R412, Table 17.19). -/
  owners : Tab Nat
  deriving DecidableEq, Repr

/-- A firmware image slot of the RTP store (R353, Table 15.2): what the module keeps of the image it holds. -/
structure ImageSlot where
  valid : Bool
  svn : Nat
  version : Nat
  digest : Bytes
  deriving DecidableEq, Repr

/-- An entry of the violation log (R369). -/
structure VlogEntry where
  timeNs : Nat
  tenant : Nat
  kind : Nat
  place : Nat
  detail : Nat
  repeats : Nat
  deriving DecidableEq, Repr

/-- The open batch of a ring (R365) with the chain of its statements (R366): `records` holds the joined 128-byte
records, oldest first. -/
structure Batch where
  firstId : Nat
  lastId : Nat
  records : List Bytes
  seq : Nat
  prevDg : Bytes
  chainStart : Bool
  swapped : Bool
  deriving DecidableEq, Repr

/-- A private-key operation in the RTP's queue (R364): who asked, the buffer, and either a report's scope or the first 192 bytes
of a batch statement; or the handshake of a port with what its peer has shown. -/
inductive RtpOp where
  | report (who : Caller) (addr : Nat) (scope : Option Nat)
  | statement (who : Caller) (addr ring : Nat) (body : Bytes)
  | handshake (port : Nat) (peer : PeerCert)
  deriving DecidableEq, Repr

/-- The root-of-trust processor (chapter 15): fuses, store, volatile keys, queue, batches and violation log. -/
structure RtpState where
  /-- Ratchets 0 to 3 (R358). -/
  ratchets : List Nat
  /-- Slots A and B of components 0 to 2 (R357). -/
  slotA : List ImageSlot
  slotB : List ImageSlot
  /-- Component n boots from slot B next time, and runs from slot B now. -/
  activeB : List Bool
  runB : List Bool
  /-- The images running now. -/
  running : List ImageSlot
  ownerKey : Option Bytes
  overlayKey : Option Bytes
  /-- Domain key versions: current, previous, imported (R356). -/
  dkCur : Option (Nat × Bytes)
  dkPrev : Option (Nat × Bytes)
  dkImp : Option (Nat × Bytes)
  confNext : Bool
  boots : Nat
  /-- Page-serial counter as last saved (R133). -/
  savedSerial : Nat
  ready : Bool
  conf : Bool
  fallback : Bool
  recovery : Bool
  debugOpen : Bool
  nonce : BitVec 64
  queue : List RtpOp
  batches : Tab Batch
  /-- Newest entry first, at most 8,192 (R369). -/
  vlog : List VlogEntry
  deriving DecidableEq, Repr

/-- An image slot as shipped: security version 0 and a digest of zeros (log entry 2). -/
def ImageSlot.shipped : ImageSlot := ⟨true, 0, 0x0100, List.replicate 32 0⟩

/-- The RTP as the module leaves the factory, before its first boot (log entry 2). -/
def RtpState.reset : RtpState where
  ratchets := [0, 0, 0, 0]
  slotA := [ImageSlot.shipped, ImageSlot.shipped, ImageSlot.shipped]
  slotB := [ImageSlot.shipped, ImageSlot.shipped, ImageSlot.shipped]
  activeB := [false, false, false]
  runB := [false, false, false]
  running := [ImageSlot.shipped, ImageSlot.shipped, ImageSlot.shipped]
  ownerKey := none
  overlayKey := none
  dkCur := none
  dkPrev := none
  dkImp := none
  confNext := false
  boots := 0
  savedSerial := 1
  ready := false
  conf := false
  fallback := false
  recovery := false
  debugOpen := false
  nonce := 0
  queue := []
  batches := []
  vlog := []

/-- Leaf entry of a page table (Table 5.4, R111): the frame that holds the page, with its serial, order and `full`. -/
structure PageEntry where
  frame : Nat
  serial : Nat
  order : Nat
  full : Bool
  deriving DecidableEq, Repr

/-- One version of a page table: the root record of Table 5.3 with its leaf entries, and the 4 KiB blocks of its tree, level by
level from the leaves to the top, as the numbers they were made under (R111, R112). -/
structure PageTable where
  version : Nat
  cap : Nat
  cls : Nat
  basePage : Nat
  rows : Nat
  snapshots : Nat
  entries : List PageEntry
  blocks : List (List Nat)
  deriving DecidableEq, Repr

/-- The staging block of a sequence (R115): confirmed rows from slot 0 upward, draft rows after them. -/
structure Staging where
  confirmed : Nat
  drafts : Nat
  deriving DecidableEq, Repr

/-- A quantum of the staging pool: its stripe, and the page serial and key version of its blocks (R114, R131, R291). -/
structure Quantum where
  stripe : Nat
  serial : Nat
  keyVer : Nat
  deriving DecidableEq, Repr

/-- The motions of Table 4.1. -/
inductive MotionKind where
  | park
  | demote
  | retier
  | revive
  | moveOut
  | moveIn
  | restore
  deriving DecidableEq, Repr

/-- A motion of the pannier engine (R75): queue class 1 to 5 and admission order, whether it runs or waits, whether it
was counted late (R92), the depth and tier it heads for, and the request whose instruction ordered it. -/
structure Motion where
  kind : MotionKind
  cls : Nat
  order : Nat
  running : Bool
  late : Bool
  toDepth : Nat
  toTier : Nat
  rid : Option Nat
  deriving DecidableEq, Repr

/-- How far an outbound MOVE has come (Table 4.3): streaming, waiting for READY, committed. -/
inductive MoveStage where
  | streaming
  | sent
  | committed
  deriving DecidableEq, Repr

/-- The source's half of a MOVE (R86): destination, depth ordered, pannier version written, stage, the request that
waits, what READY carried, and the delta of the commit record while COMMIT waits for it (R377). -/
structure MoveOut where
  dest : Nat
  moveId : Nat
  depth : Nat
  oldPannier : Bool
  stage : MoveStage
  rid : Option Nat
  dstHandle : Nat
  dstTandem : Bool
  cutover : Bool
  /-- The header last offered. -/
  header : Bytes
  commitDelta : Option Nat
  /-- Every page has been read and sent; what is left waits for the cutover (R91). -/
  pagesSent : Bool
  /-- The table version that the pannier engine walks, and the frames it leases, while it reads a HOT session (R113, R123). -/
  snap : Option Nat
  leased : List Nat
  deriving DecidableEq, Repr

/-- The destination's reservation for an inbound pannier (R86, R87): the header, the bytes of the sections received
and, after READY, the slot and generation taken for it, with the session as a tandem copy holds it (R377). -/
structure InboundMove where
  src : Nat
  header : Bytes
  body : Bytes
  ready : Option (Nat × Nat)
  /-- Delta of the tandem partner whose acknowledgement READY waits for (order 5). -/
  waitDelta : Option Nat
  held : Option CopySession
  deriving DecidableEq, Repr

/-- A shadow slot of a speculative revival (R95, R96): the hint it was started for, whether its lift is complete or
suspended, and the frames it holds. -/
structure Shadow where
  hint : Nat
  /-- Its place in the order of admission (R75). -/
  order : Nat
  complete : Bool
  suspended : Bool
  frames : List Nat
  deriving DecidableEq, Repr

/-- Where a unit stands in the tiers (R28, R300): the pack extent and its first piece, or the run of extents. -/
structure Place where
  extent : Nat
  piece : Nat
  deriving DecidableEq, Repr

/-- A session slot: the descriptor of Table 2.2 (R27) and the body its pointers name. The complement words are the
complements of the words they follow but for the pairs listed in `badPairs` (R29). -/
structure Session where
  gen : Nat
  tenant : Nat
  state : Nat
  modelSlot : Nat
  cls : Nat
  depth : Nat
  warmTier : Nat
  closing : Bool
  enrolled : Bool
  vecItems : Nat
  prefixHandle : Nat
  prefixTokens : Nat
  lastActiveNs : Nat
  resumeHintNs : Nat
  /-- The expected-resume time has started its lift, or been passed over (R95). -/
  hintSpent : Bool
  hintDepth : Nat
  hintTier : Nat
  cog : Nat
  clist : Nat
  draftSlot : Nat
  maxContext : Nat
  parkCount : Nat
  reviveCount : Nat
  moveCount : Nat
  qStatus : Nat
  qSite : Nat
  openNs : Nat
  userTag : Bytes
  /-- Protected pairs, by number 0 to 7, whose two words as stored do not complement each other (R29). -/
  badPairs : List Nat
  /-- Decode order of the SCLOSE that set `closing` (R25). -/
  closeOrder : Nat
  /-- Private token log, depth marks included (R30). -/
  log : List (BitVec 32)
  scratch : Bytes
  /-- Private positions whose rows the session holds, in frames, staging or the WARM image (R139). -/
  computed : Nat
  table : Option PageTable
  /-- Superseded versions that a snapshot still holds, oldest first (R113). -/
  oldTables : List PageTable
  staging : Staging
  /-- The quanta that its staging block and chunk buffer hold, in slot order (R114, R115, R142). -/
  quanta : List Quantum
  /-- The rows in staging at working precision, slot by slot: confirmed rows, then draft rows (R114, R115). -/
  stageRows : List KvRow
  logPlace : Option Place
  scratchPlace : Option Place
  shadow : Option Shadow
  /-- A speculative revival that waits for a place of the engine, by its place in the order of admission (R75). -/
  liftWait : Option Nat
  motion : Option Motion
  moveOut : Option MoveOut
  /-- Kinds of units (Table 12.4: 1 KV, 2 log, 3 scratch) with a block that fails its tag, is poisoned, or whose
  tier extent record mismatches (R307); true: poisoned. -/
  badUnits : List (Nat × Bool)
  /-- A pair of its table's root record or entries disagrees (R126). -/
  badTable : Bool
  deriving DecidableEq, Repr

/-- A prefix record (Table 5.7, R127) with its table and log copy. -/
structure Prefix where
  tenant : Nat
  handle : Nat
  pstate : Nat
  damaged : Bool
  modelSlot : Nat
  cls : Nat
  attach : Nat
  table : PageTable
  tokens : Nat
  log : List (BitVec 32)
  digest : Bytes
  weights : Bytes
  pinNs : Nat
  badPair : Bool
  logPlace : Option Place
  /-- Session number of the supplier, by which its pages are placed (R107). -/
  supplier : Nat
  /-- A pair of its table's root record or entries disagrees (R126). -/
  badTable : Bool
  deriving DecidableEq, Repr

/-- A frame (Table 5.2, R108): its number is 256 times its superblock's number plus its first unit. `badPair` and
`badTag` mark a record whose pair disagrees (R126) and a block that fails its tag (R307). `rows`: the rows that stand in its
slots, in the storage form, by slot (R101); `keyVer`: the version its blocks are written under (R291). -/
structure Frame where
  order : Nat
  refs : Nat
  leases : Nat
  serial : Nat
  tenant : Nat
  badPair : Bool
  badTag : Bool
  rows : Tab KvRow
  keyVer : Nat
  deriving DecidableEq, Repr

/-- A superblock (R106): class, stack, and its free blocks as first unit and order. -/
structure Superblock where
  cls : Nat
  stack : Nat
  free : List (Nat × Nat)
  deriving DecidableEq, Repr

/-- A geometry class (R105): layers, row width w and elements E per row per layer. -/
structure GeomClass where
  layers : Nat
  rowBytes : Nat
  elems : Nat
  deriving DecidableEq, Repr

/-- What a run of 2 MiB extents holds (R288, R300). -/
inductive ExtentUse where
  | warm (sid : Nat)
  | shadowWarm (sid : Nat)
  | pack
  | model (slot : Nat)
  | adapter (slot : Nat)
  | cog (slot : Nat)
  | clist (list : Nat)
  | search (index : Nat)
  | graph (index : Nat)
  | lent (range : Nat)
  deriving DecidableEq, Repr

/-- A unit in a pack extent (R300): first piece, pieces, and whether it is still live (a freed piece of a lower tier
is not written again). -/
structure Piece where
  first : Nat
  count : Nat
  live : Bool
  deriving DecidableEq, Repr

/-- A run of 2 MiB extents of one tier (0 HBM, 1 host, 2 neighbour), each under its own serial `serial`,
`serial + 1`, ... (R131, R288, R299). `units` names each extent in the host and neighbour tiers: 2^21 times the window
or range, plus the extent's number in it. `image`: the plaintext of a WARM image as it was written. -/
structure ExtentRun where
  tier : Nat
  units : List Nat
  count : Nat
  serial : Nat
  tenant : Nat
  use : ExtentUse
  pieces : List Piece
  keyVer : Nat
  image : Bytes
  deriving DecidableEq, Repr

/-- Session manager, pannier engine and page manager beyond their register fields (chapters 2, 4, 5). -/
structure SesState where
  slots : Tab Session
  /-- FREE slots that have been used, with their last generation, longest FREE first (R24). -/
  freed : List (Nat × Nat)
  /-- Slots from this number up have never been used; they have been FREE longest (R24). -/
  firstUnused : Nat
  prefixes : Tab Prefix
  frames : Tab Frame
  supers : Tab Superblock
  classes : Tab GeomClass
  extents : Tab ExtentRun
  /-- Stripes of the staging pool (R114), and those that hold save slots (R229). -/
  poolStripes : Nat
  saveStripes : Nat
  nextSerial : Nat
  /-- Page-table blocks made so far (R112). -/
  blockSeq : Nat
  /-- Admission counter of motions (R75), STEPs and PREFILLs (R137), count of MOVEs (`move_id`), and the inbound panniers by `move_id`. -/
  motionSeq : Nat
  moveSeq : Nat
  inbound : Tab InboundMove
  /-- The words that SES_DESC_WIN and PGM_PFX_WIN show (R43, R134). -/
  descWin : List (BitVec 64)
  pfxWin : List (BitVec 64)
  deriving DecidableEq, Repr

/-- Sessions, prefixes and pages right after reset: nothing allocated, the staging pool at its default size. -/
def SesState.reset : SesState where
  slots := []
  freed := []
  firstUnused := 0
  prefixes := []
  frames := []
  supers := []
  classes := []
  extents := []
  poolStripes := 256
  saveStripes := 0
  nextSerial := 1
  blockSeq := 0
  motionSeq := 0
  moveSeq := 0
  inbound := []
  descWin := []
  pfxWin := []

/-- What the front end does with the next entries of a ring (R52): they belong to no request; join a request; or are taken in
without being run. `after`: the request's COMPLETE has been seen; `free`: the entries are not charged (R330). -/
inductive Intake where
  | none
  | join (rid : Nat) (after : Bool)
  | skip (after free : Bool)
  deriving DecidableEq, Repr

/-- A command ring (R46, R47, R74): what was read at enable, the indices, and the intake. -/
structure Ring where
  isa : Nat
  cmdLog2 : Nat
  cqLog2 : Nat
  cmdBase : Nat
  cqBase : Nat
  replayBase : Nat
  resultBase : Nat
  resLog2 : Nat
  cb : Nat
  tenant : Nat
  head : Nat
  tail : Nat
  cqTail : Nat
  hwm : Nat
  acceptSeq : Nat
  resTail : Nat
  /-- Result slots reserved (R159). -/
  reserved : Nat
  intake : Intake
  /-- An enable recorded while the ring drains (R74). -/
  reEnable : Bool
  /-- Requests whose records wait for completion slots, first first (R61, R71). -/
  cqQueue : List Nat
  /-- The next entry at the ring-ingress shaper (R328): 0 it has not met it, 1 it waits, 2 it is admitted. -/
  admitted : Nat
  /-- Slots that a restored copy had taken in (R381). -/
  copied : Nat
  /-- Heads whose entries' acceptance the tandem partner has still to acknowledge, as delta and the head before them,
  oldest first (R377). -/
  heads : List (Nat × Nat)
  deriving DecidableEq, Repr

/-- The chain front end (chapter 3) beyond its register fields. -/
structure FrontEnd where
  rings : Tab Ring
  reqs : Tab Req
  /-- The next place in the module-wide decode order (R25); a request is named by the place of its head. -/
  order : Nat
  /-- The ring that the last round-robin turn served (R50). -/
  turn : Nat
  /-- Requests whose records wait for a tandem delta, in the order they completed (R61, R377). -/
  heldRecs : List Nat
  /-- An accepted value has been seen in this enabled period of the time line, and the line was fresh (R15, R16). -/
  tlAccepted : Bool
  deriving DecidableEq, Repr

/-- A model slot (R339 to R344, Table 14.14). An emptied slot keeps its digest and class while sessions name it. -/
structure ModelSlot where
  state : Nat
  draft : Bool
  tuning : Bool
  shared : Bool
  owner : Nat
  cls : Nat
  kvFormat : Nat
  layers : Nat
  elems : Nat
  vocab : Nat
  isa : Nat
  targetDg : Bytes
  weightsDg : Bytes
  programDg : Bytes
  bytes : Nat
  /-- Adapter versions held, newest first: digest and run of extents (R169, R344). -/
  adapters : List (Bytes × Nat)
  loadNs : Nat
  /-- Host time at which the current adapter version was made (Table 15.7). -/
  adapterNs : Nat
  /-- A block of its weights or program has failed (Table 12.4, kind 5). -/
  damaged : Bool
  deriving DecidableEq, Repr

/-- An overlay admitted and waiting for the derailleur (R350): the request, its settings and its shaper entries. -/
structure Overlay where
  rid : Option Nat
  digest : Bytes
  role : Nat
  maxSeq : Nat
  prefillChunk : Nat
  mixedBudget : Nat
  catchupMax : Nat
  acceptWait : Nat
  lendGib : Nat
  shapers : List (Nat × Nat)
  deriving DecidableEq, Repr

/-- Tenants, model slots and overlays beyond their register fields (chapter 14). -/
structure TenState where
  models : Tab ModelSlot
  /-- Teardown in progress: tenant and fault code (R336). -/
  tearing : Tab Nat
  /-- Host time of the last teardown, in ns (R334). -/
  teardownNs : Tab Nat
  /-- A reset waits for the tenant's running tiles (Table 14.4, order 3). -/
  resetting : List Nat
  /-- Digest of the overlay in force; none for the built-in default overlay (R350). -/
  overlayDg : Option Bytes
  lendGib : Nat
  /-- The one overlay admitted (R350). -/
  overlay : Option Overlay
  /-- MiB of hub SRAM in the uses of Table 1.3, row by row (R9). -/
  sram : List Nat
  deriving DecidableEq, Repr

/-- What a sequence waits for steps for (R137): a STEP, a PREFILL with its chunk and the positions it has computed, a
closing pass, the prefill of a revival (R84), or nothing more: it leaves at the next order 7. -/
inductive SeqWork where
  | step (run : StepRun)
  | prefill (chunk done : Nat)
  | closing
  | revival
  | finished
  deriving DecidableEq, Repr

/-- A sequence (R136, R137): its session, its request (none for a closing pass or a revival), the admission order of its
work, the result slots reserved, and its part in the step in flight: `plan` pending positions computed (`lead`: a
lead-in step), the drafts, and the STEP whose first list a PREFILL's last step writes (R145), with the draft
depth it asks for. `ring`: where its result
slots are reserved; `light`: its instruction started with at most `catchup_max` pending positions (R147); `missed`: it
is marked to leave for want of a resource. -/
structure Seqn where
  sid : Nat
  rid : Option Nat
  ring : Nat
  order : Nat
  light : Bool
  work : SeqWork
  reserved : Nat
  plan : Nat
  lead : Bool
  drafts : List Nat
  fused : Option (StepRun × Nat)
  missed : Bool
  /-- Its instruction has been counted in `role_wait` (R147). -/
  roleWait : Bool
  deriving DecidableEq, Repr

/-- Where a resident peloton stands (R135, R136, R346): ready at order 9; its step in flight; gathering ACCEPTs at order
4; preempted with tiles still to run. -/
inductive PelPhase where
  | ready
  | flight
  | gather
  | preempted
  deriving DecidableEq, Repr

/-- A resident peloton (R136, R345, R346). `since`: host time at which it became resident; `waitFrom` and `sent`: places
in the order of waiting and of dispatch; `preempting`: marked for preemption; `regained`: it has a place again after
preemption; `tilesLeft`: tiles of the step still to end, `tilesOut` of them running; `faults`: machine faults of this
step (R233); `fault`: the first fault received as code and Spoke, `prog` when one was a program fault; `torn`: its
step ends as under R232; `abandon`: the step reaches no boundary (Table 14.4); `failed`: failures of its save slots (kind 8 of
Table 12.4); `evict`: dissolved at its next boundary (R345); `snaps`: the table
versions snapshotted, by session; `leased`: the frames leased; `tiles`: the tiles of the step; `delta`: the delta of its last
boundary (R377); `stats`: bytes of the step's statistics buffer (R167); `targeted`: the sessions of which a target tile has
begun (R177). -/
structure Peloton where
  tenant : Nat
  slot : Nat
  seqs : List Seqn
  phase : PelPhase
  since : Nat
  waitFrom : Nat
  sent : Nat
  preempting : Bool
  regained : Bool
  tiles : Nat
  tilesLeft : Nat
  tilesOut : Nat
  faults : Nat
  fault : Option (Nat × Nat)
  prog : Bool
  torn : Bool
  abandon : Bool
  failed : List (Nat × Nat)
  evict : Bool
  snaps : List (Nat × Nat)
  leased : List Nat
  delta : Nat
  stats : Nat
  targeted : List Nat
  deriving DecidableEq, Repr

/-- The step engine beyond its register fields (chapters 6, 7 and 14): resident pelotons by place 0 to 7, sequences that
wait for a step, and the running numbers of waiting and dispatch. `stopped`: the derailleur has stopped dispatch for an
overlay (R148). -/
structure SteState where
  pelotons : Tab Peloton
  waiting : List Seqn
  tick : Nat
  stopped : Bool
  deriving DecidableEq, Repr

/-- A copy that a Spoke has issued and that has not completed (R219, R221): its number, operation (1 CPIN, 2 CPOUT, 3
CPLS, 4 CPPEER), local-store address, segment offset or second local-store address, length in source bytes, segment
index, formats and flags, the local-store address of scale bytes, and its length in destination bytes. -/
structure CopyOp where
  num : Nat
  op : Nat
  ls : Nat
  off : Nat
  len : Nat
  seg : Nat
  cvt : Bool
  fsrc : Nat
  mxs : Bool
  fdst : Nat
  mxd : Bool
  sat : Bool
  scale : Nat
  outLen : Nat
  deriving DecidableEq, Repr

/-- A Spoke (R210, Table 9.1). `ctx`: tenant, model slot and place of the chain whose state stands in it (R228);
`chain`: the chain it holds, if any; `running`: from TBEGIN's dispatch to TEND; `halted`: a fault has stopped it, of code `fault`;
`swapping`: a swap is in progress; `reserved`: a tile that will consume what a peer copies into its store is reserved on it (R218);
`deferred`: its chain could not be saved for want of a slot, and is left to run to a TEND with `last` set (R229);
`resumed`: the special register of R211. Registers and rows not listed are 0; an
accumulator row is keyed by 128 times its tile plus the row; `live`: the word of its chain's last TEND, which declares what of its state is live (R225); `upsets`: words of the local store (by address ÷ 8) and of
the accumulators (2^20 plus index) that hold an ECC error, true when uncorrectable (R189); `peerIn`: where a peer's copies have
landed since its last tile began (R222); `draftOf`: the sessions whose draft rows the running tile computes (R177). -/
structure Spoke where
  ctx : Option (Nat × Nat × Nat)
  chain : Option Nat
  running : Bool
  halted : Bool
  fault : Nat
  swapping : Bool
  reserved : Bool
  deferred : Bool
  resumed : Bool
  pc : Nat
  code : List (BitVec 64)
  isa : Nat
  segs : List Segment
  targs : List (BitVec 64)
  sregs : Tab (BitVec 64)
  vregs : Tab (List (BitVec 32))
  acc : Tab (List (BitVec 32))
  ls : List Host.Cell
  copies : List CopyOp
  nextCopy : Nat
  live : Nat
  upsets : List (Nat × Bool)
  peerIn : List (Nat × Nat)
  draftOf : List Nat
  deriving DecidableEq, Repr

/-- A Spoke at reset: everything zero (R228). -/
def Spoke.reset : Spoke :=
  ⟨none, none, false, false, 0, false, false, false, false, 0, [], 0x10, [], [], [], [], [], [], [], 0, 0, [], [], []⟩

/-- A chain in a save slot (R227, R229): its tenant, model slot, place and chain number, the page serial of the slot (R288), and
its live state. -/
structure SavedChain where
  tenant : Nat
  slot : Nat
  place : Nat
  chain : Nat
  serial : Nat
  sregs : Tab (BitVec 64)
  vregs : Tab (List (BitVec 32))
  acc : Tab (List (BitVec 32))
  ls : List Host.Cell
  deriving DecidableEq, Repr

/-- The Spokes (those that differ from reset, by physical index, R187) and the save slots. -/
structure SpkState where
  spokes : Tab Spoke
  saved : List SavedChain
  deriving DecidableEq, Repr

/-- One entry of a cog (Table 10.2): its kind, and its output bytes. -/
structure CogEntry where
  kind : Nat
  bytes : Bytes
  deriving DecidableEq, Repr

/-- A cog slot that is not empty (R239 to R244, Tables 10.16, 10.17): state 1 ready or 2 draining; `entries` holds V
entries in token-ID order; `marker` is none without a SPLIT marker; `damaged`: a block of its image has failed. -/
structure Cog where
  state : Nat
  shared : Bool
  owner : Nat
  fbBase : Nat
  marker : Option Nat
  entries : List CogEntry
  digest : Bytes
  loadNs : Nat
  damaged : Bool
  deriving DecidableEq, Repr

/-- A constraint list that is not empty (R256 to R262, Table 10.19): its header, its banned sequences and its forced
entries as trigger and body, in image order, and the size of its automaton. -/
structure CList where
  state : Nat
  shared : Bool
  owner : Nat
  escapeMode : Bool
  escape : Nat
  vocab : Nat
  cogDg : Bytes
  banned : List (List Nat)
  forced : List (List Nat × List Nat)
  states : Nat
  digest : Bytes
  loadNs : Nat
  damaged : Bool
  deriving DecidableEq, Repr

/-- The text unit beyond its register fields (chapter 10). `dgList`: TXU_DG shows the selected list, not the cog. -/
structure TxuState where
  cogs : Tab Cog
  lists : Tab CList
  dgList : Bool
  deriving DecidableEq, Repr

/-- An index that is not empty (R264 to R281): state 1 ready or 2 destroying; `version` and `slots` are the published
version with its entry slots; `side` the side list; `merge` the snapshot length of the merge that runs; `started` counts
the merges started, and `again` asks for one more (R280); `bad`: a block of the search extents fails its tag (true: poisoned), `badGraph`: one of the graph extents (R265, R272). -/
structure Index where
  state : Nat
  damaged : Bool
  version : Nat
  slots : List VSlot
  entrySlots : List Nat
  side : List SideRec
  nextSeq : Nat
  merge : Option Nat
  started : Nat
  again : Bool
  bad : Option Bool
  badGraph : Option Bool
  deriving DecidableEq, Repr

/-- The search coordinator beyond its register fields (chapter 11): indexes; the shards whose answers have timed out, by
request and module (R283); the shard queries that wait for an epoch or a HANDOVER (R325, R326); and those that wait at a
SEARCH ingress shaper, by shaper (R330). -/
structure NmsState where
  indexes : Tab Index
  late : List (Nat × Nat)
  waiting : List (Nat × ShardQuery)
  held : Tab (List (Nat × ShardQuery))
  deriving DecidableEq, Repr

/-- The key table of a tenant (R291, R304): current and retiring version, 0 for none, and the units the pass has still
to cover. `keyNo` and `oldNo` name the key material that the RTP drew for the two versions. -/
structure KeyEntry where
  current : Nat
  retiring : Nat
  unitsLeft : Nat
  keyNo : Nat
  oldNo : Nat
  deriving DecidableEq, Repr

/-- A neighbour range (R302, Table 12.19) with the base of its LEND entry. A lent range whose donor changes (R327): at the
old donor, the new one and the block the stream has reached; at the new donor, the old one until its HANDOVER, the blocks
the borrower waits for, and whether the blocks that have not arrived are lost. -/
structure NbrRange where
  module : Nat
  state : Nat
  size : Nat
  base2m : Nat
  heir : Option Nat
  pos : Nat
  source : Option Nat
  waiting : List Nat
  gap : Bool
  deriving DecidableEq, Repr

/-- A block asked of a donor (R302): the donor, the session and unit kind (Table 12.4) it belongs to, the run of extents and
the block's number in it. -/
structure Fetch where
  donor : Nat
  sid : Nat
  kind : Nat
  run : Nat
  block : Nat
  deriving DecidableEq, Repr

/-- Memory controllers and tiers beyond their register fields (chapter 12). Range numbers 0 to 63 are borrowed, and a
lent block is keyed by 2^40 times its range plus its block number. -/
structure MemState where
  keys : Tab KeyEntry
  borrowed : Tab NbrRange
  lent : Tab NbrRange
  lentBlocks : Tab (Bytes × BitVec 64)
  /-- Blocks asked of donors that have not come back, oldest first (R302). -/
  fetches : List Fetch
  /-- Poisoned blocks of HBM, by address (R294). -/
  poisoned : List Nat
  /-- Patrols completed by each stack (Table 12.10). -/
  patrols : List Nat
  /-- Number of the key material of the module's metadata key (R292). -/
  metaNo : Nat
  deriving DecidableEq, Repr

/-- A change that this coordinator runs (Table 13.9): the proposal, the members that have acknowledged it, whether it is
committed, and the ranges (by base, with the departing owner) whose HANDOVER is still to be reported. -/
structure MapChange where
  proposal : Proposal
  acks : List Nat
  committed : Bool
  handovers : List (Nat × Nat)
  deriving DecidableEq, Repr

/-- The composition-map agent beyond its register fields (R318 to R327): the replica's range entries and member records,
what is staged, held and under way, the peers found unreachable. -/
structure CmpState where
  entries : Tab RangeEntry
  members : Tab MemberRec
  staged : Tab RangeEntry
  stagedMembers : Tab MemberRec
  /-- A proposal held between PREPARE and COMMIT, with the coordinator that sent it. -/
  held : Option (Nat × Proposal)
  change : Option MapChange
  /-- Base of the service range this module serves, or last served (R325). -/
  range : Option Nat
  serving : Bool
  /-- The range was given to this module and its HANDOVER has not come (R326). -/
  awaiting : Bool
  /-- The departing owner of that range; ranges whose HANDOVER came before their COMMIT. -/
  departer : Nat
  handed : List Nat
  unreachable : List Nat
  /-- Entries or records whose complement words disagree: the module fences itself (R320). -/
  badReplica : Bool
  /-- Place in the decode order at the COMMIT that took this module's range away (R326): what stands before it was accepted
  before. -/
  commitOrder : Nat
  /-- Members asked for their state by a coordinator that takes over, and not yet heard (R324). -/
  asking : List Nat
  deriving DecidableEq, Repr

/-- A port beyond its register fields (R311 to R314, R362): the order of Table 13.3 it has reached (0 when not training), the
lane whose traffic is moving to the spare, the lane drained for test, the peer's capability block, the lane that is the spare
(R393); this end's nonce of the last handshake, the link key it gave, and the number of the next message under that key. -/
structure Port where
  stage : Nat
  swapping : Option Nat
  drained : Option Nat
  peer : Bytes
  spare : Nat
  nonce : Bytes
  linkKey : Bytes
  next : Nat
  deriving DecidableEq, Repr

/-- A port at reset. -/
def Port.reset : Port := ⟨0, none, none, [], 8, [], [], 0⟩

/-- What this end shows the far end of a port while it trains: its capability block (R314), its nonce with its certificate
section, its signature, and the secret of the lower-ID end (R362). -/
inductive TrainMsg where
  | caps (block : Bytes)
  | hello (nonce certs : Bytes)
  | proof (signature : Bytes)
  | secret (sealed : Bytes)
  deriving DecidableEq, Repr

/-- Content of a Stoty message that this module sends (Table 13.6): move messages and pannier streams, the composition
protocol, shard queries and answers, neighbour-tier blocks (as a borrower: by domain address in units of 2 MiB, and the
block's number there), tandem deltas, scrub orders of R370. -/
inductive MsgBody where
  | offer (header : Bytes)
  | pannier (moveId : Nat) (bytes : Bytes)
  | trailer (moveId : Nat) (bytes : Bytes)
  | ready (moveId handle : Nat) (dstTandem : Bool)
  | refuse (moveId status : Nat)
  | commit (moveId : Nat)
  | moveDone (moveId handle : Nat)
  | prepare (p : Proposal)
  | ack (epoch : Nat) (ok : Bool)
  | mapCommit (epoch : Nat)
  | mapAbort (epoch : Nat)
  | handover (base2m : Nat)
  | fetchMap
  | askState
  | heartbeat
  | query (q : ShardQuery)
  | answer (index : Nat) (ans : ShardAnswer)
  | block (range number : Nat) (data : Bytes) (tagWord : BitVec 64)
  | blockFail (range number : Nat)
  | forward (acc : NbrAccess)
  | tierStore (unit2m number : Nat) (data : Bytes) (tagWord : BitVec 64)
  | tierFetch (unit2m number : Nat)
  | scrub (ranges : List Nat)
  | delta (number : Nat) (d : TandemDelta)
  | deltaAck (number : Nat) (copyValid : Bool)
  | ckptShard (seq : Nat) (bytes : Bytes)
  deriving DecidableEq, Repr

/-- A message on its way: destination, class (Table 13.6), content and port; the link key it is sealed under, and its number
under that key (R317, R362). -/
structure OutMsg where
  dest : Nat
  cls : Nat
  body : MsgBody
  port : Nat
  key : Bytes
  number : Nat
  deriving DecidableEq, Repr

/-- A message received whole: sender, class, its place in that pair's order, and its payload. -/
structure InMsg where
  src : Nat
  cls : Nat
  seq : Nat
  payload : Bytes
  deriving DecidableEq, Repr

/-- The links beyond their register fields. -/
structure LinkState where
  ports : Tab Port
  /-- Messages sent, oldest first: the model's own record of what has left the module (log entry 15). -/
  sent : List OutMsg
  /-- Messages that wait at an egress shaper, by shaper (R330). -/
  held : Tab (List OutMsg)
  /-- Number of the next message of a pair and class, by 8 times the sender plus the class (R317). -/
  expect : Tab Nat
  /-- Messages that came before an earlier one of their order. -/
  early : List InMsg
  /-- Messages delivered in order to their blocks, oldest first. -/
  inbox : List InMsg
  /-- Lines held in the shared state (R315): the rings whose tail line is held, and 65,536 for the host time line. -/
  shared : List Nat
  /-- Lines of companion memory, by address ÷ 64, that the companion answers as poisoned (R314, log entry 141). -/
  poison : List Nat
  /-- What this end has shown each port in training, oldest first (R314, R362): the model's own record, as `sent` is. -/
  shown : List (Nat × TrainMsg)
  deriving DecidableEq, Repr

/-- An empty copy. -/
def TandemCopy.empty : TandemCopy := ⟨[], [], [], [], [], []⟩

/-- The copy that this module keeps for a source (R374, R378, R384): the deltas applied, whether the core is complete,
whether the source has become unreachable, and whether this module follows. -/
structure KeptCopy where
  source : Nat
  copy : TandemCopy
  applied : Nat
  valid : Bool
  frozen : Bool
  follow : Bool
  /-- The final delta of a HANDOVER has been applied; the HANDOVER has come (R384). -/
  final : Bool
  handover : Bool
  deriving DecidableEq, Repr

/-- A checkpoint being written (R386 to R389): n, the pool descriptor, the request that waits, the host time and map
epoch of the first capture, the sessions captured and still to capture, the panniers captured so far, the table versions
walked by session, and the frames leased (R113, R123, R388). -/
structure CkptRun where
  seq : Nat
  kind : Nat
  peer : Nat
  addr : Nat
  slotBytes : Nat
  rid : Option Nat
  startNs : Nat
  epoch : Nat
  sessions : Nat
  toCapture : List Nat
  panniers : List Bytes
  snaps : List (Nat × Nat)
  leased : List Nat
  /-- Host time of the last capture. -/
  endNs : Nat
  deriving DecidableEq, Repr

/-- Tandem copies and checkpoints beyond their register fields (chapter 16): what the deltas sent so far have carried;
the copy kept; the checkpoint being written and the host time of the last one; the load in progress, as the copy and,
for `restore_one`, the session; the requests of a restored copy that have not restarted (R381). -/
structure TdmState where
  sent : TandemCopy
  kept : Option KeptCopy
  ckpt : Option CkptRun
  lastCkptNs : Nat
  loading : Option (TandemCopy × Option Nat)
  restored : List (Nat × CopyRequest)
  deriving DecidableEq, Repr

/-- The BIST and repair controller beyond its register fields (R393 to R397): the hub partition under test; the partitions
out of service; the idle bank group (0 to 16); channels under test; the host time of each Spoke's last test; patches
applied, and fuse repairs used, for Spokes, HBM and hub SRAM; Spokes whose last test is more than 6 h old; host time
at which each test period of BRP_CFG last ran out, for Spokes by wheel, lanes by port, hub partitions and channels (R13,
R393). -/
structure BrpState where
  hubTest : Option Nat
  hubOut : List Nat
  idleBank : Nat
  channels : List Nat
  tested : Tab Nat
  patches : List Nat
  fusesUsed : List Nat
  overdue : List Nat
  periods : Tab Nat
  /-- The new hub firmware has started (Table 16.8, order 3). -/
  switched : Bool
  deriving DecidableEq, Repr

/-- A temperature sensor (Tables 18.3, 18.13). -/
structure Sensor where
  temp : Nat
  throttleC : Nat
  tripC : Nat
  throttling : Bool
  tripped : Bool
  deriving DecidableEq, Repr

/-- A held CADENCE hint (R422, R423): its tenant, start and duration in ns, share, and whether its window is open. -/
structure Hint where
  tenant : Nat
  start : Nat
  duration : Nat
  share : Nat
  active : Bool
  deriving DecidableEq, Repr

/-- The PMC beyond its register fields (chapter 18): sensors that differ from reset; thermal limits that are below their
full value, by site, in 1/2,100 of it; the budget given to links, memory and compute, and the ceiling of the cap loop;
the held hints by number; the pins COOLANT_OK and, from outside, THERM_TRIP_N; the time COOLANT_OK has been high, in µs;
whether the brake came in STANDBY (R431), and whether a domain is held below its demand (R420). -/
structure PmcState where
  sensors : Tab Sensor
  limits : Tab Nat
  give : Nat × Nat × Nat
  capMhz : Nat
  hints : Tab Hint
  coolantOk : Bool
  tripLow : Bool
  okUs : Nat
  fromStandby : Bool
  heldBack : Bool
  deriving DecidableEq, Repr

/-- The PMC at reset: nothing held or limited, COOLANT_OK high and THERM_TRIP_N released (log entry 2). -/
def PmcState.reset : PmcState := ⟨[], [], (170, 420, 1250), 700, [], true, false, 0, false, false⟩

/-- Power stages of Tables 19.5 and 19.6. -/
inductive PowerStage where
  /-- No input above the turn-on threshold. -/
  | dead
  /-- Order 1: input applied, PWR_EN low. -/
  | input
  /-- Orders 2 to 5 of Table 19.5: rails rise. -/
  | up (order : Nat)
  /-- Order 6: PWR_GOOD is high. -/
  | good
  /-- Orders 2 to 4 of Table 19.6: rails fall. -/
  | down (order : Nat)
  deriving DecidableEq, Repr

/-- The board (chapter 19): the input in mV (0 while it is below the turn-off threshold), whether an overvoltage has shut it
down, the power stage, the pins PWR_EN, MOD_RESET_N and PWR_GOOD; whether the internal reset is released; the rails that are
up, by index; the dynamic I3C address; the status of the last bus operation; the recovery image received, by offset, and
whether the next boot takes slot A of the RTP firmware first (R446); the instruction in the debug port, none in
Test-Logic-Reset. -/
structure ModState where
  vinMv : Nat
  overvolt : Bool
  stage : PowerStage
  pwrEn : Bool
  modResetN : Bool
  pwrGood : Bool
  released : Bool
  railsUp : List Nat
  i3cAddr : Option Nat
  busStatus : Nat
  recovery : List Host.Cell
  slotAFirst : Bool
  jtag : Option JtagInstr
  deriving DecidableEq, Repr

/-- The board as the internal reset is released with the module powered (order 7 of Table 19.5; log entry 2). -/
def ModState.reset : ModState where
  vinMv := 44000
  overvolt := false
  stage := .good
  pwrEn := true
  modResetN := true
  pwrGood := true
  released := true
  railsUp := [0, 1, 2, 3, 4, 5, 6, 7, 8, 9, 10, 11, 12, 13]
  i3cAddr := none
  busStatus := 0
  recovery := []
  slotAFirst := false
  jtag := none

/-- The module: everything the spec gives it but the queue of waiting commands. -/
structure Block where
  /-- The register fields that differ from their reset value (R5, R6); key: field, instance. -/
  flds : FieldTab
  /-- Companion memory, reached over Falolo (R8): the bytes that are not 0 (log entry 1). -/
  cmem : List Host.Cell
  /-- Plaintext of HBM as the engines and Spokes read it (R303): the bytes that are not 0. -/
  hbm : List Host.Cell
  /-- The model's own counter: each free value is an opaque function of Config applied to it (log entry 3). -/
  fresh : Nat
  /-- Interrupt controller and sync counters (R400 to R415). -/
  intr : IntrState
  /-- What the last register read answered on its bus: the model's own record of a read's response (log entry 5). -/
  rdata : BitVec 64
  /-- Root-of-trust processor: fuses, store, keys, queue, batches, violation log (R353 to R372). -/
  rtp : RtpState
  /-- Sessions, motions, prefixes, frames, extents (R22 to R134, R298 to R303). -/
  ses : SesState
  /-- Chain front end: rings, requests, decode order, time line (R14 to R20, R46 to R74). -/
  fe : FrontEnd
  /-- Tenants, model slots, overlays (R333 to R352). -/
  ten : TenState
  /-- Step engine: pelotons and waiting sequences (R135 to R185, R345 to R348). -/
  ste : SteState
  /-- Spokes and save slots (R186 to R234). -/
  spk : SpkState
  /-- Text unit: cogs and constraint lists (R239 to R263). -/
  txu : TxuState
  /-- Search coordinator: indexes, late shards, shard queries (R264 to R285). -/
  nms : NmsState
  /-- Keys, neighbour ranges, poisoned blocks, patrol (R286 to R309). -/
  mem : MemState
  /-- Composition-map agent (R319 to R327). -/
  cmp : CmpState
  /-- Ports, Stoty queues and the shared lines of Falolo (R310 to R318, R330). -/
  link : LinkState
  /-- Tandem copies and checkpoints (R373 to R392). -/
  tdm : TdmState
  /-- BIST and repair (R393 to R397). -/
  brp : BrpState
  /-- Power, temperature and the hard brake (R416 to R431). -/
  pmc : PmcState
  /-- Board: input, rails, pins, management bus and debug port (R433 to R453). -/
  mod : ModState
  deriving DecidableEq, Repr

/-- The state: the module and the commands that wait, first in, first out. -/
structure State extends Block where
  pending : List Instr
  deriving DecidableEq, Repr

/-- States of the Spokes at reset (Table 8.14): 64 of each wheel in service, the other four spare (log entry 2). -/
def sparesAtReset : List ((Nat × Nat) × Nat) :=
  ([0, 1, 2, 3] : List Nat).flatMap fun w => ([64, 65, 66, 67] : List Nat).map fun i => ((F.SPK_STATE_state.key, 68 * w + i), 3)

/-- The module right after reset: every field at the value its table gives (R5); what the spec gives no value for stands
in log entry 2. -/
def Block.reset : Block where
  flds := sparesAtReset
  cmem := []
  hbm := []
  fresh := 0
  intr := ⟨[], [], [], [], [], []⟩
  rdata := 0
  rtp := RtpState.reset
  ses := SesState.reset
  fe := ⟨[], [], 1, 0, [], false⟩
  ten := ⟨[], [], [], [], none, 0, none, [64, 48, 32, 24, 24]⟩
  ste := ⟨[], [], 0, false⟩
  spk := ⟨[], []⟩
  txu := ⟨[], [], false⟩
  nms := ⟨[], [], [], []⟩
  mem := ⟨[], [], [], [], [], [], [0, 0, 0, 0, 0, 0, 0, 0], 0⟩
  cmp := ⟨[], [], [], [], none, none, none, false, false, 0, [], [], false, 0, []⟩
  link := ⟨[], [], [], [], [], [], [], [], []⟩
  tdm := ⟨TandemCopy.empty, none, none, 0, none, []⟩
  brp := ⟨none, [], 16, [], [], [0, 0, 0], [0, 0, 0], [], [], false⟩
  pmc := PmcState.reset
  mod := ModState.reset

/-- The machine right after reset, with no command waiting. -/
def State.reset : State where
  toBlock := Block.reset
  pending := []

end Sys2Proof.Machine
end

