-- ==== Sys2Proof/Machine/Ops.lean ====
section
/-! DEFINITION. The named operations over the state: sparse tables, byte memories, register fields, and the frame of
a meaning. -/

namespace Sys2Proof.Machine

/-! ### Sparse tables -/

/-- The entry under a key. -/
def tget {α : Type} : Tab α → Nat → Option α
  | [], _ => none
  | (k', v) :: t, k => if k = k' then some v else tget t k

/-- The table with an entry set; keys stay rising. -/
def tset {α : Type} : Tab α → Nat → α → Tab α
  | [], k, v => [(k, v)]
  | (k', v') :: t, k, v =>
    if k = k' then (k, v) :: t
    else if k < k' then (k, v) :: (k', v') :: t
    else (k', v') :: tset t k v

/-- The table without a key. -/
def tdel {α : Type} : Tab α → Nat → Tab α
  | [], _ => []
  | (k', v') :: t, k => if k = k' then tdel t k else (k', v') :: tdel t k

/-- The table with the entry under a key changed, where there is one. -/
def tupd {α : Type} (t : Tab α) (k : Nat) (f : α → α) : Tab α :=
  match tget t k with
  | some v => tset t k (f v)
  | none => t

/-- The entry under a key, or a default. -/
def tgetD {α : Type} (t : Tab α) (k : Nat) (d : α) : α := (tget t k).getD d

/-- Keys strictly rising. -/
def tsorted {α : Type} : Tab α → Bool
  | [] => true
  | [_] => true
  | (k, _) :: (k', v') :: t => decide (k < k') && tsorted ((k', v') :: t)

/-! ### Byte memories -/

/-- The byte at an address; an unlisted address reads 0 (log entry 1). -/
def cellGet : List Host.Cell → Nat → BitVec 8
  | [], _ => 0
  | (k, v) :: t, a => if a = k then v else cellGet t a

/-- The memory with a byte written; a byte of value 0 is not listed. -/
def cellSet : List Host.Cell → Nat → BitVec 8 → List Host.Cell
  | [], a, v => if v = 0 then [] else [(a, v)]
  | (k, w) :: t, a, v =>
    if a = k then (if v = 0 then t else (a, v) :: t)
    else if a < k then (if v = 0 then (k, w) :: t else (a, v) :: (k, w) :: t)
    else (k, w) :: cellSet t a v

/-- `n` bytes from an address. -/
def cellRead (m : List Host.Cell) (a : Nat) : Nat → Bytes
  | 0 => []
  | n + 1 => cellGet m a :: cellRead m (a + 1) n

/-- Bytes written from an address. -/
def cellWrite (m : List Host.Cell) (a : Nat) : Bytes → List Host.Cell
  | [] => m
  | v :: vs => cellWrite (cellSet m a v) (a + 1) vs

/-- A byte memory in canonical form: addresses strictly rising, no listed byte of value 0. -/
def Memory.wf : List Host.Cell → Bool
  | [] => true
  | [(_, v)] => decide (v ≠ 0)
  | (a, v) :: (a', v') :: t => decide (v ≠ 0) && decide (a < a') && Memory.wf ((a', v') :: t)

/-- Little-endian value of bytes (R3). -/
def leVal : Bytes → Nat
  | [] => 0
  | v :: vs => v.toNat + 256 * leVal vs

/-- `n` little-endian bytes of a value (R3). -/
def leBytes : (n v : Nat) → Bytes
  | 0, _ => []
  | n + 1, v => BitVec.ofNat 8 v :: leBytes n (v / 256)

/-- Bits [lo + w - 1 : lo] of a value. -/
def bitsOf (v lo w : Nat) : Nat := v / 2 ^ lo % 2 ^ w

/-- Bytes [lo + n - 1 : lo] of a byte string as a little-endian value; what lies past its end reads 0. -/
def bytesAt (bs : Bytes) (lo n : Nat) : Nat := leVal ((bs.drop lo).take n)

/-- A byte string cut or filled with zeros to `n` bytes. -/
def padTo (n : Nat) (bs : Bytes) : Bytes := bs.take n ++ List.replicate (n - bs.length) 0

/-! ### Register fields -/

/-- The value stored under a field key. -/
def ftGet : FieldTab → Nat × Nat → Option Nat
  | [], _ => none
  | (k', v) :: t, k => if k = k' then some v else ftGet t k

/-- The lexicographic order of field keys. -/
def keyLt (a b : Nat × Nat) : Bool := decide (a.1 < b.1) || (decide (a.1 = b.1) && decide (a.2 < b.2))

/-- The store with a field value set. -/
def ftSet : FieldTab → Nat × Nat → Nat → FieldTab
  | [], k, v => [(k, v)]
  | (k', v') :: t, k, v =>
    if k = k' then (k, v) :: t
    else if keyLt k k' then (k, v) :: (k', v') :: t
    else (k', v') :: ftSet t k v

/-- The store without a key. -/
def ftDel : FieldTab → Nat × Nat → FieldTab
  | [], _ => []
  | (k', v') :: t, k => if k = k' then ftDel t k else (k', v') :: ftDel t k

/-- Value of instance `i` of a field: the stored value, or the field's reset value. -/
def Block.getFi (b : Block) (f : Fld) (i : Nat) : Nat := (ftGet b.flds (f.key, i)).getD f.reset

/-- Instance `i` of a field set to a value, cut to the field's width. -/
def Block.setFi (b : Block) (f : Fld) (i v : Nat) : Block :=
  let v := v % 2 ^ f.width
  { b with flds := if v = f.reset then ftDel b.flds (f.key, i) else ftSet b.flds (f.key, i) v }

/-- Value of a field of a register with one instance. -/
def Block.getF (b : Block) (f : Fld) : Nat := b.getFi f 0

/-- A field of a register with one instance set. -/
def Block.setF (b : Block) (f : Fld) (v : Nat) : Block := b.setFi f 0 v

/-- `n` added to a counter that saturates at its width. -/
def Block.bumpFi (b : Block) (f : Fld) (i n : Nat) : Block := b.setFi f i (min (b.getFi f i + n) (2 ^ f.width - 1))

/-- A saturating counter of a register with one instance raised by `n`. -/
def Block.bumpN (b : Block) (f : Fld) (n : Nat) : Block := b.bumpFi f 0 n

/-- A saturating counter raised by one. -/
def Block.bump (b : Block) (f : Fld) : Block := b.bumpFi f 0 1

/-- A one-bit field reads 1. -/
def Block.isSet (b : Block) (f : Fld) : Bool := decide (b.getF f ≠ 0)

/-- A byte of companion memory written. -/
def Block.pokeBytes (b : Block) (a : Nat) (bs : Bytes) : Block := { b with cmem := cellWrite b.cmem a bs }

/-- A little-endian value of `n` bytes written to companion memory (R3). -/
def Block.pokeLe (b : Block) (a n v : Nat) : Block := b.pokeBytes a (leBytes n v)

/-- `n` bytes of companion memory. -/
def Block.peek (b : Block) (a n : Nat) : Bytes := cellRead b.cmem a n

/-- A little-endian value of `n` bytes of companion memory (R3). -/
def Block.peekLe (b : Block) (a n : Nat) : Nat := leVal (b.peek a n)

/-- The next value of the model's counter for free values (log entry 3). -/
def Block.takeFresh (b : Block) : Nat × Block := (b.fresh, { b with fresh := b.fresh + 1 })

/-! ### The frame of a meaning -/

/-- A meaning whose unit must exist; the effect is on the module, never on the queue. -/
def actB (u : UnitRef) (f : Block → Block) (s : State) : Host.Outcome State Fault Refusal :=
  if u.wf then .next { s with toBlock := f s.toBlock } else .fault .noSuchUnit

/-- The module has booted: the internal reset is released, and order 8 of Table 15.3 has been reached. -/
def Block.up (b : Block) : Bool := b.mod.released && b.rtp.ready

/-- A meaning of the blocks that are held in reset until the boot is complete (Tables 15.3, 19.5, 19.6): before that they do
nothing. -/
def act (u : UnitRef) (f : Block → Block) (s : State) : Host.Outcome State Fault Refusal :=
  actB u (fun b => if b.up then f b else b) s

end Sys2Proof.Machine
end

