-- ==== Sys2Proof/Machine/Intr.lean ====
section
/-! DEFINITION. The interrupt controller (R400 to R411). -/

namespace Sys2Proof.Machine

/-- Source numbers of Table 17.1. -/
def Src.rtpDoneT (tenant : Nat) : Nat := 0x400 + tenant / 16
def Src.rtpDoneM : Nat := 0x500
def Src.timeStale : Nat := 0x501
def Src.framesLow : Nat := 0x502
def Src.stageLow : Nat := 0x503
def Src.serialLow : Nat := 0x504
def Src.spokeFault : Nat := 0x505
def Src.memCeWarn : Nat := 0x506
def Src.memUe : Nat := 0x507
def Src.memInteg : Nat := 0x508
def Src.tandemLost : Nat := 0x509
def Src.ckptDone : Nat := 0x50A
def Src.bistOverdue : Nat := 0x50B
def Src.spokeLow : Nat := 0x50C
def Src.hubDegraded : Nat := 0x50D
def Src.fuseLow : Nat := 0x50E
def Src.tenantHeld : Nat := 0x50F
def Src.portEvent : Nat := 0x510
def Src.cmpEvent : Nat := 0x511
def Src.pmcThrottle : Nat := 0x512
def Src.pmcBraked : Nat := 0x513
def Src.intStorm : Nat := 0x514
def Src.syncWatch (w : Nat) : Nat := 0x600 + w
def Src.soft (n : Nat) : Nat := 0x700 + n

/-- The level sources of Table 17.1; every other source is an edge source (R400). -/
def isLevelSrc (n : Nat) : Bool :=
  [Src.timeStale, Src.framesLow, Src.stageLow, Src.serialLow, Src.bistOverdue, Src.spokeLow, Src.hubDegraded,
   Src.fuseLow, Src.pmcThrottle].contains n

/-- The reserved sources 0x515 to 0x5FF, which never fire (R400). -/
def isReservedSrc (n : Nat) : Bool := decide (0x515 ≤ n) && decide (n ≤ 0x5FF) || decide (2048 ≤ n)

/-- State of a source. -/
def intSrc (b : Block) (n : Nat) : IntSrc := tgetD b.intr.srcs n IntSrc.reset

/-- A source changed. -/
def setIntSrc (n : Nat) (x : IntSrc) (b : Block) : Block := { b with intr := { b.intr with srcs := tset b.intr.srcs n x } }

/-- Priority stack of a target, top first (R404). -/
def intStack (b : Block) (t : Nat) : List (Nat × Nat) := tgetD b.intr.prioStacks t []

/-- Running priority of a target: the top of its stack, 64 when empty (R404). -/
def runningPrio (b : Block) (t : Nat) : Nat :=
  match intStack b t with
  | [] => 64
  | (_, p) :: _ => p

/-- A source eligible for a target (R404): pending, not active, enabled, routed to it, and of a priority below both
the running priority and the target's threshold. -/
def eligible (b : Block) (t : Nat) (x : IntSrc) : Bool :=
  x.pending && !x.active && x.enable && decide (x.target = t) && decide (x.prio < runningPrio b t)
    && decide (x.prio < b.getFi F.INT_TGT_STAT_threshold t)

/-- The better of two presented candidates: the lower priority number, then the lower source number (R404). The
candidates come in rising source order, so a tie keeps the first. -/
def betterSrc : Option (Nat × Nat) → Nat × Nat → Option (Nat × Nat)
  | none, c => some c
  | some a, c => if c.2 < a.2 then some c else some a

/-- The presented source of a target with its priority (R404). -/
def presented (b : Block) (t : Nat) : Option (Nat × Nat) :=
  b.intr.srcs.foldl (fun acc e => if eligible b t e.2 then betterSrc acc (e.1, e.2.prio) else acc) none

/-- A companion target is signalled when the presented priority is below `msg_prio` (R407): the message is written to
companion memory. -/
def signalTarget (t : Nat) (b : Block) : Block :=
  match presented b t with
  | none => b
  | some (_, p) =>
    if p < b.getFi F.INT_TGT_STAT_msg_prio t then
      (b.pokeLe (4 * b.getFi F.INT_TGT_MSI_ADDR_addr t) 4 (b.getFi F.INT_TGT_MSI_DATA_data t)).setFi
        F.INT_TGT_STAT_msg_prio t p
    else b

/-- Every companion target (8 to 15) signalled where R407 asks for it. -/
def signalTargets (b : Block) : Block := [8, 9, 10, 11, 12, 13, 14, 15].foldl (fun b t => signalTarget t b) b

/-- An edge on a source outside standby (Table 17.2, R403). -/
def edge (x : IntSrc) : IntSrc :=
  if x.pending then { x with overflow := min (x.overflow + 1) 0xFF } else { x with pending := true }

/-- The power state STANDBY (Table 18.8). -/
def pstateStandby : Nat := 4

/-- An edge source fires: in standby only the PMC sources, PORT_EVENT and SOFT_n do, and their edges are latched
(R400, R402, R410). -/
def fire (n : Nat) (b : Block) : Block :=
  if isReservedSrc n || isLevelSrc n then b
  else if b.getF F.PMC_STAT_pstate = pstateStandby then
    if n = Src.portEvent ∨ n = Src.pmcBraked ∨ 0x700 ≤ n then
      { b with intr := { b.intr with latched := b.intr.latched ++ [n] } }
    else b
  else signalTargets (setIntSrc n (edge (intSrc b n)) b)

/-- A level source's condition rises or ends (Table 17.2): the source becomes pending, or idle again with its
`storm_run` at 0. -/
def setLevel (n : Nat) (on : Bool) (b : Block) : Block :=
  if on == b.intr.levels.contains n then b
  else
    let b := { b with intr := { b.intr with
      levels := if on then n :: b.intr.levels else b.intr.levels.filter (· ≠ n) } }
    if b.getF F.PMC_STAT_pstate = pstateStandby then b
    else
      let x := intSrc b n
      let x := if on then (if x.active then x else { x with pending := true })
               else { x with pending := if x.active then x.pending else false, stormRun := 0 }
      signalTargets (setIntSrc n x b)

/-- Bit (r mod 64) of INT_RING_PEND word (r div 64) is set; a rising bit fires RING_g (R408). -/
def ringPend (r : Nat) (b : Block) : Block :=
  let w := b.getFi F.INT_RING_PEND_rings (r / 64)
  if w.testBit (r % 64) then b
  else fire (r / 64) (b.setFi F.INT_RING_PEND_rings (r / 64) (w + 2 ^ (r % 64)))

/-- The value a read of INT_TGT_CLAIM answers (Table 17.9). -/
def claimWord (p : Option (Nat × Nat)) : BitVec 64 :=
  match p with
  | none => 0
  | some (n, _) => BitVec.ofNat 64 (n + 2 ^ 31)

/-- A read of INT_TGT_CLAIM (R404): the presented source becomes active and is pushed with its priority; `msg_prio`
becomes 64 (R407). -/
def claimTarget (t : Nat) (b : Block) : Block :=
  match presented b t with
  | none => { b with rdata := claimWord none }
  | some (n, p) =>
    let b := setIntSrc n { intSrc b n with pending := false, active := true } b
    let b := { b with rdata := claimWord (some (n, p)),
                      intr := { b.intr with prioStacks := tset b.intr.prioStacks t ((n, p) :: intStack b t) } }
    signalTargets (if 8 ≤ t then b.setFi F.INT_TGT_STAT_msg_prio t 64 else b)

/-- INT_CLAIM: a read of INT_TGT_CLAIM of a target (R404). -/
def execIntClaim (target : BitVec 4) (s : State) : Host.Outcome State Fault Refusal :=
  act .none (claimTarget target.toNat) s

/-- The EOI row of Table 17.2 applied to a source, with the storm rule of R406. -/
def endOfInterrupt (n : Nat) (b : Block) : Block :=
  let x := intSrc b n
  if isLevelSrc n && b.intr.levels.contains n then
    let run := min (x.stormRun + 1) 0xFF
    let stormN := b.getF F.INT_CFG_storm_n
    if stormN ≠ 0 ∧ stormN ≤ run then
      fire Src.intStorm ((setIntSrc n { x with active := false, pending := true, stormRun := run, enable := false,
                                                storm := true } b).setF F.INT_STAT_storm_seen 1)
    else setIntSrc n { x with active := false, pending := true, stormRun := run } b
  else if isLevelSrc n then setIntSrc n { x with active := false, pending := false } b
  else setIntSrc n { x with active := false } b

/-- A write of INT_TGT_EOI (R405): only the source at the top of the stack ends; any other write counts `eoi_err`. -/
def eoiTarget (t n : Nat) (b : Block) : Block :=
  match intStack b t with
  | [] => b.bump F.INT_STAT_eoi_err
  | (top, _) :: rest =>
    if top = n then
      let b := { b with intr := { b.intr with prioStacks := tset b.intr.prioStacks t rest } }
      let b := endOfInterrupt n b
      signalTargets (if 8 ≤ t then b.setFi F.INT_TGT_STAT_msg_prio t 64 else b)
    else b.bump F.INT_STAT_eoi_err

/-- INT_EOI: a write of INT_TGT_EOI (R405). -/
def execIntEoi (target : BitVec 4) (val : BitVec 64) (s : State) : Host.Outcome State Fault Refusal :=
  act .none (eoiTarget target.toNat (bitsOf val.toNat 0 11)) s

/-- A write of INT_SRC_CFG (R401, Table 17.16). A source that is active is not presented until its EOI (R402), so a
new target or priority has its effect from the EOI on. -/
def srcConfig (n v : Nat) (b : Block) : Block :=
  signalTargets (setIntSrc n { intSrc b n with
    enable := decide (bitsOf v 0 1 = 1), target := bitsOf v 4 4, prio := bitsOf v 8 6 } b)

/-- INT_SRC_CONFIG: a write of INT_SRC_CFG (R401). -/
def execIntSrcConfig (source : BitVec 11) (val : BitVec 64) (s : State) : Host.Outcome State Fault Refusal :=
  act .none (srcConfig source.toNat val.toNat) s

/-- INT_SOFT: a write of n fires SOFT_n (R400, Table 17.8). -/
def execIntSoft (val : BitVec 64) (s : State) : Host.Outcome State Fault Refusal :=
  act .none (fire (Src.soft (bitsOf val.toNat 0 8))) s

/-- Wake (R410): the latched edges are applied, the level sources are judged afresh, and each companion target with a
presented source receives one message, as if its `msg_prio` were 64. -/
def intrWake (b : Block) : Block :=
  let edges := b.intr.latched
  let b := { b with intr := { b.intr with latched := [] } }
  let b := edges.foldl (fun b n => setIntSrc n (edge (intSrc b n)) b) b
  let b := b.intr.srcs.foldl (fun b e =>
    if isLevelSrc e.1 && !e.2.active then
      setIntSrc e.1 { intSrc b e.1 with pending := b.intr.levels.contains e.1,
                                        stormRun := if b.intr.levels.contains e.1 then e.2.stormRun else 0 } b
    else b) b
  let b := b.intr.levels.foldl (fun b n =>
    let x := intSrc b n
    if x.active then b else setIntSrc n { x with pending := true } b) b
  signalTargets ([8, 9, 10, 11, 12, 13, 14, 15].foldl (fun b t => b.setFi F.INT_TGT_STAT_msg_prio t 64) b)

end Sys2Proof.Machine
end

