-- ==== Sys2Proof/Machine/Access.lean ====
section
/-! DEFINITION. Who may reach what: the violation log (R368, R369), the io windows (R47, R54, R298), and the rights of
a caller of a register. -/

namespace Sys2Proof

/-- The tenant that a caller is bound to; management space and the RTP are bound to none. -/
def Caller.tenant? : Caller → Option Nat
  | .aperture t => some t.toNat
  | _ => none

/-- The caller is management space, a management ring or the RTP, not an aperture. -/
def Caller.isMgmt : Caller → Bool
  | .aperture _ => false
  | _ => true

/-- Instance number of a register that every caller has its own copy of (R372): 0 management space, 1 + t the
aperture of tenant t. -/
def Caller.inst : Caller → Nat
  | .aperture t => 1 + t.toNat
  | _ => 0

end Sys2Proof

namespace Sys2Proof.Machine

/-- The host time last accepted (R15). -/
def Block.now (b : Block) : Nat := b.getF F.MOD_TIMELINE_LAST_last_ns

/-- The host time line is stale (R16). -/
def Block.stale (b : Block) : Bool := b.isSet F.MOD_TIMELINE_STAT_stale

/-- A deadline has passed (R17): not stale, and the last accepted value has reached it; 0 is no deadline (Table 3.4). -/
def Block.passed (b : Block) (deadline : Nat) : Bool := decide (deadline ≠ 0) && !b.stale && decide (deadline ≤ b.now)

/-- Tenant field of a log entry made from management space (R369). -/
def mgmtTenant : Nat := 0xFFFF

/-- The event equals the newest entry and falls within 1 ms of it (R369). -/
def sameEvent (e : VlogEntry) (now tenant kind place detail : Nat) : Bool :=
  decide (e.kind = kind) && decide (e.tenant = tenant) && decide (e.place = place) && decide (e.detail = detail)
    && decide (now ≤ e.timeNs + 1000000)

/-- An event written to the RTP violation log (R368, R369): merged with the newest entry or written as a new one, the
oldest of 8,192 being overwritten. -/
def violation (kind tenant place detail : Nat) (b : Block) : Block :=
  match b.rtp.vlog with
  | e :: rest =>
    if sameEvent e b.now tenant kind place detail then
      { b with rtp := { b.rtp with vlog := { e with repeats := min (e.repeats + 1) 0xFFFFFFFF } :: rest } }
    else
      let log := ⟨b.now, tenant, kind, place, detail, 0⟩ :: e :: rest
      let full := decide (8192 < log.length)
      let b := { b with rtp := { b.rtp with vlog := log.take 8192 } }
      let b := b.bump F.RTP_VLOG_STAT_written
      if full then b.bump F.RTP_VLOG_STAT_lost else b
  | [] =>
    Block.bump { b with rtp := { b.rtp with vlog := [⟨b.now, tenant, kind, place, detail, 0⟩] } }
      F.RTP_VLOG_STAT_written

/-- Base and end of an enabled io window that a tenant may reach; `none` stands for management space, which reaches
every enabled io window (R298, Table 12.16). -/
def ioWindow (b : Block) (tenant : Option Nat) (w : Nat) : Option (Nat × Nat) :=
  let base := b.getFi F.MEM_HWIN_ADDR_base w * 2 ^ 21
  let size := b.getFi F.MEM_HWIN_CFG_size_2m w * 2 ^ 21
  let mine := match tenant with
    | none => true
    | some t => decide (b.getFi F.MEM_HWIN_CFG_all_tenants w = 1) || decide (b.getFi F.MEM_HWIN_CFG_tenant w = t)
  if b.getFi F.MEM_HWIN_CFG_enable w = 1 ∧ b.getFi F.MEM_HWIN_CFG_tier w = 0 ∧ mine = true then some (base, base + size)
  else none

/-- The reachable io windows. -/
def ioWindows (b : Block) (tenant : Option Nat) : List (Nat × Nat) := (List.range 64).filterMap (ioWindow b tenant)

/-- A range lies wholly in one of the windows (R47). -/
def inOneWindow (ws : List (Nat × Nat)) (addr len : Nat) : Bool :=
  ws.any fun w => decide (w.1 ≤ addr) && decide (addr + len ≤ w.2)

/-- End of the window that holds an address. -/
def windowEnd (ws : List (Nat × Nat)) (addr : Nat) : Option Nat :=
  (ws.find? fun w => decide (w.1 ≤ addr) && decide (addr < w.2)).map (·.2)

/-- Every byte of a range lies in some window (R54); the first argument bounds the windows crossed. -/
def coveredBy (ws : List (Nat × Nat)) : Nat → (addr len : Nat) → Bool
  | 0, _, len => decide (len = 0)
  | n + 1, addr, len =>
    if len = 0 then true
    else match windowEnd ws addr with
      | none => false
      | some e => if addr + len ≤ e then true else coveredBy ws n e (addr + len - e)

/-- A companion range lies wholly within the io windows that a tenant may reach (R54). -/
def ioReach (b : Block) (tenant : Option Nat) (addr len : Nat) : Bool := coveredBy (ioWindows b tenant) 64 addr len

/-- A Falolo port that is up runs protocol 2.0, which marks poisoned lines on reads (Table 13.5). -/
def marksPoison (b : Block) : Bool :=
  [0, 1, 2, 3].any fun p => decide (b.getFi F.FLL_PORT_STAT_version p = 0x20) &&
    decide (b.getFi F.FLL_PORT_STAT_state p = 2 ∨ b.getFi F.FLL_PORT_STAT_state p = 3)

/-- A line of a companion range is read as poisoned (R314). -/
def readsPoison (b : Block) (addr len : Nat) : Bool :=
  marksPoison b && b.link.poison.any fun l => decide (0 < len) && decide (addr / 64 ≤ l) && decide (l ≤ (addr + len - 1) / 64)

/-- A companion range that an instruction reads: within the tenant's io windows, and no line of it poisoned (R54, R314). -/
def ioRead (b : Block) (tenant : Option Nat) (addr len : Nat) : Bool := ioReach b tenant addr len && !readsPoison b addr len

/-- State of a tenant (Table 14.11). -/
def tenantState (b : Block) (t : Nat) : Nat := b.getFi F.MOD_TEN_STAT_tstate t

/-- Tenant state codes (Table 14.11). -/
def tsAbsent : Nat := 0
def tsActive : Nat := 1
def tsHeld : Nat := 2
def tsResetting : Nat := 3

end Sys2Proof.Machine
end

