-- ==== Sys2Proof/Machine/Fp.lean ====
section
/-! DEFINITION. Numbers of the Spokes: formats (R190 to R194), rounding and conversion (R197 to R199), block scaling (R195),
the scalar functions of Table 8.10 on FP32 bit patterns,
packed elements, and the reduction of the matrix unit (R201). -/

namespace Sys2Proof.Machine

/-- A number: NaN, an infinity, or (-1)^neg × m × 2^e. -/
inductive Num where
  | nan
  | inf (neg : Bool)
  | fin (neg : Bool) (m : Nat) (e : Int)
  deriving DecidableEq, Repr

/-! ### Rounding (R197) -/

/-- m ÷ 2^sh to the nearest integer, ties to even. -/
def rne (m sh : Nat) : Nat :=
  let q := m / 2 ^ sh
  let r := 2 * (m % 2 ^ sh)
  if 2 ^ sh < r ∨ (r = 2 ^ sh ∧ q % 2 = 1) then q + 1 else q

/-- m × 2^e in units of 2^q, to the nearest, ties to even. -/
def roundAt (q : Int) (m : Nat) (e : Int) : Nat :=
  if q ≤ e then m * 2 ^ (e - q).toNat else if m = 0 then 0 else rne m (q - e).toNat

/-! ### Formats (Tables 8.3 and 8.4) -/

/-- What the exponent field's top values stand for: an infinity and NaNs; one NaN; finite numbers only. -/
inductive Special where
  | ieee
  | oneNan
  | none
  deriving DecidableEq, Repr

/-- A floating format: exponent and fraction bits, bias, special encodings. -/
structure FloatFmt where
  ebits : Nat
  mbits : Nat
  bias : Nat
  special : Special
  deriving DecidableEq, Repr

/-- The floating format of a code (Table 8.3). -/
def floatFmt (code : Nat) : Option FloatFmt :=
  match code with
  | 0 => some ⟨8, 23, 127, .ieee⟩
  | 1 => some ⟨8, 7, 127, .ieee⟩
  | 2 => some ⟨5, 10, 15, .ieee⟩
  | 3 => some ⟨4, 3, 7, .oneNan⟩
  | 4 => some ⟨5, 2, 15, .ieee⟩
  | 5 => some ⟨3, 2, 3, .none⟩
  | 6 => some ⟨2, 3, 1, .none⟩
  | 7 => some ⟨2, 1, 1, .none⟩
  | _ => none

/-- Bits of an element (Table 8.3). -/
def elemBits (code : Nat) : Nat :=
  match code with
  | 0 => 32
  | 1 => 16
  | 2 => 16
  | 3 => 8
  | 4 => 8
  | 5 => 6
  | 6 => 6
  | 7 => 4
  | 8 => 8
  | 9 => 4
  | 10 => 1
  | _ => 8

/-- Codes that exist, and codes that take the block-scaling attribute (R190, R195). -/
def fmtOk (code : Nat) : Bool := decide (code ≤ 10)
def mxOk (code : Nat) : Bool := decide (3 ≤ code) && decide (code ≤ 8)

/-- Magnitude bits of a format's largest finite number (Table 8.4). -/
def FloatFmt.maxBits (f : FloatFmt) : Nat :=
  match f.special with
  | .ieee => (2 ^ f.ebits - 1) * 2 ^ f.mbits - 1
  | .oneNan => 2 ^ (f.ebits + f.mbits) - 2
  | .none => 2 ^ (f.ebits + f.mbits) - 1

/-- The number that bits stand for in a floating format. -/
def FloatFmt.decode (f : FloatFmt) (w : Nat) : Num :=
  let neg := w.testBit (f.ebits + f.mbits)
  let mag := w % 2 ^ (f.ebits + f.mbits)
  let e := mag / 2 ^ f.mbits
  let m := mag % 2 ^ f.mbits
  if f.maxBits < mag then
    (if f.special = .ieee ∧ m = 0 then .inf neg else .nan)
  else if e = 0 then .fin neg m (1 - f.bias - f.mbits : Int)
  else .fin neg (m + 2 ^ f.mbits) ((e : Int) - f.bias - f.mbits)

/-- Magnitude bits of m × 2^e rounded in a format as if its exponent range were unbounded (R198). -/
def FloatFmt.roundBits (f : FloatFmt) (m : Nat) (e : Int) : Nat :=
  if m = 0 then 0
  else
    let qmin : Int := 1 - f.bias - f.mbits
    let q : Int := max (e + Nat.log2 m - f.mbits) qmin
    (q - qmin).toNat * 2 ^ f.mbits + roundAt q m e

/-- The NaN a format produces (R194, Table 8.5). -/
def FloatFmt.nanBits (f : FloatFmt) : Nat :=
  match f.special with
  | .none => 0
  | .oneNan => 0x7F
  | .ieee => if f.ebits + f.mbits = 7 then 0x7F else (2 ^ (f.ebits + 1) - 1) * 2 ^ (f.mbits - 1)

/-- Bits with their sign. -/
def FloatFmt.signed (f : FloatFmt) (neg : Bool) (mag : Nat) : Nat := (if neg then 2 ^ (f.ebits + f.mbits) else 0) + mag

/-- What stands for a magnitude too large, and for an infinity (Table 8.5): an infinity, a NaN or the largest number. FP32
keeps an infinity whatever the flag. -/
def FloatFmt.overflow (f : FloatFmt) (neg sat fromInf : Bool) : Nat :=
  match f.special with
  | .none => f.signed neg f.maxBits
  | .oneNan => if sat then f.signed neg f.maxBits else 0x7F
  | .ieee => if sat && !(fromInf && decide (f.mbits = 23)) then f.signed neg f.maxBits else f.signed neg (f.maxBits + 1)

/-- A number converted to a floating format (R198, Table 8.5). -/
def FloatFmt.encode (f : FloatFmt) (sat : Bool) (x : Num) : Nat :=
  match x with
  | .nan => f.nanBits
  | .inf neg => f.overflow neg sat true
  | .fin neg m e =>
    let mag := f.roundBits m e
    if f.maxBits < mag then f.overflow neg sat false else f.signed neg mag

/-- A number converted to an integer between bounds (R198). -/
def toInteger (lo hi : Int) (x : Num) : Int :=
  match x with
  | .nan => 0
  | .inf neg => if neg then lo else hi
  | .fin neg m e =>
    let v : Int := roundAt 0 m e
    max lo (min hi (if neg then -v else v))

/-- A two's-complement integer of a width, as a number. -/
def fromInteger (w v : Nat) : Num :=
  if v.testBit (w - 1) then .fin true (2 ^ w - v) 0 else .fin false v 0

/-- The number an element of a format code stands for, without scaling (Table 8.3). -/
def decodeElem (code w : Nat) : Num :=
  match floatFmt code with
  | some f => f.decode w
  | none => if code = 10 then .fin (decide (w = 0)) 1 0 else fromInteger (elemBits code) w

/-- A number converted to a format code without scaling (R198). -/
def encodeElem (code : Nat) (sat : Bool) (x : Num) : Nat :=
  match floatFmt code with
  | some f => f.encode sat x
  | none =>
    if code = 8 then (toInteger (-128) 127 x % 256).toNat
    else if code = 9 then (toInteger (-8) 7 x % 16).toNat
    else match x with
      | .inf false => 1
      | .fin false m _ => if m = 0 then 0 else 1
      | _ => 0

/-- A number times 2^k. -/
def Num.scale (x : Num) (k : Int) : Num :=
  match x with
  | .fin neg m e => .fin neg m (e + k)
  | x => x

/-! ### Block scaling (R195, R199) -/

/-- The number a block-scaled element stands for under scale byte S (R195). -/
def decodeMx (code w S : Nat) : Num :=
  if S = 0xFF then .nan
  else (decodeElem code w).scale ((S : Int) - 127 - (if code = 8 then 6 else 0))

/-- Largest element exponent (Table 8.6). -/
def emaxOf (code : Nat) : Int :=
  match code with
  | 3 => 8
  | 4 => 15
  | 5 => 4
  | 6 => 2
  | 7 => 2
  | _ => 0

/-- floor(log2 |x|) of a finite number that is not zero. -/
def Num.exponent (x : Num) : Option Int :=
  match x with
  | .fin _ m e => if m = 0 then none else some (e + Nat.log2 m)
  | _ => none

/-- A number that is neither NaN nor an infinity. -/
def Num.isFinite (x : Num) : Bool :=
  match x with
  | .fin _ _ _ => true
  | _ => false

/-- A block of numbers in a block-scaled format: the scale byte and the elements (R199). -/
def encodeMx (code : Nat) (vs : List Num) : Nat × List Nat :=
  if vs.any fun v => !v.isFinite then
    (0xFF, vs.map fun _ => if code = 3 ∨ code = 4 then 0x7F else 0)
  else match vs.foldl (fun (acc : Option Int) v => match acc, v.exponent with
      | none, x => x
      | a, none => a
      | some a, some x => some (max a x)) none with
    | none => (0, vs.map fun v => if code = 8 then 0 else encodeElem code true v)
    | some top =>
      let X := max (-127) (min 127 (top - emaxOf code))
      ((X + 127).toNat, vs.map fun v =>
        if code = 8 then (toInteger (-127) 127 (v.scale (6 - X)) % 256).toNat else encodeElem code true (v.scale (-X)))

/-! ### FP32 (Table 8.10) -/

/-- FP32 as a format, its numbers, and a number rounded to it. -/
def fp32 : FloatFmt := ⟨8, 23, 127, .ieee⟩
def num32 (w : BitVec 32) : Num := fp32.decode w.toNat
def bits32 (x : Num) : BitVec 32 := BitVec.ofNat 32 (fp32.encode false x)

/-- The canonical NaN of FP32 (R194). -/
def nan32 : BitVec 32 := 0x7FC00000

/-- An exact sum of two finite numbers; an exact zero is -0 only where both are -0. -/
def Num.addFin (na : Bool) (ma : Nat) (ea : Int) (nb : Bool) (mb : Nat) (eb : Int) : Num :=
  let e := min ea eb
  let a : Int := ma * 2 ^ (ea - e).toNat
  let c : Int := mb * 2 ^ (eb - e).toNat
  let s := (if na then -a else a) + (if nb then -c else c)
  if s = 0 then .fin (na && nb && decide (ma = 0) && decide (mb = 0)) 0 e else .fin (decide (s < 0)) s.natAbs e

/-- Exact sum. -/
def Num.add (x y : Num) : Num :=
  match x, y with
  | .nan, _ => .nan
  | _, .nan => .nan
  | .inf a, .inf c => if a = c then .inf a else .nan
  | .inf a, .fin _ _ _ => .inf a
  | .fin _ _ _, .inf c => .inf c
  | .fin na ma ea, .fin nb mb eb => Num.addFin na ma ea nb mb eb

/-- Negation. -/
def Num.neg (x : Num) : Num :=
  match x with
  | .nan => .nan
  | .inf a => .inf (!a)
  | .fin n m e => .fin (!n) m e

/-- Exact product. -/
def Num.mul (x y : Num) : Num :=
  match x, y with
  | .nan, _ => .nan
  | _, .nan => .nan
  | .inf a, .inf c => .inf (a != c)
  | .inf a, .fin n m _ => if m = 0 then .nan else .inf (a != n)
  | .fin n m _, .inf c => if m = 0 then .nan else .inf (n != c)
  | .fin na ma ea, .fin nb mb eb => .fin (na != nb) (ma * mb) (ea + eb)

/-- Quotient, exact or with a last bit that stands for what is left: it rounds as the exact quotient does. -/
def Num.div (x y : Num) : Num :=
  match x, y with
  | .nan, _ => .nan
  | _, .nan => .nan
  | .inf _, .inf _ => .nan
  | .inf a, .fin n _ _ => .inf (a != n)
  | .fin n _ _, .inf c => .fin (n != c) 0 0
  | .fin na ma ea, .fin nb mb eb =>
    if mb = 0 then (if ma = 0 then .nan else .inf (na != nb))
    else
      let n := ma * 2 ^ 64
      .fin (na != nb) (2 * (n / mb) + if n % mb = 0 then 0 else 1) (ea - eb - 65)

/-- Integer square root, bit by bit from bit `k` down. -/
def isqrt (n : Nat) : (k : Nat) → Nat → Nat
  | 0, r => if (r + 1) * (r + 1) ≤ n then r + 1 else r
  | k + 1, r => isqrt n k (if (r + 2 ^ (k + 1)) * (r + 2 ^ (k + 1)) ≤ n then r + 2 ^ (k + 1) else r)

/-- A number's magnitude with an even exponent. -/
def evenExp (m : Nat) (e : Int) : Nat × Int := if e % 2 = 0 then (m, e) else (2 * m, e - 1)

/-- Square root, as `div`. -/
def Num.sqrt (x : Num) : Num :=
  match x with
  | .nan => .nan
  | .inf neg => if neg then .nan else .inf false
  | .fin neg m e =>
    if m = 0 then .fin neg 0 e
    else if neg then .nan
    else
      let (m, e) := evenExp m e
      let n := m * 2 ^ 64
      let r := isqrt n (Nat.log2 n / 2) 0
      .fin false (2 * r + if r * r = n then 0 else 1) (e / 2 - 33)

/-- Reciprocal square root, as `div` (Table 8.10). -/
def Num.rsqrt (x : Num) : Num :=
  match x with
  | .nan => .nan
  | .inf neg => if neg then .nan else .fin false 0 0
  | .fin neg m e =>
    if m = 0 then .inf neg
    else if neg then .nan
    else
      let (m, e) := evenExp m e
      let r := isqrt (2 ^ 120 / m) 60 0
      .fin false (2 * r + if r * r * m = 2 ^ 120 then 0 else 1) (Int.neg (e / 2) - 61)

/-- ln 2 in units of 2^-256. -/
def ln2Fixed : Nat :=
  80260960185991308862233904206310070533990667611589946606122867505419956976171

/-- The Taylor series of exp at t, in units of 2^-256: `n` more terms after the `i`-th. -/
def expSeries (t : Nat) : (n i term acc : Nat) → Nat
  | 0, _, _, acc => acc
  | n + 1, i, term, acc =>
    let term := term * t / 2 ^ 256 / i
    expSeries t n (i + 1) term (acc + term)

/-- Power of two (R205, Table 8.10), to 256 bits: it rounds as the exact value does. -/
def Num.exp2 (x : Num) : Num :=
  match x with
  | .nan => .nan
  | .inf neg => if neg then .fin false 0 0 else .inf false
  | .fin neg m e =>
    if m = 0 then .fin false 1 0
    else if 9 ≤ e + Nat.log2 m then (if neg then .fin false 0 0 else .inf false)
    else if e < -256 then .fin false 1 0
    else
      let v : Int := m * 2 ^ (256 + e).toNat
      let v := if neg then -v else v
      let k := v / 2 ^ 256
      let f := (v % 2 ^ 256).toNat
      if f = 0 then .fin false 1 k
      else .fin false (2 * expSeries (f * ln2Fixed / 2 ^ 256) 70 1 (2 ^ 256) (2 ^ 256) + 1) (k - 257)

/-- The series of atanh at z, in units of 2^-256, from the power `p` = z^(2i+1). -/
def atanhSeries (z2 : Nat) : (n i p acc : Nat) → Nat
  | 0, _, _, acc => acc
  | n + 1, i, p, acc => atanhSeries z2 n (i + 1) (p * z2 / 2 ^ 256) (acc + p / (2 * i + 1))

/-- Base-2 logarithm (R205, Table 8.10), to 256 bits: it rounds as the exact value does. -/
def Num.log2 (x : Num) : Num :=
  match x with
  | .nan => .nan
  | .inf neg => if neg then .nan else .inf false
  | .fin neg m e =>
    if m = 0 then .inf true
    else if neg then .nan
    else
      let l := Nat.log2 m
      let top : Int := e + l
      let n := m * 2 ^ 256 / 2 ^ l
      let g := n - 2 ^ 256
      if g = 0 then .fin (decide (top < 0)) top.natAbs 0
      else
        let z := g * 2 ^ 256 / (n + 2 ^ 256)
        let ln := 2 * atanhSeries (z * z / 2 ^ 256) 90 0 z 0
        let t : Int := top * 2 ^ 256 + (ln * 2 ^ 256 / ln2Fixed : Nat)
        .fin (decide (t < 0)) (2 * t.natAbs + 1) (-257)

/-- Natural exponential (Table 8.10): exp2 of x × 0x3FB8_AA3B correctly rounded. -/
def Num.exp (x : Num) : Num := (num32 (bits32 (x.mul (num32 0x3FB8AA3B)))).exp2

/-- Order of two numbers that are no NaN, -0 before +0: whether the first is less. -/
def Num.less (x y : Num) : Bool :=
  match x, y with
  | .nan, _ => false
  | _, .nan => false
  | .inf a, .inf c => a && !c
  | .inf a, .fin _ _ _ => a
  | .fin _ _ _, .inf c => !c
  | .fin na ma ea, .fin nb mb eb =>
    match Num.addFin na ma ea (!nb) mb eb with
    | .fin n m _ => if m = 0 then na && !nb && decide (ma = 0) else n
    | _ => false

/-- Equal numbers; zeros are equal. -/
def Num.same (x y : Num) : Bool :=
  match x, y with
  | .inf a, .inf c => a = c
  | .fin na ma ea, .fin nb mb eb =>
    match Num.addFin na ma ea (!nb) mb eb with
    | .fin _ m _ => decide (m = 0)
    | _ => false
  | _, _ => false

/-- Operations of Table 8.10 on FP32 lanes. -/
def fAdd (a c : BitVec 32) : BitVec 32 := bits32 ((num32 a).add (num32 c))
def fSub (a c : BitVec 32) : BitVec 32 := bits32 ((num32 a).add (num32 c).neg)
def fMul (a c : BitVec 32) : BitVec 32 := bits32 ((num32 a).mul (num32 c))
def fDiv (a c : BitVec 32) : BitVec 32 := bits32 ((num32 a).div (num32 c))
def fFma (a c d : BitVec 32) : BitVec 32 := bits32 (((num32 a).mul (num32 c)).add (num32 d))
def fSqrt (a : BitVec 32) : BitVec 32 := bits32 (num32 a).sqrt
def fRcp (a : BitVec 32) : BitVec 32 := bits32 ((Num.fin false 1 0).div (num32 a))
def fRsq (a : BitVec 32) : BitVec 32 := bits32 (num32 a).rsqrt
def fExp2 (a : BitVec 32) : BitVec 32 := bits32 (num32 a).exp2
def fLog2 (a : BitVec 32) : BitVec 32 := bits32 (num32 a).log2
def fExp (a : BitVec 32) : BitVec 32 := bits32 (num32 a).exp

/-- A lane holds a NaN. -/
def isNan32 (a : BitVec 32) : Bool := decide (num32 a = .nan)

/-- Minimum and maximum (Table 8.10). -/
def fMin (a c : BitVec 32) : BitVec 32 :=
  if isNan32 a || isNan32 c then nan32 else if (num32 c).less (num32 a) then c else a
def fMax (a c : BitVec 32) : BitVec 32 :=
  if isNan32 a || isNan32 c then nan32 else if (num32 a).less (num32 c) then c else a

/-- Less in the IEEE comparison, in which zeros are equal. -/
def fLess (a c : BitVec 32) : Bool := (num32 a).less (num32 c) && !(num32 a).same (num32 c)
def fEq (a c : BitVec 32) : Bool := (num32 a).same (num32 c)

/-- A comparison by the `mode` of VCMP (R205, Table 9.4); none: the mode is illegal. -/
def fCompare (mode : Nat) (a c : BitVec 32) : Option Bool :=
  match mode with
  | 0 => some (fEq a c)
  | 1 => some (!fEq a c)
  | 2 => some (fLess a c)
  | 3 => some (fLess a c || fEq a c)
  | 4 => some (fLess c a)
  | 5 => some (fLess c a || fEq a c)
  | _ => none

/-! ### Packed elements (R192, R195) -/

/-- Elements of `w` bits packed in bytes (R192). -/
def unpack (w n : Nat) (bs : Bytes) : List Nat :=
  let v := leVal bs
  (List.range n).map fun i => bitsOf v (w * i) w

/-- Value of packed elements as one little-endian bit string. -/
def packVal (w : Nat) : List Nat → Nat
  | [] => 0
  | x :: xs => x % 2 ^ w + 2 ^ w * packVal w xs

/-- Elements of `w` bits packed to bytes (R192). -/
def pack (w : Nat) (xs : List Nat) : Bytes := leBytes ((w * xs.length + 7) / 8) (packVal w xs)

/-- Bytes that `n` elements of a format take. -/
def elemBytes (code n : Nat) : Nat := (elemBits code * n + 7) / 8

/-- A list cut into runs of 32 (R195); the first argument bounds the runs. -/
def runs32 {α : Type} : Nat → List α → List (List α)
  | 0, _ => []
  | n + 1, xs => if xs.isEmpty then [] else xs.take 32 :: runs32 n (xs.drop 32)

/-- Packed elements as numbers, with their scale bytes where they are block-scaled (R195). -/
def readElems (code n : Nat) (mx : Bool) (bs scales : Bytes) : List Num :=
  let es := unpack (elemBits code) n bs
  if mx then (es.zipIdx).map fun e => decodeMx code e.1 (bytesAt scales (e.2 / 32) 1)
  else es.map (decodeElem code)

/-- Numbers converted to a format: the packed elements and, block-scaled, the scale bytes (R198, R199). -/
def writeElems (code : Nat) (mx sat : Bool) (vs : List Num) : Bytes × Bytes :=
  if mx then
    let blocks := (runs32 vs.length vs).map (encodeMx code)
    (pack (elemBits code) (blocks.flatMap (·.2)), blocks.map fun x => BitVec.ofNat 8 x.1)
  else (pack (elemBits code) (vs.map (encodeElem code sat)), [])

/-! ### The matrix unit's reduction (R201, R202) -/

/-- The exact sum of a group's products (R201, R202); an exact zero is +0. -/
def groupSum (xs ys : List Num) : Num :=
  let s := (List.zipWith Num.mul xs ys).foldl Num.add (.fin false 0 0)
  match s with
  | .fin _ 0 _ => .fin false 0 0
  | s => s

/-- The group sum of B1 elements: the Hamming count, or g minus twice it (R201). -/
def bitSum (dot : Bool) (xs ys : List Num) : Num :=
  let n := ((List.zip xs ys).filter fun p => p.1 ≠ p.2).length
  if dot then (if 2 * n ≤ xs.length then .fin false (xs.length - 2 * n) 0 else .fin true (2 * n - xs.length) 0)
  else .fin false n 0

/-- The sums of the groups of g indices, in ascending order; the first argument bounds the groups. -/
def groupSums (b1 dot : Bool) (g : Nat) : Nat → List Num → List Num → List Num
  | 0, _, _ => []
  | n + 1, xs, ys =>
    if xs.isEmpty then []
    else (if b1 then bitSum dot (xs.take g) (ys.take g) else groupSum (xs.take g) (ys.take g)) ::
      groupSums b1 dot g n (xs.drop g) (ys.drop g)

/-- An element of the tile: the group sums added to its start value in ascending order, each addition rounded once
(R201). -/
def mmaElement (start : BitVec 32) (sums : List Num) : BitVec 32 :=
  sums.foldl (fun c s => bits32 ((num32 c).add s)) start

end Sys2Proof.Machine
end

