-- ==== Sys2Proof/Machine/Sha.lean ====
section
/-! DEFINITION. SHA-256 (FIPS 180-4), the digest of every image, range, batch and record (R3, R72, R128, R240, R340,
R349, R365). -/

namespace Sys2Proof.Machine

/-- Round constants. -/
def sha256K : List (BitVec 32) :=
  [0x428a2f98, 0x71374491, 0xb5c0fbcf, 0xe9b5dba5, 0x3956c25b, 0x59f111f1, 0x923f82a4, 0xab1c5ed5] ++
  [0xd807aa98, 0x12835b01, 0x243185be, 0x550c7dc3, 0x72be5d74, 0x80deb1fe, 0x9bdc06a7, 0xc19bf174] ++
  [0xe49b69c1, 0xefbe4786, 0x0fc19dc6, 0x240ca1cc, 0x2de92c6f, 0x4a7484aa, 0x5cb0a9dc, 0x76f988da] ++
  [0x983e5152, 0xa831c66d, 0xb00327c8, 0xbf597fc7, 0xc6e00bf3, 0xd5a79147, 0x06ca6351, 0x14292967] ++
  [0x27b70a85, 0x2e1b2138, 0x4d2c6dfc, 0x53380d13, 0x650a7354, 0x766a0abb, 0x81c2c92e, 0x92722c85] ++
  [0xa2bfe8a1, 0xa81a664b, 0xc24b8b70, 0xc76c51a3, 0xd192e819, 0xd6990624, 0xf40e3585, 0x106aa070] ++
  [0x19a4c116, 0x1e376c08, 0x2748774c, 0x34b0bcb5, 0x391c0cb3, 0x4ed8aa4a, 0x5b9cca4f, 0x682e6ff3] ++
  [0x748f82ee, 0x78a5636f, 0x84c87814, 0x8cc70208, 0x90befffa, 0xa4506ceb, 0xbef9a3f7, 0xc67178f2]

/-- The eight chaining words. -/
structure Sha256 where
  a : BitVec 32
  b : BitVec 32
  c : BitVec 32
  d : BitVec 32
  e : BitVec 32
  f : BitVec 32
  g : BitVec 32
  h : BitVec 32
  deriving DecidableEq, Repr

/-- Initial chaining words. -/
def sha256Init : Sha256 :=
  ⟨0x6a09e667, 0xbb67ae85, 0x3c6ef372, 0xa54ff53a, 0x510e527f, 0x9b05688c, 0x1f83d9ab, 0x5be0cd19⟩

/-- Big-endian 32-bit words of a byte string whose length is a multiple of four. -/
def beWords : Bytes → List (BitVec 32)
  | x0 :: x1 :: x2 :: x3 :: t => (x0 ++ x1 ++ x2 ++ x3 : BitVec 32) :: beWords t
  | _ => []

/-- The next word of the message schedule, the words so far held newest first. -/
def scheduleWord (ws : List (BitVec 32)) : BitVec 32 :=
  let w2 := ws.getD 1 0
  let w7 := ws.getD 6 0
  let w15 := ws.getD 14 0
  let w16 := ws.getD 15 0
  let s0 := w15.rotateRight 7 ^^^ w15.rotateRight 18 ^^^ (w15 >>> 3)
  let s1 := w2.rotateRight 17 ^^^ w2.rotateRight 19 ^^^ (w2 >>> 10)
  w16 + s0 + w7 + s1

/-- The schedule extended by `n` words, newest first. -/
def extendSchedule : Nat → List (BitVec 32) → List (BitVec 32)
  | 0, ws => ws
  | n + 1, ws => extendSchedule n (scheduleWord ws :: ws)

/-- One round. -/
def sha256Round (s : Sha256) (kw : BitVec 32) : Sha256 :=
  let s1 := s.e.rotateRight 6 ^^^ s.e.rotateRight 11 ^^^ s.e.rotateRight 25
  let ch := (s.e &&& s.f) ^^^ (~~~s.e &&& s.g)
  let t1 := s.h + s1 + ch + kw
  let s0 := s.a.rotateRight 2 ^^^ s.a.rotateRight 13 ^^^ s.a.rotateRight 22
  let maj := (s.a &&& s.b) ^^^ (s.a &&& s.c) ^^^ (s.b &&& s.c)
  ⟨t1 + (s0 + maj), s.a, s.b, s.c, s.d + t1, s.e, s.f, s.g⟩

/-- One 64-byte block absorbed. -/
def sha256Block (s : Sha256) (block : Bytes) : Sha256 :=
  let ws := (extendSchedule 48 (beWords block).reverse).reverse
  let r := (List.zipWith (· + ·) sha256K ws).foldl sha256Round s
  ⟨s.a + r.a, s.b + r.b, s.c + r.c, s.d + r.d, s.e + r.e, s.f + r.f, s.g + r.g, s.h + r.h⟩

/-- Blocks absorbed until the bytes end; the first argument bounds their number. -/
def sha256Blocks : Nat → Sha256 → Bytes → Sha256
  | 0, s, _ => s
  | n + 1, s, bs => sha256Blocks n (sha256Block s (bs.take 64)) (bs.drop 64)

/-- Big-endian bytes of a word. -/
def beBytes32 (w : BitVec 32) : Bytes :=
  [BitVec.ofNat 8 (w.toNat / 2 ^ 24), BitVec.ofNat 8 (w.toNat / 2 ^ 16), BitVec.ofNat 8 (w.toNat / 2 ^ 8),
   BitVec.ofNat 8 w.toNat]

/-- The padding of a message of `n` bytes. -/
def sha256Pad (n : Nat) : Bytes :=
  (0x80 : BitVec 8) :: (List.replicate ((119 - n % 64) % 64) 0 ++ (leBytes 8 (8 * n)).reverse)

/-- SHA-256 of a byte string, in memory order. -/
def sha256 (bs : Bytes) : Bytes :=
  let m := bs ++ sha256Pad bs.length
  let s := sha256Blocks (m.length / 64) sha256Init m
  beBytes32 s.a ++ beBytes32 s.b ++ beBytes32 s.c ++ beBytes32 s.d ++
  beBytes32 s.e ++ beBytes32 s.f ++ beBytes32 s.g ++ beBytes32 s.h

end Sys2Proof.Machine
end

