-- ==== Sys2Proof/Machine/Aes.lean ====
section
/-! DEFINITION. The ciphers and codes that the spec names by their standards: AES-256 (R289), XTS of IEEE 1619 (R289), CMAC of
SP 800-38B (R290, R292), GCM (R100, R374, R388), HMAC-SHA-256 and the counter-mode KDF of SP 800-108 (R354). -/

namespace Sys2Proof.Machine

/-! ### AES-256 -/

/-- Byte-wise exclusive or. -/
def xorBytes (x y : Bytes) : Bytes := List.zipWith (· ^^^ ·) x y

/-- Times x in the field of AES. -/
def xtime (x : BitVec 8) : BitVec 8 := (x <<< 1) ^^^ (if x.msb then 0x1B else 0)

/-- Product in the field of AES; the first argument bounds the bits of the second factor. -/
def gmul : Nat → BitVec 8 → BitVec 8 → BitVec 8
  | 0, _, _ => 0
  | n + 1, x, y => (if y.getLsbD 0 then x else 0) ^^^ gmul n (xtime x) (y >>> 1)

/-- x to a power of 2^n − 2 taken step by step: the inverse, and 0 for 0, at n = 8. -/
def ginv (x : BitVec 8) : BitVec 8 :=
  let sq := fun y => gmul 8 y y
  let x2 := sq x
  let x4 := sq x2
  let x8 := sq x4
  let x16 := sq x8
  let x32 := sq x16
  let x64 := sq x32
  let x128 := sq x64
  gmul 8 x128 (gmul 8 x64 (gmul 8 x32 (gmul 8 x16 (gmul 8 x8 (gmul 8 x4 x2)))))

/-- The S-box and its inverse. -/
def sbox (x : BitVec 8) : BitVec 8 :=
  let y := ginv x
  y ^^^ y.rotateLeft 1 ^^^ y.rotateLeft 2 ^^^ y.rotateLeft 3 ^^^ y.rotateLeft 4 ^^^ 0x63
def unsbox (x : BitVec 8) : BitVec 8 := ginv (x.rotateLeft 1 ^^^ x.rotateLeft 3 ^^^ x.rotateLeft 6 ^^^ 0x05)

/-- A list cut into runs of a length; the first argument bounds the runs. -/
def runsOfLen {α : Type} (k : Nat) : Nat → List α → List (List α)
  | 0, _ => []
  | n + 1, xs => if xs.isEmpty then [] else xs.take k :: runsOfLen k n (xs.drop k)

/-- The next 8 words of the key schedule after 8 words, under a round constant. -/
def nextKeys (rc : BitVec 8) (ws : List Bytes) : List Bytes :=
  let last := ws.getD 7 []
  let rot := (last.drop 1 ++ last.take 1).map sbox
  let (out, _) := ws.zipIdx.foldl (fun (acc : List Bytes × Bytes) e =>
    let t := if e.2 = 0 then xorBytes rot [rc, 0, 0, 0] else if e.2 = 4 then acc.2.map sbox else acc.2
    let w := xorBytes e.1 t
    (acc.1 ++ [w], w)) ([], [])
  out

/-- The words of the key schedule. -/
def keyWords : Nat → BitVec 8 → List Bytes → List Bytes
  | 0, _, ws => ws
  | n + 1, rc, ws => ws ++ keyWords n (xtime rc) (nextKeys rc ws)

/-- The 15 round keys of a 256-bit key. -/
def roundKeys (key : Bytes) : List Bytes :=
  (runsOfLen 4 15 (keyWords 7 1 (runsOfLen 4 8 (padTo 32 key)))).map (·.flatten)

/-- Rows shifted, in a block of 16 bytes in column order: byte i comes from byte 5i modulo 16; and back. -/
def shiftRows (s : Bytes) : Bytes := (List.range 16).map fun i => s.getD (5 * i % 16) 0
def unshiftRows (s : Bytes) : Bytes := (List.range 16).map fun i => s.getD (13 * i % 16) 0

/-- One byte of a column times the circulant of four factors. -/
def mixByte (f : List (BitVec 8)) (col : Bytes) (i : Nat) : BitVec 8 :=
  (List.range 4).foldl (fun acc j => acc ^^^ gmul 8 (col.getD j 0) (f.getD ((j + 4 - i) % 4) 0)) 0

/-- Columns mixed. -/
def mixColumns (f : List (BitVec 8)) (s : Bytes) : Bytes :=
  (runsOfLen 4 4 s).flatMap fun col => (List.range 4).map (mixByte f col)

/-- AES-256 of a block. -/
def aesEnc (key block : Bytes) : Bytes :=
  match roundKeys key with
  | [] => block
  | k0 :: ks =>
    let s := ks.dropLast.foldl (fun s k => xorBytes (mixColumns [2, 3, 1, 1] (shiftRows (s.map sbox))) k) (xorBytes block k0)
    xorBytes (shiftRows (s.map sbox)) (ks.getLast?.getD [])

/-- AES-256 of a block, back. -/
def aesDec (key block : Bytes) : Bytes :=
  match (roundKeys key).reverse with
  | [] => block
  | k0 :: ks =>
    let s := ks.dropLast.foldl (fun s k => mixColumns [14, 11, 13, 9] (xorBytes ((unshiftRows s).map unsbox) k)) (xorBytes block k0)
    xorBytes ((unshiftRows s).map unsbox) (ks.getLast?.getD [])

/-! ### XTS (IEEE 1619) -/

/-- The tweak's next value: times x in GF(2^128), bytes little-endian. -/
def nextTweak (t : Nat) : Nat := (2 * t % 2 ^ 128) ^^^ (if 2 ^ 127 ≤ t then 0x87 else 0)

/-- The blocks of a data unit under a block cipher and a running tweak. -/
def xtsBlocks (f : Bytes → Bytes) : Nat → List Bytes → Bytes
  | _, [] => []
  | t, p :: ps =>
    let m := leBytes 16 t
    xorBytes (f (xorBytes p m)) m ++ xtsBlocks f (nextTweak t) ps

/-- A data unit of whole blocks encrypted under two keys and a tweak, and decrypted. -/
def xtsEnc (k1 k2 : Bytes) (tweak : Nat) (plain : Bytes) : Bytes :=
  xtsBlocks (aesEnc k1) (leVal (aesEnc k2 (leBytes 16 tweak))) (runsOfLen 16 plain.length plain)
def xtsDec (k1 k2 : Bytes) (tweak : Nat) (cipher : Bytes) : Bytes :=
  xtsBlocks (aesDec k1) (leVal (aesEnc k2 (leBytes 16 tweak))) (runsOfLen 16 cipher.length cipher)

/-! ### CMAC (SP 800-38B) -/

/-- Value of bytes, most significant first, and back. -/
def beVal (bs : Bytes) : Nat := leVal bs.reverse
def beBytes (n v : Nat) : Bytes := (leBytes n v).reverse

/-- The first subkey. -/
def cmacKey (key : Bytes) : Bytes := beBytes 16 (nextTweak (beVal (aesEnc key (List.replicate 16 0))))

/-- AES-CMAC of a message of whole blocks, at least one. -/
def cmac (key msg : Bytes) : Bytes :=
  let blocks := runsOfLen 16 msg.length msg
  let chained := blocks.dropLast.foldl (fun c b => aesEnc key (xorBytes c b)) (List.replicate 16 0)
  aesEnc key (xorBytes (xorBytes chained (blocks.getLast?.getD [])) (cmacKey key))

/-! ### GCM (SP 800-38D), with an IV of 12 bytes -/

/-- Product in GF(2^128) as GCM orders bits; the first argument bounds the bits of x. -/
def ghashMul (x : Nat) : Nat → (v z : Nat) → Nat
  | 0, _, z => z
  | n + 1, v, z =>
    ghashMul x n (v / 2 ^^^ (if v % 2 = 1 then 0xE1 * 2 ^ 120 else 0)) (if x.testBit n then z ^^^ v else z)

/-- Bytes filled with zeros to whole blocks. -/
def padBlocks (bs : Bytes) : Bytes := padTo ((bs.length + 15) / 16 * 16) bs

/-- GHASH of whole blocks. -/
def ghash (h : Nat) (bs : Bytes) : Nat := (runsOfLen 16 bs.length bs).foldl (fun y b => ghashMul (y ^^^ beVal b) 128 h 0) 0

/-- The key stream from a counter on, for `n` blocks. -/
def gcmStream (key iv : Bytes) : (n ctr : Nat) → Bytes
  | 0, _ => []
  | n + 1, ctr => aesEnc key (padTo 12 iv ++ beBytes 4 (ctr % 2 ^ 32)) ++ gcmStream key iv n (ctr + 1)

/-- The tag of a ciphertext. -/
def gcmTag (key iv aad cipher : Bytes) : Bytes :=
  let h := beVal (aesEnc key (List.replicate 16 0))
  let s := ghash h (padBlocks aad ++ padBlocks cipher ++ beBytes 8 (8 * aad.length) ++ beBytes 8 (8 * cipher.length))
  xorBytes (beBytes 16 s) (gcmStream key iv 1 1)

/-- A segment encrypted, its 16-byte tag after it (R100). -/
def gcmSeal (key iv aad bytes : Bytes) : Bytes :=
  let c := xorBytes bytes (gcmStream key iv ((bytes.length + 15) / 16) 2)
  c ++ gcmTag key iv aad c

/-- A segment with its tag decrypted; none where the tag does not match. -/
def gcmOpen (key iv aad sealed : Bytes) : Option Bytes :=
  let n := sealed.length - 16
  let c := sealed.take n
  if 16 ≤ sealed.length ∧ sealed.drop n = gcmTag key iv aad c then
    some (xorBytes c (gcmStream key iv ((n + 15) / 16) 2))
  else none

/-! ### HMAC-SHA-256 and the KDF of SP 800-108 (R354) -/

/-- HMAC-SHA-256. -/
def hmac (key msg : Bytes) : Bytes :=
  let k := padTo 64 (if 64 < key.length then sha256 key else key)
  sha256 (k.map (· ^^^ 0x5C) ++ sha256 (k.map (· ^^^ 0x36) ++ msg))

/-- ASCII bytes of a label. -/
def asciiBytes (s : String) : Bytes := s.toList.map fun c => BitVec.ofNat 8 c.toNat

/-- KDF(K, label, context): counter mode, 256 bits of output, counter and length 32-bit big-endian. -/
def kdf (key : Bytes) (label : String) (context : Bytes) : Bytes :=
  hmac key (beBytes 4 1 ++ asciiBytes label ++ [0] ++ context ++ beBytes 4 256)

end Sys2Proof.Machine
end

