-- ==== Sys2Proof/Config.lean ====
section
/-! DEFINITION. What the spec leaves to the implementation or states no value for: opaque constants, which no proof can
see into (log entry 3). Each is applied to what it depends on, or to the model's counter `fresh` for a new value each
time. -/

namespace Sys2Proof.Config

/-- Nonce number `n` that the RTP draws (R360). -/
opaque nonce : Nat → BitVec 64

/-- RSA-3072 signature of a digest under a key (R357, R363, R365). -/
opaque rsaSign : (key digest : List (BitVec 8)) → List (BitVec 8)

/-- RSA-3072 verification of a signature over a digest under a key (R350, R357, R360). -/
opaque rsaVerify : (key digest signature : List (BitVec 8)) → Bool

/-- Key material number `n` that the RTP draws (R353, R356, R370). -/
opaque keyBytes : Nat → List (BitVec 8)

/-- RSA-OAEP wrapping of bytes under a public key (R360). -/
opaque wrap : (key bytes : List (BitVec 8)) → List (BitVec 8)

/-- Unwrapping with the private key of that pair; none where it fails (R360). -/
opaque unwrap : (key bytes : List (BitVec 8)) → Option (List (BitVec 8))

/-- The identity public key (R354). -/
opaque identityKey : List (BitVec 8)

/-- The AK's public key for an AK measurement (R357). -/
opaque akKey : (measurement : List (BitVec 8)) → List (BitVec 8)

/-- The certificate section of reports, manifests and handshakes, at most 4,096 bytes (R363). -/
opaque certSection : (measurement : List (BitVec 8)) → List (BitVec 8)

/-- The firmware key of a certificate that verifies under the Lomene root key (R357). -/
opaque firmwareKey : (certificate : List (BitVec 8)) → Option (List (BitVec 8))

/-! What a model computes (log entry 139): the weights as numbers, and the program's own figures and vector work. The spec
fixes how a program's matrix products and attention reduce (R150, R151, R204); what it multiplies and what it does between
reductions is the program's. -/

/-- Values of a token at a position as they enter the first layer, in FP32 bits. -/
opaque embed : (weights program : List (BitVec 8)) → (token pos : Nat) → List (BitVec 32)

/-- The vector work of a program between its reductions: stage `stage` of a layer, at a position. -/
opaque kernel : (weights program : List (BitVec 8)) → (layer stage pos : Nat) → List (BitVec 32) → List (BitVec 32)

/-- Element of matrix `mat` of a layer, in FP32 bits. -/
opaque weight : (weights : List (BitVec 8)) → (layer mat row col : Nat) → BitVec 32

/-- Rows of a matrix: the elements of its product. -/
opaque outputs : (program : List (BitVec 8)) → (layer mat : Nat) → Nat

/-- Lengths of the parts that a program splits a reduction into (R150, R204). -/
opaque parts : (program : List (BitVec 8)) → (layer mat : Nat) → List Nat

/-- Indices per group of a reduction, by the operand formats the program gives it (R201, Table 8.8). -/
opaque group : (program : List (BitVec 8)) → (layer mat : Nat) → Nat

/-- Matrix products of a layer after its attention. -/
opaque products : (program : List (BitVec 8)) → Nat

/-- Heads of K and V, and query heads, of a program. -/
opaque kvHeads : (program : List (BitVec 8)) → Nat
opaque queryHeads : (program : List (BitVec 8)) → Nat

/-- Factor of a program's attention scores, in FP32 bits. -/
opaque scoreScale : (program : List (BitVec 8)) → BitVec 32

/-- A program marks its attention kernels to keep row statistics (R167). -/
opaque keepsStats : (program : List (BitVec 8)) → Bool

/-- Gradient of an attention output that enters the backward kernel of a layer (R168): it follows from what the program
computes after the attention, the log and the gradients of the layers above. -/
opaque outGrad : (weights program : List (BitVec 8)) → (layer head pos : Nat) → (log above : List (BitVec 32)) →
  List (BitVec 32)

/-- Bytes of the next adapter version that a tuning program makes from a version and the gradients (R169). -/
opaque update : (version program : List (BitVec 8)) → (grads : List (BitVec 32)) → List (BitVec 8)

/-- Place among the allowed tokens of the draft where every draft logit is a NaN: R172 states no choice. -/
opaque nanDraft : (draftWeights : List (BitVec 8)) → (state : List (BitVec 32)) → Nat

/-- Bytes of an adapter version of a tuning program (R344). -/
opaque adapterBytes : (program : List (BitVec 8)) → Nat

/-- Bytes of an automaton of a number of states (Table 10.14). -/
opaque automatonBytes : (states : Nat) → Nat

/-- Image reads that an instruction misses in the hub SRAM cache (Table 10.14). -/
opaque cacheMisses : (moment : Nat) → Nat

/-- Address in HBM of a run of extents, of a session's root record and of a prefix's (Tables 2.3, 5.3, 5.7): which
addresses the module takes is not stated. -/
opaque hbmAddr : (run : Nat) → Nat

/-- Address of the root record of a table version. -/
opaque rootAddr : (owner version : Nat) → Nat

/-- What stands at an HBM address: tenant data by unit kind of Table 12.4, or the metadata words of chapter 12. -/
inductive HbmUnit where
  | nothing
  | kv (sid : Nat)
  | log (sid : Nat)
  | scratch (sid : Nat)
  | frame (key : Nat)
  | model (slot : Nat)
  | cog (slot : Nat)
  | clist (list : Nat)
  | index (n : Nat)
  | graph (n : Nat)
  | table (sid : Nat)
  | prefixTable (key : Nat)
  | save (place : Nat)
  | buffer (place : Nat)
  | descriptor (sid pair : Nat)
  | frameRecord (key : Nat)
  | prefixRecord (key : Nat)
  | rootRecord (sid : Nat)
  | extentRecord (key : Nat)
  | mapRecord
  deriving DecidableEq, Repr, Inhabited

/-- The unit that holds an HBM address at a moment: which addresses the module takes for a unit is not stated. -/
opaque hbmUnit : (addr moment : Nat) → HbmUnit

/-- Channel of a failing block that an engine met (Table 12.20): which block of a unit fails is not stated. -/
opaque faultChannel : Nat → Nat

/-- Bytes of the request table, the sync counters and the indexes in the core of a copy (Table 16.3), by their sizes. -/
opaque tableBytes : (requests counters records : Nat) → Nat

/-- Payload bytes of a message whose layout the spec does not give, by its kind. -/
opaque messageBytes : Nat → Nat

/-- The port a class and stream keep to among the ports that join a pair (R317). -/
opaque portHash : (cls stream : Nat) → Nat

/-- Edges per neighbour list of a graph index created with the reserved degree code 3 (Table 11.15). -/
opaque reservedDegree : Nat

/-- The 8 check symbols over the 72 information symbols of a block (R293): the spec gives the code's distance, not its generator. -/
opaque checkSymbols : (info : List (BitVec 8)) → List (BitVec 8)

/-- A pattern of 6 or more erroneous bytes is miscorrected (R293). -/
opaque miscorrects : (moment : Nat) → Bool

/-- Words of a Spoke in which ECC errors have arisen by a moment, true where they cannot be corrected: local-store words by
address ÷ 8, accumulator words from 2^20 on (R189). -/
opaque upsets : (spoke moment : Nat) → List (Nat × Bool)

/-- Budget of fuse repairs at manufacture: Spokes, HBM, hub SRAM (Table 16.21). -/
opaque fuseBudget : (kind : Nat) → Nat

/-- Clock ceiling in MHz that a compute budget in W allows at a moment: it depends on the part (R417, R420). -/
opaque computeCeiling : (watts moment : Nat) → Nat

/-- Voltage of a rail in mV at a moment, where no event has told it: the spec gives its range alone (Table 19.15). -/
opaque railMv : (rail moment : Nat) → Nat

/-- Current of a rail in units of 10 mA at a moment (Table 19.15). -/
opaque railCurrent : (rail moment : Nat) → Nat

end Sys2Proof.Config
end

