-- ==== Sys2Proof/Machine/KvRows.lean ====
section
/-! DEFINITION. Rows of KV in their three forms (R36, R78, R79, R101, R117), and the computation of a position from the rows
it reads: the reductions of R150 and R151, the forms of R120 and R143, masks (R153, R154), row statistics and the backward
kernel (R167, R168). -/

namespace Sys2Proof.Machine

/-! ### Forms of a row -/

/-- Working precision: BF16 (R114). -/
def workingCode : Nat := 1

/-- Code of a KV storage format, and whether it has block scaling (Table 4.6). -/
def kvCode (kvFormat : Nat) : Nat := kvFormat % 16
def kvScaled (kvFormat : Nat) : Bool := kvFormat.testBit 4

/-- A row's part of one layer. -/
def layerOf (r : KvRow) (l : Nat) : LayerRow := r.getD l ⟨[], []⟩

/-- Numbers that block-scaled elements stand for (R195). -/
def scaledNums (code : Nat) (r : LayerRow) : List Num :=
  r.elems.zipIdx.map fun e => decodeMx code e.1 (r.scales.getD (e.2 / 32) 0)

/-- Numbers of a row's layer at working precision, and in the storage form. -/
def workingNums (r : LayerRow) : List Num := r.elems.map (decodeElem workingCode)
def storedNums (kvFormat : Nat) (r : LayerRow) : List Num :=
  if kvScaled kvFormat then scaledNums (kvCode kvFormat) r else r.elems.map (decodeElem (kvCode kvFormat))

/-- Numbers in blocks of 32, each converted with its scale byte (R199). -/
def scaleBlocks (code : Nat) (vs : List Num) : LayerRow :=
  let blocks := (runs32 vs.length vs).map (encodeMx code)
  ⟨blocks.flatMap (·.2), blocks.map (·.1)⟩

/-- Stage 1 of a flush (R117): working precision to the storage form, by R199, or without block scaling by R198 with
saturation. -/
def storeLayer (kvFormat : Nat) (r : LayerRow) : LayerRow :=
  if kvScaled kvFormat then scaleBlocks (kvCode kvFormat) (workingNums r)
  else ⟨(workingNums r).map (encodeElem (kvCode kvFormat) true), []⟩

/-- A row in the storage form. -/
def storeRow (kvFormat : Nat) (r : KvRow) : KvRow := r.map (storeLayer kvFormat)

/-- FP4-E2M1, the element format of the WARM form (R36). -/
def warmCode : Nat := 7

/-- A stored row's layer in the WARM form (R78): its blocks converted to FP4-E2M1 as R199 converts them. -/
def warmLayer (kvFormat : Nat) (r : LayerRow) : LayerRow := scaleBlocks warmCode (storedNums kvFormat r)

/-- A row in the WARM form. -/
def warmRow (kvFormat : Nat) (r : KvRow) : KvRow := r.map (warmLayer kvFormat)

/-- Blocks of a WARM row that hold no number (R78). -/
def nanBlocksOf (r : KvRow) : Nat := (r.map fun l => (l.scales.filter fun s => decide (s = 0xFF)).length).sum

/-- A WARM row's layer expanded (R79). -/
def expandLayer (kvFormat : Nat) (r : LayerRow) : LayerRow :=
  ⟨r.elems.zipIdx.map fun e =>
    if r.scales.getD (e.2 / 32) 0 = 0xFF then 0x7F else encodeElem (kvCode kvFormat) true (decodeElem warmCode e.1), r.scales⟩

/-- A WARM row expanded to the storage form. -/
def expandRow (kvFormat : Nat) (r : KvRow) : KvRow := r.map (expandLayer kvFormat)

/-! ### Bytes of rows (R101, Table 4.7) -/

/-- Bytes of a row's layer: elements, and scale bytes. -/
def layerBytes (code : Nat) (r : LayerRow) : Bytes := pack (elemBits code) r.elems
def scaleBytes (r : LayerRow) : Bytes := r.scales.map (BitVec.ofNat 8)

/-- Rows laid out layer-major (R101): for each layer the elements of every slot, then their scale bytes. -/
def pageBytes (code layers : Nat) (rows : List KvRow) : Bytes :=
  (List.range layers).flatMap fun l =>
    rows.flatMap (fun r => layerBytes code (layerOf r l)) ++ rows.flatMap fun r => scaleBytes (layerOf r l)

/-- `n` rows read from a layer-major layout. -/
def pageRows (code layers elems n : Nat) (scaled : Bool) (bs : Bytes) : List KvRow :=
  let eb := elemBytes code elems
  let sb := if scaled then elems / 32 else 0
  (List.range n).map fun i => (List.range layers).map fun l =>
    let at_ := l * n * (eb + sb)
    ⟨unpack (elemBits code) elems ((bs.drop (at_ + i * eb)).take eb),
     ((bs.drop (at_ + n * eb + i * sb)).take sb).map (·.toNat)⟩

/-- Rows packed one by one, as a WARM image holds them. -/
def imageBytes (code layers : Nat) (rows : List KvRow) : Bytes := rows.flatMap fun r => pageBytes code layers [r]

/-- The rows of such an image. -/
def imageRows (code layers elems n : Nat) (scaled : Bool) (bs : Bytes) : List KvRow :=
  let w := layers * (elemBytes code elems + if scaled then elems / 32 else 0)
  (List.range n).flatMap fun i => pageRows code layers elems 1 scaled ((bs.drop (i * w)).take w)

/-! ### Reductions (R150, R151, R204) -/

/-- Neighbours merged in pairs; an unpaired last entry passes unchanged. -/
def pairUp {α : Type} (f : α → α → α) : List α → List α
  | x :: y :: t => f x y :: pairUp f t
  | xs => xs

/-- The pairwise tree over index; the first argument bounds its levels. -/
def mergeTree {α : Type} (f : α → α → α) : Nat → List α → List α
  | 0, xs => xs
  | n + 1, xs => mergeTree f n (pairUp f xs)

/-- The one result of a pairwise tree. -/
def treeOf {α : Type} (f : α → α → α) (none_ : α) (xs : List α) : α := (mergeTree f xs.length xs).headD none_

/-- A list cut into parts of given lengths; what is left over is the last part. -/
def cutParts {α : Type} : List Nat → List α → List (List α)
  | [], xs => [xs]
  | n :: ns, xs => xs.take n :: cutParts ns (xs.drop n)

/-- A reduction of products (R150, R204): each part accumulates as one MMA from +0, and the parts merge in the pairwise tree,
each merge one FP32 addition. -/
def reduce (parts : List Nat) (g : Nat) (xs ys : List Num) : BitVec 32 :=
  let part := fun (p : List (Num × Num)) => mmaElement 0 (groupSums false false (max 1 g) p.length (p.map (·.1)) (p.map (·.2)))
  treeOf fAdd 0 ((cutParts parts (xs.zip ys)).map part)

/-- Running maximum, sum and weighted value of an online softmax, in FP32 (R151). -/
structure Soft where
  top : BitVec 32
  sum : BitVec 32
  acc : List (BitVec 32)
  deriving DecidableEq, Repr

/-- Two results merged (R151). -/
def Soft.merge (x y : Soft) : Soft :=
  let m := fMax x.top y.top
  let p := fExp (fSub x.top m)
  let q := fExp (fSub y.top m)
  ⟨m, fAdd (fMul x.sum p) (fMul y.sum q), List.zipWith (fun a c => fAdd (fMul a p) (fMul c q)) x.acc y.acc⟩

/-- A merge in which nothing visible is an identity (R151). -/
def softMerge : Option Soft → Option Soft → Option Soft
  | none, y => y
  | x, none => x
  | some x, some y => some (x.merge y)

/-- A visible position taken into an online softmax: its score, and its value (R151). -/
def softTake (a : Option Soft) (score : BitVec 32) (value : List (BitVec 32)) : Option Soft :=
  softMerge a (some ⟨score, 0x3F800000, value⟩)

/-- The positions up to p in blocks of 256 aligned at position 0 (R151). -/
def blocksTo (p : Nat) : List (List Nat) :=
  (List.range (p / 256 + 1)).map fun j => (List.range (min 256 (p + 1 - 256 * j))).map (256 * j + ·)

/-- Attention of one query head at position p (R151): online softmax within each block in ascending order, the blocks merged
in the pairwise tree over block index. -/
def attendHead (p : Nat) (hidden : Nat → Bool) (score : Nat → BitVec 32) (value : Nat → List (BitVec 32)) : Option Soft :=
  treeOf softMerge none ((blocksTo p).map fun ps =>
    ps.foldl (fun a q => if hidden q then a else softTake a (score q) (value q)) none)

/-- The weighted value over the sum. -/
def Soft.out (a : Soft) : List (BitVec 32) := a.acc.map fun v => fDiv v a.sum

/-! ### A position -/

/-- The model whose tiles run: weights and program by digest, KV format, layers and elements per row per layer. -/
structure Net where
  weights : Bytes
  program : Bytes
  kvFormat : Nat
  layers : Nat
  elems : Nat
  deriving DecidableEq, Repr

/-- FP32 bits as numbers. -/
def nums (xs : List (BitVec 32)) : List Num := xs.map num32

/-- An element of a matrix product (R150). -/
def productElem (m : Net) (layer mat row : Nat) (x : List (BitVec 32)) : BitVec 32 :=
  reduce (Config.parts m.program layer mat) (Config.group m.program layer mat) (nums x)
    (nums ((List.range x.length).map fun c => Config.weight m.weights layer mat row c))

/-- A matrix product. -/
def product (m : Net) (layer mat : Nat) (x : List (BitVec 32)) : List (BitVec 32) :=
  (List.range (Config.outputs m.program layer mat)).map fun row => productElem m layer mat row x

/-- Products and vector work that follow the attention of a layer. -/
def productsFrom (m : Net) (layer pos : Nat) : (n mat : Nat) → List (BitVec 32) → List (BitVec 32)
  | 0, _, x => x
  | n + 1, mat, x => productsFrom m layer pos n (mat + 1)
      (Config.kernel m.weights m.program layer (mat + 2) pos (product m layer mat x))

/-- Width of a head; K of every head stands first in a row, then V (Table 5.1). -/
def headWidth (m : Net) : Nat := m.elems / 2 / max 1 (Config.kvHeads m.program)

/-- K and V of a head in a row's layer. -/
def headK (m : Net) (h : Nat) (vs : List Num) : List Num := (vs.drop (h * headWidth m)).take (headWidth m)
def headV (m : Net) (h : Nat) (vs : List Num) : List Num := headK m h (vs.drop (m.elems / 2))

/-- K and V head that a query head reads. -/
def kvHeadOf (m : Net) (q : Nat) : Nat := q * max 1 (Config.kvHeads m.program) / max 1 (Config.queryHeads m.program)

/-- What one query head of a layer gives: its query, its softmax (whose maximum and sum are the row statistics of R167) and
its output. -/
structure HeadOut where
  query : List (BitVec 32)
  soft : Soft
  out : List (BitVec 32)
  deriving DecidableEq, Repr

/-- The score of a key (R151), a reduction of the program's own split over the head's width. -/
def scoreOf (m : Net) (query : List (BitVec 32)) (key : List Num) : BitVec 32 :=
  fMul (Config.scoreScale m.program) (reduce (Config.parts m.program m.layers 1) (Config.group m.program m.layers 1) (nums query) key)

/-- One query head at position p. `keys q` are the numbers of position q's row in this layer. -/
def headOut (m : Net) (p h : Nat) (hidden : Nat → Bool) (query : List (BitVec 32)) (keys : Nat → List Num) : HeadOut :=
  let kv := kvHeadOf m h
  let a := (attendHead p hidden (fun q => scoreOf m query (headK m kv (keys q)))
    fun q => (headV m kv (keys q)).map bits32).getD ⟨0, 0, []⟩
  ⟨query, a, a.out⟩

/-- What computing a position gives: its row at working precision, its query heads by layer, and the values after the last
layer. -/
structure PosOut where
  row : KvRow
  heads : List (List HeadOut)
  act : List (BitVec 32)
  deriving DecidableEq, Repr

/-- The layers of a position from layer `l` on (R149): the row's own layer, attention over the rows it sees, the products that
follow. -/
def layersFrom (m : Net) (p : Nat) (hidden : Nat → Bool) (keys : (q l : Nat) → List Num) : (n l : Nat) →
    List (BitVec 32) → PosOut
  | 0, _, h => ⟨[], [], h⟩
  | n + 1, l, h =>
    let y := Config.kernel m.weights m.program l 1 p (product m l 0 (Config.kernel m.weights m.program l 0 p h))
    let own : LayerRow := ⟨(List.range m.elems).map fun i => encodeElem workingCode false (num32 (y.getD i 0)), []⟩
    let heads := (List.range (Config.queryHeads m.program)).map fun i =>
      headOut m p i hidden (((y.drop m.elems).drop (i * headWidth m)).take (headWidth m))
        fun q => if q = p then workingNums own else keys q l
    let next := productsFrom m l p (Config.products m.program) 1 (heads.flatMap (·.out) ++ h)
    let rest := layersFrom m p hidden keys n (l + 1) next
    ⟨own :: rest.row, heads :: rest.heads, rest.act⟩

/-- The rows that a sequence's positions read: `flushed` positions stand in frames in the storage form, the rest at working
precision; `start q` is the first position of q's group; `hides` is a mask (R153). -/
structure KvView where
  flushed : Nat
  stored : Nat → KvRow
  work : List KvRow
  start : Nat → Nat
  hides : Nat → Bool

/-- A layer of the row of position q as position p reads it (R120): working precision in p's own group, else the storage
form, which is formed from the working row where the row is not yet in a frame (R143). -/
def KvView.keys (m : Net) (v : KvView) (p q l : Nat) : List Num :=
  if q < v.flushed then storedNums m.kvFormat (layerOf (v.stored q) l)
  else
    let r := layerOf (v.work.getD (q - v.flushed) []) l
    if v.start p ≤ q then workingNums r else storedNums m.kvFormat (storeLayer m.kvFormat r)

/-- A position computed. A query never hides its own position (R153). -/
def KvView.compute (m : Net) (v : KvView) (p token : Nat) : PosOut :=
  layersFrom m p (fun q => v.hides q && decide (q ≠ p)) (v.keys m p) m.layers 0 (Config.embed m.weights m.program token p)

/-- Positions computed in order from p, each reading those before it. -/
def KvView.computeFrom (m : Net) (v : KvView) : (p : Nat) → List Nat → List PosOut
  | _, [] => []
  | p, t :: ts =>
    let o := v.compute m p t
    o :: KvView.computeFrom m { v with work := v.work.take (p - v.flushed) ++ [o.row] } (p + 1) ts

/-- First position that computing position p computes: where its group stands in frames, the group's rows are recomputed at
working precision (R120, R144). -/
def KvView.first (v : KvView) (p : Nat) : Nat := if p < v.flushed then v.start p else p

/-- The view from which position p is computed, the rows before it in its group at working precision (R120): those that
stand in frames are computed again, unmasked. `all` are the tokens of the log. -/
def KvView.leadIn (m : Net) (v : KvView) (p : Nat) (all : List Nat) : KvView :=
  let base := v.first p
  let w := { v with flushed := min v.flushed base, work := if p < v.flushed then [] else v.work.take (p - v.flushed) }
  let lead := KvView.computeFrom m { w with hides := fun _ => false } base ((all.drop base).take (p - base))
  { w with work := w.work ++ lead.map (·.row) }

/-- The values after the last layer at position p and after each draft (R154): computed under the mask, reading one another's
masked results and the stored rows of every other position. -/
def KvView.candidates (m : Net) (v : KvView) (p : Nat) (all drafts : List Nat) : List (List (BitVec 32)) :=
  ((v.leadIn m p all).computeFrom m p ((all.drop p).take 1 ++ drafts)).map (·.act)

/-- Logit of a vocabulary entry from the values after the last layer (R158). -/
def logitOf (m : Net) (act : List (BitVec 32)) (token : Nat) : BitVec 32 :=
  productElem m m.layers 0 token (Config.kernel m.weights m.program m.layers 0 0 act)

/-! ### Row statistics and the backward kernel (R167, R168) -/

/-- Bytes of the statistics of some query rows: 8 for each row and head of each layer (R167). -/
def statBytes (m : Net) (rows : Nat) : Nat := 8 * rows * m.layers * Config.queryHeads m.program

/-- Vectors added in the blocks and the tree of R151: `f q` for the positions of each block in ascending order. -/
def blockSum (width : Nat) (blocks : List (List Nat)) (f : Nat → List (BitVec 32)) : List (BitVec 32) :=
  let add := fun (x y : List (BitVec 32)) => List.zipWith fAdd x y
  let zero := List.replicate width (0 : BitVec 32)
  treeOf add zero (blocks.map fun ps => ps.foldl (fun a q => add a (f q)) zero)

/-- A vector times a number. -/
def scaleVec (k : BitVec 32) (x : List (BitVec 32)) : List (BitVec 32) := x.map (fMul k)

/-- A dot product in FP32 in ascending element order (R168, order 3). -/
def dotAscending (x y : List (BitVec 32)) : BitVec 32 := (List.zipWith fMul x y).foldl fAdd 0

/-- Probability of a key from the saved statistics (R168, order 2). -/
def probOf (s : Soft) (score : BitVec 32) : BitVec 32 := fDiv (fExp (fSub score s.top)) s.sum

/-- The gradient of a score: probability × (dO · V − D), times the factor of the scores. -/
def scoreGrad (m : Net) (prob : BitVec 32) (grad : List (BitVec 32)) (v : List Num) (d : BitVec 32) : BitVec 32 :=
  fMul (Config.scoreScale m.program) (fMul prob (fSub
    (reduce (Config.parts m.program m.layers 2) (Config.group m.program m.layers 2) (nums grad) v) d))

/-- The backward kernel of one query head of a layer over query positions [lo, hi) (R168): gradients of Q, then of K and V by
key position. `outs p` is what the position gave, `keys p q` the row of q as p reads it, `grad p` the gradient of its
output. -/
def backHead (m : Net) (h lo hi : Nat) (outs : Nat → HeadOut) (keys : (p q : Nat) → List Num)
    (grad : Nat → List (BitVec 32)) : List (BitVec 32) :=
  let kv := kvHeadOf m h
  let w := headWidth m
  let prob := fun p q => probOf (outs p).soft (scoreOf m (outs p).query (headK m kv (keys p q)))
  let ds := fun p q => scoreGrad m (prob p q) (grad p) (headV m kv (keys p q)) (dotAscending (grad p) (outs p).out)
  let queries := (blocksTo (hi - 1)).map fun ps => ps.filter fun p => decide (lo ≤ p) && decide (p < hi)
  let from_ := fun q => queries.map fun ps => ps.filter fun p => decide (q ≤ p)
  let dq := ((List.range hi).filter fun p => decide (lo ≤ p)).flatMap fun p =>
    blockSum w (blocksTo p) fun q => scaleVec (ds p q) ((headK m kv (keys p q)).map bits32)
  let dk := (List.range hi).flatMap fun q => blockSum w (from_ q) fun p => scaleVec (ds p q) (outs p).query
  let dv := (List.range hi).flatMap fun q => blockSum w (from_ q) fun p => scaleVec (prob p q) (grad p)
  dq ++ dk ++ dv

/-- The backward pass over the positions [lo, hi) that a PREFILL computed, from the last layer down: the gradients, each
layer's after those of the layers above it. -/
def backFrom (m : Net) (log : List (BitVec 32)) (lo hi : Nat) (outs : (p l h : Nat) → HeadOut) (keys : (p q l : Nat) → List Num) :
    (n : Nat) → List (BitVec 32) → List (BitVec 32)
  | 0, above => above
  | l + 1, above =>
    let here := (List.range (Config.queryHeads m.program)).flatMap fun h =>
      backHead m h lo hi (fun p => outs p l h) (fun p q => keys p q l)
        fun p => Config.outGrad m.weights m.program l h p log above
    backFrom m log lo hi outs keys l (above ++ here)

/-- The gradients of a PREFILL that computed the positions [lo, hi) (R168, R169). -/
def gradients (m : Net) (v : KvView) (log : List (BitVec 32)) (all : List Nat) (lo hi : Nat) : List (BitVec 32) :=
  let w := v.leadIn m lo all
  let outs := w.computeFrom m lo ((all.drop lo).take (hi - lo))
  let head := fun p l h => (((outs[p - lo]?).bind fun o => (o.heads[l]?).bind fun hs => hs[h]?)).getD ⟨[], ⟨0, 0, []⟩, []⟩
  let w := { w with work := w.work ++ outs.map PosOut.row }
  backFrom m log lo hi head (fun p q l => w.keys m p q l) m.layers []

end Sys2Proof.Machine
end

