-- ==== Sys2Proof/Machine/Pages.lean ====
section
/-! DEFINITION. Pages, frames, page tables, staging and extents (R101 to R134, R288, R298 to R300), with the charges of
R40. -/

namespace Sys2Proof.Machine

/-! ### Page arithmetic -/

/-- Page number and slot of a position under `cap_log2` c (R102). -/
def pageOf (p c : Nat) : Nat × Nat :=
  let k := c - 4
  let edge := 16 * (2 ^ k - 1)
  if p < edge then
    let g := Nat.log2 (p / 16 + 1)
    (g, p - 16 * (2 ^ g - 1))
  else (k + (p - edge) / 2 ^ c, (p - edge) % 2 ^ c)

/-- Order of the frame that serves page g (R102, R106): a page of 16 × 2^order positions. -/
def pageOrder (g c : Nat) : Nat := min g (c - 4)

/-- Positions of page g (R102). -/
def pageSize (g c : Nat) : Nat := 16 * 2 ^ pageOrder g c

/-- First position of page g (R102). -/
def pageStart (g c : Nat) : Nat :=
  if g ≤ c - 4 then 16 * (2 ^ g - 1) else 16 * (2 ^ (c - 4) - 1) + (g - (c - 4)) * 2 ^ c

/-- `cap_log2` of a tenant's new tables (Table 5.22). -/
def tenantCap (b : Block) (t : Nat) : Nat := min 12 (max 4 (b.getFi F.PGM_TQ_PAGE_cap_log2 t))

/-! ### Geometry and sizes -/

/-- A geometry class. -/
def geomClass (b : Block) (c : Nat) : GeomClass := tgetD b.ses.classes c ⟨0, 0, 0⟩

/-- Bytes of a unit: a frame of 16 slots (R105). -/
def unitBytes (g : GeomClass) : Nat := 16 * g.layers * g.rowBytes

/-- Bytes of one row in the WARM form: half the element bytes, and the scale bytes (R36, R78). -/
def warmRowBytes (g : GeomClass) : Nat := g.layers * (g.elems / 2 + g.elems / 32)

/-- Bytes of one row in the storage form. -/
def hotRowBytes (g : GeomClass) : Nat := g.layers * g.rowBytes

/-- 2 MiB. -/
def extentBytes : Nat := 2 ^ 21

/-- Extents that hold `n` bytes. -/
def extentsFor (n : Nat) : Nat := n / extentBytes + if n % extentBytes = 0 then 0 else 1

/-- Extents of a superblock, one order-8 block padded to 2 MiB (R106). -/
def superExtents (g : GeomClass) : Nat := extentsFor (256 * unitBytes g)

/-- Bytes of a staging quantum: 8 slots of BF16 across every layer (R114). -/
def quantumBytes (g : GeomClass) : Nat := 16 * g.layers * g.elems

/-- Quanta cut from a stripe of 64 MiB (R114). -/
def quantaPerStripe (g : GeomClass) : Nat := 2 ^ 26 / quantumBytes g

/-- Quanta of a staging block: those that hold a row (R115). -/
def stagingQuanta (x : Staging) : Nat := (x.confirmed + x.drafts + 7) / 8

/-! ### Room -/

/-- Quanta of a class in use (R114, R115). -/
def classQuanta (b : Block) (c : Nat) : Nat :=
  (b.ses.slots.map fun e => if e.2.cls = c then e.2.quanta.length else 0).sum

/-- Stripes that quanta in use stand in; with a class, those of its own. -/
def stripesWith (b : Block) (p : Session → Bool) : List Nat :=
  (b.ses.slots.flatMap fun e => if p e.2 then e.2.quanta.map (·.stripe) else []).eraseDups

/-- Stripes assigned to classes: a stripe is released when all its quanta are free (R114). -/
def stripesUsed (b : Block) : Nat := (stripesWith b fun _ => true).length

/-- Stripes not assigned to a class or to the save area (Table 5.15). -/
def stripesFree (b : Block) : Nat := b.ses.poolStripes - b.ses.saveStripes - stripesUsed b

/-- Quanta in use of a stripe. -/
def stripeLoad (b : Block) (n : Nat) : Nat :=
  (b.ses.slots.map fun e => (e.2.quanta.filter fun q => decide (q.stripe = n)).length).sum

/-- The stripe from which a class's next quantum is cut: one of its own with a quantum free, else one that no class has
(R114; log entry 6). -/
def nextStripe (b : Block) (c : Nat) : Option Nat :=
  let per := quantaPerStripe (geomClass b c)
  let own := stripesWith b fun x => decide (x.cls = c)
  match own.find? fun n => decide (stripeLoad b n < per) with
  | some n => some n
  | none =>
    if per = 0 ∨ stripesFree b = 0 then none
    else (List.range b.ses.poolStripes).find? fun n => !(stripesWith b fun _ => true).contains n

/-- 4 KiB blocks of a table's tree. -/
def treeBlocks (t : PageTable) : List Nat := t.blocks.flatten

/-- Bytes of metadata (R288): frame records, root records and page-table blocks, prefix records, and the records of the
lower-tier extents. -/
def metaBytes (b : Block) : Nat :=
  let tables := (b.ses.slots.flatMap fun e => e.2.table.toList ++ e.2.oldTables) ++ b.ses.prefixes.map (·.2.table)
  32 * 256 * b.ses.supers.length + 64 * tables.length + 4096 * (tables.flatMap treeBlocks).eraseDups.length
    + 128 * b.ses.prefixes.length + (b.ses.extents.map fun e => if e.2.tier = 0 then 0 else 16 * e.2.count).sum

/-- HBM extents of the KV region in use: superblocks, every run of extents in HBM (R106, R288), and metadata. -/
def kvUsed (b : Block) : Nat :=
  (b.ses.supers.map fun e => superExtents (geomClass b e.2.cls)).sum +
  (b.ses.extents.map fun e => if e.2.tier = 0 then e.2.count else 0).sum + extentsFor (metaBytes b)

/-- 2 MiB extents of HBM that are reserved: the session table (R23), the staging pool (R114), and `keep_gib` (R374). -/
def kvReserved (b : Block) : Nat := 2048 + 32 * b.ses.poolStripes + 512 * b.getF F.TDM_CFG_keep_gib

/-- Free 2 MiB extents of the KV region. -/
def kvFree (b : Block) : Nat := 262144 - kvReserved b - kvUsed b

/-- Search extents of an index in HBM. -/
def searchExtents (b : Block) (index : Nat) : Nat :=
  (b.ses.extents.map fun e => if e.2.use = .search index then e.2.count else 0).sum

/-- Of the first `n` extents of an index, those that lie in a stack: extent e lies in stack e modulo 8 (R265). -/
def extentsIn (stack n : Nat) : Nat := (n + 7 - stack) / 8

/-- Indexes that hold search extents. -/
def searchHeld (b : Block) : List Nat :=
  (b.ses.extents.filterMap fun e => match e.2.use with
    | .search n => some n
    | _ => none).eraseDups

/-- Extents of a stack in use by what has a stack of its own: superblocks (R106) and search extents (R265). -/
def stackUsed (b : Block) (stack : Nat) : Nat :=
  (b.ses.supers.map fun e => if e.2.stack = stack then superExtents (geomClass b e.2.cls) else 0).sum +
  ((searchHeld b).map fun n => extentsIn stack (searchExtents b n)).sum

/-- Free extents of a stack (R107): a stack holds 64 GiB (R286), and what has no stack of its own lies evenly over the eight
(log entry 142). -/
def stackFree (b : Block) (stack : Nat) : Nat :=
  let own := ([0, 1, 2, 3, 4, 5, 6, 7].map (stackUsed b)).sum
  min (kvFree b) (32768 - (kvReserved b + (kvUsed b - own)) / 8 - stackUsed b stack)

/-- Extents a host window offers: an enabled tier window (R298). -/
def windowExtents (b : Block) (w : Nat) : Nat :=
  if b.getFi F.MEM_HWIN_CFG_enable w = 1 ∧ b.getFi F.MEM_HWIN_CFG_tier w = 1 then b.getFi F.MEM_HWIN_CFG_size_2m w
  else 0

/-- Extents in use in a tier, by unit number. -/
def unitsInUse (b : Block) (tier : Nat) : List Nat :=
  b.ses.extents.flatMap fun e => if e.2.tier = tier then e.2.units else []

/-- `in_use` of a host window (Table 12.16). -/
def windowInUse (b : Block) (w : Nat) : Nat := ((unitsInUse b 1).filter fun u => u / 2 ^ 21 = w).length

/-- Extents of a borrowed range (R302): those of an active range. -/
def rangeExtents (b : Block) (r : Nat) : Nat :=
  match tget b.mem.borrowed r with
  | some x => if x.state = 1 then x.size else 0
  | none => 0

/-- The lowest free unit numbers of one window or range; the first argument bounds the search. -/
def freeUnits (base : Nat) (used : List Nat) : (bound i n : Nat) → List Nat
  | 0, _, _ => []
  | _, _, 0 => []
  | f + 1, i, n + 1 =>
    if used.contains (base + i) then freeUnits base used f (i + 1) (n + 1) else (base + i) :: freeUnits base used f (i + 1) n

/-- Free units of a lower tier, up to `n`, windows or ranges in ascending order (log entry 6). -/
def tierUnits (b : Block) (tier n : Nat) : List Nat :=
  let used := unitsInUse b tier
  (List.range 64).foldl (fun acc w =>
    let have_ := if tier = 1 then windowExtents b w else rangeExtents b w
    let inside := (used.filter fun u => u / 2 ^ 21 = w).length
    acc ++ freeUnits (w * 2 ^ 21) used (min have_ (inside + n)) 0 (n - acc.length)) []

/-- A tier can supply `n` extents (R41). -/
def tierSupplies (b : Block) (tier n : Nat) : Bool :=
  if tier = 0 then decide (n ≤ kvFree b) else decide ((tierUnits b tier n).length = n)

/-! ### Charges (R40) -/

/-- The stacks in which the next extents of an index lie have room for them (R265). -/
def searchFits (b : Block) (index more : Nat) : Bool :=
  let n := searchExtents b index
  [0, 1, 2, 3, 4, 5, 6, 7].all fun k => decide (extentsIn k (n + more) - extentsIn k n ≤ stackFree b k)

/-- HOT bytes charged to a tenant: its frames, and the extents of its indexes (R265). -/
def hotBytes (b : Block) (t : Nat) : Nat :=
  (b.ses.extents.map fun e => match e.2.use with
    | .search _ => if e.2.tenant = t then e.2.count * extentBytes else 0
    | .graph _ => if e.2.tenant = t then e.2.count * extentBytes else 0
    | _ => 0).sum +
  (b.ses.frames.map fun e =>
    if e.2.tenant = t then
      match tget b.ses.supers (e.1 / 256) with
      | some sb => unitBytes (geomClass b sb.cls) * 2 ^ e.2.order
      | none => 0
    else 0).sum

/-- WARM bytes charged to a tenant in a tier: whole extents of its images. -/
def warmBytes (b : Block) (t tier : Nat) : Nat :=
  (b.ses.extents.map fun e =>
    match e.2.use with
    | .warm _ => if e.2.tenant = t ∧ e.2.tier = tier then e.2.count * extentBytes else 0
    | _ => 0).sum

/-- HOT limit of a tenant, in bytes (Table 2.13). -/
def hotLimit (b : Block) (t : Nat) : Nat := b.getFi F.SES_TQ_BYTES_hot_16m t * 2 ^ 24

/-- WARM limit of a tenant in a tier, in bytes (Table 2.13). -/
def warmLimit (b : Block) (t tier : Nat) : Nat :=
  if tier = 0 then b.getFi F.SES_TQ_BYTES_warm_hbm_16m t * 2 ^ 24
  else if tier = 1 then b.getFi F.SES_TQ_BYTES_warm_host_64m t * 2 ^ 26
  else b.getFi F.SES_TQ_BYTES_warm_nbr_64m t * 2 ^ 26

/-! ### Serials (R131, R133) -/

/-- The last value of the serial counter, at which every allocation fails (R133). -/
def serialEnd : Nat := 0xFFFFFFFFFFFF

/-- `n` fresh serials, the first of them returned; none when the counter would pass its end. -/
def takeSerials (n : Nat) (b : Block) : Option (Nat × Block) :=
  if b.ses.nextSerial + n ≤ serialEnd then
    some (b.ses.nextSerial, { b with ses := { b.ses with nextSerial := b.ses.nextSerial + n } })
  else none

/-- The tenant holds a current key (R94, R291). -/
def hasKey (b : Block) (t : Nat) : Bool := decide (((tget b.mem.keys t).map (·.current)).getD 0 ≠ 0)

/-- Current key version of a tenant. -/
def keyVersion (b : Block) (t : Nat) : Nat := ((tget b.mem.keys t).map (·.current)).getD 0

/-- A version under which a tenant's blocks may be read: its current or its retiring one (R291). -/
def mayRead (b : Block) (t ver : Nat) : Bool :=
  match tget b.mem.keys t with
  | none => false
  | some k => decide (ver ≠ 0) && (decide (ver = k.current) || decide (ver = k.retiring))

/-! ### Quanta (R114, R115, R131, R133) -/

/-- How a growth of staging ended: no quantum and no stripe is left (R121), or no serial (R133). -/
inductive Grown where
  | ok (b : Block)
  | noQuantum
  | noSerial

/-- One more quantum for a session, under a fresh serial and the tenant's current key. -/
def takeQuantum (sid : Nat) (b : Block) : Grown :=
  match tget b.ses.slots sid with
  | none => .ok b
  | some x =>
    match nextStripe b x.cls, takeSerials 1 b with
    | none, _ => .noQuantum
    | some _, none => .noSerial
    | some n, some (serial, b) => .ok { b with ses := { b.ses with
        slots := tset b.ses.slots sid { x with quanta := x.quanta ++ [⟨n, serial, keyVersion b x.tenant⟩] } } }

/-- Quanta taken one by one. -/
def takeQuanta (sid : Nat) : Nat → Block → Grown
  | 0, b => .ok b
  | n + 1, b => match takeQuantum sid b with
    | .ok b => takeQuanta sid n b
    | r => r

/-- Quanta a session holds. -/
def quantaHeld (b : Block) (sid : Nat) : Nat := ((tget b.ses.slots sid).map (·.quanta.length)).getD 0

/-- A session's quanta brought up to what some staging needs (R115). -/
def growStaging (sid : Nat) (to_ : Staging) (b : Block) : Grown := takeQuanta sid (stagingQuanta to_ - quantaHeld b sid) b

/-- Quanta that hold no row freed (R115). -/
def trimStaging (sid : Nat) (b : Block) : Block :=
  { b with ses := { b.ses with slots := tupd b.ses.slots sid fun x => { x with quanta := x.quanta.take (stagingQuanta x.staging) } } }

/-! ### Frames (R106, R108, R124) -/

/-- Smallest free block of at least an order among the superblocks of a class in a stack: superblock, first unit, order. Of
several equally small it is the first in the order of superblocks and of their free lists (R106; log entry 143). -/
def bestBlock (b : Block) (cls stack order : Nat) : Option (Nat × Nat × Nat) :=
  b.ses.supers.foldl (fun acc e =>
    if e.2.cls = cls ∧ e.2.stack = stack then
      e.2.free.foldl (fun acc f =>
        if order ≤ f.2 then
          match acc with
          | none => some (e.1, f.1, f.2)
          | some (_, _, o) => if f.2 < o then some (e.1, f.1, f.2) else acc
        else acc) acc
    else acc) none

/-- The unused halves left when a block of order `have_` at `off` is split down to `order`. -/
def splitHalves (off order : Nat) : (have_ : Nat) → List (Nat × Nat)
  | 0 => []
  | h + 1 => if order ≤ h then (off + 2 ^ h, h) :: splitHalves off order h else []

/-- A freed block merged with its free buddies, repeatedly (R106). -/
def mergeBuddies : (fuel : Nat) → (off order : Nat) → List (Nat × Nat) → List (Nat × Nat)
  | 0, off, order, free => (off, order) :: free
  | n + 1, off, order, free =>
    let buddy := off ^^^ 2 ^ order
    if order < 8 ∧ (buddy, order) ∈ free then
      mergeBuddies n (min off buddy) (order + 1) (free.filter (· ≠ (buddy, order)))
    else (off, order) :: free

/-- The lowest superblock number not in use. -/
def freshKey {α : Type} (t : Tab α) : Nat := match t.getLast? with
  | none => 1
  | some e => e.1 + 1

/-- A frame taken in one stack: from the class's allocator, else from a new superblock of the KV region (R106, R107). -/
def frameInStack (cls stack order tenant : Nat) (b : Block) : Option (Nat × Block) :=
  let b? : Option Block := match bestBlock b cls stack order with
    | some _ => some b
    | none =>
      if superExtents (geomClass b cls) ≤ stackFree b stack then
        some { b with ses := { b.ses with
          supers := tset b.ses.supers (freshKey b.ses.supers) ⟨cls, stack, [(0, 8)]⟩ } }
      else none
  b?.bind fun b => (bestBlock b cls stack order).bind fun (sb, off, o) =>
    (takeSerials 1 b).bind fun (serial, b) =>
      let supers := tupd b.ses.supers sb fun x =>
        { x with free := splitHalves off order o ++ x.free.filter (· ≠ (off, o)) }
      let key := 256 * sb + off
      some (key, { b with ses := { b.ses with
        supers := supers, frames := tset b.ses.frames key ⟨order, 0, 0, serial, tenant, false, false, [], keyVersion b tenant⟩ } })

/-- A frame for a page: the wanted stack, then the next stacks in ascending order (R107). -/
def takeFrame (cls stack order tenant : Nat) (b : Block) : Option (Nat × Block) :=
  (List.range 8).foldl (fun acc i =>
    match acc with
    | some x => some x
    | none => frameInStack cls ((stack + i) % 8) order tenant b) none

/-- A frame returned to its allocator; a superblock whose units are all free returns to the KV region (R106). -/
def returnFrame (key : Nat) (b : Block) : Block :=
  match tget b.ses.frames key, tget b.ses.supers (key / 256) with
  | some f, some sb =>
    let free := mergeBuddies 8 (key % 256) f.order sb.free
    { b with ses := { b.ses with
      frames := tdel b.ses.frames key,
      supers := if (0, 8) ∈ free then tdel b.ses.supers (key / 256)
                else tset b.ses.supers (key / 256) { sb with free := free } } }
  | _, _ => b

/-- One reference more (R122). -/
def addRef (key : Nat) (b : Block) : Block :=
  { b with ses := { b.ses with frames := tupd b.ses.frames key fun f => { f with refs := f.refs + 1 } } }

/-- One reference less: the frame returns when no lease stands, and else waits for its last lease (R122, R124). -/
def dropRef (key : Nat) (b : Block) : Block :=
  match tget b.ses.frames key with
  | none => b
  | some f =>
    if f.refs ≤ 1 then
      if f.leases = 0 then returnFrame key b
      else Block.bump { b with ses := { b.ses with frames := tset b.ses.frames key { f with refs := 0 } } }
        F.PGM_CNT_lease_held
    else { b with ses := { b.ses with frames := tset b.ses.frames key { f with refs := f.refs - 1 } } }

/-- One lease more (R123). -/
def addLease (key : Nat) (b : Block) : Block :=
  { b with ses := { b.ses with frames := tupd b.ses.frames key fun f => { f with leases := f.leases + 1 } } }

/-- One lease less; a frame with no reference left returns (R124). -/
def dropLease (key : Nat) (b : Block) : Block :=
  match tget b.ses.frames key with
  | none => b
  | some f =>
    if f.leases ≤ 1 ∧ f.refs = 0 then returnFrame key b
    else { b with ses := { b.ses with frames := tset b.ses.frames key { f with leases := f.leases - 1 } } }

/-- References of a table's frames dropped (R122). -/
def dropTable (t : PageTable) (b : Block) : Block := t.entries.foldl (fun b e => dropRef e.frame b) b

/-- A prefix table lists the frame (R125). -/
def prefixLists (b : Block) (key : Nat) : Bool :=
  b.ses.prefixes.any fun e => e.2.table.entries.any fun x => decide (x.frame = key)

/-! ### Landing rows (R117, R118, R125) -/

/-- How a landing ended. -/
inductive Landed where
  | ok (t : PageTable) (b : Block)
  | quota
  | noFrame

/-- A frame changed. -/
def updFrame (key : Nat) (f : Frame → Frame) (b : Block) : Block := { b with ses := { b.ses with frames := tupd b.ses.frames key f } }

/-- A frame's copy takes its source's slots below the first to be written, as ciphertext with tags, serial and key version
(R125, R132): what fails there fails in the copy. -/
def copySlots (src key slot : Nat) (b : Block) : Block :=
  match tget b.ses.frames src with
  | none => b
  | some f => updFrame key (fun g => { g with
      serial := f.serial, keyVer := f.keyVer, badTag := f.badTag && decide (slot ≠ 0),
      rows := f.rows.filter fun e => decide (e.1 < slot) }) b

/-- The page of a position made writable from a slot on: added when the table lacks it, copied when another table lists its
frame. -/
def readyPage (seed tenant g slot : Nat) (t : PageTable) (b : Block) : Landed :=
  let bytes := unitBytes (geomClass b t.cls) * 2 ^ pageOrder g t.cap
  let j := g - t.basePage
  match t.entries[j]? with
  | none =>
    if hotLimit b tenant < hotBytes b tenant + bytes then .quota
    else match takeFrame t.cls ((seed + g) % 8) (pageOrder g t.cap) tenant b with
      | none => .noFrame
      | some (key, b) =>
        let serial := ((tget b.ses.frames key).map (·.serial)).getD 0
        .ok { t with entries := t.entries ++ [⟨key, serial, pageOrder g t.cap, false⟩] } (addRef key b)
  | some e =>
    let refs := ((tget b.ses.frames e.frame).map (·.refs)).getD 0
    if 1 < refs ∨ prefixLists b e.frame = true then
      if hotLimit b tenant < hotBytes b tenant + bytes then .quota
      else match takeFrame t.cls ((seed + g) % 8) e.order tenant b with
        | none => .noFrame
        | some (key, b) =>
          .ok { t with entries := t.entries.set j { e with frame := key, full := false } }
            ((dropRef e.frame (addRef key (copySlots e.frame key slot b))).bump F.PGM_CNT_cow_count)
    else .ok t b

/-- Rows written into a frame's slots from a slot on, under the tenant's current key: a frame that a rotation has not yet
covered is covered with the write (R291, R304). -/
def putRows (key slot : Nat) (rows : List KvRow) (b : Block) : Block :=
  updFrame key (fun f => { f with
    keyVer := keyVersion b f.tenant, rows := rows.zipIdx.foldl (fun t e => tset t (slot + e.2) e.1) f.rows }) b

/-- Rows landed page by page from a position; the first argument bounds the pages (R118). -/
def landPages (seed tenant : Nat) : (fuel p : Nat) → List KvRow → PageTable → Block → Landed
  | 0, _, _, t, b => .ok t b
  | f + 1, p, rows, t, b =>
    if rows = [] then .ok t b
    else
      let (g, slot) := pageOf p t.cap
      let here := rows.take (pageSize g t.cap - slot)
      match readyPage seed tenant g slot t b with
      | .ok t b =>
        let j := g - t.basePage
        let b := match t.entries[j]? with
          | some e => putRows e.frame slot here b
          | none => b
        let full := decide (slot + here.length = pageSize g t.cap)
        let t := { t with rows := t.rows + here.length, entries := t.entries.modify j fun e => { e with full := e.full || full } }
        landPages seed tenant f (p + here.length) (rows.drop here.length) t b
      | r => r

/-- Levels of the tree that maps some pages, the fewest that do (R111). -/
def treeLevels (pages : Nat) : Nat := if pages ≤ 128 then 1 else if pages ≤ 128 ^ 2 then 2 else if pages ≤ 128 ^ 3 then 3 else 4

/-- The blocks of one level after an edit (R112): those on the path of a changed entry are new copies, the others stay. -/
def editLevel (level count : Nat) (changed old : List Nat) (seq : Nat) : List Nat × Nat :=
  (List.range count).foldl (fun (acc : List Nat × Nat) i =>
    match old[i]? with
    | some n => if changed.any fun j => decide (j / 128 ^ (level + 1) = i) then (acc.1 ++ [acc.2], acc.2 + 1) else (acc.1 ++ [n], acc.2)
    | none => (acc.1 ++ [acc.2], acc.2 + 1)) ([], seq)

/-- A table's tree after an edit of some entries (R111, R112, step 1). -/
def editTree (changed : List Nat) (t : PageTable) (b : Block) : PageTable × Block :=
  let pages := t.entries.length
  let (blocks, seq) := (List.range (treeLevels pages)).foldl (fun (acc : List (List Nat) × Nat) l =>
    let (ns, seq) := editLevel l (max 1 ((pages + 128 ^ (l + 1) - 1) / 128 ^ (l + 1))) changed ((t.blocks[l]?).getD []) acc.2
    (acc.1 ++ [ns], seq)) ([], b.ses.blockSeq)
  ({ t with blocks := blocks }, { b with ses := { b.ses with blockSeq := seq } })

/-- Entries that two versions of a table differ in. -/
def changedEntries (old new : PageTable) : List Nat :=
  (List.range (max old.entries.length new.entries.length)).filter fun j => decide (old.entries[j]? ≠ new.entries[j]?)

/-- The next version of a table published from the last (R112): new blocks on the paths of what changed, a new root record
with `version` one higher, which no walker holds. -/
def publish (old new : PageTable) (b : Block) : PageTable × Block :=
  let (t, b) := editTree (changedEntries old new) { new with blocks := old.blocks } b
  ({ t with version := (old.version + 1) % 2 ^ 32, snapshots := 0 }, b)

/-- Groups of rows landed after the rows a table holds, each as one version (R112, R117, R118, R142). -/
def landGroups (seed tenant firstPos : Nat) : List (List KvRow) → PageTable → Block → Landed
  | [], t, b => .ok t b
  | g :: gs, t, b =>
    match landPages seed tenant (g.length + 1) (firstPos + t.rows) g t b with
    | .ok t' b =>
      let (t', b) := publish t t' b
      landGroups seed tenant firstPos gs t' b
    | r => r

/-- Rows in groups of 16 (R116); the first argument bounds them. -/
def rowGroups : Nat → List KvRow → List (List KvRow)
  | 0, _ => []
  | n + 1, rows => if rows = [] then [] else rows.take 16 :: rowGroups n (rows.drop 16)

/-- Rows landed after the rows a table holds, group by group: a page added, `rows` and `full` are the edit of the group that
lands in it (R112, R117). -/
def landRows (seed tenant firstPos : Nat) (rows : List KvRow) (t : PageTable) (b : Block) : Landed :=
  landGroups seed tenant firstPos (rowGroups rows.length rows) t b

/-- The row that a table holds for a position; none of its rows reads as the empty row. -/
def tableRow (b : Block) (t : PageTable) (p : Nat) : KvRow :=
  let (g, slot) := pageOf p t.cap
  (((t.entries[g - t.basePage]?).bind fun e => tget b.ses.frames e.frame).bind fun f => tget f.rows slot).getD []

/-- A new private table (R103, R129): c from the attached prefix, else from the tenant. -/
def newTable (b : Block) (cls tenant prefixTokens : Nat) (prefixCap : Option Nat) : PageTable :=
  let c := prefixCap.getD (tenantCap b tenant)
  ⟨0, c, cls, (pageOf prefixTokens c).1, 0, 0, [], []⟩

/-! ### Extents (R288, R298 to R300) -/

/-- A run of fresh extents of a tier, each under a fresh serial; none when the tier or the counter cannot supply it. -/
def takeExtents (tier count tenant : Nat) (use : ExtentUse) (b : Block) : Option (Nat × Block) :=
  if tierSupplies b tier count then
    (takeSerials count b).map fun (serial, b) =>
      let key := freshKey b.ses.extents
      let units := if tier = 0 then [] else tierUnits b tier count
      let run : ExtentRun := ⟨tier, units, count, serial, tenant, use, [], keyVersion b tenant, []⟩
      (key, { b with ses := { b.ses with extents := tset b.ses.extents key run } })
  else none

/-- A run of extents released. -/
def dropExtents (key : Nat) (b : Block) : Block := { b with ses := { b.ses with extents := tdel b.ses.extents key } }

/-- Runs of extents with a given use. -/
def extentsWith (b : Block) (p : ExtentRun → Bool) : List Nat := (b.ses.extents.filter fun e => p e.2).map (·.1)

/-- Every run with a given use released. -/
def dropExtentsWith (p : ExtentRun → Bool) (b : Block) : Block :=
  (extentsWith b p).foldl (fun b k => dropExtents k b) b

/-- Pieces of 512 bytes that hold `n` bytes (R300). -/
def piecesFor (n : Nat) : Nat := (n + 511) / 512

/-- Lowest free run of `n` pieces in a pack extent; a freed piece of a lower tier stays used (R300). -/
def freeRun (tier : Nat) (ps : List Piece) (n : Nat) : Option Nat :=
  let taken := ps.filter fun p => p.live || decide (tier ≠ 0)
  let starts := 0 :: taken.map fun p => p.first + p.count
  let fits := starts.filter fun s =>
    decide (s + n ≤ 4096) && taken.all fun p => decide (p.first + p.count ≤ s) || decide (s + n ≤ p.first)
  fits.foldl (fun acc s => match acc with
    | none => some s
    | some a => some (min a s)) none

/-- A unit of `n` bytes placed in a pack extent of its tenant in a tier, in an existing extent first (R300); writes use the
current key version, so it is an extent of that version (R291). A unit of no bytes takes no piece. -/
def placeUnit (tier tenant n : Nat) (b : Block) : Option (Option Place × Block) :=
  if n = 0 then some (none, b)
  else
    let k := piecesFor n
    let found := b.ses.extents.findSome? fun e =>
      if e.2.tier = tier ∧ e.2.tenant = tenant ∧ e.2.use = .pack ∧ e.2.keyVer = keyVersion b tenant then
        (freeRun tier e.2.pieces k).map fun s => (e.1, s)
      else none
    let mk := fun (key s : Nat) (b : Block) =>
      (some (Place.mk key s), { b with ses := { b.ses with
        extents := tupd b.ses.extents key fun e => { e with pieces := e.pieces ++ [⟨s, k, true⟩] } } })
    match found with
    | some (key, s) => some (mk key s b)
    | none => (takeExtents tier 1 tenant .pack b).map fun (key, b) => mk key 0 b

/-- A unit's pieces freed; a pack extent with no live piece is released (R300). -/
def freeUnit (p : Option Place) (b : Block) : Block :=
  match p with
  | none => b
  | some p =>
    let b := { b with ses := { b.ses with extents := tupd b.ses.extents p.extent fun e =>
      { e with pieces := e.pieces.map fun x => if x.first = p.piece then { x with live := false } else x } } }
    match tget b.ses.extents p.extent with
    | some e => if e.pieces.any (·.live) then b else dropExtents p.extent b
    | none => b

/-- Tier that holds a unit; HBM when it has no pieces. -/
def unitTier (b : Block) (p : Option Place) : Nat :=
  match p with
  | none => 0
  | some p => ((tget b.ses.extents p.extent).map (·.tier)).getD 0

/-! ### Low-water marks (R109, R121, R133) -/

/-- Blocks of a unit of tenant data stand under a version that its tenant holds, or held none when they were written (R291). -/
def versionHeld (b : Block) (t ver : Nat) : Bool := mayRead b t ver || (decide (ver = 0) && (tget b.mem.keys t).isNone)

/-- Bytes of the quanta in use (R121). -/
def quantaBytes (b : Block) : Nat := (b.ses.classes.map fun e => classQuanta b e.1 * quantumBytes e.2).sum

/-- A level flag with its `seen` bit and its interrupt source brought to a condition. -/
def levelFlag (f : Fld) (seen : Option Fld) (src : Nat) (on : Bool) (b : Block) : Block :=
  if decide (b.getF f = 1) == on then b
  else
    let b := b.setF f (if on then 1 else 0)
    let b := match seen with
      | some g => if on then b.setF g 1 else b
      | none => b
    setLevel src on b

/-- FRAMES_LOW, STAGE_LOW and SERIAL_LOW brought to their conditions (R109, R121, R133). -/
def settle (b : Block) : Block :=
  let b := levelFlag F.PGM_STAT_frames_low (some F.PGM_STAT_frames_low_seen) Src.framesLow
    (decide (kvFree b < b.getF F.PGM_CFG_frames_low_gib * 512)) b
  let b := levelFlag F.PGM_STAT_stage_low (some F.PGM_STAT_stage_low_seen) Src.stageLow
    (decide (b.ses.poolStripes * 2 ^ 26 * b.getF F.PGM_CFG_stage_low_pct ≤ 100 * quantaBytes b)) b
  levelFlag F.PGM_STAT_serial_low none Src.serialLow (decide (0xFFFF00000000 ≤ b.ses.nextSerial)) b

/-- A meaning whose effect may change what memory is free. -/
def actS (u : UnitRef) (f : Block → Block) (s : State) : Host.Outcome State Fault Refusal := act u (fun b => settle (f b)) s

end Sys2Proof.Machine
end

