-- ==== Sys2Proof/Machine/Records.lean ====
section
/-! DEFINITION. Opcodes of the chain ISA and their encoding (R48, R51, R54, R55), requests and rings, and the records of a
completion (R70 to R72). -/

namespace Sys2Proof.Machine

/-! ### Status codes (Table 0.4) -/

def St.ok : Nat := 0x00
def St.truncated : Nat := 0x01
def St.partial_ : Nat := 0x02
def St.cancelled : Nat := 0x10
def St.deadline : Nat := 0x11
def St.duplicateStale : Nat := 0x12
def St.deadEnd : Nat := 0x20
def St.lengthLimit : Nat := 0x21
def St.tierFault : Nat := 0x30
def St.poolLost : Nat := 0x31
def St.redirect : Nat := 0x32
def St.staleHandle : Nat := 0x40
def St.quota : Nat := 0x41
def St.malformed : Nat := 0x42
def St.contextFault : Nat := 0x50
def St.integrity : Nat := 0x60

/-- A status below 0x10 lets a request continue (R57). -/
def St.good (st : Nat) : Bool := decide (st < 0x10)

/-! ### Instructions (Tables 3.3 and 3.6) -/

/-- The chain rows: an opcode, with the variants that the table of commands tells apart. -/
inductive CRow where
  | sopen | sclose | park | revive | move | depth | depthHint | pfxpin | pfxfork | pfxdrop
  | mloadModel | mloadCog | mloadList | munloadModel | munloadCog | munloadList
  | tokinNative | tokinByte | tokinIds | tokout | constrain | step | draft | prefill
  | searchFlat | searchGraph | searchSharded | vinsert | vdelete | vmerge
  | swait | ssignal | fence | cadence | overlay | ckpt | tandem | tandemRelease | complete
  deriving DecidableEq, Repr

/-- Fields of an entry (Table 3.3). -/
def Entry.opcode (e : Entry) : Nat := bitsOf e.lo 0 8
def Entry.isHead (e : Entry) : Bool := decide (bitsOf e.lo 8 1 = 1)
def Entry.ptr (e : Entry) : Bool := decide (bitsOf e.lo 9 1 = 1)
def Entry.reserved (e : Entry) : Nat := bitsOf e.lo 10 6
def Entry.tag (e : Entry) : Nat := bitsOf e.lo 16 16
def Entry.a (e : Entry) : Nat := bitsOf e.lo 32 32

def Op.accept : Nat := 0x1A
def Op.complete : Nat := 0x3F

/-- The chain ISA version that brought an opcode (Table 3.2), as in the header's `isa` byte; none: reserved. -/
def opVersion (op : Nat) : Option Nat :=
  if op ∈ [0x01, 0x02, 0x03, 0x04, 0x05, 0x06, 0x08, 0x09, 0x0A, 0x0C, 0x0D, 0x10, 0x11, 0x18, 0x1A, 0x1B, 0x28, 0x29,
           0x2A, 0x3F] then some 0x20
  else if op ∈ [0x12, 0x19, 0x20, 0x21, 0x22, 0x23, 0x30, 0x31, 0x38, 0x39] then some 0x30
  else none

/-- Bits of operand A that Table 3.6, with Table 10.3, defines for an opcode (R51). For MLOAD and MUNLOAD of a model
bits [23:12] are defined by the table for the other kinds (log entry 7). -/
def opMaskA (op : Nat) : Nat :=
  if op = 0x01 then 0xFFF else if op = 0x03 then 0xF else if op = 0x05 then 0xFFF else if op = 0x06 then 0x1F
  else if op = 0x0C then 0xFFFFFF else if op = 0x0D then 0xFFF6FF else if op = 0x10 then 0x3FFFFFF
  else if op = 0x12 then 0xFFF else if op = 0x19 then 0xFFF else if op = 0x1B then 0xFFFF else if op = 0x20 then 3
  else if op = 0x22 ∨ op = 0x23 then 0xFFFFFFFF else if op = 0x28 ∨ op = 0x29 then 0x1FFFF
  else if op = 0x2A then 1 else if op = 0x30 then 0xFFFFFF else if op = 0x39 then 0x1FF else 0

/-- Opcodes marked P, which require `ptr` (R55). -/
def opNeedsPtr (op : Nat) : Bool := [0x01, 0x08, 0x09, 0x0C, 0x10, 0x11, 0x18, 0x20, 0x21, 0x31].contains op

/-- Opcodes whose operand B carries a session handle (Table 3.6). -/
def opHandleB (op : Nat) : Bool := [0x02, 0x03, 0x04, 0x05, 0x06, 0x12, 0x19, 0x1B].contains op

/-- Opcodes whose operand B is 0 (Table 3.6). -/
def opZeroB (op : Nat) : Bool := [0x0D, 0x23, 0x2A, 0x39, 0x3F].contains op

/-- Opcodes that name a session by handle, in operand B or in bytes [31:24] of the block (Table 3.6). VINSERT names an
owner (its own rule), so it stands apart. -/
def opNamesSession (op : Nat) : Bool :=
  [0x02, 0x03, 0x04, 0x05, 0x06, 0x08, 0x09, 0x10, 0x11, 0x12, 0x18, 0x19, 0x1B].contains op

/-- Opcodes that give a result (Table 3.6). -/
def opGivesResult (op : Nat) : Bool :=
  [0x01, 0x03, 0x04, 0x05, 0x06, 0x08, 0x0C, 0x10, 0x11, 0x18, 0x1B, 0x20, 0x28, 0x31, 0x38].contains op

/-- Opcodes allowed in a trailer (R52). -/
def opInTrailer (op : Nat) : Bool := [0x02, 0x03, 0x06, 0x0A, 0x29].contains op

/-- The row an entry spells under a chain ISA version; none where its opcode or a variant field is reserved, or its
version lacks the opcode (R48, R51, Table 3.2). -/
def rowOf (isa : Nat) (e : Entry) : Option CRow :=
  match opVersion e.opcode with
  | none => none
  | some v =>
    if isa < v then none
    else if e.opcode = 0x01 then some .sopen
    else if e.opcode = 0x02 then some .sclose
    else if e.opcode = 0x03 then some .park
    else if e.opcode = 0x04 then some .revive
    else if e.opcode = 0x05 then some .move
    else if e.opcode = 0x06 then some (if e.a.testBit 4 then .depthHint else .depth)
    else if e.opcode = 0x08 then some .pfxpin
    else if e.opcode = 0x09 then some .pfxfork
    else if e.opcode = 0x0A then some .pfxdrop
    else if e.opcode = 0x0C then
      (if bitsOf e.a 9 2 = 0 then some .mloadModel else if bitsOf e.a 9 2 = 1 then some .mloadCog
       else if bitsOf e.a 9 2 = 2 then some .mloadList else none)
    else if e.opcode = 0x0D then
      (if bitsOf e.a 9 2 = 0 then some .munloadModel else if bitsOf e.a 9 2 = 1 then some .munloadCog
       else if bitsOf e.a 9 2 = 2 then some .munloadList else none)
    else if e.opcode = 0x10 then
      some (if e.a.testBit 25 then .tokinIds else if e.a.testBit 7 || decide (isa < 0x30) then .tokinByte
            else .tokinNative)
    else if e.opcode = 0x11 then some .tokout
    else if e.opcode = 0x12 then some .constrain
    else if e.opcode = 0x18 then some .step
    else if e.opcode = 0x19 then some .draft
    else if e.opcode = 0x1B then some .prefill
    else if e.opcode = 0x20 then
      some (if e.a.testBit 1 then .searchSharded else if e.a.testBit 0 then .searchGraph else .searchFlat)
    else if e.opcode = 0x21 then some .vinsert
    else if e.opcode = 0x22 then some .vdelete
    else if e.opcode = 0x23 then some .vmerge
    else if e.opcode = 0x28 then some .swait
    else if e.opcode = 0x29 then some .ssignal
    else if e.opcode = 0x2A then some .fence
    else if e.opcode = 0x30 then some .cadence
    else if e.opcode = 0x31 then some .overlay
    else if e.opcode = 0x38 then some .ckpt
    else if e.opcode = 0x39 then some (if e.a.testBit 8 then .tandem else .tandemRelease)
    else if e.opcode = 0x3F then some .complete
    else none

/-! ### Requests and rings -/

/-- A request. -/
def req (b : Block) (rid : Nat) : Option Req := tget b.fe.reqs rid

/-- A request changed. -/
def setReq (rid : Nat) (q : Req) (b : Block) : Block := { b with fe := { b.fe with reqs := tset b.fe.reqs rid q } }

/-- A request changed by a function, where it exists. -/
def updReq (rid : Nat) (f : Req → Req) (b : Block) : Block := { b with fe := { b.fe with reqs := tupd b.fe.reqs rid f } }

/-- A request gone. -/
def delReq (rid : Nat) (b : Block) : Block := { b with fe := { b.fe with reqs := tdel b.fe.reqs rid } }

/-- A ring. -/
def ringOf (b : Block) (r : Nat) : Option Ring := tget b.fe.rings r

/-- A ring changed. -/
def updRing (r : Nat) (f : Ring → Ring) (b : Block) : Block := { b with fe := { b.fe with rings := tupd b.fe.rings r f } }

/-- Ring states (Table 3.16). -/
def rsDisabled : Nat := 0
def rsRunning : Nat := 1
def rsError : Nat := 2
def rsDraining : Nat := 3

/-- The tenant that owns a ring (Table 3.15). -/
def ringTenant (b : Block) (r : Nat) : Nat :=
  (ftGet b.flds (F.CFE_RING_CFG_tenant.key, r)).getD (r / 16)

/-- The owner of a ring is written; r / 16, the value at reset, is not listed. -/
def setRingTenant (r t : Nat) (b : Block) : Block :=
  let k := (F.CFE_RING_CFG_tenant.key, r)
  { b with flds := if t = r / 16 then ftDel b.flds k else ftSet b.flds k t }

/-- The tenant a request belongs to: the owner of its ring when it was enabled. -/
def reqTenant (b : Block) (q : Req) : Nat := ((ringOf b q.ring).map (·.tenant)).getD (ringTenant b q.ring)

/-- An accepted request whose record has not been written (Table 3.16 `inflight`). -/
def inflight (q : Req) : Bool := decide (q.kind = .normal) && decide (q.phase ≠ .trailer) && !q.isTrailerFail

/-- Accepted, uncompleted requests of a ring (Table 3.16). -/
def ringInflight (b : Block) (r : Nat) : Nat := (b.fe.reqs.filter fun e => inflight e.2 && decide (e.2.ring = r)).length

/-- Accepted, uncompleted requests of a tenant (R68). -/
def tenantInflight (b : Block) (t : Nat) : Nat :=
  (b.fe.reqs.filter fun e => inflight e.2 && decide (reqTenant b e.2 = t)).length

/-- Accepted, uncompleted requests of the module (R68). -/
def poolInflight (b : Block) : Nat := (b.fe.reqs.filter fun e => inflight e.2).length

/-- Value that operand B carries: the immediate, or bytes [31:24] of the block (R54). -/
def entryB (b : Block) (e : Entry) : Nat := if e.ptr then b.peekLe (e.hi + 24) 8 else e.hi

/-- The argument block of an entry can be read: 64-byte aligned and within the tenant's io windows (R54). -/
def blockOk (b : Block) (tenant : Nat) (e : Entry) : Bool :=
  !e.ptr || (decide (e.hi % 64 = 0) && ioRead b (some tenant) e.hi 64)

/-- The handle an entry names, when its opcode names a session and its block can be read. -/
def entryHandle (b : Block) (tenant : Nat) (e : Entry) : Option Nat :=
  if opNamesSession e.opcode && blockOk b tenant e then some (entryB b e % 2 ^ 48) else none

/-- Fields of a handle (Table 2.1). -/
def hTenant (h : Nat) : Nat := bitsOf h 36 12
def hSlot (h : Nat) : Nat := bitsOf h 12 24
def hGen (h : Nat) : Nat := bitsOf h 0 12

/-- The handle of a session slot (Table 2.1). -/
def mkHandle (tenant slot gen : Nat) : Nat := tenant * 2 ^ 36 + slot * 2 ^ 12 + gen

/-- Body instructions of a request: those before its COMPLETE. -/
def bodyInstrs (q : Req) : List Entry := q.instrs.take (q.completeAt.getD q.instrs.length)

/-- A request counts in `req_refs` of a session: accepted, its record not written, and an instruction of its body
decoded so far, or the session it opened, names the handle (Table 2.2, R71). -/
def refersTo (b : Block) (q : Req) (h : Nat) : Bool :=
  inflight q && (decide (q.named = some h) ||
    (bodyInstrs q).any fun e => decide (entryHandle b (reqTenant b q) e = some h))

/-- `req_refs` of a session handle; the requests of a restored copy that have not restarted count too (R381). -/
def reqRefs (b : Block) (h : Nat) : Nat :=
  (b.fe.reqs.filter fun e => refersTo b e.2 h).length + (b.tdm.restored.filter fun e => refersTo b e.2.req h).length

/-! ### Records (R70 to R72) -/

/-- A completion record (Table 3.7). -/
def completionRecord (q : Req) (dup pending prov : Bool) (completeNs : Nat) : Bytes :=
  leBytes 8 q.reqId ++ [BitVec.ofNat 8 q.status] ++
  [BitVec.ofNat 8 ((if dup then 1 else 0) + (if q.isTrailerFail then 2 else 0) + (if prov then 4 else 0)
    + (if pending then 8 else 0))] ++
  leBytes 2 q.tag ++ [BitVec.ofNat 8 q.index] ++ [BitVec.ofNat 8 q.opcode] ++ leBytes 2 q.ring ++
  leBytes 8 q.acceptNs ++ leBytes 8 completeNs ++ padTo 32 q.result

/-- A model slot. -/
def modelSlot (b : Block) (n : Nat) : Option ModelSlot := tget b.ten.models n

/-- The geometry of a model (R105). -/
def slotGeom (m : ModelSlot) : GeomClass :=
  ⟨m.layers, elemBytes (kvCode m.kvFormat) m.elems + (if kvScaled m.kvFormat then m.elems / 32 else 0), m.elems⟩

/-- The geometry of a session's rows: that of its model, whose class may have been freed (R105, R342). -/
def geomOf (b : Block) (x : Session) : GeomClass :=
  match modelSlot b x.modelSlot with
  | some m => slotGeom m
  | none => geomClass b x.cls

/-- Little-endian words of log entries. -/
def logBytes (log : List (BitVec 32)) : Bytes := log.flatMap fun e => leBytes 4 e.toNat

/-- First 12 bytes of a digest; zeros where there is none (R72). -/
def dg12 (d : Option Bytes) : Bytes := padTo 12 (d.getD [])

/-- Bytes of the built-in default overlay (R350): role MIXED (2), the reset values of STE_CFG, `lend_gib` 0, no
shapers, and a `serial` of 0 (log entry 2). -/
def defaultOverlayImage : Bytes :=
  leBytes 4 0x59414C4F ++ [0x10, 2, 0, 0] ++ leBytes 8 0 ++ leBytes 2 F.STE_CFG_max_seq.reset ++
  leBytes 2 F.STE_CFG_prefill_chunk.reset ++ leBytes 2 F.STE_CFG_mixed_budget.reset ++
  [BitVec.ofNat 8 F.STE_CFG_catchup_max.reset, BitVec.ofNat 8 F.STE_CFG_accept_wait_10us.reset] ++ List.replicate 40 0

/-- Digest of the overlay in force (R350). -/
def overlayDigest (b : Block) : Bytes := b.ten.overlayDg.getD (sha256 defaultOverlayImage)

/-- The session a handle names, whatever its state, when tenant and generation agree. -/
def namedSession (b : Block) (h : Nat) : Option Session :=
  match tget b.ses.slots (hSlot h) with
  | some x => if x.gen = hGen h ∧ x.tenant = hTenant h then some x else none
  | none => none

/-- Module ID shown in records: 0 outside a domain (Table 3.8). -/
def recordModule (b : Block) : Nat := if b.isSet F.CMP_ID_in_domain then b.getF F.CMP_ID_module_id else 0

/-- The session of a tenant that a handle names. -/
def namedBy (b : Block) (tenant h : Nat) : Option Session :=
  (namedSession b h).bind fun x => if x.tenant = tenant then some x else none

/-- The session that a request's instructions name: the last that one of them named as it began, or, where none has begun,
the first they spell (R72, log entries 54 and 154). -/
def provName (b : Block) (q : Req) : Option Nat :=
  q.named.or ((bodyInstrs q).findSome? fun e => (entryHandle b (reqTenant b q) e).bind fun h =>
    (namedBy b (reqTenant b q) h).map fun _ => h)

/-- The digests that a provenance record takes from its session: `model_dg`, `program_dg`, `cog_dg`, `clist_dg`, `prefix_dg`
and `token_dg` (Table 3.8). -/
def sessionDigests (b : Block) (q : Req) (h : Nat) : List Bytes :=
  let x := namedSession b h
  let m := x.bind fun x => modelSlot b x.modelSlot
  let cog := ((q.cog.or (x.map (·.cog))).bind (tget b.txu.cogs)).map (·.digest)
  let pfx := x.bind fun x => if x.prefixHandle = 0 then none else
    (b.ses.prefixes.find? fun e => e.2.tenant = x.tenant ∧ e.2.handle = x.prefixHandle).map (·.2.digest)
  let log := (x.map (·.log)).getD []
  let cut := (q.logConf.or (q.logApp.or q.logCut)).getD log.length
  let clist := q.clistDg.or ((x.bind fun x => tget b.txu.lists x.clist).map (·.digest))
  [dg12 (q.modelDg.or (m.map (·.weightsDg))), dg12 (m.map (·.programDg)), dg12 cog, dg12 clist, dg12 pfx,
    dg12 (some (sha256 (logBytes (log.take cut))))]

/-- The provenance record of a request that named a session (R72, Table 3.8). -/
def provRecord (b : Block) (q : Req) (h : Nat) : Bytes :=
  let dgs := q.provHeld.getD (sessionDigests b q h)
  leBytes 8 q.reqId ++ leBytes 6 h ++ leBytes 2 q.ring ++ leBytes 4 q.steps ++ leBytes 4 q.confirmed.length ++
  [1, BitVec.ofNat 8 (recordModule b), 0, 0] ++ leBytes 4 q.epoch ++
  (dgs.take 5).flatten ++ dg12 (some (q.ovlDg.getD (overlayDigest b))) ++ dgs.getD 5 [] ++
  dg12 (some (sha256 (q.seeds.flatMap (leBytes 8))))

/-- The digests of a session that is about to be scrubbed held for the requests that name it (R72). -/
def holdDigests (h : Nat) (b : Block) : Block :=
  let hold := fun (e : Nat × Req) =>
    if e.2.named = some h ∧ e.2.provHeld = none then (e.1, { e.2 with provHeld := some (sessionDigests b e.2 h) }) else e
  { b with fe := { b.fe with reqs := b.fe.reqs.map hold } }

/-- The completion carries a provenance record (R72). -/
def wantsProv (q : Req) : Bool :=
  decide (q.kind = .normal) && !q.isTrailerFail && decide (q.rflags % 2 = 1) && q.named.isSome

/-- Address of the replay entry of an accepted count (R67; log entry 8: the count before it advanced). -/
def replayAddr (r : Ring) (idx : Nat) : Nat := r.replayBase + 192 * (idx % 1024)

/-- Bytes a completion writes: 64, with 128 more when it carries a provenance record (R71). -/
def recordBytes (b : Block) (q : Req) : Bytes :=
  match q.kind with
  | .replay idx =>
    match ringOf b q.ring with
    | none => []
    | some r =>
      let e := b.peek (replayAddr r idx) 192
      let flags := BitVec.ofNat 8 (bitsOf (bytesAt e 9 1) 0 8 / 16 * 16 + bitsOf (bytesAt e 9 1) 1 2 * 2 + 1)
      let e := e.take 9 ++ [flags] ++ e.drop 10
      if bytesAt e 9 1 / 4 % 2 = 1 then e else e.take 64
  | _ => completionRecord q false false (wantsProv q) b.now ++
      (if wantsProv q then (q.named.map (provRecord b q)).getD [] else [])

/-- Free completion slots (R71). -/
def cqFree (b : Block) (r : Ring) : Nat := 2 ^ r.cqLog2 - (r.cqTail - b.peekLe (r.cb + 192) 8)

/-- `head` as line 2 may show it (R377): not past an entry whose acceptance is unacknowledged. -/
def shownHead (r : Ring) : Nat := match r.heads with
  | [] => r.head
  | h :: _ => h.2

/-- Line 2 of the control block written (Table 3.1). -/
def writeLine2 (r : Ring) (b : Block) : Block :=
  b.pokeBytes (r.cb + 128) (leBytes 8 (shownHead r) ++ leBytes 8 r.cqTail ++ leBytes 8 r.hwm ++
    leBytes 8 r.acceptSeq ++ List.replicate 32 0)

/-- Bytes written as completion slots from `cq_tail`, wrapping the ring (R71). -/
def writeSlots (r : Ring) : (tail : Nat) → (fuel : Nat) → Bytes → Block → Block
  | _, 0, _, b => b
  | tail, n + 1, bs, b =>
    if bs = [] then b
    else writeSlots r (tail + 1) n (bs.drop 64) (b.pokeBytes (r.cqBase + 64 * (tail % 2 ^ r.cqLog2)) (bs.take 64))

end Sys2Proof.Machine
end

