-- ==== Sys2Proof/Machine/Shaper.lean ====
section
/-! DEFINITION. The token-bucket shapers (R328 to R331), the RTP's measurement and certificates with what a port shows in
training (R357, R362, R363), the choice of a Stoty port and the sending of messages (R316, R317). -/

namespace Sys2Proof.Config

/-- Payload of a message before its port encrypts it (R317). -/
opaque messageCode : Machine.MsgBody → List (BitVec 8)

end Sys2Proof.Config

namespace Sys2Proof.Machine

/-! ### Shapers -/

/-- Instance number of a shaper's registers: ring ingress, Stoty egress of a port and class, SEARCH ingress of a port;
none where there is no such shaper (Table 13.19). -/
def shaperInst (kind index : Nat) : Option Nat :=
  if kind = 0 then (if index < 65536 then some index else none)
  else if kind = 1 then
    (if 4 ≤ index / 8 ∧ index / 8 < numPorts ∧ 1 ≤ index % 8 ∧ index % 8 ≤ 4 then some (65536 + index) else none)
  else if kind = 2 then
    (if 4 ≤ index / 8 ∧ index / 8 < numPorts ∧ index % 8 = 4 then some (65792 + index) else none)
  else none

/-- Ring ingress and SEARCH ingress honour policing (R330). -/
def policed (inst : Nat) : Bool := decide (inst < 65536) || decide (65792 ≤ inst)

/-- Capacity of a bucket in bytes (Table 13.20). -/
def bucketSize (b : Block) (inst : Nat) : Int := max 1 (b.getFi F.TSH_CFG_burst_kib inst) * 1024

/-- A 32-bit field read as two's complement. -/
def signed32 (v : Nat) : Int := if v < 2 ^ 31 then v else (v : Int) - 2 ^ 32

/-- Tokens of a bucket (Table 13.21). -/
def tokens (b : Block) (inst : Nat) : Int := signed32 (b.getFi F.TSH_STAT_tokens inst)

/-- Tokens of a bucket set; the field holds 32 bits of two's complement. -/
def setTokens (inst : Nat) (v : Int) (b : Block) : Block :=
  b.setFi F.TSH_STAT_tokens inst (max (-(2 ^ 31)) (min v (2 ^ 31 - 1)) % 2 ^ 32).toNat

/-- What a shaper answers a packet. -/
inductive Admission where
  | go (b : Block)
  | hold (b : Block)
  | drop (b : Block)

/-- A packet of `bytes` payload bytes meets a shaper (R328, R330): admitted while the bucket holds more than zero
tokens, its cost then taken. `always`: an ACCEPT, charged but never held (R329). -/
def admitPacket (inst bytes : Nat) (always : Bool) (b : Block) : Admission :=
  if b.getFi F.TSH_CFG_rate_mbs inst = 0 then .go b
  else
    let cost : Int := bytes + b.getFi F.TSH_CFG_overhead inst
    if always ∨ 0 < tokens b inst then .go (setTokens inst (tokens b inst - cost) b)
    else if b.getFi F.TSH_CFG_mode inst = 1 ∧ policed inst then .drop (b.bumpFi F.TSH_STAT_drops inst 1)
    else .hold (b.bumpFi F.TSH_STAT_held inst 1)

/-- Refill of a bucket, up to its capacity (R328). -/
def refillBucket (inst amount : Nat) (b : Block) : Block :=
  setTokens inst (min (bucketSize b inst) (tokens b inst + amount)) b

/-- Settings of a shaper changed (R331): at once, and its bucket is set full or to zero. -/
def shaperSet (i val : Nat) (b : Block) : Block :=
  let b := b.setFi F.TSH_CFG_rate_mbs i (bitsOf val 0 24)
  let b := b.setFi F.TSH_CFG_burst_kib i (bitsOf val 24 16)
  let b := b.setFi F.TSH_CFG_overhead i (bitsOf val 40 8)
  let b := b.setFi F.TSH_CFG_mode i (bitsOf val 48 1)
  let b := b.setFi F.TSH_CFG_reset_to i (bitsOf val 49 1)
  setTokens i (if bitsOf val 49 1 = 1 then bucketSize b i else 0) b

/-- A write of TSH_CFG (R331): the shaper that TSH_SEL selects; a selection of no shaper ignores the write (Table
13.19). -/
def shaperWrite (val : Nat) (b : Block) : Block :=
  match shaperInst (b.getF F.TSH_SEL_kind) (b.getF F.TSH_SEL_index) with
  | none => b
  | some i => shaperSet i val b

/-- SHAPER_CONFIG: a write of TSH_CFG from management space (R331, R332). -/
def execShaperConfig (who : Caller) (val : BitVec 64) (s : State) : Host.Outcome State Fault Refusal :=
  act .none (fun b => if who.isMgmt then shaperWrite val.toNat b else b) s

/-! ### Ports and peers -/

/-- State of a port beyond its registers. -/
def portOf (b : Block) (p : Nat) : Port := tgetD b.link.ports p Port.reset

/-- A port changed. -/
def setPort (p : Nat) (x : Port) (b : Block) : Block := { b with link := { b.link with ports := tset b.link.ports p x } }

/-- A port is up, at either width (Table 13.14). -/
def portUp (b : Block) (p : Nat) : Bool :=
  decide (b.getFi F.FLL_PORT_STAT_state p = 2 ∨ b.getFi F.FLL_PORT_STAT_state p = 3)

/-- Module at the far end of a Stoty port (Table 13.4). -/
def peerModule (b : Block) (p : Nat) : Option Nat :=
  if (portOf b p).peer = [] then none else some (bytesAt (portOf b p).peer 6 1)

/-- The Stoty ports. -/
def stotyPorts : List Nat := [4, 5, 6, 7, 8, 9, 10, 11, 12, 13, 14, 15, 16, 17]

/-- Up Stoty ports that join a module. -/
def portsTo (b : Block) (m : Nat) : List Nat := stotyPorts.filter fun p => portUp b p && decide (peerModule b p = some m)

/-- The capability block last received from a module. -/
def peerBlock (b : Block) (m : Nat) : Option Bytes :=
  (stotyPorts.find? fun p => decide (peerModule b p = some m)).map fun p => (portOf b p).peer

/-- A peer reads pannier 1.0 only (R99, R314). -/
def reads10Only (b : Block) (m : Nat) : Bool :=
  match peerBlock b m with
  | none => false
  | some k => decide (bytesAt k 9 1 % 4 = 1)

/-- Stoty 1.0 runs on the link to a module: classes CTRL, TANDEM and MOVE only (Table 13.5). -/
def stoty10 (b : Block) (m : Nat) : Bool :=
  match portsTo b m with
  | [] => false
  | p :: _ => decide (b.getFi F.FLL_PORT_STAT_version p < 0x20)

/-- A member record of the replica. -/
def memberRec (b : Block) (m : Nat) : MemberRec := tgetD b.cmp.members m ⟨0, 0, false, 0⟩

/-- A module is a live member of the composition map as the replica holds it (R85). -/
def liveMember (b : Block) (m : Nat) : Bool := b.isSet F.CMP_ID_in_domain && decide ((memberRec b m).mstate = 1)

/-- This module's ID (R319). -/
def ownModule (b : Block) : Nat := b.getF F.CMP_ID_module_id

/-! ### Measurement and certificates (R357, R363) -/

/-- A 32-byte digest of zeros. -/
def zeroDg : Bytes := List.replicate 32 0

/-- SHA-256 of a key, zeros if there is none. -/
def keyDigest (k : Option Bytes) : Bytes := (k.map sha256).getD zeroDg

/-- SHA-256 of the identity public key. -/
def identityDg : Bytes := sha256 Config.identityKey

/-- The firmware image of a component that runs (R357). -/
def runningImage (b : Block) (c : Nat) : ImageSlot := (b.rtp.running[c]?).getD ImageSlot.shipped

/-- Value of a ratchet (R358). -/
def ratchet (b : Block) (n : Nat) : Nat := (b.rtp.ratchets[n]?).getD 0

/-- The four ratchet bytes. -/
def ratchetBytes (b : Block) : Bytes := [0, 1, 2, 3].flatMap fun n => leBytes 1 (ratchet b n)

/-- A truth value as a byte. -/
def flagByte (x : Bool) : Bytes := [if x then 1 else 0]

/-- The AK measurement (R357). -/
def akMeasurement (b : Block) : Bytes :=
  sha256 ((runningImage b 0).digest ++ ratchetBytes b ++ flagByte b.rtp.conf ++ keyDigest b.rtp.ownerKey ++ identityDg)

/-- The certificate section (R363). -/
def certSection (b : Block) : Bytes := (Config.certSection (akMeasurement b)).take 4096

/-! ### The handshake of a port (R362) -/

/-- What this end shows a port in training. -/
def showPort (p : Nat) (m : TrainMsg) (b : Block) : Block := { b with link := { b.link with shown := b.link.shown ++ [(p, m)] } }

/-- Part 1 of the handshake: a fresh nonce and the certificate section. -/
def sayHello (p : Nat) (b : Block) : Block :=
  let (n, b) := b.takeFresh
  let nonce := padTo 32 (Config.keyBytes n)
  showPort p (.hello nonce (certSection b)) (setPort p { portOf b p with nonce := nonce } b)

/-! ### Sending -/

/-- Kind number of a message, for a length that the spec does not give. -/
def MsgBody.kind : MsgBody → Nat
  | .offer _ => 0 | .pannier _ _ => 1 | .trailer _ _ => 2 | .ready _ _ _ => 3 | .refuse _ _ => 4 | .commit _ => 5
  | .moveDone _ _ => 6 | .prepare _ => 7 | .ack _ _ => 8 | .mapCommit _ => 9 | .mapAbort _ => 10 | .handover _ => 11
  | .fetchMap => 12 | .askState => 13 | .heartbeat => 14 | .query _ => 15 | .answer _ _ => 16 | .block _ _ _ _ => 17
  | .blockFail _ _ => 18 | .scrub _ => 19 | .delta _ _ => 20 | .deltaAck _ _ => 21 | .ckptShard _ _ => 22 | .forward _ => 23
  | .tierStore _ _ _ _ => 24 | .tierFetch _ _ => 25

/-- Payload bytes of a message (R329). -/
def MsgBody.payload (m : MsgBody) : Nat :=
  match m with
  | .offer h => h.length
  | .pannier _ bs => bs.length
  | .trailer _ bs => bs.length
  | .block _ _ d _ => d.length + 8
  | .tierStore _ _ d _ => d.length + 8
  | .ckptShard _ bs => bs.length
  | _ => Config.messageBytes m.kind

/-- A message leaves by its port, under the port's link key and with the next number; at number 2^40 the port repeats the
handshake (R317, R362). -/
def emit (m : OutMsg) (b : Block) : Block :=
  let x := portOf b m.port
  let b := setPort m.port { x with next := x.next + 1 } b
  let b := { b with link := { b.link with sent := b.link.sent ++ [{ m with key := x.linkKey, number := x.next }] } }
  if x.next + 1 = 2 ^ 40 then sayHello m.port b else b

/-- GCM IV of a message (R362): port, direction (0 from the lower-ID end) and number. -/
def messageIv (own : Nat) (m : OutMsg) : Bytes :=
  leBytes 1 m.port ++ leBytes 1 (if own < m.dest then 0 else 1) ++ leBytes 10 m.number

/-- A message's payload as it crosses the link: encrypted and authenticated under the link key (R317). -/
def wirePayload (own : Nat) (m : OutMsg) : Bytes := gcmSeal m.key (messageIv own m) [] (Config.messageCode m.body)

/-- A message handed to Stoty (R316, R330): lost where no port joins the destination; held at its egress shaper while
the bucket is empty or an earlier message waits there; else sent. A fenced module sends nothing but CTRL (R323). -/
def sendMsg (dest cls stream : Nat) (body : MsgBody) (b : Block) : Block :=
  let ports := portsTo b dest
  if cls ≠ 0 ∧ b.isSet F.CMP_ID_isolated then b
  else if (cls = 3 ∨ cls = 4) ∧ stoty10 b dest then b
  else match ports[Config.portHash cls stream % ports.length]? with
    | none => b
    | some p =>
      let m : OutMsg := ⟨dest, cls, body, p, [], 0⟩
      if cls = 0 then emit m b
      else
        let i := 65536 + 8 * p + cls
        let q := tgetD b.link.held i []
        let hold := fun (b : Block) => { b with link := { b.link with held := tset b.link.held i (q ++ [m]) } }
        if q ≠ [] then hold (b.bumpFi F.TSH_STAT_held i 1)
        else match admitPacket i body.payload false b with
          | .go b => emit m b
          | .hold b => hold b
          | .drop b => b

/-- Messages waiting at an egress shaper sent while its bucket holds tokens; the fuel bounds the queue (R330). -/
def drainShaper (i : Nat) : Nat → Block → Block
  | 0, b => b
  | n + 1, b =>
    match tgetD b.link.held i [] with
    | [] => b
    | m :: rest =>
      if b.getFi F.TSH_CFG_rate_mbs i = 0 ∨ 0 < tokens b i then
        let b := if b.getFi F.TSH_CFG_rate_mbs i = 0 then b
                 else setTokens i (tokens b i - (m.body.payload + b.getFi F.TSH_CFG_overhead i)) b
        drainShaper i n (emit m { b with link := { b.link with held := tset b.link.held i rest } })
      else b

end Sys2Proof.Machine
end

