-- ==== Sys2Proof/Machine/Deltas.lean ====
section
/-! DEFINITION. Deltas of a tandem copy (R375 to R377): the core of the module, what has changed since the last delta, and
the waits for acknowledgement. -/

namespace Sys2Proof.Machine

/-- States of the tandem source (Table 16.11). -/
def tdNone : Nat := 0
def tdSeeding : Nat := 1
def tdValid : Nat := 2
def tdLost : Nat := 3

/-- The copy is valid: the waits of R377 apply. -/
def tandemValid (b : Block) : Bool := decide (b.getF F.TDM_STAT_tstate = tdValid)

/-- Digest of a model slot's weights. -/
def modelDigest (b : Block) (n : Nat) : Bytes := ((modelSlot b n).map (·.weightsDg)).getD []

/-- A session as a copy holds it (Table 16.1). -/
def copySession (b : Block) (x : Session) : CopySession where
  gen := x.gen
  tenant := x.tenant
  state := x.state
  depth := x.depth
  warmTier := x.warmTier
  modelSlot := x.modelSlot
  cls := x.cls
  closing := x.closing
  closeOrder := x.closeOrder
  vecItems := x.vecItems
  prefixHandle := x.prefixHandle
  prefixTokens := x.prefixTokens
  lastActiveNs := x.lastActiveNs
  resumeHintNs := x.resumeHintNs
  hintDepth := x.hintDepth
  hintTier := x.hintTier
  cog := x.cog
  clist := x.clist
  draftSlot := x.draftSlot
  maxContext := x.maxContext
  parkCount := x.parkCount
  reviveCount := x.reviveCount
  moveCount := x.moveCount
  qStatus := x.qStatus
  qSite := x.qSite
  openNs := x.openNs
  userTag := x.userTag
  log := x.log
  scratch := x.scratch
  modelDg := modelDigest b x.modelSlot
  cogDg := ((tget b.txu.cogs x.cog).map (·.digest)).getD []
  draftDg := ((modelSlot b x.draftSlot).map fun m => if m.state ≠ 0 ∧ m.draft then m.weightsDg else []).getD []
  listDg := ((tget b.txu.lists x.clist).map (·.digest)).getD []
  image := decide (x.depth = 1) && decide (x.warmTier = 0)
  move := x.moveOut.map fun m => ⟨m.dest, m.moveId, m.dstHandle, m.dstTandem, decide (m.stage = .committed), m.rid⟩

/-- First private position of a session whose row is still to be computed. -/
def firstPending (b : Block) (sid : Nat) : Nat := ((tget b.ses.slots sid).map fun x => x.prefixTokens + x.computed).getD 0

/-- A STEP as a copy holds it: as it stood at its last boundary, with the position at which the step that follows starts. A step
in progress, or whose list has not been answered, is to be redone: it and its drafts are not counted yet (R184, R381). -/
def stepHeld (b : Block) (s : Seqn) (r : StepRun) : StepRun :=
  match r.await with
  | some w => { r with steps := r.steps - 1, proposed := r.proposed - w.drafts.length, await := none, start := some w.first }
  | none => { r with proposed := r.proposed - s.drafts.length, start := r.start.or (some (firstPending b s.sid)) }

/-- The sequence that runs a request's STEP, with the STEP. -/
def stepSeq (b : Block) (rid : Nat) : Option (Seqn × StepRun) :=
  (b.ste.waiting ++ b.ste.pelotons.flatMap (·.2.seqs)).findSome? fun s => match s.work with
    | .step r => if s.rid = some rid then some (s, r) else none
    | _ => none

/-- The STEP of a request as a copy holds it, if one is in progress. -/
def stepOf (b : Block) (rid : Nat) (q : Req) : Option StepRun := ((stepSeq b rid).map fun p => stepHeld b p.1 p.2).or q.redo

/-- A request as a copy holds it: a step whose list has not been answered counts when it is redone (R381). -/
def copyRequest (b : Block) (rid : Nat) (q : Req) : CopyRequest :=
  let again := ((stepSeq b rid).map fun p => p.2.await.isSome).getD false
  ⟨{ q with redo := stepOf b rid q, wait := .none, steps := if again then q.steps - 1 else q.steps },
    ((ringOf b q.ring).map (·.head)).getD 0⟩

/-- A prefix record as a copy holds it. -/
def copyPrefix (p : Prefix) : CopyPrefix :=
  ⟨p.tenant, p.handle, p.pstate, p.modelSlot, p.cls, p.table.cap, p.tokens, p.log, p.digest, p.weights, p.pinNs, p.supplier⟩

/-- Configuration word of an index. -/
def indexCfg (b : Block) (n : Nat) : BitVec 64 :=
  BitVec.ofNat 64 (b.getFi F.NMS_IDX_CFG_tenant n + b.getFi F.NMS_IDX_CFG_width n * 2 ^ 12
    + b.getFi F.NMS_IDX_CFG_graph n * 2 ^ 14 + b.getFi F.NMS_IDX_CFG_degree n * 2 ^ 16
    + b.getFi F.NMS_IDX_CFG_beam n * 2 ^ 32 + b.getFi F.NMS_IDX_CFG_max_log2 n * 2 ^ 48)

/-- Words of an index's shard set (R282). -/
def shardWords (b : Block) (n : Nat) : List Nat := [0, 1, 2, 3].map fun w => b.getFi F.NMS_IDX_SHARD_shards (4 * n + w)

/-- An index as a copy holds it. -/
def copyIndex (b : Block) (n : Nat) (x : Index) : CopyIndex :=
  ⟨indexCfg b n, shardWords b n, x.version, x.slots, x.entrySlots, x.side, x.nextSeq⟩

/-- Rows and bytes of the frames that a copy holds of a session: its private rows in frames, or its WARM image in HBM
(Table 16.1). -/
def sessionFrames (b : Block) (e : Nat × Session) : Option (Nat × Nat × Nat) :=
  let x := e.2
  let g := geomOf b x
  if x.depth = 0 then
    (if x.computed ≤ x.staging.confirmed then none
     else some (e.1, x.computed - x.staging.confirmed, (x.computed - x.staging.confirmed) * hotRowBytes g))
  else if x.depth = 1 ∧ x.warmTier = 0 ∧ 0 < x.computed then some (e.1, x.computed, x.computed * warmRowBytes g)
  else none

/-- Rows and bytes of a prefix record's frames. -/
def prefixFrames (b : Block) (e : Nat × Prefix) : Nat × Nat × Nat :=
  (2 ^ 24 + e.1, e.2.tokens, e.2.tokens * hotRowBytes (geomClass b e.2.cls))

/-- What a copy of the module holds now (Table 16.1); a pannier received whole is held before its COMMIT (R377). -/
def coreOf (b : Block) : TandemCopy where
  sessions := b.ses.inbound.foldl (fun t e => match e.2.ready, e.2.held with
    | some (sid, _), some c => tset t sid c
    | _, _ => t) (b.ses.slots.map fun e => (e.1, copySession b e.2))
  requests := (b.fe.reqs.filter fun e => decide (e.2.kind = .normal) && !e.2.isTrailerFail).map fun e =>
    (e.1, copyRequest b e.1 e.2)
  prefixes := b.ses.prefixes.map fun e => (e.1, copyPrefix e.2)
  counters := b.intr.counters
  indexes := b.nms.indexes.map fun e => (e.1, copyIndex b e.1 e.2)
  frames := b.ses.slots.filterMap (sessionFrames b) ++ b.ses.prefixes.map (prefixFrames b)

/-- The entries of a table that differ from an older one. -/
def changedIn {α : Type} [DecidableEq α] (now old : Tab α) : Tab α := now.filter fun e => decide (tget old e.1 ≠ some e.2)

/-- The keys of an older table that are gone. -/
def goneFrom {α : Type} (now old : Tab α) : List Nat := (old.filter fun e => (tget now e.1).isNone).map (·.1)

/-- The delta between two copies; a counter back at 0 is carried as 0. -/
def deltaOf (now old : TandemCopy) : TandemDelta where
  start := none
  changed :=
    { sessions := changedIn now.sessions old.sessions
      requests := changedIn now.requests old.requests
      prefixes := changedIn now.prefixes old.prefixes
      counters := changedIn now.counters old.counters ++ (goneFrom now.counters old.counters).map fun k => (k, 0)
      indexes := changedIn now.indexes old.indexes
      frames := now.frames.filter fun f => !old.frames.contains f }
  goneSessions := goneFrom now.sessions old.sessions
  goneRequests := goneFrom now.requests old.requests
  gonePrefixes := goneFrom now.prefixes old.prefixes
  goneIndexes := goneFrom now.indexes old.indexes
  final := false

/-- Class TANDEM (Table 13.6). -/
def clsTandem : Nat := 1

/-- A delta sent to the partner (R376), while a copy is seeded or valid: its number. -/
def sendDelta (start : Option (Bool × Nat)) (final : Bool) (b : Block) : Nat × Block :=
  let n := b.getF F.TDM_DELTA_sent + 1
  let now := coreOf b
  let d := { deltaOf now b.tdm.sent with start := start, final := final }
  let b := { b with tdm := { b.tdm with sent := now } }
  (n, sendMsg (b.getF F.TDM_STAT_partner) clsTandem 0 (.delta n d) (b.setF F.TDM_DELTA_sent n))

/-- A copy is being seeded or is valid. -/
def tandemOn (b : Block) : Bool :=
  decide (b.getF F.TDM_STAT_tstate = tdSeeding) || decide (b.getF F.TDM_STAT_tstate = tdValid)

/-- Bytes of frames that the copy is to hold and that have not been sent (Table 16.11). -/
def lagBytes (b : Block) : Nat :=
  if tandemOn b then (((coreOf b).frames.filter fun f => !b.tdm.sent.frames.contains f).map fun f => f.2.2).sum else 0

/-- The delta of an event of R376 or R377, where a copy is kept up. -/
def noteDelta (b : Block) : Block := if tandemOn b then (sendDelta none false b).2 else b

/-- The deltas up to a number are acknowledged, or no wait of R377 applies. -/
def deltaAcked (b : Block) (n : Nat) : Bool := !tandemValid b || decide (n ≤ b.getF F.TDM_DELTA_acked)

end Sys2Proof.Machine
end

