-- ==== Sys2Proof/Machine/Chain.lean ====
section
/-! DEFINITION. The chain front end's core: writing records (R61, R67, R71, R377), the end of instructions and requests
(R57, R58, R62, R63), and the runner that every chain row shares. -/

namespace Sys2Proof.Machine

/-- The open batch of a ring. -/
def batchOf (b : Block) (r : Nat) : Batch := tgetD b.rtp.batches r ⟨0, 0, [], 1, List.replicate 32 0, true, false⟩

/-- A provenance record joins its ring's open batch (R365). -/
def joinBatch (ring reqId : Nat) (rec : Bytes) (b : Block) : Block :=
  let x := batchOf b ring
  let x := { x with firstId := if x.records = [] then reqId else x.firstId, lastId := reqId,
                    records := x.records ++ [rec] }
  { b with rtp := { b.rtp with batches := tset b.rtp.batches ring x } }

/-- The replay entry of a request made final (R67, stage 2 item 1). -/
def finalEntry (q : Req) (b : Block) : Block :=
  match ringOf b q.ring with
  | none => b
  | some r =>
    if q.kind = .normal ∧ q.isTrailerFail = false then b.pokeBytes (replayAddr r q.acceptIdx) (padTo 192 (recordBytes b q))
    else b

/-- Counters of a completion that is no replay: one per completion with the status (Tables 2.10, 3.12, 4.16). -/
def countStatus (st : Nat) (b : Block) : Block :=
  if st = St.malformed then b.bump F.CFE_STAT_malformed_count
  else if st = St.quota then b.bump F.SES_STAT_quota_count
  else if st = St.staleHandle then b.bump F.SES_STAT_stale_count
  else if st = St.poolLost then b.bump F.PNE_CNT_FAULT_pool_lost
  else b

/-- `last_active_ns` of the sessions a completed request refers to (Table 2.2, R35). -/
def touchSessions (q : Req) (b : Block) : Block :=
  let touch := fun (e : Nat × Session) =>
    if refersTo b q (mkHandle e.2.tenant e.1 e.2.gen) then (e.1, { e.2 with lastActiveNs := b.now }) else e
  { b with ses := { b.ses with slots := b.ses.slots.map touch } }

/-- A request's record written, its slots being free: replay entry, slots, `cq_tail`, then `hwm` and `accept_seq`
(R61, R67); the ring's completion interrupt (R408); the request goes on to its trailer, or is gone. -/
def writeRecord (rid : Nat) (q : Req) (r : Ring) (b : Block) : Block :=
  let bs := recordBytes b q
  let b := finalEntry q b
  let b := writeSlots r r.cqTail 3 bs b
  let r' := { r with cqTail := r.cqTail + bs.length / 64 }
  let b := updRing q.ring (fun _ => r') b
  let b := writeLine2 r' b
  let b := if wantsProv q then joinBatch q.ring q.reqId (bs.drop 64) b else b
  let b := match q.kind with
    | .replay _ => b
    | _ => countStatus q.status b
  let b := if q.rflags / 2 % 2 = 1 then ringPend q.ring b else b
  let b := if q.kind = .normal ∧ q.isTrailerFail = false then touchSessions q b else b
  if q.kind = .normal ∧ q.isTrailerFail = false ∧ q.noTrailer = false then setReq rid { q with phase := .trailer } b
  else delReq rid b

/-- A record that waits at the head of its ring's queue written while there is room; the fuel bounds the queue (R61,
R71). -/
def drainQueue (ring : Nat) : Nat → Block → Block
  | 0, b => b
  | n + 1, b =>
    match ringOf b ring with
    | none => b
    | some r =>
      match r.cqQueue with
      | [] => b
      | rid :: rest =>
        match req b rid with
        | none => drainQueue ring n (updRing ring (fun r => { r with cqQueue := rest }) b)
        | some q =>
          if (recordBytes b q).length / 64 ≤ cqFree b r then
            let r := { r with cqQueue := rest }
            drainQueue ring n (writeRecord rid q r (updRing ring (fun _ => r) b))
          else b

/-- A request's record is written at once when nothing waits before it and there is room, else it waits and the wait is
counted (R61, R71). -/
def queueRecord (rid : Nat) (b : Block) : Block :=
  match req b rid with
  | none => b
  | some q =>
    match ringOf b q.ring with
    | none => delReq rid b
    | some r =>
      let q := { q with wait := .none }
      let b := setReq rid q b
      if r.cqQueue = [] ∧ (recordBytes b q).length / 64 ≤ cqFree b r then writeRecord rid q r b
      else (updRing q.ring (fun r => { r with cqQueue := r.cqQueue ++ [rid] }) b).bumpFi F.CFE_RING_STAT_cq_full q.ring 1

/-- A request's record is due (R61). While a tandem copy is valid it waits until the delta that records it is acknowledged
(R377); a record alone and a replayed one record nothing new. -/
def postRecord (rid : Nat) (b : Block) : Block :=
  match req b rid with
  | none => b
  | some q =>
    let b := setReq rid { q with phase := .record, wait := .none } b
    if q.kind = .normal ∧ tandemValid b = true then
      let (n, b) := sendDelta none false b
      instrWaitOn rid (.tandem n) { b with fe := { b.fe with heldRecs := b.fe.heldRecs ++ [rid] } }
    else queueRecord rid (if q.kind = .normal then noteDelta b else b)
where
  /-- A request's wait set. -/
  instrWaitOn (rid : Nat) (w : Wait) (b : Block) : Block := updReq rid (fun q => { q with wait := w }) b

/-- A record held back goes on where its delta is acknowledged (R377). -/
def releaseRecord (b : Block) (rid : Nat) : Block :=
  match (req b rid).map (·.wait) with
  | some (Wait.tandem n) =>
    if deltaAcked b n then queueRecord rid { b with fe := { b.fe with heldRecs := b.fe.heldRecs.erase rid } } else b
  | _ => { b with fe := { b.fe with heldRecs := b.fe.heldRecs.erase rid } }

/-- Records held back for deltas that are now acknowledged go on, in the order their requests completed (R61, R377). -/
def releaseRecords (b : Block) : Block := b.fe.heldRecs.foldl releaseRecord b

/-- A request ends with a status set by one of its instructions (R57): the rest up to COMPLETE is skipped and the
completion is due at once. -/
def endRequest (rid status index : Nat) (b : Block) : Block :=
  match req b rid with
  | none => b
  | some q =>
    let e := (q.instrs[index]?).getD ⟨0, 0, 0⟩
    let (index, opcode, tag) := match q.endAs with
      | some x => if q.owed = some status then x else (index, e.opcode, e.tag)
      | none => (index, e.opcode, e.tag)
    postRecord rid (setReq rid { q with status := status, tag := tag, index := index, opcode := opcode, carry := none,
                                        shards := none, named := provName b q } b)

/-- A trailer instruction has failed (R58): one more record for the request, and the rest of the trailer is skipped. -/
def trailerFail (rid status index opcode tag : Nat) (b : Block) : Block :=
  match req b rid with
  | none => b
  | some q =>
    postRecord rid (setReq rid { q with status := status, index := index, opcode := opcode, tag := tag,
                                        isTrailerFail := true, noTrailer := true, result := [] } b)

/-- A request whose ring stopped fetching before its COMPLETE, and which has nothing left to run, ends with MALFORMED (R52,
R74; log entry 23). -/
def runOut (rid : Nat) (b : Block) : Block :=
  match req b rid with
  | none => b
  | some q =>
    if q.phase = .body ∧ q.closed = true ∧ q.completeAt = none ∧ q.instrs.length ≤ q.pc then
      endRequest rid St.malformed q.pc b
    else b

/-- The current instruction of a request ends with a status, and a result where it gives one (R55, R57, R58). -/
def instrEnds (rid status : Nat) (result : Option Bytes) (b : Block) : Block :=
  match req b rid with
  | none => b
  | some q =>
    let e := (q.instrs[q.pc]?).getD ⟨0, 0, 0⟩
    match q.phase with
    | .record => b
    | .trailer =>
      if St.good status then setReq rid { q with pc := q.pc + 1, wait := .none } b
      else trailerFail rid status q.pc e.opcode e.tag b
    | .body =>
      let q := { q with wait := .none,
                        result := match result with
                          | some x => if opGivesResult e.opcode then padTo 32 x else q.result
                          | none => q.result }
      match q.owed with
      | some st => endRequest rid st q.pc (setReq rid q b)
      | none =>
      if St.good status then
        let q := if status = St.ok then q
                 else { q with status := status, tag := e.tag, index := q.pc, opcode := e.opcode }
        runOut rid (setReq rid { q with pc := q.pc + 1 } b)
      else endRequest rid status q.pc (setReq rid q b)

/-- The current instruction of a request ends; a tandem copy is told (R376). -/
def instrDone (rid status : Nat) (result : Option Bytes) (b : Block) : Block := noteDelta (instrEnds rid status result b)

/-- The current instruction of a request waits. -/
def instrWait (rid : Nat) (w : Wait) (b : Block) : Block := updReq rid (fun q => { q with wait := w }) b

/-! ### The result of a STEP or PREFILL (R55) -/

/-- Every sequence, resident or waiting. -/
def allSeqs (b : Block) : List Seqn := b.ste.waiting ++ b.ste.pelotons.flatMap (·.2.seqs)

/-- Result of a STEP (Table 3.6, R184). -/
def stepResult (r : StepRun) : Bytes := leBytes 4 r.confirmed ++ leBytes 4 r.steps ++ leBytes 4 r.proposed ++ leBytes 4 r.kept

/-- Result that a STEP or PREFILL gives as it stands (Table 3.6, R163, R184). -/
def workResult (w : SeqWork) : Option Bytes :=
  match w with
  | .step r => some (stepResult r)
  | .prefill _ done => some (leBytes 4 done)
  | _ => none

/-- The result of a STEP or PREFILL noted for its request, which ends outside the instruction's own end (R55). -/
def noteResult (rid : Nat) (w : SeqWork) (b : Block) : Block :=
  match workResult w with
  | some x => updReq rid (fun q => { q with result := padTo 32 x }) b
  | none => b

/-- The same for the sequence that a request has with the step engine. -/
def noteOwnResult (rid : Nat) (b : Block) : Block :=
  match (allSeqs b).find? fun s => decide (s.rid = some rid) with
  | some s => noteResult rid s.work b
  | none => b

/-! ### Cancels and deadlines (R62, R63) -/

/-- A cancel, a teardown or a MALFORMED end takes effect at once: in a wait, and between two instructions (R63). A step
ends at its boundary, and a motion or a checkpoint runs on. -/
def waitEndsAtOnce : Wait → Bool
  | .step => false
  | .motion _ => false
  | .ckpt => false
  | _ => true

/-- A request is ended from outside with a status (R52, R63, R336): at once before its first instruction and in a wait;
in its wait for completion slots the status is replaced and the replay entry made final (R71); otherwise at its next
instruction boundary, or its step's boundary. -/
def cutRequest (rid status : Nat) (b : Block) : Block :=
  match req b rid with
  | none => b
  | some q =>
    if q.kind ≠ .normal ∨ q.isTrailerFail = true then b
    else match q.phase with
      | .trailer => b
      | .record =>
        if q.owed.isSome ∨ q.wait ≠ .none then b
        else
          let q := { q with status := status, owed := some status }
          finalEntry q (setReq rid q b)
      | .body =>
        if q.started = false ∨ waitEndsAtOnce q.wait = true then
          endRequest rid status (min q.pc (q.instrs.length - 1))
            (noteOwnResult rid (setReq rid { q with owed := some status } b))
        else if q.owed.isSome then b
        else setReq rid { q with owed := some status } b

/-- A request is cancelled (R63). -/
def cancelRequest (rid : Nat) (b : Block) : Block := cutRequest rid St.cancelled b

/-- Deadlines that a newly accepted host time has reached end, at once, an SWAIT, a wait for completion slots, a STEP
or PREFILL that waits to run, the waits that R280, R284, R325, R373 and R386 put under R62, and a wait on lower-tier
reads (R17, R62, R71, R93, R138). A deadline that had passed before a wait for completion slots began ends that wait in the
same sense (log entry 146). -/
def deadlineSweep (b : Block) : Block :=
  (b.fe.reqs.map (·.1)).foldl (fun b rid =>
    match req b rid with
    | none => b
    | some q =>
      if q.kind = .normal ∧ q.isTrailerFail = false ∧ b.passed q.deadline = true then
        match q.phase, q.wait with
        | .record, _ => cutRequest rid St.deadline b
        | .body, .sync _ _ _ _ => cutRequest rid St.deadline b
        | .body, .enrol => cutRequest rid St.deadline b
        | .body, .timed => cutRequest rid St.deadline b
        | .body, .merge _ _ => cutRequest rid St.deadline b
        | .body, .seed => cutRequest rid St.deadline b
        | .body, .shards => cutRequest rid St.deadline b
        | .body, .motion true => endRequest rid St.tierFault q.pc b
        | _, _ => b
      else b) b

/-! ### The runner -/

/-- What an instruction's body answers. -/
inductive Ans where
  | done (status : Nat) (result : Option Bytes) (b : Block)
  | wait (w : Wait) (b : Block)
  /-- The body has itself ended the instruction or the request. -/
  | handled (b : Block)

/-- What an instruction's body is given: its request, its entry, the tenant and ring, the value of operand B and the
address of its argument block. -/
structure Ctx where
  rid : Nat
  req : Req
  e : Entry
  tenant : Nat
  ring : Nat
  opB : Nat
  blk : Nat
  inTrailer : Bool
  deriving DecidableEq, Repr

/-- Earlier requests of the ring, in ring order (R59). -/
def earlier (b : Block) (rid : Nat) (q : Req) : List (Nat × Req) :=
  b.fe.reqs.filter fun e => decide (e.1 < rid) && decide (e.2.ring = q.ring)

/-- Every earlier request on the ring has completed: its record is written, but for the record of a failed trailer (R59,
R60). -/
def earlierDone (b : Block) (rid : Nat) (q : Req) : Bool :=
  (earlier b rid q).all fun e => decide (e.2.phase = .trailer) || e.2.isTrailerFail

/-- Every earlier request on the ring has started or ended (R59). -/
def earlierStarted (b : Block) (rid : Nat) (q : Req) : Bool :=
  (earlier b rid q).all fun e => e.2.started || decide (e.2.phase ≠ .body) || decide (e.2.kind ≠ .normal)

/-- What R325 finds of a request's epoch. -/
inductive EpochCheck where
  | run
  | wait
  | redirect
  deriving DecidableEq, Repr

/-- The range entry this module serves. -/
def servedEntry (b : Block) : Option RangeEntry :=
  b.cmp.range.bind fun base => (b.cmp.entries.find? fun e => e.2.kind = 1 ∧ e.2.base2m = base).map (·.2)

/-- The epoch check (R323, R325, R326). `before`: the work was accepted before the COMMIT that took the range away, and is
served in full. -/
def epochCheck (b : Block) (e : Nat) (before : Bool) : EpochCheck :=
  let c := b.getF F.CMP_EPOCH_epoch
  if e = 0 then .run
  else if b.isSet F.CMP_ID_isolated then .redirect
  else if c < e then .wait
  else if b.cmp.serving = false then (if b.cmp.awaiting then .wait else .redirect)
  else match servedEntry b with
    | none => .redirect
    | some x =>
      if before && decide (e < x.since) then .run
      else if x.owner ≠ b.getF F.CMP_ID_module_id ∨ e < x.since then .redirect else .run

/-- Result of a REDIRECT (R325). -/
def redirectResult (b : Block) : Bytes :=
  let owner := servedEntry b
  let known := owner.isSome && !b.isSet F.CMP_ID_isolated
  [BitVec.ofNat 8 ((owner.map (·.owner)).getD 0), if known then 1 else 0, 0, 0] ++ leBytes 4 (b.getF F.CMP_EPOCH_epoch)

/-- A request made ready to run its next instruction: its start in ring order with the epoch and `serial` conditions
(R59, R325), or nothing to do when it has started. The answer is true when it may run now. -/
def startRequest (rid : Nat) (q : Req) (b : Block) : Bool × Block :=
  if q.started then (true, b)
  else if earlierStarted b rid q = false then (false, b)
  else if 8 ≤ q.rflags ∨ (q.rflags / 4 % 2 = 1 ∧ ((ringOf b q.ring).map (·.isa)).getD 0x31 < 0x31) then
    -- reserved request flags (R51, Table 3.4; log entry 9)
    (false, endRequest rid St.malformed 0 b)
  else match epochCheck b q.epoch (decide (rid < b.cmp.commitOrder)) with
    | .wait => (false, if q.wait = .none then (instrWait rid .timed b).bump F.CMP_CNT_epoch_wait else b)
    | .redirect =>
      (false, (endRequest rid St.redirect 0 (setReq rid { q with noTrailer := true, result := padTo 32 (redirectResult b) }
        b)).bump F.CMP_CNT_redirect_count)
    | .run =>
      if q.rflags / 4 % 2 = 1 ∧ earlierDone b rid q = false then (false, instrWait rid .retry b)
      else (true, setReq rid { q with started := true, wait := .none } b)

/-- Operand A bits that every chunk of a TOKIN repeats: [23:0] and the mode bit [25] (R248, R250). -/
def chunkKey (a : Nat) : Nat := bitsOf a 0 24 + bitsOf a 25 1 * 2 ^ 25

/-- Where the next chunk of a TOKIN is owed, an instruction that is not a TOKIN on the same session with the same operands
and limit (R248). -/
def chunkBreaks (b : Block) (q : Req) (tenant : Nat) (e : Entry) : Bool :=
  match q.carry with
  | none => false
  | some y => decide (q.wait = .none) && (decide (e.opcode ≠ 0x10) || !e.ptr || !blockOk b tenant e
      || decide (y.opndA ≠ chunkKey e.a) || decide (y.handle ≠ entryB b e % 2 ^ 48) || decide (y.limit ≠ b.peekLe (e.hi + 44) 4))

/-- The encoding checks of R48, R51, R54 and R55 that every opcode shares; true: the instruction is MALFORMED. -/
def encodingBad (b : Block) (isa tenant : Nat) (e : Entry) : Bool :=
  (rowOf isa e).isNone || decide (e.reserved ≠ 0) || decide (e.a &&& opMaskA e.opcode ≠ e.a)
    || (opNeedsPtr e.opcode && !e.ptr) || !blockOk b tenant e
    || (!e.ptr && opHandleB e.opcode && decide (2 ^ 48 ≤ e.hi)) || (!e.ptr && opZeroB e.opcode && decide (e.hi ≠ 0))

/-- An opcode of the ring's version that the ring's rights do not allow (R56). -/
def rightsBad (b : Block) (isa ring op : Nat) : Bool :=
  (opVersion op).any (fun v => decide (v ≤ isa)) &&
  (([0x31, 0x38, 0x39].contains op && decide (b.getFi F.CFE_RING_CFG_mgmt ring = 0)) ||
   ([0x0C, 0x0D].contains op && decide (b.getFi F.CFE_RING_CFG_models ring = 0)))

/-- The answer of a body applied to its request. -/
def applyAns (rid : Nat) (a : Ans) : Block :=
  match a with
  | .done st res b => instrDone rid st res b
  | .wait w b => instrWait rid w b
  | .handled b => b

/-- The session of an instruction noted for the provenance record, with the log's length as the first instruction that names
it begins (R72). -/
def noteNamed (rid : Nat) (h : Nat) (b : Block) : Block :=
  updReq rid (fun q =>
    match namedBy b (reqTenant b q) h with
    | none => q
    | some x =>
      if q.named = some h then q
      else { q with named := some h, logCut := some x.log.length, logApp := none, logConf := none, provHeld := none }) b

/-- One instruction of a request run by its row's body (R57): the boundary before it (R62, R63), the shared checks
(R48, R51, R54 to R56), then the body. A command for another row than the instruction's, or for an instruction that is
not due, changes nothing; an instruction that spells no row ends its request under the row COMPLETE (log entry 10). A
request that a deadline ends at a boundary names the instruction after the boundary (log entry 147). -/
def runRow (row : CRow) (body : Ctx → Block → Ans) (rid : Nat) (b : Block) : Block :=
  match req b rid with
  | none => b
  | some q =>
    if q.kind ≠ .normal ∨ q.phase ≠ .body then b
    else match q.instrs[q.pc]? with
      | none => b
      | some e =>
        let isa := ((ringOf b q.ring).map (·.isa)).getD 0x31
        if rowOf isa e ≠ some row ∧ ¬(row = .complete ∧ rowOf isa e = none) then b
        else if q.wait ≠ .none ∧ q.wait ≠ .retry ∧ q.wait ≠ .timed ∧ q.wait ≠ .enrol then b
        else
          match startRequest rid q b with
          | (false, b) => b
          | (true, b) =>
            let q := (req b rid).getD q
            match q.owed with
            | some st => endRequest rid st q.pc b
            | none =>
              if q.wait = .none ∧ (0 < q.pc ∨ rowOf isa e = some .complete) ∧ b.passed q.deadline = true then
                endRequest rid St.deadline q.pc b
              else
                let t := reqTenant b q
                let drop := chunkBreaks b q t e
                let noRight := rightsBad b isa q.ring e.opcode
                if drop || noRight || encodingBad b isa t e then
                  let b := if drop then b.bump F.TXU_CNT_TEXT_carry_drop else b
                  instrDone rid St.malformed none (if noRight then violation 2 t q.ring e.opcode b else b)
                else
                  let h := entryHandle b t e
                  let b := match h with
                    | some h => noteNamed rid h b
                    | none => b
                  applyAns rid (body ⟨rid, (req b rid).getD q, e, t, q.ring, entryB b e, e.hi, false⟩ b)

/-- The `n` bytes of the argument block from byte `lo`, as a value (R54). -/
def Ctx.arg (c : Ctx) (b : Block) (lo n : Nat) : Nat := b.peekLe (c.blk + lo) n

/-- A companion range an instruction names is within the tenant's io windows (R54). -/
def Ctx.reach (c : Ctx) (b : Block) (addr len : Nat) : Bool := ioReach b (some c.tenant) addr len

/-- A companion range that an instruction reads is within the tenant's io windows and not poisoned (R54, R314). -/
def Ctx.reads (c : Ctx) (b : Block) (addr len : Nat) : Bool := ioRead b (some c.tenant) addr len

/-- An instruction ends MALFORMED. -/
def Ans.malformed (b : Block) : Ans := .done St.malformed none b

/-- COMPLETE (R62, Table 3.6): the deadline has been checked; the request's record is due. With a chunk owed it is
MALFORMED (R248, in the runner). -/
def complete (c : Ctx) (b : Block) : Ans :=
  let q := c.req
  .handled (postRecord c.rid (setReq c.rid
    (if q.status = St.ok then { q with tag := c.e.tag, index := q.pc, opcode := c.e.opcode, pc := q.pc + 1 }
     else { q with pc := q.pc + 1 }) b))

end Sys2Proof.Machine
end

