-- ==== Sys2Proof/Machine/Sessions.lean ====
section
/-! DEFINITION. Session slots (chapter 2): states, descriptors, release, quarantine and scrub. -/

namespace Sys2Proof.Machine

/-! ### States and slots -/

/-- Session state codes (Table 2.4). -/
def ssFree : Nat := 0
def ssHot : Nat := 1
def ssWarm : Nat := 2
def ssCold : Nat := 3
def ssMotion : Nat := 4
def ssQuarantine : Nat := 5
def ssScrubbing : Nat := 6

/-- Depth codes. -/
def dHot : Nat := 0
def dWarm : Nat := 1
def dCold : Nat := 2

/-- The state a depth stands for. -/
def stateOfDepth (d : Nat) : Nat := d + 1

/-- A session slot that is not FREE. -/
def session (b : Block) (sid : Nat) : Option Session := tget b.ses.slots sid

/-- A session changed. -/
def setSession (sid : Nat) (x : Session) (b : Block) : Block := { b with ses := { b.ses with slots := tset b.ses.slots sid x } }

/-- A session changed by a function. -/
def updSession (sid : Nat) (f : Session → Session) (b : Block) : Block :=
  { b with ses := { b.ses with slots := tupd b.ses.slots sid f } }

/-- Handle of a session in its slot. -/
def handleOf (sid : Nat) (x : Session) : Nat := mkHandle x.tenant sid x.gen

/-- A depth mark of the token log (R30). -/
def depthMark : BitVec 32 := 0xFFFFFF01

/-- Token IDs of a log: what R30 counts. -/
def logTokens (log : List (BitVec 32)) : Nat := (log.filter fun e => decide (e.toNat < 0xFFFF0000)).length

/-- Private positions of a session: its own token entries. -/
def privatePositions (x : Session) : Nat := logTokens x.log

/-- `tokens` of a session (Table 2.2): prefix included, marks excluded. -/
def tokensOf (x : Session) : Nat := x.prefixTokens + privatePositions x

/-- Private positions whose rows are still to be computed (R139). -/
def pendingPositions (x : Session) : Nat := privatePositions x - x.computed

/-- The prefix record a session is attached to. -/
def prefixOf (b : Block) (x : Session) : Option (Nat × Prefix) :=
  if x.prefixHandle = 0 then none
  else b.ses.prefixes.find? fun e => decide (e.2.tenant = x.tenant ∧ e.2.handle = x.prefixHandle)

/-- Single-home homing mode (R80). -/
def singleHome (b : Block) : Bool := b.isSet F.PNE_CFG_homing

/-- WARM extents of a session: its image. -/
def warmRuns (b : Block) (sid : Nat) : List Nat := extentsWith b fun e => decide (e.use = .warm sid)

/-- Bytes of private KV in the form held (Table 2.2, R40). -/
def kvBytes (b : Block) (x : Session) : Nat :=
  let g := geomOf b x
  if x.depth = dHot then x.computed * hotRowBytes g else if x.depth = dWarm then x.computed * warmRowBytes g else 0

/-! ### Descriptor words (Tables 2.2 and 2.3) -/

/-- A tier pointer word (R28). -/
def tierPtr (tier module addr : Nat) : Nat := tier + module * 4 + addr / 64 % 2 ^ 48 * 2 ^ 16

/-- The pointer "none". -/
def ptrNone : Nat := 3

/-- Address, tier and lending module of a run of extents. -/
def runPtr (b : Block) (key offset : Nat) : Nat :=
  match tget b.ses.extents key with
  | none => ptrNone
  | some e =>
    let u := e.units.headD 0
    if e.tier = 0 then tierPtr 0 0 (Config.hbmAddr key + offset)
    else if e.tier = 1 then
      tierPtr 1 0 (b.getFi F.MEM_HWIN_ADDR_base (u / 2 ^ 21) * 2 ^ 21 + u % 2 ^ 21 * extentBytes + offset)
    else tierPtr 2 (((tget b.mem.borrowed (u / 2 ^ 21)).map (·.module)).getD 0) (u % 2 ^ 21 * extentBytes + offset)

/-- Pointer to a unit; a unit of no bytes points to HBM (Table 2.2, log entry 11). -/
def placePtr (b : Block) (p : Option Place) : Nat :=
  match p with
  | none => tierPtr 0 0 0
  | some p => runPtr b p.extent (512 * p.piece)

/-- The complement of a 64-bit word. -/
def compl64 (v : Nat) : Nat := 2 ^ 64 - 1 - v % 2 ^ 64

/-- The even words 0 to 14 of the protected pairs of a descriptor. -/
def protectedWords (b : Block) (sid : Nat) (x : Session) : List Nat :=
  let inMotion := decide (x.state = ssMotion)
  let tDepth := match x.motion with
    | some m => if inMotion then m.toDepth else 3
    | none => 3
  let tTier := match x.motion with
    | some m => if inMotion then m.toTier % 4 else 0
    | none => 0
  [ handleOf sid x + x.modelSlot * 2 ^ 48 + x.cls * 2 ^ 56,
    x.state + x.depth * 2 ^ 4 + tDepth * 2 ^ 6 + x.warmTier * 2 ^ 8 + tTier * 2 ^ 10
      + (if x.shadow.isSome then 2 ^ 12 else 0) + (if x.enrolled then 2 ^ 13 else 0) + (if x.closing then 2 ^ 14 else 0),
    placePtr b x.logPlace,
    (if x.depth = dHot then tierPtr 0 0 (Config.rootAddr sid ((x.table.map (·.version)).getD 0)) else ptrNone),
    (match warmRuns b sid with
      | k :: _ => if x.depth = dWarm then runPtr b k 0 else ptrNone
      | [] => ptrNone),
    placePtr b x.scratchPlace,
    min (reqRefs b (handleOf sid x)) 0xFFFF + x.vecItems % 2 ^ 48 * 2 ^ 16,
    x.prefixHandle ]

/-- The sixteen protected words as stored: each pair in order, its complement wrong where `badPairs` says so (R29). -/
def pairWords (bad : List Nat) : (i : Nat) → List Nat → List Nat
  | _, [] => []
  | i, w :: ws => w :: (if bad.contains i then w else compl64 w) :: pairWords bad (i + 1) ws

/-- The 32 words of a descriptor (Table 2.2). The counts of words 20 and 21 wrap at 2^32 (log entry 144). -/
def descriptorWords (b : Block) (sid : Nat) (x : Session) : List (BitVec 64) :=
  (pairWords x.badPairs 0 (protectedWords b sid x) ++
   [ tokensOf x + x.prefixTokens * 2 ^ 32,
     x.lastActiveNs,
     x.resumeHintNs,
     x.hintDepth + x.hintTier * 4 + x.cog * 16 + x.clist * 256 + x.draftSlot * 2 ^ 24 + x.maxContext * 2 ^ 32,
     x.scratch.length + x.parkCount % 2 ^ 32 * 2 ^ 32,
     x.reviveCount % 2 ^ 32 + x.moveCount % 2 ^ 32 * 2 ^ 32,
     x.qStatus + x.qSite * 2 ^ 8,
     kvBytes b x % 2 ^ 48,
     x.openNs, bytesAt x.userTag 0 8, bytesAt x.userTag 8 8, 0, 0, 0, 0, 0 ]).map (BitVec.ofNat 64)

/-! ### Release, quarantine and scrub -/

/-- A prefix record released (R130): the references of its frames, its log copy and its name. -/
def releasePrefix (key : Nat) (b : Block) : Block :=
  match tget b.ses.prefixes key with
  | none => b
  | some p =>
    let b := freeUnit p.logPlace (dropTable p.table b)
    { b with ses := { b.ses with prefixes := tdel b.ses.prefixes key } }

/-- A session gives up its attachment (R130); a DROPPED record with none left is released. -/
def detachPrefix (sid : Nat) (b : Block) : Block :=
  match session b sid with
  | none => b
  | some x =>
    match prefixOf b x with
    | none => b
    | some (key, p) =>
      let b := { b with ses := { b.ses with prefixes := tset b.ses.prefixes key { p with attach := p.attach - 1 } } }
      if p.attach ≤ 1 ∧ p.pstate = 2 then releasePrefix key b else b

/-- Blocks still asked of donors for a session belong to no motion any more; what comes back for them is dropped (R302). -/
def dropFetches (sid : Nat) (b : Block) : Block :=
  if b.mem.fetches.any fun f => decide (f.sid = sid) then
    { b with mem := { b.mem with fetches := b.mem.fetches.map fun f => if f.sid = sid then { f with sid := numSlots } else f } }
  else b

/-- The shadow slot of a speculative revival dropped (R96); one that waits for a place of the engine waits no more. -/
def dropShadow (sid : Nat) (b : Block) : Block :=
  let b := updSession sid (fun x => { x with liftWait := none }) (dropFetches sid b)
  match (session b sid).bind (·.shadow) with
  | none => b
  | some sh =>
    let b := sh.frames.foldl (fun b k => returnFrame k b) b
    (updSession sid (fun x => { x with shadow := none }) b).bump F.PNE_CNT_SPEC_spec_drop

/-- A session's HOT frames and staging released (R103, R124). -/
def releaseHot (sid : Nat) (b : Block) : Block :=
  match session b sid with
  | none => b
  | some x =>
    let b := match x.table with
      | some t => dropTable t b
      | none => b
    updSession sid (fun x => { x with table := none, staging := ⟨0, 0⟩, quanta := [], stageRows := [], badTable := false }) b

/-- A session's WARM image released. -/
def releaseWarm (sid : Nat) (b : Block) : Block := dropExtentsWith (fun e => decide (e.use = .warm sid)) b

/-- The instruction that ordered a motion ends with the motion (R57), when it still waits for it: a deadline may have
ended it before (R93). -/
def motionEnds (sid : Nat) (x : Session) (rid : Option Nat) (status : Nat) (result : Option Bytes) (b : Block) : Block :=
  match rid with
  | none => b
  | some rid =>
    match req b rid with
    | none => b
    | some q =>
      match q.wait, q.instrs[q.pc]? with
      | .motion _, some e =>
        if entryHandle b (reqTenant b q) e = some (handleOf sid x) then instrDone rid status result b else b
      | _, _ => b

/-- What a motion's end leaves of an outbound MOVE: in mirror mode a MOVE outlives its motion until DONE (Table 4.3). -/
def moveAfter (m : Motion) (x : Session) : Option MoveOut := if m.kind = .moveOut then none else x.moveOut

/-- A motion builds a session's rows anew: a revival from COLD, or a pannier without KV bound for HOT (R84, R86). -/
def rebuilds (m : Motion) (x : Session) : Bool := decide (x.depth = dCold) && decide (m.kind = .revive ∨ m.kind = .moveIn)

/-! ### Snapshots and leases (R113, R123) -/

/-- Frames reachable from a session's tables. -/
def reachableFrames (b : Block) (x : Session) : List Nat :=
  (((x.table.map (·.entries)).getD []).map (·.frame)) ++ (((prefixOf b x).map (·.2.table.entries)).getD []).map (·.frame)

/-- A session's table snapshotted for a walker. -/
def takeSnap (sid : Nat) (b : Block) : Block :=
  updSession sid (fun x => { x with table := x.table.map fun t => { t with snapshots := t.snapshots + 1 } }) b

/-- A snapshot given up; superseded versions that nothing holds are freed, oldest first (R113). -/
def dropSnap (snap : Nat × Nat) (b : Block) : Block :=
  let less := fun (t : PageTable) => if t.version = snap.2 then { t with snapshots := t.snapshots - 1 } else t
  updSession snap.1 (fun x => { x with
    table := x.table.map less
    oldTables := (x.oldTables.map less).dropWhile fun t => decide (t.snapshots = 0) }) b

/-- The versions a session still holds after one is superseded: it is freed at once only where no older one is held and no
snapshot holds it (R113). -/
def supersedeTable (old : Option PageTable) (olds : List PageTable) : List PageTable :=
  ((olds ++ old.toList).dropWhile fun t => decide (t.snapshots = 0))

/-- What the pannier engine holds of a session's pages while it sends them given up (R113, R123). -/
def endWalk (sid : Nat) (b : Block) : Block :=
  let b := dropFetches sid b
  match (session b sid).bind (·.moveOut) with
  | none => b
  | some mo =>
    let b := mo.leased.foldl (fun b k => dropLease k b) b
    let b := match mo.snap with
      | some v => dropSnap (sid, v) b
      | none => b
    updSession sid (fun x => { x with moveOut := some { mo with snap := none, leased := [] } }) b

/-- A motion is abandoned (R32): it stops, what it has built is released, and its instruction ends with a status. -/
def abandonMotion (sid status : Nat) (b : Block) : Block :=
  let b := endWalk sid b
  match session b sid with
  | none => b
  | some x =>
    match x.motion with
    | none => b
    | some m =>
      let b := if rebuilds m x then releaseHot sid b else b
      let b := updSession sid (fun x => { x with
        motion := none, moveOut := moveAfter m x, computed := if rebuilds m x then 0 else x.computed }) b
      motionEnds sid x m.rid status none b

/-- Row 20 (R29, R126, R307): the session goes to QUARANTINE with a status and a site; its motion is abandoned and its
shadow slot dropped. The write of `state` makes its own pair, words 2 and 3, agree again. -/
def quarantine (sid status site : Nat) (b : Block) : Block :=
  match session b sid with
  | none => b
  | some x =>
    if x.state = ssQuarantine ∨ x.state = ssScrubbing then b
    else
      let b := dropShadow sid (abandonMotion sid status b)
      updSession sid (fun x => { x with
        state := ssQuarantine, enrolled := false, qStatus := status, qSite := site, badPairs := x.badPairs.filter (· ≠ 1) }) b

/-- A protected pair of a descriptor does not match, and the session manager still compares it (R29). -/
def pairsFail (x : Session) : Bool :=
  decide (x.badPairs ≠ []) && decide (x.state ≠ ssQuarantine) && decide (x.state ≠ ssScrubbing)

/-- A descriptor read: its pairs are compared (R29). -/
def readPairs (sid : Nat) (b : Block) : Block :=
  match session b sid with
  | none => b
  | some x => if pairsFail x then (quarantine sid St.integrity 1 b).bump F.SES_STAT_integ_count else b

/-- Every descriptor read (R29). -/
def readAllPairs (b : Block) : Block := b.ses.slots.foldl (fun b e => readPairs e.1 b) b

/-- A session enters SCRUBBING (rows 15, 17, 18, 21): its motion is abandoned, its frames, images, log, scratch and
attachment are given up. -/
def enterScrubbing (sid : Nat) (b : Block) : Block :=
  let b := dropShadow sid (abandonMotion sid St.staleHandle b)
  let b := match session b sid with
    | some x => holdDigests (handleOf sid x) b
    | none => b
  let b := releaseWarm sid (releaseHot sid (detachPrefix sid b))
  match session b sid with
  | none => b
  | some x =>
    let b := freeUnit x.scratchPlace (freeUnit x.logPlace b)
    updSession sid (fun x => { x with
      state := ssScrubbing, depth := 3, closing := false, moveOut := none, enrolled := false, log := [], scratch := [],
       computed := 0, prefixHandle := 0, prefixTokens := 0, logPlace := none, scratchPlace := none,
      badUnits := [], badPairs := [], badTable := false }) b

/-- Row 17: a closing session that no accepted, uncompleted request names enters SCRUBBING. -/
def reapClosing (b : Block) : Block :=
  b.ses.slots.foldl (fun b e =>
    if e.2.closing ∧ 1 ≤ e.2.state ∧ e.2.state ≤ 3 ∧ e.2.motion = none ∧ reqRefs b (handleOf e.1 e.2) = 0 then
      enterScrubbing e.1 b
    else b) b

end Sys2Proof.Machine
end

