-- ==== Sys2Proof/Machine/KvState.lean ====
section
/-! DEFINITION. The KV of a session as its computation reads it (R116, R120, R143, R152): the rows that stand in frames and
staging, the groups, the rows built anew from the log (R37, R84), the pass through the WARM form at a depth mark (R141), and
the draft model's view (R172). -/

namespace Sys2Proof.Machine

/-! ### Logs, groups and nets -/

/-- Token entries of a log, marks skipped (R30). -/
def tokenEntries (log : List (BitVec 32)) : List (BitVec 32) := log.filter fun e => decide (e.toNat < 0xFFFF0000)

/-- Token IDs by position: the prefix's, then the session's own. -/
def logTokenIds (b : Block) (x : Session) : List Nat :=
  (tokenEntries (((prefixOf b x).map (·.2.log)).getD []) ++ tokenEntries x.log).map (·.toNat)

/-- The log of a session with its prefix's before it. -/
def fullLog (b : Block) (x : Session) : List (BitVec 32) := ((prefixOf b x).map (·.2.log)).getD [] ++ x.log

/-- Positions of a log since its last mark, among its first `n` tokens. -/
def sinceMark : (n k : Nat) → List (BitVec 32) → Nat
  | 0, k, _ => k
  | _, k, [] => k
  | n + 1, k, e :: es => if e.toNat < 0xFFFF0000 then sinceMark n (k + 1) es else sinceMark (n + 1) 0 es

/-- First position of the group of position `p` of a log whose first token stands at position `base` (R116). -/
def groupStart (log : List (BitVec 32)) (base p : Nat) : Nat := p - (sinceMark (p + 1 - base) 0 log - 1) % 16

/-- First position of the group of position `p` of a session: its own groups start at its first private position, those of
the prefix stand as in the prefix's log (R116, R120). -/
def startOf (b : Block) (x : Session) (p : Nat) : Nat :=
  if x.prefixTokens ≤ p then groupStart x.log x.prefixTokens p
  else groupStart (((prefixOf b x).map (·.2.log)).getD []) 0 p

/-- The net of a model slot, under weights of some digest. -/
def netOf (m : ModelSlot) (weights : Bytes) : Net := ⟨weights, m.programDg, m.kvFormat, m.layers, m.elems⟩

/-- Weights in force of a slot: its newest adapter version, or its weights (R169). -/
def weightsInForce (b : Block) (slot : Nat) : Bytes :=
  match modelSlot b slot with
  | none => []
  | some m => (m.adapters.head?.map (·.1)).getD m.weightsDg

/-- Weights of a request's steps on a slot: the version of its first step there, else what is in force (R169). -/
def weightsFor (b : Block) (rid : Option Nat) (slot : Nat) : Bytes :=
  ((rid.bind (req b)).bind fun q => (q.versions.find? fun v => decide (v.1 = slot)).map (·.2)).getD (weightsInForce b slot)

/-- The net that computes a session's positions for a request. -/
def sessionNet (b : Block) (rid : Option Nat) (x : Session) : Net :=
  match modelSlot b x.modelSlot with
  | none => ⟨[], [], 0, 0, 0⟩
  | some m => netOf m (weightsFor b rid x.modelSlot)

/-! ### The rows a session holds -/

/-- Private rows of a session that stand in frames. -/
def landedRows (x : Session) : Nat := ((x.table.map (·.rows)).getD 0)

/-- The row in a frame at a position, in the attached prefix or in the session's own table. -/
def storedRow (b : Block) (x : Session) (p : Nat) : KvRow :=
  if p < x.prefixTokens then ((prefixOf b x).map fun e => tableRow b e.2.table p).getD []
  else (x.table.map fun t => tableRow b t p).getD []

/-- The rows of a session as its positions read them (R120, R143), under a mask. -/
def kvView (b : Block) (x : Session) (hides : Nat → Bool) : KvView :=
  ⟨x.prefixTokens + landedRows x, storedRow b x, x.stageRows, startOf b x, hides⟩

/-- What a step computes for a session: `plan` pending positions, then drafts after them (R139, R177). -/
def computeRows (b : Block) (rid : Option Nat) (x : Session) (plan : Nat) (drafts : List Nat) : List PosOut :=
  let p := x.prefixTokens + x.computed
  (kvView b x fun _ => false).computeFrom (sessionNet b rid x) p (((logTokenIds b x).drop p).take plan ++ drafts)

/-- Private rows that stand in frames, in order. -/
def landedList (b : Block) (x : Session) : List KvRow :=
  (List.range (landedRows x)).map fun i => storedRow b x (x.prefixTokens + i)

/-- Private rows of a HOT session in the storage form: those in frames, and the confirmed rows of staging converted (R117,
R143). -/
def storedList (b : Block) (x : Session) : List KvRow :=
  landedList b x ++ (x.stageRows.take x.staging.confirmed).map (storeRow (sessionNet b none x).kvFormat)

/-! ### Rows built from the log (R37, R38, R84, R380) -/

/-- A log cut at its marks: the token IDs of each segment. -/
def segments : List (BitVec 32) → List (List Nat)
  | [] => [[]]
  | e :: es =>
    if e = depthMark then [] :: segments es
    else if e.toNat < 0xFFFF0000 then
      match segments es with
      | s :: ss => (e.toNat :: s) :: ss
      | [] => [[e.toNat]]
    else segments es

/-- A row passed through the WARM form and back (R78, R79). -/
def passRow (kvFormat : Nat) (r : KvRow) : KvRow := expandRow kvFormat (warmRow kvFormat r)

/-- The rows of a log's segments computed in order after those before them, every row before a mark passed through the WARM
form there (R84, R141). -/
def segmentRows (m : Net) (base : Nat) (prior : Nat → KvRow) (start : Nat → Nat) : List (List Nat) → List KvRow → List KvRow
  | [], rows => rows
  | s :: ss, rows =>
    let p := base + rows.length
    let v : KvView := ⟨p, fun q => if q < base then prior q else rows.getD (q - base) [], [], start, fun _ => false⟩
    let rows := rows ++ (v.computeFrom m p s).map fun o => storeRow m.kvFormat o.row
    segmentRows m base prior start ss (if ss = [] then rows else rows.map (passRow m.kvFormat))

/-- The first `n` tokens of a log, with the marks that stand before or directly after them. -/
def firstTokens : (n : Nat) → List (BitVec 32) → List (BitVec 32)
  | _, [] => []
  | 0, e :: es => if e = depthMark then e :: firstTokens 0 es else []
  | n + 1, e :: es => if e.toNat < 0xFFFF0000 then e :: firstTokens n es else e :: firstTokens (n + 1) es

/-- The rows of the first `n` private positions of a session as a function of its log, in the storage form (R38). -/
def rebuiltRows (b : Block) (x : Session) (n : Nat) : List KvRow :=
  segmentRows (sessionNet b none x) x.prefixTokens (storedRow b x) (startOf b x) (segments (firstTokens n x.log)) []

/-- The rows of a log of its own, of a net's positions from 0 (a prefix's, R128). -/
def rebuiltPrefix (m : Net) (log : List (BitVec 32)) : List KvRow :=
  segmentRows m 0 (fun _ => []) (groupStart log 0) (segments log) []

/-! ### The pass at a depth mark (R141) -/

/-- The pages of a table from entry `j` on, written with the rows that a function gives by position: a page that another table
lists is copied first (R125). The first argument counts the entries. -/
def rewritePages (seed tenant first : Nat) (rowAt : Nat → KvRow) : (n j : Nat) → PageTable → Block → Landed
  | 0, _, t, b => .ok t b
  | n + 1, j, t, b =>
    let g := t.basePage + j
    let from_ := max first (pageStart g t.cap)
    let to_ := min (first + t.rows) (pageStart g t.cap + pageSize g t.cap)
    let slot := from_ - pageStart g t.cap
    match readyPage seed tenant g slot t b with
    | .ok t' b =>
      let rows := (List.range (to_ - from_)).map fun i => rowAt (from_ + i)
      let b := match t'.entries[j]? with
        | some e => putRows e.frame slot rows b
        | none => b
      let full := ((t.entries[j]?).map (·.full)).getD false
      rewritePages seed tenant first rowAt n (j + 1) { t' with entries := t'.entries.modify j fun e => { e with full := full } } b
    | r => r

/-- Every private row in frames passed through the WARM form in place (R141): the table, where a page had to be copied with a
new version, and the blocks that held no number (R78). -/
def passTable (b : Block) (sid : Nat) (x : Session) (t : PageTable) : Landed × Nat :=
  let fmt := (sessionNet b none x).kvFormat
  let rows := (List.range t.rows).map fun i => tableRow b t (x.prefixTokens + i)
  let warm := rows.map (warmRow fmt)
  let done := rewritePages sid x.tenant x.prefixTokens (fun p => passRow fmt (rows.getD (p - x.prefixTokens) []))
    t.entries.length 0 t b
  (match done with
    | .ok t' b =>
      if t'.entries = t.entries then .ok t b
      else
        let (t', b) := publish t t' b
        .ok t' b
    | r => r, (warm.map nanBlocksOf).sum)

/-! ### Drafts (R172) -/

/-- The feature row of the pending position p: the last layer of the row before it, in the form that p reads (R120, R172). -/
def featureRow (m : Net) (v : KvView) (p : Nat) : List (BitVec 32) := (v.keys m p (p - 1) (m.layers - 1)).map bits32

/-- The draft model at a position, after `p` and the rows of the positions since: it reads what this step's own positions
have given, and the input (R172). -/
def draftPos (d : Net) (p q : Nat) (work : List KvRow) (input : List (BitVec 32)) : PosOut :=
  layersFrom d q (fun r => decide (r < p)) (fun r l => workingNums (layerOf (work.getD (r - p) []) l)) d.layers 0 input

/-- What enters the draft model at a position: the feature row or what the draft before it gave, and a token. -/
def draftInput (d : Net) (before : List (BitVec 32)) (token q : Nat) : List (BitVec 32) :=
  Config.kernel d.weights d.program d.layers 1 q (before ++ Config.embed d.weights d.program token q)

end Sys2Proof.Machine
end

