-- ==== Sys2Proof/Machine/Cassette.lean ====
section
/-! DEFINITION. Slots that hold images (R242 to R244, R342 to R344): cogs, constraint lists and model slots, who uses
them, and how a draining slot becomes empty. -/

namespace Sys2Proof.Machine

/-- The list number of the empty list (R256). -/
def emptyList : Nat := 0xFFF

/-- States of a cog, list or model slot (Tables 10.16, 10.19, 14.14). -/
def slEmpty : Nat := 0
def slReady : Nat := 1
def slDraining : Nat := 2

/-- A cog slot that is not empty. -/
def cogOf (b : Block) (n : Nat) : Option Cog := tget b.txu.cogs n

/-- A constraint list that is not empty. -/
def listOf (b : Block) (n : Nat) : Option CList := tget b.txu.lists n

/-- A cog changed or, with none, gone. -/
def setCog (n : Nat) (x : Option Cog) (b : Block) : Block :=
  { b with txu := { b.txu with cogs := match x with
    | some c => tset b.txu.cogs n c
    | none => tdel b.txu.cogs n } }

/-- A list changed or, with none, gone. -/
def setList (n : Nat) (x : Option CList) (b : Block) : Block :=
  { b with txu := { b.txu with lists := match x with
    | some c => tset b.txu.lists n c
    | none => tdel b.txu.lists n } }

/-- The STEPs in progress: those of sequences, and those that a PREFILL's last step starts. -/
def runsOf (s : Seqn) : List StepRun :=
  (match s.work with
    | .step r => [r]
    | _ => []) ++ s.fused.toList.map (·.1)

/-- Sessions and requests that hold a cog (R243, Table 10.16). -/
def cogUsers (b : Block) (n : Nat) : Nat :=
  (b.ses.slots.filter fun e => decide (e.2.cog = n ∧ e.2.state ≠ ssScrubbing)).length +
  (b.fe.reqs.filter fun e => inflight e.2 && decide (e.2.cog = some n)).length

/-- Sessions whose `clist` names a list, plus STEPs that use it (R243, Table 10.19). -/
def listUsers (b : Block) (n : Nat) : Nat :=
  (b.ses.slots.filter fun e => decide (e.2.clist = n ∧ e.2.state ≠ ssScrubbing)).length +
  ((allSeqs b).flatMap fun s => (runsOf s).filter fun r => decide (r.clist = n)).length

/-- A cog that a tenant may newly take up (R242, R243). -/
def cogUsable (b : Block) (tenant n : Nat) : Bool :=
  match cogOf b n with
  | none => false
  | some c => decide (c.state = slReady) && (c.shared || decide (c.owner = tenant))

/-- A slot that another tenant's image fills is named (R242): the attempt is logged as kind 5. -/
def foreignCog (b : Block) (tenant n : Nat) : Bool :=
  match cogOf b n with
  | none => false
  | some c => !c.shared && decide (c.owner ≠ tenant)

/-- The same for a list. -/
def foreignList (b : Block) (tenant n : Nat) : Bool :=
  match listOf b n with
  | none => false
  | some c => !c.shared && decide (c.owner ≠ tenant)

/-- Draining cogs and lists without a user become empty and their images are released (R243). -/
def txuTidy (b : Block) : Block :=
  let b := b.txu.cogs.foldl (fun b e =>
    if e.2.state = slDraining ∧ cogUsers b e.1 = 0 then
      dropExtentsWith (fun r => decide (r.use = .cog e.1)) (setCog e.1 none b)
    else b) b
  b.txu.lists.foldl (fun b e =>
    if e.2.state = slDraining ∧ listUsers b e.1 = 0 then
      dropExtentsWith (fun r => decide (r.use = .clist e.1)) (setList e.1 none b)
    else b) b

/-- A model slot changed or, with none, gone. -/
def setModel (n : Nat) (x : Option ModelSlot) (b : Block) : Block :=
  { b with ten := { b.ten with models := match x with
    | some m => tset b.ten.models n m
    | none => tdel b.ten.models n } }

/-- Sessions whose `model_slot` names a slot (Table 14.14). -/
def slotSessions (b : Block) (n : Nat) : Nat :=
  (b.ses.slots.filter fun e => decide (e.2.modelSlot = n ∧ e.2.state ≠ ssScrubbing)).length

/-- A model slot is still in use while it drains (R342, R343): a peloton of it is resident, a request that started a STEP
or PREFILL on it is in progress, or a STEP keeps it as its draft model. -/
def modelBusy (b : Block) (n : Nat) : Bool :=
  (b.ste.pelotons.any fun e => decide (e.2.slot = n)) ||
  (b.fe.reqs.any fun e => inflight e.2 && e.2.ranOn.contains n) ||
  ((allSeqs b).any fun s => (runsOf s).any fun r => decide (r.draft = some n))

/-- Adapter versions no longer used freed: all but the newest that no request in progress uses (R344). -/
def dropAdapters (m : ModelSlot) (n : Nat) (b : Block) : Block :=
  let used := fun (v : Bytes × Nat) => b.fe.reqs.any fun e => inflight e.2 && decide (e.2.modelDg = some v.1)
  match m.adapters with
  | [] => b
  | v :: old =>
    if old.all used then b
    else
      let b := (old.filter fun v => !used v).foldl (fun b v => dropExtents v.2 b) b
      setModel n (some { m with adapters := v :: old.filter used }) b

/-- Geometry classes that nothing uses freed (R105): no loaded model has the class, and its superblocks and stripes have
returned. -/
def classTidy (b : Block) : Block :=
  let used := fun (c : Nat) => (b.ten.models.any fun e => !e.2.draft && decide (e.2.state ≠ slEmpty) && decide (e.2.cls = c)) ||
    (b.ses.supers.any fun e => decide (e.2.cls = c)) || decide (classQuanta b c ≠ 0)
  if b.ses.classes.all fun e => used e.1 then b
  else { b with ses := { b.ses with classes := b.ses.classes.filter fun e => used e.1 } }

/-- Draining model slots that nothing uses become empty (R342, R343); an empty slot keeps its digest and class while
sessions name it. -/
def modelTidy (b : Block) : Block :=
  classTidy <| b.ten.models.foldl (fun b e =>
    let n := e.1
    let empty := fun (b : Block) =>
      dropExtentsWith (fun r => decide (r.use = .model n ∨ r.use = .adapter n))
        (setModel n (if slotSessions b n = 0 then none else some { e.2 with state := slEmpty, adapters := [], bytes := 0 }) b)
    if e.2.state = slDraining ∧ modelBusy b n = false then empty b
    else if e.2.state = slEmpty ∧ slotSessions b n = 0 then setModel n none b
    else dropAdapters e.2 n b) b

end Sys2Proof.Machine
end

