-- ==== Sys2Proof/Machine/Seqs.lean ====
section
/-! DEFINITION. Sequences and resident pelotons (R136 to R138, R147, R164, R345): who may join, who leaves, and how a
peloton is formed. -/

namespace Sys2Proof.Machine

/-! ### Roles (R147) -/

/-- Role codes (Table 6.9). -/
def rolePrefill : Nat := 0
def roleDecode : Nat := 1
def roleMixed : Nat := 2

/-- The role in force. -/
def role (b : Block) : Nat := b.getF F.STE_STAT_role

/-- The role runs the work of a column of Table 6.2: prefill work (`light` as R147 judges it), decode work, revival
prefill. -/
def runsPrefill (r : Nat) (light : Bool) : Bool :=
  decide (r = rolePrefill) || decide (r = roleMixed) || (decide (r = roleDecode) && light)
def runsDecode (r : Nat) : Bool := decide (r = roleDecode) || decide (r = roleMixed)
def runsRevival (r : Nat) : Bool := decide (r = rolePrefill) || decide (r = roleMixed)

/-- Positions whose rows a restored copy lacks, before the step of a STEP that is to be redone (R381). -/
def redoRows (r : StepRun) (x : Session) : Nat := (r.start.map fun p => p - (x.prefixTokens + x.computed)).getD 0

/-- Pending positions of a STEP's own step: those that a redone step computes again are not among them. -/
def stepPending (r : StepRun) (x : Session) : Nat := pendingPositions x - redoRows r x

/-- A STEP still has the pending positions it started with. -/
def runCatchesUp (r : StepRun) (x : Session) : Bool := decide (r.confirmed = 0) && decide (0 < stepPending r x)

/-- Positions a catch-up step may compute: `chunk` of its own, and those that it redoes. -/
def catchUp (r : StepRun) (x : Session) (chunk : Nat) : Nat := redoRows r x + chunk

/-- The role runs the work of a sequence (Table 6.2). A lead-in step is decode work (log entry 152). -/
def runsWork (b : Block) (s : Seqn) (x : Session) : Bool :=
  match s.work with
  | .step r => if runCatchesUp r x then runsPrefill (role b) s.light else runsDecode (role b)
  | .prefill _ _ => runsPrefill (role b) s.light
  | .closing => runsDecode (role b)
  | .revival => runsRevival (role b)
  | .finished => false

/-! ### Waiting sequences -/

/-- The waiting sequences changed. -/
def setWaiting (ws : List Seqn) (b : Block) : Block := { b with ste := { b.ste with waiting := ws } }

/-- What a Spoke that runs nothing still holds of the peloton at a place, which is no longer resident, is clear: the next
peloton of that place is another context (R227, R228). -/
def clearPlace (place : Nat) (ks : Tab Spoke) : Tab Spoke :=
  ks.filter fun e => e.2.running || e.2.halted || e.2.swapping || (e.2.ctx.map (·.2.2)) != some place

/-- A resident peloton changed or, with none, gone. -/
def setPel (place : Nat) (p : Option Peloton) (b : Block) : Block :=
  match p with
  | some x => { b with ste := { b.ste with pelotons := tset b.ste.pelotons place x } }
  | none =>
    { b with
      ste := { b.ste with pelotons := tdel b.ste.pelotons place }
      spk := { b.spk with spokes := clearPlace place b.spk.spokes } }

/-! ### Chains that leave their Spokes (R227, R229) -/

/-- A Spoke beyond its registers. -/
def spoke (b : Block) (i : Nat) : Spoke := tgetD b.spk.spokes i Spoke.reset

/-- A Spoke changed. -/
def setSpoke (i : Nat) (k : Spoke) (b : Block) : Block :=
  { b with spk := { b.spk with spokes := if k = Spoke.reset then tdel b.spk.spokes i else tset b.spk.spokes i k } }

/-- Chains of a stripe of the save area (R229). -/
def savesPerStripe : Nat := 192

/-- A save slot can be had for one more chain (R229): at most 2,048 chains, in at most 11 stripes of the staging pool. -/
def saveSlotFree (b : Block) : Bool :=
  let n := b.spk.saved.length + (b.spk.spokes.filter fun e => e.2.swapping).length
  decide (n < 2048) && (decide (n < savesPerStripe * b.ses.saveStripes) || (decide (b.ses.saveStripes < 11) && decide (0 < stripesFree b)))

/-- A chain that stands between two tiles is to leave its Spoke: it goes to a save slot or, when none can be had, stays until a
TEND with `last` set, which is counted once (R229). -/
def chainLeaves (i : Nat) (b : Block) : Block :=
  let k := spoke b i
  if k.chain.isSome = false ∨ k.running = true ∨ k.halted = true ∨ k.swapping = true ∨ k.deferred = true then b
  else if saveSlotFree b then setSpoke i { k with swapping := true } b
  else (setSpoke i { k with deferred := true } b).bump F.SPK_CNT_save_wait

/-- Every chain of a peloton that stands between two tiles is to leave. -/
def chainsLeave (place : Nat) (p : Peloton) (b : Block) : Block :=
  b.spk.spokes.foldl (fun b e => if e.2.ctx = some (p.tenant, p.slot, place) then chainLeaves e.1 b else b) b

/-- The next running number of waiting and dispatch. -/
def nextTick (b : Block) : Nat × Block := (b.ste.tick, { b with ste := { b.ste with tick := b.ste.tick + 1 } })

/-- The next place in the order of admission (R75, R137). -/
def nextAdmission (b : Block) : Nat × Block :=
  (b.ses.motionSeq, { b with ses := { b.ses with motionSeq := b.ses.motionSeq + 1 } })

/-- A sequence put in its place among those that wait: in the order of admission (R137). -/
def insertSeq (s : Seqn) : List Seqn → List Seqn
  | [] => [s]
  | t :: ts => if s.order < t.order then s :: t :: ts else t :: insertSeq s ts

/-- Reserved result slots of a sequence returned (R159). -/
def releaseSlots (s : Seqn) (b : Block) : Block :=
  if s.reserved = 0 then b else updRing s.ring (fun r => { r with reserved := r.reserved - s.reserved }) b

/-- A HOT-target MOVE ships an enrolled session while it steps on (R90, R91). -/
def movesHot (x : Session) : Bool :=
  match x.motion, x.moveOut with
  | some m, some mo => decide (m.kind = .moveOut) && decide (x.depth = dHot) && decide (mo.depth = dHot) && !mo.cutover
  | _, _ => false

/-- The session of a sequence is one a step may compute: HOT, shipping to HOT (R90), or a
COLD session whose revival runs (R84). -/
def sessionSteps (s : Seqn) (x : Session) : Bool :=
  match s.work with
  | .revival => match x.motion with
    | some m => m.running && rebuilds m x
    | none => false
  | _ => decide (x.state = ssHot) || movesHot x

/-- A waiting sequence waits for a step (R137), not for an ACCEPT. -/
def awaitsStep (s : Seqn) : Bool :=
  match s.work with
  | .step r => r.await.isNone
  | .finished => false
  | _ => true

/-- A waiting sequence may join a peloton now. -/
def joinable (b : Block) (s : Seqn) : Bool :=
  match session b s.sid with
  | none => false
  | some x =>
    awaitsStep s && sessionSteps s x && !x.enrolled && runsWork b s x && decide (tenantState b x.tenant = tsActive)
      && (tget b.ten.tearing x.tenant).isNone && ((modelSlot b x.modelSlot).map fun m => decide (m.state ≠ slEmpty)).getD false

/-- Tenant and model slot of a sequence. -/
def seqKey (b : Block) (s : Seqn) : Option (Nat × Nat) := (session b s.sid).map fun x => (x.tenant, x.modelSlot)

/-- Sequences a peloton may hold (R136, R148). -/
def maxSeq (b : Block) : Nat := max 1 (b.getF F.STE_CFG_max_seq)

/-- A resident peloton of a tenant and slot has room. -/
def hasRoom (b : Block) (key : Nat × Nat) : Bool :=
  b.ste.pelotons.any fun e => decide ((e.2.tenant, e.2.slot) = key) && decide (e.2.seqs.length < maxSeq b) && !e.2.evict

/-- Resident pelotons of a tenant (R345). -/
def residentOf (b : Block) (t : Nat) : Nat := (b.ste.pelotons.filter fun e => decide (e.2.tenant = t)).length

/-- `max_pel` of a tenant (Table 14.16). -/
def maxPel (b : Block) (t : Nat) : Nat := min 8 (max 1 (b.getFi F.STE_TQ_SCHED_max_pel t))

/-- A free place. -/
def freePlace (b : Block) : Option Nat := [0, 1, 2, 3, 4, 5, 6, 7].find? fun n => (tget b.ste.pelotons n).isNone

/-- A sequence joins: its session is enrolled (row 3 of Table 2.5), but for the prefill of a revival, whose session is
IN_MOTION (R32). -/
def enrolSession (s : Seqn) (b : Block) : Block :=
  let b := updSession s.sid (fun x => { x with enrolled := decide (s.work ≠ .revival) }) b
  match s.rid with
  | some r => updReq r (fun q => { q with wait := .step }) b
  | none => b

/-- A new peloton with one sequence, which waits at order 9 (R137). -/
def newPeloton (place : Nat) (key : Nat × Nat) (s : Seqn) (b : Block) : Block :=
  let (n, b) := nextTick b
  let p : Peloton :=
    { tenant := key.1, slot := key.2, seqs := [s], phase := .ready, since := b.now, waitFrom := n, sent := 0,
      preempting := false, regained := false, tiles := 0, tilesLeft := 0, tilesOut := 0, faults := 0, fault := none,
      prog := false, torn := false, abandon := false, failed := [], evict := false, snaps := [], leased := [], delta := 0, stats := 0,
      targeted := [] }
  enrolSession s (setPel place (some p) b)

/-- Places `seqs` in a peloton. -/
def putSeqs (place : Nat) (ss : List Seqn) (b : Block) : Block :=
  match tget b.ste.pelotons place with
  | none => b
  | some p => setPel place (some { p with seqs := ss }) b

/-- Waiting sequences join a peloton in order while it has room (order 8, R137); one that has just missed its step does
not. -/
def joinSeqs (place : Nat) : List Seqn → Block → Block
  | [], b => b
  | s :: ss, b =>
    match tget b.ste.pelotons place with
    | none => b
    | some p =>
      if joinable b s ∧ s.missed = false ∧ seqKey b s = some (p.tenant, p.slot) ∧ p.seqs.length < maxSeq b ∧ p.evict = false then
        joinSeqs place ss (enrolSession s (putSeqs place (p.seqs ++ [s]) (setWaiting (b.ste.waiting.erase s) b)))
      else joinSeqs place ss b

/-- A waiting sequence forms a peloton where R137 and R345 let it; those that wait with it for the same tenant and slot
join at its forming (log entry 25). -/
def formPeloton (s : Seqn) (b : Block) : Block :=
  match seqKey b s, freePlace b with
  | some key, some place =>
    if joinable b s ∧ hasRoom b key = false ∧ residentOf b key.1 < maxPel b key.1 then
      let b := newPeloton place key s (setWaiting (b.ste.waiting.erase s) b)
      joinSeqs place b.ste.waiting b
    else b
  | _, _ => b

/-- Every waiting sequence, in order, forms a peloton where it may. A sequence that has joined one is enrolled and forms none. -/
def formPelotons (b : Block) : Block := b.ste.waiting.foldl (fun b s => formPeloton s b) b

/-! ### Rows due to be flushed (R117, R141, R142) -/

/-- Log entries after the `n`-th token. -/
def afterTokens : (n : Nat) → List (BitVec 32) → List (BitVec 32)
  | 0, es => es
  | _, [] => []
  | n + 1, e :: es => if e.toNat < 0xFFFF0000 then afterTokens n es else afterTokens (n + 1) es

/-- Entries of a session's log after the last computed position. -/
def pendingEntries (x : Session) : List (BitVec 32) := afterTokens x.computed x.log

/-- A depth mark stands next: the rows before it are flushed short before any later position is computed (R141). -/
def markDue (x : Session) : Bool := decide ((pendingEntries x).head? = some depthMark)

/-- Confirmed rows that are due to be flushed: whole groups (R117, R142), or all before a mark (R141). -/
def flushDue (x : Session) : Nat := if markDue x then x.staging.confirmed else 16 * (x.staging.confirmed / 16)

/-- The session of a sequence that has nothing left to compute has rows due to be flushed: the flush is tried again at each
boundary (R109). -/
def owesFlush (x : Session) : Bool := decide (x.state = ssHot) && decide (x.staging.drafts = 0) && decide (flushDue x ≠ 0)

/-! ### Sequences whose request has ended while they wait (R138, R164) -/

/-- A request's current instruction is still the STEP or PREFILL of a sequence that waits. -/
def stillWaits (b : Block) (rid : Nat) : Bool :=
  match req b rid with
  | none => false
  | some q => decide (q.phase = .body) && decide (q.wait = .enrol ∨ q.wait = .step)

/-- The step engine owes a closing pass after a STEP whose ACCEPTs have left pending positions (R164). -/
def owesClosing (s : Seqn) (x : Session) : Bool :=
  match s.work with
  | .step r => decide (0 < r.confirmed) && decide (0 < pendingPositions x)
  | _ => false

/-- What becomes of a waiting sequence: it stays; it owes a closing pass; or it is gone. -/
def sweepSeq (s : Seqn) (b : Block) : Block :=
  let gone := fun (b : Block) => releaseSlots s (setWaiting (b.ste.waiting.erase s) b)
  match session b s.sid with
  | none => gone b
  | some x =>
    if x.state = ssScrubbing ∨ x.state = ssQuarantine then gone b
    else match s.work, s.rid with
      | .closing, _ => if pendingPositions x = 0 then gone b else b
      | .finished, _ => if owesFlush x && !((allSeqs b).any fun y => decide (y.sid = s.sid) && decide (y ≠ s)) then b else gone b
      | .revival, _ => if sessionSteps s x then b else gone b
      | _, none => gone b
      | _, some r =>
        if stillWaits b r then b
        else if owesClosing s x then
          let t := { s with work := .closing, rid := none, reserved := 0 }
          releaseSlots s (setWaiting (b.ste.waiting.map fun y => if y = s then t else y) b)
        else gone b

/-- A COLD session whose revival runs has its prefill work among the waiting sequences (R84). -/
def addRevivals (b : Block) : Block :=
  b.ses.slots.foldl (fun b e =>
    let x := e.2
    let s : Seqn :=
      { sid := e.1, rid := none, ring := 0, order := (x.motion.map (·.order)).getD 0, light := false, work := .revival,
        reserved := 0, plan := 0, lead := false, drafts := [], fused := none, missed := false, roleWait := false }
    if sessionSteps s x ∧ 0 < pendingPositions x
        ∧ ((allSeqs b).any fun y => decide (y.sid = e.1 ∧ y.work = .revival)) = false then
      setWaiting (insertSeq s b.ste.waiting) b
    else b) b

/-! ### Places (R136, R345, R346) -/

/-- A peloton holds one of the 4 in-flight places: from its dispatch to the end of its boundary. -/
def Peloton.holdsPlace (p : Peloton) : Bool := decide (p.phase = .flight ∨ p.phase = .gather)

/-- Pelotons in flight. -/
def inFlight (b : Block) : Nat := (b.ste.pelotons.filter fun e => e.2.holdsPlace).length

/-- Class of a tenant, 0 the highest (Table 14.16). -/
def prioOf (b : Block) (t : Nat) : Nat := b.getFi F.STE_TQ_SCHED_prio t

/-- The better of two waiting pelotons (R346): the lower `prio`, then the one that began waiting first. -/
def betterPlace (b : Block) (acc : Option (Nat × Peloton)) (e : Nat × Peloton) : Option (Nat × Peloton) :=
  match acc with
  | none => some e
  | some a =>
    if prioOf b e.2.tenant < prioOf b a.2.tenant
        ∨ (prioOf b e.2.tenant = prioOf b a.2.tenant ∧ e.2.waitFrom < a.2.waitFrom) then some e
    else some a

/-- The derailleur has stopped dispatch for an overlay (R148) or for a swap of the hub firmware (Table 16.8). -/
def dispatchStopped (b : Block) : Bool := b.ste.stopped || decide (b.getF F.BRP_STAT_swap = 2)

/-- The peloton that takes the next in-flight place. While the derailleur has stopped dispatch (R148), only a preempted
one may: its step has begun under the overlay in force (R21). A ready one whose boundary's delta is unacknowledged waits (R377). -/
def nextForPlace (b : Block) : Option (Nat × Peloton) :=
  (b.ste.pelotons.filter fun e => !e.2.holdsPlace && (!dispatchStopped b || decide (e.2.phase = .preempted))
    && (deltaAcked b e.2.delta || decide (e.2.phase = .preempted))).foldl
    (betterPlace b) none

/-- The better of two in-flight pelotons to preempt (R346): the lower class, then the one dispatched latest. -/
def betterPreempt (b : Block) (acc : Option (Nat × Peloton)) (e : Nat × Peloton) : Option (Nat × Peloton) :=
  match acc with
  | none => some e
  | some a =>
    if prioOf b a.2.tenant < prioOf b e.2.tenant
        ∨ (prioOf b e.2.tenant = prioOf b a.2.tenant ∧ a.2.sent < e.2.sent) then some e
    else some a

/-- An in-flight peloton marked for preemption (R346): the peloton that would take the next place is of a higher class, and
no preemption is under way. The marked peloton waits from this moment. -/
def markPreempt (b : Block) : Block :=
  if dispatchStopped b ∨ inFlight b < 4 ∨ (b.ste.pelotons.any fun e => e.2.preempting) then b
  else match nextForPlace b with
    | none => b
    | some (_, w) =>
      let under := b.ste.pelotons.filter fun e => decide (e.2.phase = .flight) && !e.2.regained
        && decide (prioOf b w.tenant < prioOf b e.2.tenant)
      match under.foldl (betterPreempt b) none with
      | none => b
      | some (place, p) =>
        let (n, b) := nextTick b
        chainsLeave place p (setPel place (some { p with preempting := true, waitFrom := n }) b)

/-- The better of two resident pelotons to dissolve (R345): the lower class, then the one resident longest. -/
def betterVictim (b : Block) (acc : Option (Nat × Peloton)) (e : Nat × Peloton) : Option (Nat × Peloton) :=
  match acc with
  | none => some e
  | some a =>
    if prioOf b a.2.tenant < prioOf b e.2.tenant
        ∨ (prioOf b e.2.tenant = prioOf b a.2.tenant ∧ e.2.since < a.2.since) then some e
    else some a

/-- A waiting sequence wants a place that only a victim can give it (R345). -/
def wantsVictim (b : Block) (s : Seqn) : Bool :=
  match seqKey b s with
  | none => false
  | some key => joinable b s && !hasRoom b key && decide (residentOf b key.1 < maxPel b key.1)

/-- A victim marked where 8 pelotons are resident and one of them has had its time slice (R345). -/
def markVictim (b : Block) : Block :=
  if b.stale ∨ (freePlace b).isSome ∨ (b.ste.pelotons.any fun e => e.2.evict) ∨ b.ste.waiting.any (wantsVictim b) = false then b
  else
    let slice := max 1 (b.getF F.STE_SCHED_slice_ms) * 1000000
    match (b.ste.pelotons.filter fun e => decide (e.2.since + slice ≤ b.now)).foldl (betterVictim b) none with
    | none => b
    | some (place, p) => setPel place (some { p with evict := true }) b

/-- The step engine brought to rest after a command: sequences that wait no more, revivals, new pelotons, preemption and
eviction. -/
def steTidy (b : Block) : Block :=
  markVictim (markPreempt (formPelotons (addRevivals (b.ste.waiting.foldl (fun b s => sweepSeq s b) b))))

end Sys2Proof.Machine
end

