-- ==== Sys2Proof/Machine/Vec.lean ====
section
/-! DEFINITION. Indexes (R264 to R270, R280): slots, side records, visibility, appends, and when merges start. -/

namespace Sys2Proof.Machine

/-- The ID that is never valid for an item (R265). -/
def noId : Nat := 0xFFFFFFFFFFFFFFFF

/-- States of an index (Table 11.17). -/
def ixEmpty : Nat := 0
def ixReady : Nat := 1
def ixDestroying : Nat := 2

/-- Side records an index may hold (R266). -/
def sideMax : Nat := 65536

/-- An index that is not empty. -/
def indexOf (b : Block) (n : Nat) : Option Index := tget b.nms.indexes n

/-- An index changed or, with none, gone. -/
def setIndex (n : Nat) (x : Option Index) (b : Block) : Block :=
  { b with nms := { b.nms with indexes := match x with
    | some i => tset b.nms.indexes n i
    | none => tdel b.nms.indexes n } }

/-- Owning tenant of an index (Table 11.15). -/
def indexTenant (b : Block) (n : Nat) : Nat := b.getFi F.NMS_IDX_CFG_tenant n

/-- Code width in bits, bytes of an item, and items per extent (Table 11.2). -/
def codeBits (b : Block) (n : Nat) : Nat := 256 * 2 ^ b.getFi F.NMS_IDX_CFG_width n
def itemBytes (b : Block) (n : Nat) : Nat := codeBits b n / 8 + 16
def itemsPerExtent (b : Block) (n : Nat) : Nat := (2097152 - 8192) / itemBytes b n

/-- The index has a graph, its degree, its beam and its slot limit (Table 11.15). -/
def hasGraph (b : Block) (n : Nat) : Bool := decide (b.getFi F.NMS_IDX_CFG_graph n = 1)
def graphDegree (b : Block) (n : Nat) : Nat :=
  if b.getFi F.NMS_IDX_CFG_degree n = 3 then Config.reservedDegree else 16 * 2 ^ b.getFi F.NMS_IDX_CFG_degree n
def graphBeam (b : Block) (n : Nat) : Nat := min 1024 (max 16 (b.getFi F.NMS_IDX_CFG_beam n))
def slotLimit (b : Block) (n : Nat) : Nat := 2 ^ min 34 (max 10 (b.getFi F.NMS_IDX_CFG_max_log2 n))

/-! ### Extents (R265, Table 11.1) -/

/-- A slot is free (R265). -/
def slotFree (v : VSlot) : Bool := v.tomb && decide (v.item.id = noId)

/-- A slot that no item has used yet. -/
def unusedSlot : VSlot := ⟨⟨[], 0, noId, 0⟩, true, 0, []⟩

/-- Bytes of an item in an extent: code, attribute, ID. -/
def itemImage (codeBytes : Nat) (v : VSlot) : Bytes :=
  padTo codeBytes v.item.code ++ leBytes 8 v.item.attr ++ leBytes 8 v.item.id

/-- Extent `e` of an index (Table 11.1): the tombstone bitmap, the items packed, zeros. -/
def extentImage (b : Block) (n : Nat) (slots : List VSlot) (e : Nat) : Bytes :=
  let per := itemsPerExtent b n
  let here := (List.range per).map fun i => (slots[e * per + i]?).getD unusedSlot
  let byte := fun (vs : List VSlot) => leBytes 1 ((vs.zipIdx.map fun v => if v.1.tomb then 2 ^ v.2 else 0).sum)
  padTo extentBytes (padTo 8192 ((List.range ((per + 7) / 8)).flatMap fun i => byte ((here.drop (8 * i)).take 8))
    ++ here.flatMap (itemImage (codeBits b n / 8)))

/-- The search extents of an index hold its published version: its runs in the order of their allocation hold its extents in
order. -/
def layIndex (n : Nat) (slots : List VSlot) (b : Block) : Block :=
  let runs := extentsWith b fun r => decide (r.use = .search n)
  (runs.foldl (fun (acc : Nat × Block) k =>
    let count := ((tget acc.2.ses.extents k).map (·.count)).getD 0
    (acc.1 + count, { acc.2 with ses := { acc.2.ses with extents := tupd acc.2.ses.extents k fun r =>
      { r with image := (List.range count).flatMap fun i => extentImage b n slots (acc.1 + i) } } })) (0, b)).2

/-- Extents taken for an index: those of its slots, then those of its graph; none where a stack, the KV region or the serials
have no room. -/
def takeIndexExtents (n tenant items graph : Nat) (b : Block) : Option Block :=
  let take := fun (k : Nat) (use : ExtentUse) (b : Block) => if k = 0 then some b else (takeExtents 0 k tenant use b).map (·.2)
  if searchFits b n items then (take items (.search n) b).bind (take graph (.graph n)) else none

/-- A failing block that a scan, or a walk, of an index meets, with whether it is poisoned: scans do not read graph extents
(R265, R272). -/
def indexBad (x : Index) (walk : Bool) : Option Bool := x.bad.or (if walk then x.badGraph else none)

/-! ### Visibility (R265, R269, R270) -/

/-- Slots in use: those of the version that are not free. -/
def slotsInUse (slots : List VSlot) : Nat := (slots.filter fun v => !slotFree v).length

/-- A side record names a slot, or an earlier record. -/
def namesSlot (r : SideRec) (n : Nat) : Bool := decide (r.loc = .slot n)
def namesRecord (r : SideRec) (seq : Nat) : Bool := decide (r.loc = .record seq)

/-- The insert records of a side list that no later record names, oldest first. -/
def visibleRecords : List SideRec → List SideRec
  | [] => []
  | r :: rs => if r.insert && !(rs.any fun t => namesRecord t r.seq) then r :: visibleRecords rs else visibleRecords rs

/-- A slot of a version is visible beside a side list. -/
def slotVisible (side : List SideRec) (n : Nat) (v : VSlot) : Bool := !v.tomb && !(side.any fun r => namesSlot r n)

/-- The visible slots of an index with their numbers. -/
def visibleSlots (x : Index) : List (VSlot × Nat) := x.slots.zipIdx.filter fun e => slotVisible x.side e.2 e.1

/-- The visible items of an index, each with where it stands: slots in order, then side records. -/
def visibleItems (x : Index) : List (VItem × SideLoc) :=
  (visibleSlots x).map (fun e => (e.1.item, SideLoc.slot e.2)) ++
    (visibleRecords x.side).map fun r => (r.item, SideLoc.record r.seq)

/-- The visible item of an ID, found through the ID directory (R269). -/
def findItem (x : Index) (id : Nat) : Option (VItem × SideLoc) := (visibleItems x).find? fun e => decide (e.1.id = id)

/-! ### Merges start (R280) -/

/-- A merge starts: it takes its snapshot (Table 11.7, order 1). -/
def startMerge (n : Nat) (x : Index) (b : Block) : Block :=
  setIndex n (some { x with merge := some x.side.length, started := x.started + 1 }) b

/-- The coordinator starts a merge of its own when the side list reaches `merge_at_pct` (R280). -/
def autoMerge (n : Nat) (b : Block) : Block :=
  match indexOf b n with
  | none => b
  | some x =>
    let pct := b.getF F.NMS_CFG_merge_at_pct
    if pct ≠ 0 ∧ x.merge = none ∧ x.damaged = false ∧ x.state = ixReady ∧ pct * sideMax ≤ 100 * x.side.length then startMerge n x b
    else b

/-! ### Appends (R266 to R268) -/

/-- `vec_items` of a session changed (R267, R268). -/
def ownItems (h : Nat) (f : Nat → Nat) (b : Block) : Block :=
  if h = 0 then b
  else match session b (hSlot h) with
    | none => b
    | some x => if x.gen = hGen h ∧ x.tenant = hTenant h then setSession (hSlot h) { x with vecItems := f x.vecItems } b else b

/-- A record appended to an index's side list. -/
def appendRecord (n : Nat) (x : Index) (insert : Bool) (loc : SideLoc) (item : VItem) (b : Block) : Block :=
  let r : SideRec := ⟨x.nextSeq, insert, loc, item⟩
  autoMerge n (setIndex n (some { x with side := x.side ++ [r], nextSeq := (x.nextSeq + 1) % 2 ^ 40 }) b)

/-- An item inserted (R267): it replaces the visible item of its ID. -/
def insertItem (n : Nat) (x : Index) (item : VItem) (b : Block) : Block :=
  let old := findItem x item.id
  let b := match old with
    | some e => ownItems e.1.owner (· - 1) b
    | none => b
  let loc := match old with
    | some e => e.2
    | none => .none
  appendRecord n x true loc item (ownItems item.owner (· + 1) b)

/-- A visible item deleted (R268). -/
def deleteItem (n : Nat) (x : Index) (e : VItem × SideLoc) (b : Block) : Block :=
  appendRecord n x false e.2 ⟨[], 0, e.1.id, 0⟩ (ownItems e.1.owner (· - 1) b)

/-- The visible items of a tenant's indexes that a handle owns, by index. -/
def ownedItems (b : Block) (h : Nat) : List (Nat × VItem × SideLoc) :=
  b.nms.indexes.flatMap fun e =>
    if indexTenant b e.1 = hTenant h then
      ((visibleItems e.2).filter fun i => decide (i.1.owner = h)).map fun i => (e.1, i.1, i.2)
    else []

/-- The coordinator's own deletes of what a handle owns, as far as the side lists have room (R268); the rest follow when
they have. -/
def dropOwned (h : Nat) (b : Block) : Block :=
  (ownedItems b h).foldl (fun b e => match indexOf b e.1 with
    | some x => if x.side.length < sideMax then deleteItem e.1 x e.2 b else b
    | none => b) b

/-- Items of sessions in SCRUBBING deleted (R268, row 22 of Table 2.5). -/
def scrubItems (b : Block) : Block :=
  b.ses.slots.foldl (fun b e =>
    if e.2.state = ssScrubbing ∧ 0 < e.2.vecItems then dropOwned (handleOf e.1 e.2) b else b) b

end Sys2Proof.Machine
end

