-- ==== Sys2Proof/Machine/Motions.lean ====
section
/-! DEFINITION. The pannier engine's shared operations (R75 to R84, R94 to R97, R307): landing confirmed rows, placing
logs and scratch, reading units, the motion queue, and how motions end. -/

namespace Sys2Proof.Machine

/-! ### Landing rows of a session -/

/-- The table that a session without one starts (R103, R129): with an attached prefix whose last page has slots beyond
the range, entry 0 lists that page. -/
def startTable (b : Block) (x : Session) : PageTable × Block :=
  match prefixOf b x with
  | none => (newTable b x.cls x.tenant 0 none, b)
  | some (_, p) =>
    let t := newTable b x.cls x.tenant p.tokens (some p.table.cap)
    let (g, slot) := pageOf p.tokens p.table.cap
    match (if slot = 0 then none else p.table.entries[g]?) with
    | none => (t, b)
    | some e => ({ t with entries := [{ e with full := false }] }, addRef e.frame b)

/-- Groups of rows landed after those a session's table holds, each as one version (R112). -/
def tryLand (sid : Nat) (x : Session) (groups : List (List KvRow)) (b : Block) : Landed :=
  let (t, b) := match x.table with
    | some t => (t, b)
    | none => startTable b x
  landGroups sid x.tenant x.prefixTokens groups t b

/-- The session whose shadow slot has the latest hint, among those that pass a test. -/
def latestShadow (b : Block) (p : Shadow → Bool) : Option Nat :=
  (b.ses.slots.foldl (fun acc e => match e.2.shadow with
    | none => acc
    | some sh =>
      if p sh then
        match acc with
        | none => some (e.1, sh.hint)
        | some (_, h) => if h < sh.hint then some (e.1, sh.hint) else acc
      else acc) none).map (·.1)

/-- Shadow slots dropped, latest hint first, until rows of a session can land (R96). -/
def shedShadows (sid : Nat) (x : Session) (n : List (List KvRow)) : Nat → Block → Block
  | 0, b => b
  | f + 1, b =>
    match tryLand sid x n b with
    | .noFrame =>
      match latestShadow b fun _ => true with
      | none => b
      | some k => shedShadows sid x n f (dropShadow k b)
    | _ => b

/-- How a flush ended (R109, R117). -/
inductive Flush where
  | ok (b : Block)
  | quota (b : Block)
  | noFrame (b : Block)

/-- The slots that `n` flushed rows leave: the rows after them move to the block's first slots, with their quanta (R115,
R117, stage 4). -/
def shiftStaging (n : Nat) (x : Session) : Session :=
  { x with
    staging := ⟨x.staging.confirmed - n, x.staging.drafts⟩
    stageRows := x.stageRows.drop n
    quanta := x.quanta.drop (n / 8) }

/-- `n` confirmed rows of a session's staging flushed into its page frames, converted to the storage form and landed group by
group (R109, R117, R118); a superseded version that a snapshot holds is kept (R113). -/
def flushRows (sid n : Nat) (b : Block) : Flush :=
  match session b sid with
  | none => .ok b
  | some x =>
    if n = 0 then .ok b
    else
      let rows := (x.stageRows.take n).map (storeRow (sessionNet b none x).kvFormat)
      let groups := rowGroups n rows
      let b := shedShadows sid x groups (b.ses.slots.length + 1) b
      match tryLand sid x groups b with
      | .ok t b =>
        .ok (trimStaging sid (updSession sid (fun x => shiftStaging n
          { x with table := some t, oldTables := supersedeTable x.table x.oldTables }) b))
      | .quota => .quota b
      | .noFrame => .noFrame b

/-- Every private row of a session in frames passed through the WARM form and back at a depth mark (R84, R141). -/
def passRows (sid : Nat) (b : Block) : Flush :=
  match session b sid with
  | none => .ok b
  | some x =>
    match x.table with
    | none => .ok b
    | some t =>
      match passTable b sid x t with
      | (.ok t' b, nans) =>
        .ok ((updSession sid (fun x => { x with
          table := some t', oldTables := if t'.version = t.version then x.oldTables else supersedeTable x.table x.oldTables })
          b).bumpN F.PNE_CNT_FAULT_nan_blocks nans)
      | (.quota, _) => .quota b
      | (.noFrame, _) => .noFrame b

/-! ### Logs and scratch in pieces (R252, R300) -/

/-- The keys of a key version (R289, R290, R354): two data keys and the tag key. -/
structure TenantKeys where
  data1 : Bytes
  data2 : Bytes
  tagKey : Bytes
  deriving DecidableEq, Repr

/-- The keys of a tenant's current or retiring version, of the material that the RTP drew (R291, R354). -/
def tenantKeys (b : Block) (tenant ver : Nat) : TenantKeys :=
  let no := match tget b.mem.keys tenant with
    | some k => if ver = k.current then k.keyNo else k.oldNo
    | none => 0
  let k := padTo 96 (Config.keyBytes no)
  ⟨k.take 32, (k.drop 32).take 32, k.drop 64⟩

/-- The tweak of a block of a unit (R131). -/
def blockTweak (serial index : Nat) : Nat := serial % 2 ^ 48 + index % 2 ^ 32 * 2 ^ 48

/-- The 56-bit tag of a block (R290). -/
def blockTag (tagKey : Bytes) (serial index ver : Nat) (cipher : Bytes) : Bytes :=
  (cmac tagKey (leBytes 6 serial ++ leBytes 4 index ++ leBytes 1 ver ++ List.replicate 5 0 ++ padTo 64 cipher)).take 7

/-- A block of tenant data as memory holds it: ciphertext, and bytes [7:0] of its side-band (R287, R289, R290). -/
def sealData (b : Block) (tenant serial index ver : Nat) (plain : Bytes) : Bytes × Bytes :=
  let k := tenantKeys b tenant ver
  let c := xtsEnc k.data1 k.data2 (blockTweak serial index) (padTo 64 plain)
  (c, blockTag k.tagKey serial index ver c ++ leBytes 1 ver)

/-- A block of tenant data read: its plaintext where its version is one the tenant may read and its tag stands (R290, R291). -/
def openData (b : Block) (tenant serial index : Nat) (cipher band : Bytes) : Option Bytes :=
  let ver := bytesAt band 7 1
  let k := tenantKeys b tenant ver
  if mayRead b tenant ver ∧ blockTag k.tagKey serial index ver cipher = band.take 7 then
    some (xtsDec k.data1 k.data2 (blockTweak serial index) cipher)
  else none

/-- Block `n` of a run of extents as a lower tier holds it: ciphertext, and the tag word of Table 12.1. -/
def sealBlock (b : Block) (e : ExtentRun) (n : Nat) (plain : Bytes) : Bytes × Bytes :=
  sealData b e.tenant (e.serial + n / 32768) (n % 32768) e.keyVer plain

/-- Block `n` of a run as a lower tier gives it passes its tag, against the serial on the module (R291, R299). -/
def blockStands (b : Block) (e : ExtentRun) (n : Nat) (cipher band : Bytes) : Bool :=
  (openData b e.tenant (e.serial + n / 32768) (n % 32768) cipher band).isSome

/-- The blocks that bytes fill from block `first` of a run on, by number. -/
def blocksFrom (first : Nat) (bytes : Bytes) : List (Nat × Bytes) :=
  (List.range ((bytes.length + 63) / 64)).map fun i => (first + i, padTo 64 ((bytes.drop (64 * i)).take 64))

/-- Where block `n` of a run in the host tier stands in companion memory, and where its tag word does (R301). -/
def hostPlace (b : Block) (e : ExtentRun) (n : Nat) : Nat × Nat :=
  let u := (e.units[n / 32768]?).getD 0
  let off := u % 2 ^ 21 * extentBytes + n % 32768 * 64
  (b.getFi F.MEM_HWIN_ADDR_base (u / 2 ^ 21) * 2 ^ 21 + off, b.getFi F.MEM_HWIN_TAG_tag_base (u / 2 ^ 21) * 2 ^ 18 + off / 8)

/-- Donor of block `n` of a run in the neighbour tier, the range, and the block's place in the domain (R302, R319). -/
def nbrPlace (b : Block) (e : ExtentRun) (n : Nat) : Option (Nat × Nat × Nat) :=
  let u := (e.units[n / 32768]?).getD 0
  (tget b.mem.borrowed (u / 2 ^ 21)).map fun x => (x.module, u / 2 ^ 21, x.base2m + u % 2 ^ 21)

/-- Bytes written to a run from block `first` on: into the host window and its tag region (R301), or to the donor (R302). -/
def writeBlocks (e : ExtentRun) (first : Nat) (bytes : Bytes) (b : Block) : Block :=
  (blocksFrom first bytes).foldl (fun b p =>
    let (c, t) := sealBlock b e p.1 p.2
    if e.tier = 1 then
      let (a, w) := hostPlace b e p.1
      (b.pokeBytes a c).pokeBytes w t
    else if e.tier = 2 then
      match nbrPlace b e p.1 with
      | some (m, r, unit) => sendMsg m 3 r (.tierStore unit (p.1 % 32768) c (BitVec.ofNat 64 (leVal t))) b
      | none => b
    else b) b

/-- The blocks that bytes of a unit fill are asked of their donor (R302), and await their answers. -/
def fetchBlocks (sid kind : Nat) (key first : Nat) (bytes : Bytes) (b : Block) : Block :=
  match tget b.ses.extents key with
  | none => b
  | some e =>
    if e.tier = 2 then
      (blocksFrom first bytes).foldl (fun b p => match nbrPlace b e p.1 with
        | some (m, r, unit) =>
          sendMsg m 3 r (.tierFetch unit (p.1 % 32768)) { b with mem := { b.mem with
            fetches := b.mem.fetches ++ [⟨m, sid, kind, key, p.1⟩] } }
        | none => b) b
    else b

/-- What companion memory holds of these blocks passes its tags, and no line of it is poisoned (R290, R299, R314). -/
def blocksStand (b : Block) (e : ExtentRun) (first : Nat) (bytes : Bytes) : Bool :=
  decide (e.tier ≠ 1) || (blocksFrom first bytes).all fun p =>
    let (a, w) := hostPlace b e p.1
    !readsPoison b a 64 && !readsPoison b w 8 && blockStands b e p.1 (b.peek a 64) (b.peek w 8)

/-- The runs by number, first blocks and bytes that hold a unit of a session (Table 12.4: 1 the WARM image, 2 the log, 3 scratch). -/
def unitBlocks (b : Block) (sid : Nat) (x : Session) (kind : Nat) : List (Nat × Nat × Bytes) :=
  let placed := fun (p : Option Place) (bytes : Bytes) => match p with
    | none => []
    | some p => [(p.extent, 8 * p.piece, bytes)]
  if kind = 1 then (warmRuns b sid).filterMap fun k => (tget b.ses.extents k).map fun e => (k, 0, e.image)
  else if kind = 2 then placed x.logPlace (logBytes x.log)
  else placed x.scratchPlace x.scratch

/-- A unit of a session passes its tags in the host tier. -/
def unitStands (b : Block) (sid : Nat) (x : Session) (kind : Nat) : Bool :=
  (unitBlocks b sid x kind).all fun u => ((tget b.ses.extents u.1).map fun e => blocksStand b e u.2.1 u.2.2).getD true

/-- A unit of a session written to the tier that holds it. -/
def writeUnit (sid kind : Nat) (b : Block) : Block :=
  match session b sid with
  | none => b
  | some x => (unitBlocks b sid x kind).foldl (fun b u => match tget b.ses.extents u.1 with
    | some e => writeBlocks e u.2.1 u.2.2 b
    | none => b) b

/-- A unit of a session fetched from the tier that holds it. -/
def fetchUnit (sid kind : Nat) (b : Block) : Block :=
  match session b sid with
  | none => b
  | some x => (unitBlocks b sid x kind).foldl (fun b u => fetchBlocks sid kind u.1 u.2.1 u.2.2 b) b

/-- The pieces of a pack extent can hold a unit that grows in place to `k` pieces from piece `first`. -/
def growsInPlace (ps : List Piece) (first k : Nat) : Bool :=
  decide (first + k ≤ 4096) &&
  ps.all fun p => decide (p.first = first) || !p.live || decide (p.first + p.count ≤ first) || decide (first + k ≤ p.first)

/-- A unit of `n` bytes stored in a tier in the place of its old form (R300): in HBM it grows in place where it can, in an extent
of the current key version (R291); elsewhere it is written whole to fresh pieces and its old pieces are freed. -/
def storeUnit (tier tenant n : Nat) (old : Option Place) (b : Block) : Option (Option Place × Block) :=
  let anew := (placeUnit tier tenant n b).map fun (p, b) => (p, freeUnit old b)
  match old with
  | none => anew
  | some p =>
    match tget b.ses.extents p.extent with
    | none => anew
    | some e =>
      if tier = 0 ∧ e.tier = 0 ∧ 0 < n ∧ e.keyVer = keyVersion b tenant ∧ growsInPlace e.pieces p.piece (piecesFor n) = true then
        some (some p, { b with ses := { b.ses with extents := tset b.ses.extents p.extent { e with
          pieces := e.pieces.map fun y => if y.first = p.piece ∧ y.live then { y with count := piecesFor n } else y } } })
      else anew

/-- A session's log stored again after it has changed, in the tier that holds it (R252, R300); none where the tier cannot
supply its pieces. -/
def tryGrowLog (sid : Nat) (b : Block) : Option Block :=
  match session b sid with
  | none => some b
  | some x =>
    (storeUnit (unitTier b x.logPlace) x.tenant (4 * x.log.length) x.logPlace b).map fun (p, b) =>
      writeUnit sid 2 (updSession sid (fun x => { x with logPlace := p }) b)

/-- The same; a log that the tier cannot supply keeps its place. -/
def growLog (sid : Nat) (b : Block) : Block := (tryGrowLog sid b).getD b

/-- Kinds of a session's units that a motion to a tier brings there in single-home mode: its log and scratch (Table 4.2). -/
def movedKinds (b : Block) (x : Session) (tier : Nat) : List Nat :=
  if singleHome b then
    (if x.logPlace.isSome ∧ unitTier b x.logPlace ≠ tier then [2] else [])
      ++ (if x.scratchPlace.isSome ∧ unitTier b x.scratchPlace ≠ tier then [3] else [])
  else []

/-- Kinds of units that a session's motion reads (Tables 4.1 and 4.2; R82 to R84, R86). -/
def motionReads (b : Block) (x : Session) : List Nat :=
  match x.motion with
  | none => []
  | some m => match m.kind with
    | .park => movedKinds b x m.toTier
    | .demote => movedKinds b x m.toTier
    | .retier => 1 :: movedKinds b x m.toTier
    | .revive => if x.depth = dCold then 2 :: (movedKinds b x 0).filter (· ≠ 2) else 1 :: movedKinds b x 0
    | .moveOut =>
      if x.depth = dWarm ∧ (x.moveOut.map fun mo => decide (mo.depth ≠ dCold)) = some true then [1, 2, 3] else [2, 3]
    | _ => []

/-- A session's log and scratch brought to a tier (Table 4.2); none where the tier cannot supply their pieces, or the tenant
holds no key to read and write them under (R94). -/
def relocate (sid tier : Nat) (b : Block) : Option Block :=
  match session b sid with
  | none => some b
  | some x =>
    if movedKinds b x tier ≠ [] ∧ hasKey b x.tenant = false then none else
    let move := fun (n : Nat) (p : Option Place) (b : Block) =>
      if p.isSome ∧ unitTier b p = tier then some (p, b) else storeUnit tier x.tenant n p b
    (move (4 * x.log.length) x.logPlace b).bind fun (lp, b) =>
      (move x.scratch.length x.scratchPlace b).map fun (sp, b) =>
        let b := updSession sid (fun x => { x with logPlace := lp, scratchPlace := sp }) b
        let b := if lp = x.logPlace then b else writeUnit sid 2 b
        if sp = x.scratchPlace then b else writeUnit sid 3 b

/-! ### Reading units (R126, R307) -/

/-- A failure of R307 reported: the counters, MEM_FAULT while it is free, and MEM_INTEG. -/
def tagFail (kind tenant tier : Nat) (poisoned : Bool) (b : Block) : Block :=
  let (m, b) := b.takeFresh
  let b := (b.bump F.MEM_STAT_integ_count).setF F.MEM_STAT_integ_seen 1
  let b := if b.isSet F.MEM_FAULT_valid then b else
    (((((b.setF F.MEM_FAULT_kind kind).setF F.MEM_FAULT_tenant tenant).setF F.MEM_FAULT_tier tier).setF
      F.MEM_FAULT_channel (if tier = 0 then Config.faultChannel m else 0)).setF
      F.MEM_FAULT_poisoned (if poisoned then 1 else 0)).setF F.MEM_FAULT_valid 1
  fire Src.memInteg b

/-- `q_site` of a unit kind (Table 12.4). -/
def siteOf (kind : Nat) : Nat := if kind = 2 then 2 else if kind = 3 then 4 else 3

/-- Tier in which a unit of a session stands. -/
def tierOfKind (b : Block) (x : Session) (kind : Nat) : Nat :=
  if kind = 2 then unitTier b x.logPlace else if kind = 3 then unitTier b x.scratchPlace
  else if x.depth = dWarm then x.warmTier else 0

/-- A session's units of some kinds are read: the first failure met reports it and quarantines the session (R307); none
when every block passes. -/
def unitRead (sid : Nat) (kinds : List Nat) (b : Block) : Option Block :=
  match session b sid with
  | none => none
  | some x =>
    let failing := (x.badUnits.find? fun e => kinds.contains e.1).or
      ((kinds.find? fun k => !unitStands b sid x k).map fun k => (k, false))
    failing.map fun (k, poisoned) => quarantine sid St.integrity (siteOf k) (tagFail k x.tenant (tierOfKind b x k) poisoned b)

/-- A unit of these kinds that a session has in the neighbour tier lies in a range that is no longer borrowed (R303): its reads
fail (R94). -/
def readsLost (b : Block) (sid : Nat) (x : Session) (kinds : List Nat) : Bool :=
  kinds.any fun k => (unitBlocks b sid x k).any fun u => (tget b.ses.extents u.1).any fun e =>
    decide (e.tier = 2) && e.units.any fun n => (tget b.mem.borrowed (n / 2 ^ 21)).isNone

/-- A session's motion reads a lower tier (R92, R93). -/
def waitsOnLower (b : Block) (sid : Nat) : Bool :=
  ((session b sid).map fun x => (motionReads b x).any fun k => decide (tierOfKind b x k ≠ 0)).getD false

/-- A prefix record marked damaged (R126). -/
def damagePrefix (key : Nat) (b : Block) : Block :=
  { b with ses := { b.ses with prefixes := tupd b.ses.prefixes key fun p => { p with damaged := true } } }

/-- The prefix records that list a frame. -/
def prefixesListing (b : Block) (key : Nat) : List Nat :=
  (b.ses.prefixes.filter fun e => e.2.table.entries.any fun x => decide (x.frame = key)).map (·.1)

/-- A bad frame of a table as R126 and R307 report it, before what follows for its owner. -/
def reportFrame (key : Nat) (f : Frame) (b : Block) : Block :=
  let b := if f.badPair then b.bump F.PGM_STAT_integ_count else b
  if f.badTag then tagFail (if prefixLists b key then 4 else 1) f.tenant 0 false b else b

/-- The first frame of a table that fails, with its record. -/
def badFrame (b : Block) (t : PageTable) : Option (Nat × Frame) :=
  t.entries.findSome? fun e => match tget b.ses.frames e.frame with
    | some f => if f.badPair || f.badTag || !versionHeld b f.tenant f.keyVer then some (e.frame, f) else none
    | none => none

/-- An attached prefix is read (R126): none when it is sound. -/
def prefixRead (x : Session) (b : Block) : Option Block :=
  match prefixOf b x with
  | none => none
  | some (key, p) =>
    if p.damaged then some b
    else if p.badPair || p.badTable then some (damagePrefix key (b.bump F.PGM_STAT_integ_count))
    else (badFrame b p.table).map fun (k, f) => (prefixesListing b k).foldl (fun b k => damagePrefix k b) (reportFrame k f b)

/-- A session's private KV is read (R126, R307): none when it is sound. -/
def kvRead (sid : Nat) (b : Block) : Option Block :=
  match session b sid with
  | none => none
  | some x =>
    match unitRead sid [1] b with
    | some b => some b
    | none =>
      if x.badTable then some (quarantine sid St.integrity 3 (b.bump F.PGM_STAT_integ_count))
      else match x.table.bind (badFrame b) with
      | none => none
      | some (k, f) =>
        let b' := reportFrame k f b
        match prefixesListing b k with
        | [] => some (quarantine sid St.integrity 3 b')
        | ps => some (ps.foldl (fun b k => damagePrefix k b) b')

/-! ### Pannier header (R98, R99) -/

/-- Pages that hold `n` rows from a position, as page size and rows held (Table 4.7, section 3); the first argument
bounds them. -/
def pageDirectory (cap : Nat) : (fuel first n : Nat) → List (Nat × Nat)
  | 0, _, _ => []
  | f + 1, first, n =>
    if n = 0 then []
    else
      let (g, slot) := pageOf first cap
      let here := min n (pageSize g cap - slot)
      (pageSize g cap, here) :: pageDirectory cap f (first + here) (n - here)

/-- The digest of the weights of a session's model. -/
def weightsOf (b : Block) (x : Session) : Bytes := ((modelSlot b x.modelSlot).map (·.weightsDg)).getD (List.replicate 32 0)

/-- Digest of the attached prefix; zeros if none. -/
def prefixDigestOf (b : Block) (x : Session) : Bytes := ((prefixOf b x).map (·.2.digest)).getD (List.replicate 32 0)

/-- `cap_log2` of a session's table, or of the one it would start. -/
def capOf (b : Block) (x : Session) : Nat :=
  match x.table with
  | some t => t.cap
  | none => (((prefixOf b x).map (·.2.table.cap)).getD (tenantCap b x.tenant))

/-- Form of the KV in a pannier, that of the target depth (R86): 0 none, 1 storage form, 2 WARM form; a COLD session has no
KV to send. -/
def pannierForm (x : Session) (depth : Nat) : Nat :=
  if depth = dCold ∨ x.depth = dCold then 0 else if depth = dWarm then 2 else 1

/-- Rows in the KV section and in the staging section. -/
def pannierRows (x : Session) (depth : Nat) : Nat × Nat :=
  let form := pannierForm x depth
  if form = 0 then (0, 0)
  else if form = 1 then (x.computed - x.staging.confirmed, x.staging.confirmed)
  else (x.computed, 0)

/-- The log as the pannier carries it: a HOT session that travels in WARM form has passed through FP4 (log entry 18). -/
def pannierLog (x : Session) (depth : Nat) : List (BitVec 32) :=
  if pannierForm x depth = 2 ∧ x.depth = dHot ∧ x.log.getLast? ≠ some depthMark then x.log ++ [depthMark] else x.log

/-- The 256-byte header of a pannier in version 2.0, or 1.0 (Table 4.6, R99). -/
def pannierHeader (b : Block) (sid : Nat) (x : Session) (depth moveId : Nat) (v1 : Bool) : Bytes :=
  let g := geomOf b x
  let form := pannierForm x depth
  let (rows, staged) := pannierRows x depth
  let dir := pageDirectory (capOf b x) rows x.prefixTokens rows
  let kvBytes := rows * (if form = 2 then warmRowBytes g else hotRowBytes g)
  let home := if singleHome b then 16 else 0
  let flags := if v1 then home else
    (if 0 < rows then 1 else 0) + (if form = 2 ∧ 0 < rows then 2 else 0) + (if 0 < staged then 4 else 0)
      + (if 0 < x.vecItems then 8 else 0) + home
  let log := if v1 then x.log else pannierLog x depth
  let two := fun (n v : Nat) => leBytes n (if v1 then 0 else v)
  padTo 256 (leBytes 4 0x524E4E50 ++ leBytes 2 (if v1 then 0x0100 else 0x0200) ++ leBytes 2 flags
    ++ leBytes 6 (handleOf sid x) ++ leBytes 2 x.tenant ++ leBytes 1 (ownModule b) ++ leBytes 1 (if v1 then 2 else depth)
    ++ two 1 (sessionKv b x) ++ two 1 x.cls ++ leBytes 4 (tokensOf x) ++ leBytes 4 log.length ++ leBytes 4 x.prefixTokens
    ++ leBytes 8 x.prefixHandle ++ padTo 32 (weightsOf b x) ++ padTo 32 (prefixDigestOf b x) ++ leBytes 4 x.scratch.length
    ++ two 4 staged ++ two 4 dir.length ++ leBytes 4 0 ++ two 8 kvBytes ++ two 8 x.vecItems ++ two 8 x.resumeHintNs
    ++ leBytes 8 moveId ++ leBytes 4 (b.getF F.CMP_EPOCH_epoch) ++ leBytes 4 x.maxContext ++ leBytes 1 x.cog
    ++ two 1 x.draftSlot ++ two 2 x.clist ++ two 1 (x.hintDepth + 4 * x.hintTier) ++ leBytes 3 0 ++ padTo 16 x.userTag
    ++ leBytes 8 x.openNs ++ leBytes 4 x.parkCount ++ leBytes 4 x.reviveCount ++ leBytes 4 x.moveCount)
where
  /-- KV storage format of a session's model. -/
  sessionKv (b : Block) (x : Session) : Nat := ((modelSlot b x.modelSlot).map (·.kvFormat)).getD 0

/-! ### The queue (R75) -/

/-- A queued motion may start only while fewer than `max_motions` run (R75, Table 4.11). -/
def maxMotions (b : Block) : Nat := min 256 (max 1 (b.getF F.PNE_CFG_max_motions))

/-- Motions of sessions that pass a test. -/
def motionsWith (b : Block) (p : Motion → Bool) : Nat :=
  (b.ses.slots.filter fun e => match e.2.motion with
    | some m => p m
    | none => false).length

/-- A speculative lift in progress. -/
def lifting (sh : Shadow) : Bool := !sh.complete && !sh.suspended

/-- Motions running (Table 4.14), speculative lifts among them. -/
def motionsActive (b : Block) : Nat :=
  motionsWith b (·.running) + (b.ses.slots.filter fun e => (e.2.shadow.map lifting).getD false).length

/-- Motions that wait (Table 4.14), speculative lifts among them. -/
def motionsQueued (b : Block) : Nat := motionsWith b (!·.running) + (b.ses.slots.filter fun e => e.2.liftWait.isSome).length

/-- The session whose motion is next in class order, then in admission order. -/
def nextQueued (b : Block) : Option Nat :=
  (b.ses.slots.foldl (fun acc e => match e.2.motion with
    | none => acc
    | some m =>
      if m.running then acc
      else match acc with
        | none => some (e.1, m.cls, m.order)
        | some (_, c, o) => if m.cls < c ∨ (m.cls = c ∧ m.order < o) then some (e.1, m.cls, m.order) else acc)
    none).map (·.1)

/-- A motion starts to run: its session is IN_MOTION (R75); a MOVE sends OFFER (Table 4.3, order 2). -/
def beginMotion (sid : Nat) (b : Block) : Block :=
  match session b sid with
  | none => b
  | some x =>
    let b := updSession sid (fun x => { x with
      state := ssMotion, motion := x.motion.map fun m => { m with running := true } }) b
    match x.moveOut, x.motion.map (·.kind) with
    | some mo, some MotionKind.moveOut =>
      let h := pannierHeader b sid x mo.depth mo.moveId mo.oldPannier
      let mo := { mo with header := h, snap := x.table.map (·.version), leased := (reachableFrames b x).eraseDups }
      let b := mo.leased.foldl (fun b k => addLease k b) (takeSnap sid b)
      fetchUnits (sendMsg mo.dest 2 mo.moveId (.offer h) (updSession sid (fun x => { x with moveOut := some mo }) b))
    | _, _ => fetchUnits b
where
  /-- What the motion reads from the neighbour tier is asked of its donors (R302). -/
  fetchUnits (b : Block) : Block :=
    match session b sid with
    | none => b
    | some x => (motionReads b x).foldl (fun b k => fetchUnit sid k b) b

/-- A shadow slot's lift suspended or resumed. -/
def suspendLift (sid : Nat) (on : Bool) (b : Block) : Block :=
  updSession sid (fun x => { x with shadow := x.shadow.map fun sh => { sh with suspended := on } }) b

/-- The rows of a session's WARM image. -/
def heldWarm (b : Block) (sid : Nat) (x : Session) : List KvRow :=
  let m := sessionNet b none x
  imageRows warmCode m.layers m.elems x.computed true
    ((((warmRuns b sid).head?.bind (tget b.ses.extents)).map (·.image)).getD [])

/-- The same, expanded to the storage form (R79, R83). -/
def warmRows (b : Block) (sid : Nat) (x : Session) : List KvRow := (heldWarm b sid x).map (expandRow (sessionNet b none x).kvFormat)

/-- A speculative lift starts (R95, R96): its frames are allocated, charged and filled, and stand in no page table. Where no
frame is free it does not start, and counts as skipped (log entry 148). -/
def startLift (sid order : Nat) (b : Block) : Block :=
  match session b sid with
  | none => b
  | some x =>
    let b := updSession sid (fun x => { x with liftWait := none }) b
    match tryLand sid x [warmRows b sid x] b with
    | .ok t b' =>
      let frames := t.entries.map (·.frame)
      let b' := { b' with ses := { b'.ses with
        frames := frames.foldl (fun fs k => tupd fs k fun f => { f with refs := 0 }) b'.ses.frames } }
      fetchUnit sid 1 ((updSession sid (fun x => { x with shadow := some ⟨x.resumeHintNs, order, false, false, frames⟩ }) b').bump
        F.PNE_CNT_SPEC_spec_start)
    | _ => b.bump F.PNE_CNT_SPEC_spec_skip

/-- A lift that waits for a place of the engine: its place in the order of admission, where it has been suspended or has yet to
start. -/
def liftWaits (x : Session) : Option Nat :=
  x.liftWait.or (x.shadow.bind fun sh => if !sh.complete && sh.suspended then some sh.order else none)

/-- The session whose speculative lift goes on next (R75, class 5): the first admitted of those that wait. -/
def nextLift (b : Block) : Option (Nat × Nat) :=
  b.ses.slots.foldl (fun acc e => match liftWaits e.2 with
    | none => acc
    | some o => match acc with
      | none => some (e.1, o)
      | some (_, p) => if o < p then some (e.1, o) else acc) none

/-- A waiting speculative lift goes on. -/
def resumeLift (sid order : Nat) (b : Block) : Block :=
  if ((session b sid).bind (·.liftWait)).isSome then startLift sid order b else suspendLift sid false b

/-- Queued motions started while the engine has places; a speculative lift gives its place up, latest hint first, and
has it back when a place frees (R75). -/
def pump : Nat → Block → Block
  | 0, b => b
  | n + 1, b =>
    match nextQueued b with
    | some sid =>
      if motionsActive b < maxMotions b then pump n (beginMotion sid b)
      else match latestShadow b lifting with
        | some k => pump n (beginMotion sid (suspendLift k true b))
        | none => b
    | none =>
      if motionsActive b < maxMotions b then
        match nextLift b with
        | some (k, o) => pump n (resumeLift k o b)
        | none => b
      else b

/-- The module does work: it is in RUN and not fenced (R379, R429, R431). -/
def working (b : Block) : Bool := decide (b.getF F.PMC_STAT_pstate = 0) && !b.isSet F.CMP_ID_isolated

/-- The module brought to rest after a command that may set work going: owned items of scrubbed sessions, closing sessions,
draining slots, the motion queue and the low-water marks. -/
def rest (b : Block) : Block :=
  if working b then
    let b := modelTidy (txuTidy (reapClosing b))
    settle (steTidy (pump (2 * b.ses.slots.length) (scrubItems b)))
  else settle b

/-- A meaning that may set work going. -/
def actR (u : UnitRef) (f : Block → Block) (s : State) : Host.Outcome State Fault Refusal := act u (fun b => rest (f b)) s

/-- A meaning that is work of the module: while it is braked, in standby or fenced it does nothing (R379, R429, R431). -/
def actC (u : UnitRef) (f : Block → Block) (s : State) : Host.Outcome State Fault Refusal :=
  act u (fun b => if working b then rest (f b) else b) s

/-- A motion ordered on a session (R75): it waits in its class until the engine has a place. -/
def orderMotion (sid : Nat) (kind : MotionKind) (cls depth tier : Nat) (rid : Option Nat) (b : Block) : Block :=
  let (n, b) := nextAdmission b
  updSession sid (fun x => { x with motion := some ⟨kind, cls, n, false, false, depth, tier, rid⟩ }) b

/-- Something of a session stands in a lower tier. -/
def readsLower (b : Block) (x : Session) : Bool :=
  (decide (x.depth = dWarm) && decide (x.warmTier ≠ 0)) || decide (unitTier b x.logPlace ≠ 0)
    || decide (unitTier b x.scratchPlace ≠ 0)

/-! ### How motions end (Tables 2.5 and 4.5) -/

/-- A motion ends: the session takes what the row gives it, and the instruction that ordered the motion ends with it. -/
def endMotion (sid status : Nat) (result : Option Bytes) (f : Session → Session) (b : Block) : Block :=
  let b := endWalk sid b
  match session b sid with
  | none => b
  | some x =>
    match x.motion with
    | none => b
    | some m => motionEnds sid x m.rid status result (updSession sid (fun x => f { x with motion := none }) b)

/-- Row 13: the motion fails and the source is intact. What a revival from COLD had computed is released (R109). -/
def failMotion (sid status : Nat) (b : Block) : Block :=
  match session b sid with
  | none => b
  | some x =>
    match x.motion with
    | none => b
    | some m =>
      let rebuilt := rebuilds m x
      let b := if rebuilt then releaseHot sid b else b
      endMotion sid status none (fun x => { x with
        state := stateOfDepth x.depth, moveOut := moveAfter m x, computed := if rebuilt then 0 else x.computed }) b

/-- A tag or pair failure ends the motion's instruction with INTEGRITY; the session is in QUARANTINE, or its motion fails
over a damaged prefix (R126, R307). -/
def integrityEnds (sid : Nat) (b : Block) : Block := failMotion sid St.integrity b

/-- A lower-tier access of a motion fails (R94): its fate is that of Table 4.5. `read`: it was a read. -/
def tierFailure (sid : Nat) (read : Bool) (b : Block) : Block :=
  let b := endWalk sid (b.bump F.PNE_CNT_FAULT_tier_fault)
  if read = false then failMotion sid St.tierFault b
  else if singleHome b then
    match session b sid with
    | none => b
    | some x =>
      let out := (x.motion.map fun m => moveAfter m x).getD x.moveOut
      let b := motionEnds sid x (x.motion.bind (·.rid)) St.tierFault none (updSession sid (fun x => { x with
        motion := none, moveOut := out }) b)
      quarantine sid St.tierFault 5 b
  else
    let out := ((session b sid).bind (·.motion)).map fun m => moveAfter m
    endMotion sid St.tierFault none (fun x => { x with
      state := ssCold, depth := dCold, warmTier := 0, computed := 0, moveOut := (out.map (· x)).getD x.moveOut })
      (releaseWarm sid b)

/-- Result of an instruction that ordered a motion to a depth (Table 3.6): the depth and tier reached, or for a REVIVE
the depth it came from. PARK gives the tier too; what a shorter result does not define is 0. -/
def motionResult (op source depth tier : Nat) : Bytes :=
  if op = 0x04 then [BitVec.ofNat 8 source] else if op = 0x03 then [BitVec.ofNat 8 depth, BitVec.ofNat 8 tier]
  else [BitVec.ofNat 8 depth]

/-- Opcode of the instruction that ordered a motion. -/
def opOfMotion (b : Block) (m : Motion) : Nat :=
  (((m.rid.bind (req b)).bind fun q => q.instrs[q.pc]?).map (·.opcode)).getD 0

/-- Row 12 for a session that reaches a depth on this module. -/
def reach (sid depth tier : Nat) (f : Session → Session) (b : Block) : Block :=
  match session b sid with
  | none => b
  | some x =>
    match x.motion with
    | none => b
    | some m => endMotion sid St.ok (some (motionResult (opOfMotion b m) x.depth depth tier)) (fun x =>
        f { x with state := stateOfDepth depth, depth := depth, warmTier := if depth = dWarm then tier else 0 }) b

/-- The provisional depth mark of a park to WARM (R82, step 3); none where the log finds no pieces. -/
def markLog (sid : Nat) (m : Motion) (b : Block) : Option Block :=
  if m.toDepth = dWarm then
    tryGrowLog sid (updSession sid (fun x => { x with
      log := if x.log.getLast? = some depthMark then x.log else x.log ++ [depthMark] }) b)
  else some b

/-- A park's commit and what follows it (R82, steps 4 and 5). -/
def parkCommit (sid : Nat) (x : Session) (m : Motion) (b : Block) : Block :=
  let b := match x.table with
    | some t => dropTable t b
    | none => b
  let b := updSession sid (fun y => { y with
    table := none, staging := ⟨0, 0⟩, stageRows := [], quanta := [], parkCount := y.parkCount + 1,
    computed := if m.toDepth = dWarm then y.computed else 0 }) b
  (reach sid m.toDepth m.toTier id b).bump F.PNE_CNT_MOTION_parks

/-- Rows in the WARM form written to a tier as a session's image (R36, R82, step 2); none where the tier, the serials or the key
fail. -/
def putImage (sid tier : Nat) (x : Session) (warm : List KvRow) (b : Block) : Option Block :=
  if hasKey b x.tenant then
    let image := imageBytes warmCode (sessionNet b none x).layers warm
    (takeExtents tier (extentsFor image.length) x.tenant (.warm sid) b).map fun (key, b) =>
      writeUnit sid 1 { b with ses := { b.ses with extents := tupd b.ses.extents key fun e => { e with image := image } } }
  else none

/-- Rows of a HOT session converted to the WARM form (R78). -/
def toWarmRows (b : Block) (x : Session) : List KvRow := (storedList b x).map (warmRow (sessionNet b none x).kvFormat)

/-- Blocks that held no number in a conversion are counted (R78). -/
def countNanBlocks (warm : List KvRow) (b : Block) : Block := b.bumpN F.PNE_CNT_FAULT_nan_blocks (warm.map nanBlocksOf).sum

/-- The WARM image of a HOT session written to a tier (R78; R82, step 2). -/
def writeImage (sid : Nat) (x : Session) (tier : Nat) (b : Block) : Option Block :=
  let warm := toWarmRows b x
  (putImage sid tier x warm b).map (countNanBlocks warm)

/-- A park runs (R82): the short flush, the image, in single-home mode the log and scratch, and the mark. -/
def finishPark (sid : Nat) (m : Motion) (b : Block) : Block :=
  match session b sid with
  | none => b
  | some x =>
    match flushRows sid x.staging.confirmed b with
    | .quota b => failMotion sid St.quota b
    | .noFrame b => b
    | .ok b' =>
      match (kvRead sid b').or (unitRead sid (motionReads b' x) b') with
      | some b => integrityEnds sid b
      | none =>
        let x := (session b' sid).getD x
        let imaged := if m.toDepth = dWarm then writeImage sid x m.toTier b' else some b'
        match (imaged.bind fun b => if singleHome b then relocate sid m.toTier b else some b).bind (markLog sid m) with
        | none => tierFailure sid false b'
        | some b => parkCommit sid x m b

/-- A demotion from WARM to COLD runs (Table 4.1): the image is released; in single-home mode the log and scratch go to
the tier chosen for COLD (R41, Table 4.2). -/
def finishDemote (sid : Nat) (m : Motion) (b : Block) : Block :=
  match ((session b sid).bind fun x => unitRead sid (motionReads b x) b),
      (if singleHome b then relocate sid m.toTier b else some b) with
  | some b, _ => integrityEnds sid b
  | none, none => tierFailure sid false b
  | none, some b =>
    (reach sid dCold m.toTier (fun x => { x with computed := 0 }) (releaseWarm sid b)).bump F.PNE_CNT_MOTION_parks

/-- A run of extents copied as ciphertext to another tier: it keeps its serials and key version (R132), so the same blocks stand
there. -/
def copyRun (key tier : Nat) (b : Block) : Option Block :=
  match tget b.ses.extents key with
  | none => some b
  | some e =>
    if tierSupplies b tier e.count then
      let units := if tier = 0 then [] else tierUnits b tier e.count
      let e := { e with tier := tier, units := units }
      some (writeBlocks e 0 e.image { b with ses := { b.ses with extents := tset b.ses.extents key e } })
    else none

/-- A re-tier runs (Table 4.1). -/
def finishRetier (sid : Nat) (m : Motion) (b : Block) : Block :=
  match session b sid with
  | none => b
  | some x =>
    let copied := if hasKey b x.tenant then (warmRuns b sid).foldl (fun acc k => acc.bind (copyRun k m.toTier)) (some b)
                  else none
    match unitRead sid (motionReads b x) b, copied.bind fun b => if singleHome b then relocate sid m.toTier b else some b with
    | some b, _ => integrityEnds sid b
    | none, none => tierFailure sid false b
    | none, some b => reach sid dWarm m.toTier id b

/-- The page table that a shadow slot's frames make (R97). -/
def shadowTable (b : Block) (x : Session) (sh : Shadow) : PageTable :=
  let c := capOf b x
  let base := (pageOf x.prefixTokens c).1
  let entry := fun (i key : Nat) =>
    let (serial, order) := ((tget b.ses.frames key).map fun f => (f.serial, f.order)).getD (0, 0)
    (⟨key, serial, order, decide (pageStart (base + i + 1) c ≤ x.prefixTokens + x.computed)⟩ : PageEntry)
  { newTable b x.cls x.tenant x.prefixTokens (some c) with
    rows := x.computed, entries := (sh.frames.zipIdx).map fun e => entry e.2 e.1 }

/-- Frames for a revival from WARM (R83, steps 1 and 2, R97), or why there are none. -/
def reviveFrames (sid : Nat) (x : Session) (b : Block) : Flush :=
  match x.shadow with
  | some sh =>
    let t := shadowTable b x sh
    let (t, b) := publish { t with entries := [] } t (sh.frames.foldl (fun b k => addRef k b) b)
    .ok (updSession sid (fun x => { x with table := some t, shadow := none }) b)
  | none =>
    if x.computed = 0 then .ok b
    else
      let rows := [warmRows b sid x]
      let b := shedShadows sid x rows (b.ses.slots.length + 1) b
      match tryLand sid x rows b with
      | .ok t b => .ok (updSession sid (fun x => { x with table := some t }) b)
      | .quota => .quota b
      | .noFrame => .noFrame b

/-- A revival from WARM runs (R83). -/
def finishReviveWarm (sid : Nat) (x : Session) (b : Block) : Block :=
  if hasKey b x.tenant = false then tierFailure sid true b
  else match unitRead sid (motionReads b x) b with
  | some b => integrityEnds sid b
  | none =>
    match relocate sid 0 b with
    | none => tierFailure sid false b
    | some b =>
      match reviveFrames sid x b with
      | .quota b => failMotion sid St.quota b
      | .noFrame b => b
      | .ok b =>
        (reach sid dHot 0 (fun x => { x with reviveCount := x.reviveCount + 1, staging := ⟨0, 0⟩ }) (releaseWarm sid b)).bump
          F.PNE_CNT_MOTION_revives

/-- A revival from COLD ends when the step engine has computed the last row (R84). -/
def finishReviveCold (sid : Nat) (x : Session) (b : Block) : Block :=
  if hasKey b x.tenant = false then tierFailure sid (waitsOnLower b sid) b
  else match unitRead sid (motionReads b x) b with
  | some b => integrityEnds sid b
  | none =>
    if x.computed < privatePositions x then b
    else match relocate sid 0 b with
      | none => tierFailure sid false b
      | some b =>
        (reach sid dHot 0 (fun x => { x with reviveCount := x.reviveCount + 1 }) b).bump F.PNE_CNT_MOTION_revives

/-- A revival runs. -/
def finishRevive (sid : Nat) (b : Block) : Block :=
  match session b sid with
  | none => b
  | some x => if x.depth = dCold then finishReviveCold sid x b else finishReviveWarm sid x b

end Sys2Proof.Machine
end

