-- ==== Sys2Proof/Machine/SessOps.lean ====
section
/-! DEFINITION. The session manager's rules for instructions (chapter 2): handle checks, admission, the choice of depth
and tier, and the rows SOPEN, SCLOSE, COMPLETE and DESC_SELECT. -/

namespace Sys2Proof.Machine

/-- COMPLETE of a request (R62, R70 to R72). -/
def execComplete (rid : Nat) (s : State) : Host.Outcome State Fault Refusal := actC .none (runRow .complete complete rid) s

/-! ### Handle checks (R25, R29, R34) -/

/-- What a handle check answers. -/
inductive HandleCheck where
  | ok (sid : Nat) (x : Session)
  | fail (status : Nat) (b : Block)

/-- The handle check of R25 with the pair check of R29 and the quarantine answer of R34: for a ring's tenant, and a
request accepted at a place of the decode order. `anyState`: SCLOSE and restore are answered in QUARANTINE too. -/
def checkHandle (tenant accepted place h : Nat) (anyState : Bool) (b : Block) : HandleCheck :=
  if hTenant h ≠ tenant then .fail St.staleHandle (violation 1 tenant place h b)
  else if hGen h = 0 then .fail St.staleHandle b
  else match session b (hSlot h) with
    | none => .fail St.staleHandle b
    | some x =>
      if x.state = ssScrubbing then .fail St.staleHandle b
      else if pairsFail x then
        let b := readPairs (hSlot h) b
        let fix := fun (y : Session) => if x.badPairs.contains 0 then
            { y with tenant := hTenant h, gen := hGen h, badPairs := y.badPairs.filter (· ≠ 0) } else y
        .fail St.integrity (updSession (hSlot h) fix b)
      else if x.tenant ≠ hTenant h then .fail St.staleHandle (violation 1 tenant place h b)
      else if x.gen ≠ hGen h then .fail St.staleHandle b
      else if x.closing ∧ x.closeOrder < accepted then .fail St.staleHandle b
      else if x.state = ssQuarantine ∧ anyState = false then .fail x.qStatus b
      else .ok (hSlot h) x

/-- The session of an instruction checked, and the rest of its body run on it. -/
def withSession (c : Ctx) (anyState : Bool) (k : Nat → Session → Block → Ans) (b : Block) : Ans :=
  match checkHandle c.tenant c.rid c.ring (c.opB % 2 ^ 48) anyState b with
  | .fail st b => .done st none b
  | .ok sid x => k sid x b

/-! ### Admission (R33, R59) -/

/-- What an instruction needs of its session before it is admitted. -/
inductive Need where
  | any
  | settled
  | hot
  | idle
  deriving DecidableEq, Repr

/-- The need of an opcode (R33, R76, R86, R255, R258). -/
def needOf (op : Nat) (hintOnly : Bool) : Need :=
  if op = 0x06 ∧ hintOnly then .any
  else if op ∈ [0x03, 0x06] then .idle
  else if op ∈ [0x02, 0x04, 0x05, 0x10, 0x11] then .settled
  else if op ∈ [0x08, 0x18, 0x1B] then .hot
  else .any

/-- A session meets a need: no motion runs or waits on it, and it is HOT, or not enrolled. -/
def meets (n : Need) (x : Session) : Bool :=
  match n with
  | .any => true
  | .settled => x.motion.isNone
  | .hot => x.motion.isNone && decide (x.state = ssHot)
  | .idle => x.motion.isNone && !x.enrolled

/-- The entry a request runs now. -/
def currentEntry (q : Req) : Option Entry := q.instrs[q.pc]?

/-- Another instruction that names the session, was decoded earlier, waits already and could be admitted now goes first
(R33, R59; log entry 12: only instructions that wait are ordered). A STEP or PREFILL that the step engine holds has been
admitted. -/
def earlierWaiter (b : Block) (rid order h : Nat) (x : Session) : Bool :=
  b.fe.reqs.any fun e =>
    decide (e.1 ≠ rid) && decide (e.2.kind = .normal) && e.2.started && decide (e.2.wait = .retry ∨ e.2.wait = .enrol) &&
    !((allSeqs b).any fun s => decide (s.rid = some e.1)) &&
    match currentEntry e.2 with
    | none => false
    | some i => decide (i.order < order) && decide (entryHandle b (reqTenant b e.2) i = some h) &&
        meets (needOf i.opcode (i.a.testBit 4)) x

/-- An instruction may be admitted to its session now (R33). -/
def admitted (b : Block) (c : Ctx) (sid : Nat) (x : Session) (n : Need) : Bool :=
  meets n x && !earlierWaiter b c.rid c.e.order (handleOf sid x) x

/-! ### Choice of depth and tier (R41, R77) -/

/-- KV formats that have a WARM form (R77): FP8-E4M3 and FP8-E5M2 with block scaling, coded as in Table 4.6. -/
def hasWarmForm (fmt : Nat) : Bool := fmt.testBit 4 && (decide (fmt % 16 = 3) || decide (fmt % 16 = 4))

/-- The KV format of a session's model. -/
def sessionFormat (b : Block) (x : Session) : Nat := ((modelSlot b x.modelSlot).map (·.kvFormat)).getD 0

/-- Extents of a session's WARM image. -/
def warmExtents (b : Block) (x : Session) : Nat :=
  extentsFor ((if x.depth = dHot then privatePositions x - pendingPositions x else x.computed) * warmRowBytes (geomOf b x))

/-- Extents of a WARM tier that motions admitted before will take for a tenant (R39, R41). -/
def warmSoon (b : Block) (tenant tier : Nat) : Nat :=
  (b.ses.slots.map fun e => match e.2.motion with
    | some m =>
      if e.2.tenant = tenant ∧ m.toDepth = dWarm ∧ m.toTier = tier ∧ (m.kind = .park ∨ m.kind = .retier) then warmExtents b e.2 else 0
    | none => 0).sum

/-- A WARM tier has room (R41): a WARM form exists, the quota has room, and the tier can supply the space, what motions
admitted before will take included. -/
def warmRoom (b : Block) (x : Session) (tier : Nat) : Bool :=
  let n := warmExtents b x + warmSoon b x.tenant tier
  hasWarmForm (sessionFormat b x) && decide (tier < 3)
    && decide (warmBytes b x.tenant tier + n * extentBytes ≤ warmLimit b x.tenant tier) && tierSupplies b tier n

/-- The tier of the log and scratch of a COLD target in single-home mode (R41): a tier that holds them already, or can supply
their pieces, each unit contiguous within one extent (R300). -/
def coldTierOk (b : Block) (x : Session) (tier : Nat) : Bool :=
  let place := fun (n : Nat) (p : Option Place) (b : Block) =>
    if p.isSome ∧ unitTier b p = tier then some b else (placeUnit tier x.tenant n b).map (·.2)
  decide (tier < 3) && ((place (4 * x.log.length) x.logPlace b).bind (place x.scratch.length x.scratchPlace)).isSome

/-- First of HBM, host and neighbour that satisfies a test, the preferred tier tried first; with whether an earlier one
was passed over. -/
def firstTier (ok : Nat → Bool) (preferred : Option Nat) : Option (Nat × Bool) :=
  let order := match preferred with
    | some p => p :: [0, 1, 2].filter (· ≠ p)
    | none => [0, 1, 2]
  (order.find? ok).map fun k => (k, decide (order.head? ≠ some k))

/-- What R41 chooses. -/
inductive Choice where
  /-- A target depth and tier; a fallback was made. -/
  | go (depth tier : Nat) (fallback : Bool)
  | quota (fallback : Bool)
  deriving DecidableEq, Repr

/-- The tenant's `deepest` allows COLD. -/
def coldAllowed (b : Block) (t : Nat) : Bool := decide (b.getFi F.SES_TQ_POLICY_deepest t = 1)

/-- The choice of R41. `depth` and `tier` are what the instruction names, 3 for nothing; `down`: a park or a demotion,
to which a hint of HOT gives nothing. A choice that settles on another target than the first one counts as one fallback
(R77, log entry 16); a session needs no room in the tier that holds it. -/
def chooseTarget (b : Block) (x : Session) (depth tier : Nat) (down : Bool) : Choice :=
  let hint := if x.hintDepth = 3 ∨ (down ∧ x.hintDepth = dHot) then none else some x.hintDepth
  let policy := if b.getFi F.SES_TQ_POLICY_idle_depth x.tenant = 1 then dCold else dWarm
  let d := if depth ≠ 3 then depth else hint.getD policy
  let t := if tier ≠ 3 then some tier else if x.hintTier ≠ 3 then some x.hintTier
           else if b.getFi F.SES_TQ_POLICY_warm_tier x.tenant ≠ 3 then some (b.getFi F.SES_TQ_POLICY_warm_tier x.tenant)
           else none
  let d' := if d = dCold ∧ coldAllowed b x.tenant = false ∧ depth ≠ dCold then dWarm else d
  let cold := fun (fell : Bool) =>
    if singleHome b then
      match firstTier (coldTierOk b x) t with
      | some (k, f) => Choice.go dCold k (fell || f)
      | none => .quota true
    else .go dCold 0 fell
  let warmOk := fun k => (decide (x.depth = dWarm) && decide (k = x.warmTier)) || warmRoom b x k
  if d' = dHot then .go dHot 0 false
  else if d' = dCold then (if coldAllowed b x.tenant then cold false else .quota false)
  else if x.depth = dCold then .go dWarm 0 false
  else match firstTier warmOk t with
    | some (k, f) => .go dWarm k f
    | none => if coldAllowed b x.tenant then cold true else .quota true

/-- A fallback counted (R41). -/
def countFallback (f : Bool) (b : Block) : Block := if f then b.bump F.SES_STAT_fallback_count else b

/-! ### Pannier headers -/

/-- Fields of a pannier header (Table 4.6). -/
def hdrField (h : Bytes) (lo n : Nat) : Nat := bytesAt h lo n
def hdrOld (h : Bytes) : Bool := decide (hdrField h 4 2 = 0x0100)
def hdrFlag (h : Bytes) (i : Nat) : Bool := (hdrField h 6 2).testBit i
def hdrTenant (h : Bytes) : Nat := hdrField h 14 2
def hdrDepth (h : Bytes) : Nat := hdrField h 17 1
def hdrTokens (h : Bytes) : Nat := hdrField h 20 4
def hdrPrefixTokens (h : Bytes) : Nat := hdrField h 28 4
def hdrStaged (h : Bytes) : Nat := if hdrFlag h 2 then hdrField h 108 4 else 0
def hdrMoveId (h : Bytes) : Nat := hdrField h 144 8

/-! ### SOPEN and SCLOSE -/

/-- Sessions of a tenant in any state but FREE (Table 2.15). -/
def tenantSessions (b : Block) (t : Nat) : Nat := (b.ses.slots.filter fun e => decide (e.2.tenant = t)).length

/-- Slots that inbound panniers reserve and have not taken, of those a test chooses (R86). -/
def reservedSlots (b : Block) (of_ : Bytes → Bool) : Nat :=
  (b.ses.inbound.filter fun e => of_ e.2.header && !((e.2.ready.bind fun r => session b r.1).isSome)).length

/-- What counts against `max_sessions`: sessions, and reservations (R39, R86). -/
def tenantPlaces (b : Block) (t : Nat) : Nat := tenantSessions b t + reservedSlots b fun h => decide (hdrTenant h = t)

/-- FREE slots (R24). -/
def freeSlots (b : Block) : Nat := numSlots - b.ses.firstUnused + b.ses.freed.length

/-- The slot that has been FREE longest, with its last generation: never-used slots first, in ascending order (R24, log
entry 13). -/
def oldestFree (b : Block) : Option (Nat × Nat) :=
  if b.ses.firstUnused < numSlots then some (b.ses.firstUnused, 0) else b.ses.freed.head?

/-- That slot taken from the free list. -/
def takeFree (b : Block) : Block :=
  if b.ses.firstUnused < numSlots then { b with ses := { b.ses with firstUnused := b.ses.firstUnused + 1 } }
  else { b with ses := { b.ses with freed := b.ses.freed.tail } }

/-- The generation after a generation (R24): from 0xFFF to 0x001. -/
def nextGen (g : Nat) : Nat := if g = 0xFFF then 1 else g + 1

/-- A descriptor at allocation (Table 2.2). -/
def newSession (gen tenant model cls cog maxContext now : Nat) (tag : Bytes) : Session where
  gen := gen
  tenant := tenant
  state := ssHot
  modelSlot := model
  cls := cls
  depth := dHot
  warmTier := 0
  closing := false
  enrolled := false
  vecItems := 0
  prefixHandle := 0
  prefixTokens := 0
  lastActiveNs := now
  resumeHintNs := 0
  hintSpent := false
  hintDepth := 3
  hintTier := 3
  cog := cog
  clist := 0xFFF
  draftSlot := 0xFF
  maxContext := maxContext
  parkCount := 0
  reviveCount := 0
  moveCount := 0
  qStatus := 0
  qSite := 0
  openNs := now
  userTag := tag
  badPairs := []
  closeOrder := 0
  log := []
  scratch := []
  computed := 0
  table := none
  oldTables := []
  staging := ⟨0, 0⟩
  quanta := []
  stageRows := []
  logPlace := none
  scratchPlace := none
  shadow := none
  liftWait := none
  motion := none
  moveOut := none
  badUnits := []
  badTable := false

/-- A slot allocated for a session (R24, rows 1 and 2), with its number. -/
def allocSlot (mk : Nat → Session) (b : Block) : Option (Nat × Block) :=
  (oldestFree b).map fun (sid, g) => (sid, setSession sid (mk (nextGen g)) (takeFree b))

/-- The model slot of an SOPEN is one a session of the tenant may run (R341). -/
def modelUsable (b : Block) (tenant slot : Nat) : Bool :=
  match modelSlot b slot with
  | none => false
  | some m => decide (m.state = 1) && !m.draft && (m.shared || decide (m.owner = tenant))

/-- SOPEN (R24, R32, R39, R242, R243, R341). -/
def sopen (c : Ctx) (b : Block) : Ans :=
  let slot := bitsOf c.e.a 0 8
  match modelSlot b slot with
  | none => Ans.malformed b
  | some m =>
    if m.state ≠ 1 ∨ m.draft then Ans.malformed b
    else if m.shared = false ∧ m.owner ≠ c.tenant then Ans.malformed (violation 5 c.tenant c.ring slot b)
    else if cogUsable b c.tenant (bitsOf c.e.a 8 4) = false then
      Ans.malformed (if foreignCog b c.tenant (bitsOf c.e.a 8 4) then violation 5 c.tenant c.ring (bitsOf c.e.a 8 4) b else b)
    else if m.damaged then .done St.integrity none b
    else if b.getFi F.SES_TQ_LIMITS_max_sessions c.tenant ≤ tenantPlaces b c.tenant then .done St.quota none b
    else if freeSlots b ≤ reservedSlots b (fun _ => true) then .done St.quota none (b.setF F.SES_STAT_table_full 1)
    else
      let mk := fun g => newSession g c.tenant slot m.cls (bitsOf c.e.a 8 4) (c.arg b 32 4) b.now (b.peek (c.blk + 40) 16)
      match allocSlot mk b with
      | none => .done St.quota none (b.setF F.SES_STAT_table_full 1)
      | some (sid, b) =>
        let h := mkHandle c.tenant sid (((session b sid).map (·.gen)).getD 0)
        .done St.ok (some (leBytes 6 h)) (noteNamed c.rid h b)

/-- SOPEN of a request (row 1 of Table 2.5). -/
def execSopen (rid : Nat) (s : State) : Host.Outcome State Fault Refusal := actC .none (runRow .sopen sopen rid) s

/-- Every other request that names a session and was accepted before a place of the decode order is cancelled (R33). -/
def cancelNaming (rid order h : Nat) (b : Block) : Block :=
  (b.fe.reqs.filter fun e => decide (e.1 ≠ rid) && decide (e.1 < order) && refersTo b e.2 h).foldl
    (fun b e => updReq e.1 (fun q => { q with closedBy := h :: q.closedBy }) (cancelRequest e.1 b)) b

/-- SCLOSE accepted on a session (rows 16 and 18): in QUARANTINE it is scrubbed; otherwise it closes, its shadow slot
is dropped and the other requests that name it are cancelled. -/
def closeSession (rid order sid : Nat) (x : Session) (b : Block) : Block :=
  if x.state = ssQuarantine then enterScrubbing sid b
  else
    let b := dropShadow sid (updSession sid (fun x => { x with closing := true, closeOrder := order }) b)
    cancelNaming rid order (handleOf sid x) b

/-- SCLOSE (R33): on an IN_MOTION session it takes effect when the motion ends. -/
def sclose (c : Ctx) (b : Block) : Ans :=
  withSession c true (fun sid x b =>
    if x.closing ∧ x.state ≠ ssQuarantine then .done St.ok none b
    else if x.state ≠ ssQuarantine ∧ admitted b c sid x .settled = false then .wait .retry b
    else .done St.ok none (closeSession c.rid c.e.order sid x b)) b

/-- SCLOSE of a request (rows 16 and 18 of Table 2.5). -/
def execSclose (rid : Nat) (s : State) : Host.Outcome State Fault Refusal := actC .none (runRow .sclose sclose rid) s

/-! ### The descriptor window (R43, R44) -/

/-- 32 words of zeros. -/
def zeroWindow (n : Nat) : List (BitVec 64) := List.replicate n 0

/-- A write of SES_DESC_SEL (R25, R29, R43; confidential mode: Table 15.5): the selection, `valid` and the snapshot. -/
def descSelect (who : Caller) (val : Nat) (b : Block) : Block :=
  let h := bitsOf val 0 48
  let none_ := fun (b : Block) =>
    Block.setF { b with ses := { b.ses with descWin := zeroWindow 32 } } F.SES_DESC_SEL_valid 0
  let b := b.setF F.SES_DESC_SEL_handle h
  if who.isMgmt ∧ b.rtp.conf then none_ b
  else if who.tenant? ≠ none ∧ who.tenant? ≠ some (hTenant h) then none_ b
  else
    let shown := (session b (hSlot h)).map (descriptorWords b (hSlot h))
    match checkHandle (hTenant h) 0 0 h true b with
    | .ok sid x =>
      Block.setF { b with ses := { b.ses with descWin := descriptorWords b sid x } } F.SES_DESC_SEL_valid 1
    | .fail st b =>
      if st = St.integrity then
        -- the words as found (R29, R43; log entry 14)
        Block.setF { b with ses := { b.ses with descWin := shown.getD (zeroWindow 32) } } F.SES_DESC_SEL_valid 1
      else none_ b

/-- DESC_SELECT: a write of SES_DESC_SEL (R43). -/
def execDescSelect (who : Caller) (val : BitVec 64) (s : State) : Host.Outcome State Fault Refusal :=
  act .none (descSelect who val.toNat) s

end Sys2Proof.Machine
end

