-- ==== Sys2Proof/Machine/Kv.lean ====
section
/-! DEFINITION. Prefix handles (R127 to R130, R134): PFXPIN, PFXFORK, PFXDROP and the prefix window. -/

namespace Sys2Proof.Machine

/-- Entries of a log up to and including its `n`-th token (R128, step 3; log entry 19: a mark after the last position is
not of the range). -/
def logPrefix : (n : Nat) → List (BitVec 32) → List (BitVec 32)
  | 0, _ => []
  | _, [] => []
  | n + 1, e :: es => if e.toNat < 0xFFFF0000 then e :: logPrefix n es else e :: logPrefix (n + 1) es

/-- A count of positions ends a group (R116): 16 positions after the last start, or at a mark. `g` counts the positions
of the group so far. -/
def endsGroup : (g n : Nat) → List (BitVec 32) → Bool
  | g, 0, e :: _ => decide (g % 16 = 0) || decide (e = depthMark)
  | g, 0, [] => decide (g % 16 = 0)
  | _, _ + 1, [] => false
  | g, n + 1, e :: es => if e = depthMark then endsGroup 0 (n + 1) es else endsGroup (g + 1) n es

/-- Prefix records of a tenant, PINNED or DROPPED (R127). -/
def tenantPrefixes (b : Block) (t : Nat) : Nat := (b.ses.prefixes.filter fun e => decide (e.2.tenant = t)).length

/-- The record that a tenant's name is bound to (R127). -/
def boundPrefix (b : Block) (tenant handle : Nat) : Option (Nat × Prefix) :=
  b.ses.prefixes.find? fun e => decide (e.2.tenant = tenant ∧ e.2.handle = handle)

/-- `max_prefixes` of a tenant (Table 5.22), and of the module (R127). -/
def prefixRoom (b : Block) (t : Nat) : Bool :=
  decide (tenantPrefixes b t < b.getFi F.PGM_TQ_PAGE_max_prefixes t) && decide (b.ses.prefixes.length < 65536)

/-- The prefix table of the first `count` positions of a supplier's table (R128, step 2). -/
def prefixTable (t : PageTable) (count : Nat) (b : Block) : PageTable × Block :=
  let none_ : PageTable := { t with version := 0, basePage := 0, rows := count, entries := [], blocks := [] }
  publish none_ { none_ with entries := t.entries.take ((pageOf (count - 1) t.cap).1 + 1) } b

/-- PFXPIN's steps 1 to 5 (R128). Where HBM has no piece for the log copy the record stands without a place for it (log entry
149). -/
def pinPrefix (sid : Nat) (x : Session) (t : PageTable) (handle count : Nat) (b : Block) : Bytes × Block :=
  let log := logPrefix count x.log
  let dg := sha256 (weightsOf b x ++ logBytes log)
  let (pt, b) := prefixTable t count b
  let b := pt.entries.foldl (fun b e => addRef e.frame b) b
  let (place, b) := (placeUnit 0 x.tenant (4 * log.length) b).getD (none, b)
  let p : Prefix :=
    { tenant := x.tenant, handle := handle, pstate := 1, damaged := false, modelSlot := x.modelSlot, cls := x.cls,
      attach := 0, table := pt, tokens := count, log := log, digest := dg, weights := weightsOf b x, pinNs := b.now,
      badPair := false, logPlace := place, supplier := sid, badTable := false }
  (dg, { b with ses := { b.ses with prefixes := tset b.ses.prefixes (freshKey b.ses.prefixes) p } })

/-- PFXPIN (R128, R342). -/
def pfxpin (c : Ctx) (b : Block) : Ans :=
  let handle := c.arg b 32 8
  let first := c.arg b 40 4
  let count := c.arg b 44 4
  withSession c false (fun sid x b =>
    if handle = 0 ∨ first ≠ 0 ∨ count = 0 then Ans.malformed b
    else if admitted b c sid x .hot = false then .wait .retry b
    else if (boundPrefix b c.tenant handle).isSome ∨ x.prefixHandle ≠ 0 ∨ privatePositions x < count
        ∨ endsGroup 0 count x.log = false ∨ ((modelSlot b x.modelSlot).map (·.state)).getD 0 ≠ 1 then Ans.malformed b
    else if prefixRoom b c.tenant = false then .done St.quota none b
    else match unitRead sid [2] b with
      | some b => .done St.integrity none b
      | none => match kvRead sid b with
        | some b => .done St.integrity none b
        | none => match x.table with
          | none => .wait .retry b
          | some t =>
            if t.rows < count then .wait .retry b
            else
              let (dg, b) := pinPrefix sid x t handle count b
              .done St.ok (some dg) b) b

/-- PFXPIN of a request (R128). -/
def execPfxpin (rid : Nat) (s : State) : Host.Outcome State Fault Refusal := actC .none (runRow .pfxpin pfxpin rid) s

/-- A session attached to a prefix record (R129). -/
def attachPrefix (sid key : Nat) (p : Prefix) (b : Block) : Block :=
  let b := { b with ses := { b.ses with prefixes := tset b.ses.prefixes key { p with attach := p.attach + 1 } } }
  updSession sid (fun x => { x with prefixHandle := p.handle, prefixTokens := p.tokens }) b

/-- A session whose attached record is damaged may move to a PINNED record of the same digest (R129). -/
def mayReattach (b : Block) (x : Session) (p : Prefix) : Bool :=
  match prefixOf b x with
  | some (_, old) => old.damaged && decide (old.digest = p.digest)
  | none => false

/-- PFXFORK (R129). -/
def pfxfork (c : Ctx) (b : Block) : Ans :=
  let handle := c.arg b 32 8
  withSession c false (fun sid x b =>
    if admitted b c sid x .any = false then .wait .retry b
    else match boundPrefix b c.tenant handle with
      | none => Ans.malformed b
      | some (key, p) =>
        if p.pstate ≠ 1 ∨ p.damaged then Ans.malformed b
        else if p.badPair || p.badTable then .done St.integrity none (damagePrefix key (b.bump F.PGM_STAT_integ_count))
        else if mayReattach b x p then .done St.ok none (attachPrefix sid key p (detachPrefix sid b))
        else if x.log ≠ [] ∨ x.prefixHandle ≠ 0 ∨ weightsOf b x ≠ p.weights ∨ x.maxContext < p.tokens then Ans.malformed b
        else
          let b := attachPrefix sid key p b
          let partial_ := decide ((pageOf p.tokens p.table.cap).2 ≠ 0)
          let x := (session b sid).getD x
          let (t, b') := startTable b x
          .done St.ok none (if partial_ then updSession sid (fun x => { x with table := some t }) b' else b)) b

/-- PFXFORK of a request (R129). -/
def execPfxfork (rid : Nat) (s : State) : Host.Outcome State Fault Refusal := actC .none (runRow .pfxfork pfxfork rid) s

/-- PFXDROP (R130). -/
def pfxdrop (c : Ctx) (b : Block) : Ans :=
  match boundPrefix b c.tenant c.opB with
  | none => Ans.malformed b
  | some (key, p) =>
    if p.pstate ≠ 1 then Ans.malformed b
    else
      let b := { b with ses := { b.ses with prefixes := tset b.ses.prefixes key { p with pstate := 2 } } }
      .done St.ok none (if p.attach = 0 then releasePrefix key b else b)

/-- PFXDROP of a request (R130). -/
def execPfxdrop (rid : Nat) (s : State) : Host.Outcome State Fault Refusal := actC .none (runRow .pfxdrop pfxdrop rid) s

/-! ### The prefix window (R134) -/

/-- The 16 words of a prefix record (Table 5.7). -/
def prefixWords (b : Block) (key : Nat) (p : Prefix) : List (BitVec 64) :=
  let state := p.tenant + p.pstate * 2 ^ 12 + (if p.damaged then 2 ^ 14 else 0) + p.modelSlot * 2 ^ 16 + p.cls * 2 ^ 24
    + p.attach % 2 ^ 32 * 2 ^ 32
  let root := tierPtr 0 0 (Config.rootAddr (numSlots + key) p.table.version)
  [p.handle, compl64 p.handle, state, if p.badPair then state else compl64 state, root, compl64 root,
   p.tokens + p.log.length * 2 ^ 32, placePtr b p.logPlace, bytesAt p.digest 0 8, bytesAt p.digest 8 8,
   bytesAt p.digest 16 8, bytesAt p.digest 24 8, p.pinNs, 0, 0, 0].map (BitVec.ofNat 64)

/-- A write of PGM_PFX_SEL (R134, Table 15.5): the record of the caller's tenant, or of the tenant PGM_PFX_TEN holds. -/
def pfxSelect (who : Caller) (handle : Nat) (b : Block) : Block :=
  let tenant := who.tenant?.getD (b.getF F.PGM_PFX_TEN_tenant)
  let shown := if who.isMgmt ∧ b.rtp.conf then none else boundPrefix b tenant handle
  match shown with
  | none => Block.setF { b with ses := { b.ses with pfxWin := zeroWindow 16 } } F.PGM_PFX_TEN_valid 0
  | some (key, p) => Block.setF { b with ses := { b.ses with pfxWin := prefixWords b key p } } F.PGM_PFX_TEN_valid 1

/-- PFX_SELECT: a write of PGM_PFX_SEL (R134). -/
def execPfxSelect (who : Caller) (val : BitVec 64) (s : State) : Host.Outcome State Fault Refusal :=
  act .none (pfxSelect who val.toNat) s

end Sys2Proof.Machine
end

