-- ==== Sys2Proof/Machine/Text.lean ====
section
/-! DEFINITION. The text unit (chapter 10): loading and unloading cogs and constraint lists, tokenising, detokenising,
CONSTRAIN, and the constraint automaton. -/

namespace Sys2Proof.Machine

/-! ### UTF-8 (R246, Table 10.4) -/

/-- The bytes after a first byte: how many there are, and the range of the first of them. -/
def utf8Lead (f : Nat) : Option (Nat × Nat × Nat) :=
  if f ≤ 0x7F then some (0, 0x80, 0xBF)
  else if 0xC2 ≤ f ∧ f ≤ 0xDF then some (1, 0x80, 0xBF)
  else if f = 0xE0 then some (2, 0xA0, 0xBF)
  else if f = 0xED then some (2, 0x80, 0x9F)
  else if 0xE1 ≤ f ∧ f ≤ 0xEF then some (2, 0x80, 0xBF)
  else if f = 0xF0 then some (3, 0x90, 0xBF)
  else if 0xF1 ≤ f ∧ f ≤ 0xF3 then some (3, 0x80, 0xBF)
  else if f = 0xF4 then some (3, 0x80, 0x8F)
  else none

/-- What stands at a position: a well-formed character of some bytes, a valid start that the bytes cut short, or an
invalid byte. -/
inductive CharAt where
  | whole (n : Nat)
  | cut
  | invalid
  deriving DecidableEq, Repr

/-- The continuation bytes of a character: `n` more, the first of them within a range. -/
def utf8Tail : (n lo hi taken : Nat) → Bytes → CharAt
  | 0, _, _, k, _ => .whole k
  | _ + 1, _, _, _, [] => .cut
  | n + 1, lo, hi, k, c :: cs =>
    if lo ≤ c.toNat ∧ c.toNat ≤ hi then utf8Tail n 0x80 0xBF (k + 1) cs else .invalid

/-- The character at the start of a byte string. -/
def charAt : Bytes → CharAt
  | [] => .cut
  | f :: rest =>
    match utf8Lead f.toNat with
    | none => .invalid
    | some (n, lo, hi) => utf8Tail n lo hi 1 rest

/-- A byte string is well-formed UTF-8; the first argument bounds its characters. -/
def utf8Ok : Nat → Bytes → Bool
  | _, [] => true
  | 0, _ => false
  | f + 1, bs =>
    match charAt bs with
    | .whole n => utf8Ok f (bs.drop n)
    | _ => false

/-! ### Images (R239 to R241, R256, R257) -/

/-- Largest image: 64 MiB. -/
def imageMax : Nat := 2 ^ 26

/-- `n` entries of 8 bytes as values (Table 10.2). -/
def entryWords : Nat → Bytes → List Nat
  | 0, _ => []
  | n + 1, bs => leVal (bs.take 8) :: entryWords n (bs.drop 8)

/-- The entry of token `t` as a cog image gives it; none where R241 refuses it. -/
def cogEntry (strs : Bytes) (fbBase t w : Nat) : Option CogEntry :=
  let off := bitsOf w 0 32
  let len := bitsOf w 32 9
  let kind := bitsOf w 41 2
  let inByte := decide (fbBase ≤ t) && decide (t < fbBase + 256)
  let s := (strs.drop off).take len
  if kind = 3 ∨ bitsOf w 43 21 ≠ 0 ∨ 256 < len then none
  else if decide (kind = 1) ≠ inByte then none
  else if kind = 1 then (if len = 0 then some ⟨1, [BitVec.ofNat 8 (t - fbBase)]⟩ else none)
  else if len ≠ 0 ∧ strs.length < off + len then none
  else if kind = 0 ∧ (len = 0 ∨ utf8Ok len s = false) then none
  else some ⟨kind, s⟩

/-- The entries of a cog image in token-ID order; none where one is refused. -/
def cogEntries (strs : Bytes) (fbBase : Nat) : (t : Nat) → List Nat → Option (List CogEntry)
  | _, [] => some []
  | t, w :: ws =>
    match cogEntry strs fbBase t w with
    | none => none
    | some e => (cogEntries strs fbBase (t + 1) ws).map (e :: ·)

/-- No two byte strings of a list are equal. -/
def allDistinct : List Bytes → Bool
  | [] => true
  | s :: ss => !ss.contains s && allDistinct ss

/-- The cog that an image holds (R239, R241); none where the load is refused. -/
def parseCog (img : Bytes) (tenant : Nat) (shared : Bool) (now : Nat) : Option Cog :=
  let v := bytesAt img 8 4
  let fb := bytesAt img 12 4
  let marker := bytesAt img 16 4
  let sb := bytesAt img 20 4
  if img.length < 64 ∨ imageMax < img.length ∨ bytesAt img 0 4 ≠ 0x54434F47 ∨ bytesAt img 4 2 ≠ 0x0100
      ∨ bytesAt img 6 2 ≠ 0 ∨ bytesAt img 24 40 ≠ 0 ∨ v < 257 ∨ 1048576 < v ∨ v ≤ fb + 255
      ∨ img.length ≠ 64 + 8 * v + sb then none
  else
    match cogEntries (img.drop (64 + 8 * v)) fb 0 (entryWords v (img.drop 64)) with
    | none => none
    | some es =>
      let markerOk := decide (marker = 0xFFFFFFFF) || ((es[marker]?).map fun e => decide (e.kind = 2)).getD false
      if markerOk = false ∨ allDistinct ((es.filter fun e => decide (e.kind = 0)).map (·.bytes)) = false then none
      else some ⟨slReady, shared, tenant, fb, if marker = 0xFFFFFFFF then none else some marker, es, sha256 img, now, false⟩

/-- An entry of a constraint-list image (R256): a banned sequence, or a trigger and a body. -/
inductive ListEntry where
  | banned (seq : List Nat)
  | forced (trigger body : List Nat)
  deriving DecidableEq, Repr

/-- `n` token IDs. -/
def tokenWords : Nat → Bytes → List Nat
  | 0, _ => []
  | n + 1, bs => leVal (bs.take 4) :: tokenWords n (bs.drop 4)

/-- `n` entries of a list image; none where an entry breaks R256, a token ID is at or above `v`, or the bytes do not end
with the last entry. -/
def listEntries (v : Nat) : (n : Nat) → Bytes → Option (List ListEntry)
  | 0, bs => if bs = [] then some [] else none
  | n + 1, bs =>
    let kind := bytesAt bs 0 1
    let tlen := bytesAt bs 1 1
    let blen := bytesAt bs 2 1
    let size := 4 + 4 * (tlen + blen)
    let toks := tokenWords (tlen + blen) (bs.drop 4)
    let lensOk := decide (1 ≤ tlen ∧ tlen ≤ 64) &&
      (if kind = 0 then decide (blen = 0) else decide (kind = 1 ∧ 1 ≤ blen ∧ blen ≤ 64))
    if bs.length < size ∨ bytesAt bs 3 1 ≠ 0 ∨ lensOk = false ∨ toks.all (fun t => decide (t < v)) = false then none
    else (listEntries v n (bs.drop size)).map fun es =>
      (if kind = 0 then ListEntry.banned toks else .forced (toks.take tlen) (toks.drop tlen)) :: es

/-- The non-empty proper prefixes of a sequence. -/
def properPrefixes (s : List Nat) : List (List Nat) := (List.range (s.length - 1)).map fun i => s.take (i + 1)

/-- States of the automaton of a list (R257). -/
def listStates (banned : List (List Nat)) (forced : List (List Nat × List Nat)) : Nat :=
  1 + ((banned ++ forced.map (·.1)).flatMap properPrefixes).eraseDups.length + (forced.map (·.2.length)).sum

/-- The constraint list that an image holds (R256, R257); none where the load is refused. -/
def parseList (img : Bytes) (tenant : Nat) (shared : Bool) (now : Nat) : Option CList :=
  let mode := bytesAt img 6 1
  let esc := bytesAt img 8 4
  let v := bytesAt img 12 4
  let count := bytesAt img 16 4
  if img.length < 128 ∨ imageMax < img.length ∨ bytesAt img 0 4 ≠ 0x54534C43 ∨ bytesAt img 4 2 ≠ 0x0100 ∨ 1 < mode
      ∨ bytesAt img 7 1 ≠ 0 ∨ (mode = 1 ∧ v ≤ esc) ∨ count = 0 ∨ 65536 < count ∨ bytesAt img 20 44 ≠ 0
      ∨ bytesAt img 96 32 ≠ 0 then none
  else match listEntries v count (img.drop 128) with
    | none => none
    | some es =>
      let banned := es.filterMap fun e => match e with
        | .banned s => some s
        | .forced _ _ => none
      let forced := es.filterMap fun e => match e with
        | .banned _ => none
        | .forced t d => some (t, d)
      let ones := (banned.filter fun s => decide (s.length = 1)).eraseDups.length
      let states := listStates banned forced
      if 4194304 < states ∨ v ≤ ones then none
      else some ⟨slReady, shared, tenant, decide (mode = 1), esc, v, (img.drop 64).take 32, banned, forced, states,
        sha256 img, now, false⟩

/-! ### Loading and unloading (R240 to R243, R257) -/

/-- The slot an MLOAD or MUNLOAD of a text image names (Table 10.3). -/
def textSlot (e : Entry) : Nat := bitsOf e.a 12 12

/-- The fields of operand A and of the block that Table 10.3 and R240 hold zero, and the slot's range. -/
def textFormBad (c : Ctx) (load : Bool) (limit : Nat) (b : Block) : Bool :=
  decide (bitsOf c.e.a 0 9 ≠ 0) || decide (bitsOf c.e.a 24 8 ≠ 0) || decide (limit ≤ textSlot c.e)
    || (if load then decide (c.arg b 48 16 ≠ 0) else decide (bitsOf c.e.a 11 1 ≠ 0))

/-- The image that a load names; none where its address breaks R54 or its length exceeds 64 MiB (R241, R257). -/
def loadImage (c : Ctx) (b : Block) : Option Bytes :=
  let addr := c.arg b 32 8
  let len := c.arg b 40 8
  if addr % 64 = 0 ∧ len ≤ imageMax ∧ c.reads b addr len = true then some (b.peek addr len) else none

/-- MLOAD of a cog (R240, R241). -/
def mloadCog (c : Ctx) (b : Block) : Ans :=
  let n := textSlot c.e
  if textFormBad c true 16 b then Ans.malformed b
  else if (cogOf b n).isSome then Ans.malformed (if foreignCog b c.tenant n then violation 5 c.tenant c.ring n b else b)
  else match loadImage c b with
    | none => Ans.malformed b
    | some img =>
      match parseCog img c.tenant (c.e.a.testBit 11) b.now with
      | none => Ans.malformed b
      | some cog =>
        match takeExtents 0 (extentsFor img.length) c.tenant (.cog n) b with
        | none => .done St.quota none b
        | some (_, b) => .done St.ok (some cog.digest) (setCog n (some cog) b)

/-- MLOAD_COG of a request (R241). -/
def execMloadCog (rid : Nat) (s : State) : Host.Outcome State Fault Refusal := actC .none (runRow .mloadCog mloadCog rid) s

/-- MLOAD of a constraint list (R240, R257). -/
def mloadList (c : Ctx) (b : Block) : Ans :=
  let n := textSlot c.e
  if textFormBad c true emptyList b then Ans.malformed b
  else if (listOf b n).isSome then Ans.malformed (if foreignList b c.tenant n then violation 5 c.tenant c.ring n b else b)
  else match loadImage c b with
    | none => Ans.malformed b
    | some img =>
      match parseList img c.tenant (c.e.a.testBit 11) b.now with
      | none => Ans.malformed b
      | some l =>
        match takeExtents 0 (extentsFor (img.length + Config.automatonBytes l.states)) c.tenant (.clist n) b with
        | none => .done St.quota none b
        | some (_, b) => .done St.ok (some l.digest) (setList n (some l) b)

/-- MLOAD_LIST of a request (R257). -/
def execMloadList (rid : Nat) (s : State) : Host.Outcome State Fault Refusal := actC .none (runRow .mloadList mloadList rid) s

/-- A ring may unload an image of a tenant (R243, R342): the loader's, or one whose `mgmt` and `models` bits are set. -/
def mayUnload (c : Ctx) (owner : Nat) (b : Block) : Bool :=
  decide (owner = c.tenant) || (decide (b.getFi F.CFE_RING_CFG_mgmt c.ring = 1) && decide (b.getFi F.CFE_RING_CFG_models c.ring = 1))

/-- MUNLOAD of a cog (R243). -/
def munloadCog (c : Ctx) (b : Block) : Ans :=
  let n := textSlot c.e
  if textFormBad c false 16 b then Ans.malformed b
  else match cogOf b n with
    | none => Ans.malformed b
    | some x =>
      if mayUnload c x.owner b = false then Ans.malformed (violation 5 c.tenant c.ring n b)
      else if x.state ≠ slReady then Ans.malformed b
      else .done St.ok none (setCog n (some { x with state := slDraining }) b)

/-- MUNLOAD_COG of a request (R243). -/
def execMunloadCog (rid : Nat) (s : State) : Host.Outcome State Fault Refusal := actC .none (runRow .munloadCog munloadCog rid) s

/-- MUNLOAD of a constraint list (R243). -/
def munloadList (c : Ctx) (b : Block) : Ans :=
  let n := textSlot c.e
  if textFormBad c false emptyList b then Ans.malformed b
  else match listOf b n with
    | none => Ans.malformed b
    | some x =>
      if mayUnload c x.owner b = false then Ans.malformed (violation 5 c.tenant c.ring n b)
      else if x.state ≠ slReady then Ans.malformed b
      else .done St.ok none (setList n (some { x with state := slDraining }) b)

/-- MUNLOAD_LIST of a request (R243). -/
def execMunloadList (rid : Nat) (s : State) : Host.Outcome State Fault Refusal :=
  actC .none (runRow .munloadList munloadList rid) s

/-! ### The request's cog (R242 to R244) -/

/-- The request's cog (R244). -/
def requestCog (q : Req) (x : Session) : Nat := q.cog.getD x.cog

/-- A cog that an instruction may use (R242, R243): usable anew, or draining and already held by the request or its
session. -/
def cogHeld (b : Block) (c : Ctx) (x : Session) (n : Nat) : Bool :=
  cogUsable b c.tenant n || (decide (c.req.cog = some n ∨ x.cog = n) && !foreignCog b c.tenant n && (cogOf b n).isSome)

/-- Images read by an instruction, some of whose reads miss the cache (Table 10.14; log entry 100). -/
def imageRead (b : Block) : Block :=
  let (m, b) := b.takeFresh
  b.bumpN F.TXU_MEM_cache_miss (Config.cacheMisses m)

/-- The cog an instruction names, checked (R242, R243, R307), and the rest of its body run with it. -/
def withCog (c : Ctx) (x : Session) (n : Nat) (k : Cog → Block → Ans) (b : Block) : Ans :=
  if cogHeld b c x n = false then
    Ans.malformed (if foreignCog b c.tenant n then violation 5 c.tenant c.ring n b else b)
  else match cogOf b n with
    | none => Ans.malformed b
    | some g =>
      if g.damaged then .done St.integrity none (tagFail 6 g.owner 0 false b)
      else if c.req.wait ≠ .none then k g b
      else k g (imageRead b)

/-! ### Tokenising (R246 to R250) -/

/-- The longest text entry that is a prefix of a byte string: its token and its length (R247). -/
def longestEntry (bs : Bytes) : (t : Nat) → List CogEntry → Option (Nat × Nat) → Option (Nat × Nat)
  | _, [], best => best
  | t, e :: es, best =>
    longestEntry bs (t + 1) es
      (if e.kind = 0 ∧ e.bytes.isPrefixOf bs ∧ ((best.map (·.2)).getD 0 < e.bytes.length) then some (t, e.bytes.length)
       else best)

/-- What a chunk gives: its tokens, the bytes held back, the invalid bytes and the bytes with no entry. -/
structure Tokens where
  toks : List (BitVec 32)
  held : Bytes
  invalid : Nat
  unmatched : Nat
  deriving DecidableEq, Repr

/-- A byte token (R239). -/
def byteToken (fb : Nat) (c : BitVec 8) : BitVec 32 := BitVec.ofNat 32 (fb + c.toNat)

/-- Tokens put before what the rest of a chunk gives. -/
def Tokens.push (toks : List (BitVec 32)) (invalid unmatched : Nat) (r : Tokens) : Tokens :=
  ⟨toks ++ r.toks, r.held, invalid + r.invalid, unmatched + r.unmatched⟩

/-- Native mode (R246 to R248): the bytes of a chunk, those held back before it included; `last`: no chunk follows. The
first argument bounds the positions. -/
def tokenise (fb : Nat) (es : List CogEntry) (last : Bool) : Nat → Bytes → Tokens
  | 0, _ => ⟨[], [], 0, 0⟩
  | _, [] => ⟨[], [], 0, 0⟩
  | f + 1, c :: cs =>
    match charAt (c :: cs) with
    | .invalid => (tokenise fb es last f cs).push [byteToken fb c] 1 0
    | .cut => if last then (tokenise fb es last f cs).push [byteToken fb c] 1 0 else ⟨[], c :: cs, 0, 0⟩
    | .whole n =>
      match longestEntry (c :: cs) 0 es none with
      | some (t, len) => (tokenise fb es last f ((c :: cs).drop len)).push [BitVec.ofNat 32 t] 0 0
      | none => (tokenise fb es last f ((c :: cs).drop n)).push (((c :: cs).take n).map (byteToken fb)) 0 n

/-- A chunk of `ids` mode: its log entries (R250). -/
def idsEntries (bs : Bytes) : List (BitVec 32) := (tokenWords (bs.length / 4) bs).map (BitVec.ofNat 32)

/-- The entries of an `ids` input are token IDs below V or depth marks, marks only where a WARM form exists and never two
in a row; `prev`: the entry before (R250). -/
def idsOk (v : Nat) (warm : Bool) : (prev : Option (BitVec 32)) → List (BitVec 32) → Bool
  | _, [] => true
  | prev, e :: es =>
    (decide (e.toNat < v) || (decide (e = depthMark) && warm && decide (prev ≠ some depthMark))) && idsOk v warm (some e) es

/-- The modes of TOKIN (R246, R249, R250). -/
inductive TokMode where
  | native
  | byte
  | ids
  deriving DecidableEq, Repr

/-! ### TOKIN -/

/-- A STEP or PREFILL of any request is in progress on a session (R252). -/
def stepsInProgress (b : Block) (sid : Nat) : Bool :=
  (allSeqs b).any fun s => decide (s.sid = sid) && match s.work with
    | .step _ => true
    | .prefill _ _ => true
    | _ => false

/-- The tokens of an input that the policy keeps (R253, Table 10.5). -/
def keepTokens (policy h l : Nat) (marker : Nat) (toks : List (BitVec 32)) : List (BitVec 32) :=
  let n := toks.length
  if n ≤ l then toks
  else if policy = 0 then toks.drop (n - l)
  else if policy = 1 ∨ l - 1 < h then toks.take l
  else toks.take h ++ [BitVec.ofNat 32 marker] ++ toks.drop (n - (l - h - 1))

/-- Entries appended to a session's log as pending positions (R252), noted for the provenance record (R72). -/
def appendLog (rid sid : Nat) (toks : List (BitVec 32)) (b : Block) : Block :=
  let b := growLog sid (updSession sid (fun x => { x with log := x.log ++ toks }) b)
  match session b sid with
  | none => b
  | some x => if toks = [] then b else updReq rid (fun q => { q with logApp := some x.log.length }) b

/-- The append of a whole input (R252 to R254): its completion, or the wait of R252. -/
def tokinAppend (c : Ctx) (mode : TokMode) (g : Cog) (sid : Nat) (x : Session) (y : Carry) (b : Block) : Ans :=
  let done := fun (b : Block) => updReq c.rid (fun q => { q with carry := none }) b
  if admitted b c sid x .settled = false ∨ x.state = ssMotion ∨ stepsInProgress b sid then
    .wait .retry (updReq c.rid (fun q => { q with carry := some y }) b)
  else
    let lin := if y.limit = 0 then x.maxContext else y.limit
    let l := min lin (x.maxContext - tokensOf x)
    let policy := bitsOf c.e.a 5 2
    let n := logTokens y.tokens
    if l = 0 then .done St.lengthLimit none (done b)
    else match (if x.logPlace.isSome ∧ unitTier b x.logPlace ≠ 0 then unitRead sid [2] b else none) with
      | some b => .done St.integrity none (done b)
      | none =>
        if mode = .ids then
          if l < n then .done St.lengthLimit none (done b)
          else if y.tokens.head? = some depthMark ∧ x.log.getLast? = some depthMark then Ans.malformed (done b)
          else .done St.ok (some (leBytes 4 n)) (appendLog c.rid sid y.tokens (done b))
        else
          let kept := keepTokens policy (bitsOf c.e.a 8 16) l (g.marker.getD 0) y.tokens
          let marked := decide (l < n) && decide (policy = 2) && decide (bitsOf c.e.a 8 16 ≤ l - 1)
          let cut := n - (kept.length - if marked then 1 else 0)
          let res := leBytes 4 kept.length ++ leBytes 4 y.invalid ++ leBytes 4 cut
          let b := appendLog c.rid sid kept (done b)
          if l < n then .done St.truncated (some res) (b.bump F.TXU_CNT_TEXT_truncated) else .done St.ok (some res) b

/-- A chunk tokenised and joined to what the chunks before it carry (R246 to R250); none where `ids` mode refuses it. -/
def tokinChunk (c : Ctx) (mode : TokMode) (g : Cog) (x : Session) (y : Carry) (data : Bytes) (b : Block) :
    Option (Carry × Block) :=
  match mode with
  | .ids =>
    let es := idsEntries data
    if data.length % 4 ≠ 0 ∨ idsOk g.entries.length (hasWarmForm (sessionFormat b x)) y.tokens.getLast? es = false then none
    else some ({ y with tokens := y.tokens ++ es }, b)
  | .byte => some ({ y with tokens := y.tokens ++ data.map (byteToken g.fbBase) }, b)
  | .native =>
    let r := tokenise g.fbBase g.entries (!c.e.a.testBit 24) (y.held.length + data.length) (y.held ++ data)
    some ({ y with tokens := y.tokens ++ r.toks, held := r.held, invalid := y.invalid + r.invalid },
      (b.bumpN F.TXU_CNT_TEXT_invalid_bytes r.invalid).bumpN F.TXU_CNT_TEXT_nomatch_bytes r.unmatched)

/-- TOKIN on a session with its cog: the checks of R248, R250 and R253, the chunk, and after the last chunk the append. -/
def tokinRun (c : Ctx) (mode : TokMode) (sid : Nat) (x : Session) (n : Nat) (g : Cog) (b : Block) : Ans :=
  let a := c.e.a
  let addr := c.arg b 32 8
  let size := c.arg b 40 4
  let limit := c.arg b 44 4
  let lin := if limit = 0 then x.maxContext else limit
  let policy := bitsOf a 5 2
  let isa := ((ringOf b c.ring).map (·.isa)).getD 0x31
  let modeBad := if mode = .ids then decide (isa ≠ 0x31) || decide (bitsOf a 5 3 ≠ 0) || decide (bitsOf a 8 16 ≠ 0)
    else decide (policy = 3) || (decide (policy = 2) && (decide (lin ≤ bitsOf a 8 16) || g.marker.isNone))
  if modeBad ∨ 16777216 < size ∨ c.reads b addr size = false then Ans.malformed b
  else
    let y := c.req.carry.getD ⟨chunkKey a, c.opB % 2 ^ 48, limit, [], [], 0⟩
    match tokinChunk c mode g x y (b.peek addr size) b with
    | none => Ans.malformed b
    | some (y, b) =>
      let b := updReq c.rid (fun q => { q with cog := some n }) b
      if a.testBit 24 then
        .done St.ok (some (List.replicate 12 0)) (updReq c.rid (fun q => { q with carry := some y }) b)
      else tokinAppend c mode g sid x y b

/-- TOKIN (R244, R246 to R254). A TOKIN that waits to append has tokenised its chunk already. -/
def tokin (mode : TokMode) (c : Ctx) (b : Block) : Ans :=
  withSession c false (fun sid x b =>
    let n := if c.e.a.testBit 4 then x.cog else bitsOf c.e.a 0 4
    withCog c x n (fun g b =>
      match c.req.carry with
      | some y => if c.req.wait = .retry then tokinAppend c mode g sid x y b else tokinRun c mode sid x n g b
      | none => tokinRun c mode sid x n g b) b) b

/-- TOKIN in native mode (R246 to R248). -/
def execTokinNative (rid : Nat) (s : State) : Host.Outcome State Fault Refusal :=
  actC .none (runRow .tokinNative (tokin .native) rid) s

/-- TOKIN in byte mode (R249). -/
def execTokinByte (rid : Nat) (s : State) : Host.Outcome State Fault Refusal :=
  actC .none (runRow .tokinByte (tokin .byte) rid) s

/-- TOKIN in `ids` mode (R250). -/
def execTokinIds (rid : Nat) (s : State) : Host.Outcome State Fault Refusal :=
  actC .none (runRow .tokinIds (tokin .ids) rid) s

/-! ### TOKOUT (R255) -/

/-- Output bytes of a run of tokens within a capacity: the bytes, the tokens written, and whether a token at or above V
stopped it. -/
def detokenise (es : List CogEntry) : (cap : Nat) → List (BitVec 32) → Bytes × Nat × Bool
  | _, [] => ([], 0, false)
  | cap, t :: ts =>
    match es[t.toNat]? with
    | none => ([], 0, true)
    | some e =>
      if cap < e.bytes.length then ([], 0, false)
      else
        let (bs, n, bad) := detokenise es (cap - e.bytes.length) ts
        (e.bytes ++ bs, n + 1, bad)

/-- The run of tokens a TOKOUT writes: from a position, or those the request's STEPs confirmed. -/
def tokoutRun (b : Block) (c : Ctx) (sid : Nat) (x : Session) (p0 : Nat) : List (BitVec 32) :=
  if p0 = 0xFFFFFFFF then (c.req.confirmed.filter fun e => decide (e.1 = handleOf sid x)).map (·.2)
  else
    let pre := ((prefixOf b x).map fun e => tokenEntries e.2.log).getD []
    (pre ++ tokenEntries x.log).drop p0

/-- TOKOUT (R255). -/
def tokout (c : Ctx) (b : Block) : Ans :=
  let addr := c.arg b 32 8
  let cap := c.arg b 40 4
  let p0 := c.arg b 44 4
  withSession c false (fun sid x b =>
    if c.reach b addr cap = false then Ans.malformed b
    else if admitted b c sid x .settled = false ∨ x.state = ssMotion then .wait .retry b
    else
      let n := requestCog c.req x
      if foreignCog b c.tenant n then Ans.malformed (violation 5 c.tenant c.ring n b)
      else match cogOf b n with
        | none => Ans.malformed b
        | some g =>
          if p0 ≠ 0xFFFFFFFF ∧ tokensOf x < p0 then Ans.malformed b
          else if g.damaged then .done St.integrity none (tagFail 6 g.owner 0 false b)
          else match unitRead sid [2] b with
            | some b => .done St.integrity none b
            | none => match (if p0 < x.prefixTokens then prefixRead x b else none) with
              | some b => .done St.integrity none b
              | none =>
                let run := tokoutRun b c sid x p0
                let (bs, k, bad) := detokenise g.entries cap run
                let b := (imageRead b).pokeBytes addr bs
                .done (if bad then St.malformed else St.ok)
                  (some (leBytes 4 bs.length ++ leBytes 4 k ++ leBytes 4 (run.length - k))) b) b

/-- TOKOUT of a request (R255). -/
def execTokout (rid : Nat) (s : State) : Host.Outcome State Fault Refusal := actC .none (runRow .tokout tokout rid) s

/-! ### CONSTRAIN (R258) -/

/-- CONSTRAIN and STEP refused under R258. -/
def clistRefused (b : Block) : Block := b.bump F.TXU_CNT_CLIST_clist_refused

/-- CONSTRAIN (R243, R258). -/
def constrain (c : Ctx) (b : Block) : Ans :=
  let n := bitsOf c.e.a 0 12
  withSession c false (fun sid x b =>
    if admitted b c sid x .any = false then .wait .retry b
    else
      let write := fun (b : Block) => Ans.done St.ok none (updSession sid (fun x => { x with clist := n }) b)
      if n = emptyList then write b
      else match listOf b n with
        | none => Ans.malformed (clistRefused b)
        | some l =>
          if foreignList b c.tenant n then Ans.malformed (violation 5 c.tenant c.ring n (clistRefused b))
          else if l.state ≠ slReady ∧ x.clist ≠ n then Ans.malformed (clistRefused b)
          else if ((cogOf b (requestCog c.req x)).map (·.digest)) ≠ some l.cogDg then Ans.malformed (clistRefused b)
          else if l.damaged then .done St.integrity none (tagFail 6 l.owner 0 false b)
          else write (imageRead b)) b

/-- CONSTRAIN of a request (R258). -/
def execConstrain (rid : Nat) (s : State) : Host.Outcome State Fault Refusal := actC .none (runRow .constrain constrain rid) s

/-! ### The automaton (R259) -/

/-- A token is banned in free mode; `h`: the tokens since the last start or reset, newest first. -/
def freeBans (l : CList) (h : List Nat) (x : Nat) : Bool :=
  l.banned.any fun s => match s.reverse with
    | [] => false
    | y :: r => decide (y = x) && r.isPrefixOf h

/-- A token is allowed in a state of the automaton of a list, or of the empty list. -/
def allows (l : Option CList) (v : Nat) (h : List Nat) (force : Option (Nat × Nat)) (x : Nat) : Bool :=
  decide (x < v) && match l with
    | none => true
    | some l =>
      !freeBans l h x && match force with
        | none => true
        | some (f, j) => decide (((l.forced[f]?).bind fun e => e.2[j]?) = some x)

/-- Tokens allowed in a state, in ascending order. -/
def allowedTokens (l : Option CList) (v : Nat) (h : List Nat) (force : Option (Nat × Nat)) : List Nat :=
  (List.range v).filter (allows l v h force)

/-- The forced entry to enter after `h`: the longest trigger that is a suffix, the lowest number among equals. -/
def forcedEntry (h : List Nat) : (n : Nat) → List (List Nat × List Nat) → Option (Nat × Nat) → Option (Nat × Nat)
  | _, [], best => best
  | n, e :: es, best =>
    forcedEntry h (n + 1) es
      (if e.1.reverse.isPrefixOf h ∧ ((best.map (·.2)).getD 0 < e.1.length) then some (n, e.1.length) else best)

/-- The state after a token is confirmed; the last part says that it entered forcing mode. -/
def advance (l : Option CList) (h : List Nat) (force : Option (Nat × Nat)) (x : Nat) :
    List Nat × Option (Nat × Nat) × Bool :=
  match l with
  | none => ([], none, false)
  | some l =>
    let h := x :: h
    let force := match force with
      | none => none
      | some (f, j) => if j + 1 < ((l.forced[f]?).map (·.2.length)).getD 0 then some (f, j + 1) else none
    match force with
    | some k => (h, some k, false)
    | none =>
      match forcedEntry h 0 l.forced none with
      | some (n, _) => (h, some (n, 0), true)
      | none => (h, none, false)

/-- The state after tokens are confirmed in order, with the number of entries into forcing mode. -/
def advanceAll (l : Option CList) (h : List Nat) (force : Option (Nat × Nat)) : List Nat →
    List Nat × Option (Nat × Nat) × Nat
  | [] => (h, force, 0)
  | x :: xs =>
    let (h, force, e) := advance l h force x
    let (h, force, n) := advanceAll l h force xs
    (h, force, n + if e then 1 else 0)

end Sys2Proof.Machine
end

