-- ==== Sys2Proof/Machine/Ste.lean ====
section
/-! DEFINITION. The step engine's work on one sequence (chapters 6 and 7): the positions a step computes, the starting
checks of a STEP, drafts, candidate lists, reservations, and the checks before a step. -/

namespace Sys2Proof.Machine

/-! ### Positions (R139 to R141, R144, R146) -/

/-- Pending positions up to the next depth mark (R141). -/
def segmentLength (x : Session) : Nat :=
  (((pendingEntries x).dropWhile fun e => decide (e = depthMark)).takeWhile fun e => decide (e ≠ depthMark)).length

/-- Positions a lead-in step recomputes: the last one, with its group up to it where the group has been flushed, or lies in the
prefix (R120, R144). -/
def leadRows (b : Block) (x : Session) : Nat :=
  let p := tokensOf x - 1
  p + 1 - (kvView b x fun _ => false).first p

/-- `prefill_chunk` in force (R140). -/
def defaultChunk (b : Block) : Nat := b.getF F.STE_CFG_prefill_chunk

/-! ### Candidates (R153, R154, R158) -/

/-- A mask hides a position (R153). -/
def maskHides (r : StepRun) (q : Nat) : Bool :=
  match r.mask with
  | none => false
  | some (first, span, bits) =>
    decide (first ≤ q) && decide (q < first + span) && ((bits.getD ((q - first) / 8) 0).toNat.testBit ((q - first) % 8))

/-- The values after the last layer at a STEP's last position and after each draft, computed under its mask (R154). -/
def stepActs (b : Block) (rid : Option Nat) (x : Session) (r : StepRun) (drafts : List Nat) : List (List (BitVec 32)) :=
  (kvView b x (maskHides r)).candidates (sessionNet b rid x) (tokensOf x - 1) (logTokenIds b x) drafts

/-- Order key of an FP32 value; none for a NaN; +0 and −0 are equal (R158). -/
def fpKey (w : BitVec 32) : Option Int :=
  let m : Nat := w.toNat % 2 ^ 31
  if 0x7F800000 < m then none else if 2 ^ 31 ≤ w.toNat then some (-(Int.ofNat m)) else some (Int.ofNat m)

/-- A candidate: token, logit and its order key. -/
structure Candidate where
  id : Nat
  logit : BitVec 32
  key : Int
  deriving DecidableEq, Repr

/-- A candidate put in its place, highest logit first, ties in ascending token ID; at most `k` are kept (R158). -/
def insertCandidate (k : Nat) (c : Candidate) (cs : List Candidate) : List Candidate :=
  (cs.takeWhile (fun d => decide (c.key ≤ d.key)) ++ [c] ++ cs.dropWhile (fun d => decide (c.key ≤ d.key))).take k

/-- The best `k` of some tokens in ascending order, NaN logits left out. -/
def topCandidates (k : Nat) (logit : Nat → BitVec 32) (ids : List Nat) : List Candidate :=
  ids.foldl (fun cs t => match fpKey (logit t) with
    | none => cs
    | some key => insertCandidate k ⟨t, logit t, key⟩ cs) []

/-! ### Drafts (R171 to R178) -/

/-- Width of the vocabulary a STEP's lists cover: the V of its cog. -/
def runVocab (b : Block) (r : StepRun) : Nat := ((cogOf b r.cog).map (·.entries.length)).getD 0

/-- The list a STEP uses; none for the empty list. -/
def runList (b : Block) (r : StepRun) : Option CList := if r.clist = emptyList then none else listOf b r.clist

/-- The draft that a draft model's values give among the allowed tokens (R172). -/
def pickDraft (d : Net) (act : List (BitVec 32)) (ids : List Nat) : Nat :=
  match topCandidates 1 (logitOf d act) ids with
  | c :: _ => c.id
  | [] => ids.getD (Config.nanDraft d.weights act % max 1 ids.length) 0

/-- Up to `e` drafts of a step whose pending position is `p`, and whether drafting stopped at a state that allows no token
(R172, R176, R178): each from the values before it, the token before it and the step's own draft rows. -/
def proposeDrafts (l : Option CList) (v : Nat) (d : Net) (p : Nat) : (e : Nat) → (q : Nat) → (before : List (BitVec 32)) →
    (token : Nat) → (work : List KvRow) → List Nat → Option (Nat × Nat) → List Nat × Bool
  | 0, _, _, _, _, _, _ => ([], false)
  | e + 1, q, before, token, work, h, force =>
    match allowedTokens l v h force with
    | [] => ([], true)
    | ids =>
      let o := draftPos d p q work (draftInput d before token q)
      let t := pickDraft d o.act ids
      let (h, force, _) := advance l h force t
      let (ts, short) := proposeDrafts l v d p e (q + 1) o.act t (work ++ [o.row]) h force
      (t :: ts, short)

/-- Drafts a step may propose for a sequence (R176). -/
def draftLimit (r : StepRun) (x : Session) : Nat :=
  let room := x.maxContext - tokensOf x - 1
  let left := if r.maxNew = 0 then r.depth else r.maxNew - r.confirmed - 1
  if stepPending r x = 1 ∧ 2 ≤ tokensOf x ∧ r.draft.isSome then
    min r.depth (min left (min room (23 - (x.staging.confirmed + redoRows r x))))
  else 0

/-- The net of a draft model. -/
def draftNet (b : Block) (slot : Nat) : Net :=
  match modelSlot b slot with
  | none => ⟨[], [], 0, 0, 0⟩
  | some m => netOf m m.weightsDg

/-- Drafts of a sequence's next step, the rows that it redoes computed first (R381): from the feature row before its pending position, and the pending token (R172). -/
def draftsOf (b : Block) (rid : Option Nat) (r : StepRun) (x : Session) : List Nat × Bool :=
  match r.draft with
  | none => ([], false)
  | some d =>
    let p := tokensOf x - 1
    let x := { x with stageRows := x.stageRows ++ (computeRows b rid x (redoRows r x) []).map PosOut.row }
    let feature := featureRow (sessionNet b rid x) (kvView b x fun _ => false) p
    proposeDrafts (runList b r) (runVocab b r) (draftNet b d) p (draftLimit r x) p feature ((logTokenIds b x).getD p 0) [] r.h r.force

/-! ### Candidate lists (R157 to R160) -/

/-- Bytes of one position block. -/
def blockBytes (b : Block) (r : StepRun) : Nat := if r.k = 0 then 4 * runVocab b r else 8 * r.k

/-- Slots of an entry with some blocks (R157, R160). -/
def entrySlots (b : Block) (r : StepRun) (blocks : Nat) : Nat := (64 + blocks * blockBytes b r + 63) / 64

/-- One position block (R158): the candidates that some values give under an automaton state. -/
def listBlock (b : Block) (r : StepRun) (m : Net) (act : List (BitVec 32)) (h : List Nat) (force : Option (Nat × Nat)) : Bytes :=
  let v := runVocab b r
  let logit := logitOf m act
  if r.k = 0 then
    (List.range v).flatMap fun t => leBytes 4 (if allows (runList b r) v h force t then (logit t).toNat else 0xFF800000)
  else
    let cs := topCandidates r.k logit (allowedTokens (runList b r) v h force)
    (cs.flatMap fun c => leBytes 4 c.id ++ leBytes 4 c.logit.toNat) ++
      (List.replicate (r.k - cs.length) (leBytes 4 0xFFFFFFFF ++ leBytes 4 0xFF800000)).flatten

/-- The blocks of a list: one for the pending position and one after each draft, each from its position's values (R157,
R178). -/
def listBlocks (b : Block) (r : StepRun) (m : Net) : List (List (BitVec 32)) → List Nat → Option (Nat × Nat) → List Nat → Bytes
  | [], _, _, _ => []
  | act :: _, h, force, [] => listBlock b r m act h force
  | act :: acts, h, force, t :: ts =>
    let (h', force', _) := advance (runList b r) h force t
    listBlock b r m act h force ++ listBlocks b r m acts h' force' ts

/-- A result entry (Table 6.4) with its blocks, padded to whole slots. -/
def resultEntry (b : Block) (q : Req) (rid sid : Nat) (x : Session) (r : StepRun) (step : Nat) (drafts : List Nat) : Bytes :=
  let n := drafts.length + 1
  let slots := entrySlots b r n
  let names := drafts ++ List.replicate (8 - drafts.length) 0xFFFFFFFF
  padTo (64 * slots)
    (leBytes 8 q.reqId ++ leBytes 6 (handleOf sid x) ++ leBytes 2 q.ring ++ leBytes 4 step ++ leBytes 4 (tokensOf x - 1)
      ++ leBytes 1 n ++ leBytes 1 (if r.k = 0 then 1 else 0) ++ leBytes 2 r.k ++ leBytes 4 slots
      ++ names.flatMap (leBytes 4)
      ++ listBlocks b r (sessionNet b (some rid) x) (stepActs b (some rid) x r drafts) r.h r.force drafts)

/-- Free result slots of a ring, reservations taken off (R159). -/
def resFree (b : Block) (r : Ring) : Nat := 2 ^ r.resLog2 - (r.resTail - b.peekLe (r.resultBase + 128) 8) - r.reserved

/-- Bytes written as result slots from a slot count, wrapping the area (R157). -/
def writeResult (r : Ring) : (tail : Nat) → (fuel : Nat) → Bytes → Block → Block
  | _, 0, _, b => b
  | tail, n + 1, bs, b =>
    if bs = [] then b
    else writeResult r (tail + 1) n (bs.drop 64)
      (b.pokeBytes (r.resultBase + 256 + 64 * (tail % 2 ^ r.resLog2)) (bs.take 64))

/-- A list written, then `res_tail` moved (Table 6.1, order 3; R159). -/
def postList (ring reserved : Nat) (bs : Bytes) (b : Block) : Block :=
  match ringOf b ring with
  | none => b
  | some r =>
    let n := bs.length / 64
    let b := writeResult r r.resTail n bs b
    let r := { r with resTail := r.resTail + n, reserved := r.reserved - reserved }
    (updRing ring (fun _ => r) b).pokeBytes (r.resultBase + 64) (leBytes 8 r.resTail ++ List.replicate 56 0)

/-- Slots reserved for a sequence up to a number; none where the area has too few (R159). -/
def reserveSlots (s : Seqn) (n : Nat) (b : Block) : Option (Seqn × Block) :=
  match ringOf b s.ring with
  | none => none
  | some r =>
    if n ≤ s.reserved then
      some ({ s with reserved := n }, updRing s.ring (fun r => { r with reserved := r.reserved - (s.reserved - n) }) b)
    else if n - s.reserved ≤ resFree b r then
      some ({ s with reserved := n }, updRing s.ring (fun r => { r with reserved := r.reserved + (n - s.reserved) }) b)
    else none

/-- Result slots that a sequence's next step needs (R159). -/
def slotsNeeded (b : Block) (s : Seqn) (x : Session) : Nat :=
  match s.work with
  | .step r =>
    if runCatchesUp r x ∧ min (catchUp r x (defaultChunk b)) (segmentLength x) < pendingPositions x then 0
    else entrySlots b r (if draftLimit r x = 0 then 1 else r.depth + 1)
  | _ => 0

/-! ### Starting checks (R142 to R147, R153, R156, R160, R174, R175, R245, R258, R342) -/

/-- What the starting checks of a STEP find: the STEP as it starts, whether it counts in `draft_off`; or its status,
whether it counts in `clist_refused`. -/
inductive StartCheck where
  | ok (r : StepRun) (draftOff : Bool)
  | fail (status : Nat) (refused : Bool)
  deriving DecidableEq, Repr

/-- A mask bitmap that a STEP names (R153); an address of 0 names none. -/
def readMask (b : Block) (tenant addr : Nat) : Option (Option (Nat × Nat × Bytes)) :=
  if addr = 0 then some none
  else if addr % 64 ≠ 0 ∨ ioRead b (some tenant) addr 64 = false then none
  else
    let first := b.peekLe addr 4
    let span := b.peekLe (addr + 4) 4
    if span = 0 ∨ 2 ^ 24 < span ∨ leVal (b.peek (addr + 8) 56) ≠ 0
        ∨ ioRead b (some tenant) addr (64 + (span + 7) / 8) = false then none
    else some (some (first, span, b.peek (addr + 64) ((span + 7) / 8)))

/-- The draft model that a session names is bound to its model (R175). -/
def boundDraft (b : Block) (x : Session) : Option Nat :=
  match modelSlot b x.draftSlot with
  | none => none
  | some d => if d.state = slReady ∧ d.draft ∧ d.targetDg = weightsOf b x then some x.draftSlot else none

/-- The draft depth that a STEP asks for (R174). -/
def stepDepth (b : Block) (q : Req) (blk : Nat) : Nat :=
  if b.peekLe (blk + 38) 1 = 0xFF then q.draftDepth.getD 0 else b.peekLe (blk + 38) 1

/-- A STEP takes up the draft model that its session names as it starts; without one it runs at depth 0 (R175). -/
def withDraft (b : Block) (x : Session) (depth : Nat) (r : StepRun) : StepRun :=
  let draft := if 0 < depth then boundDraft b x else none
  { r with depth := if draft.isSome then depth else 0, draft := draft }

/-- The starting checks of a STEP on a session that is ready for it. -/
def startStep (b : Block) (q : Req) (tenant blk : Nat) (x : Session) : StartCheck :=
  let isa := ((ringOf b q.ring).map (·.isa)).getD 0x31
  let maxNew := b.peekLe (blk + 32) 4
  let k := b.peekLe (blk + 36) 2
  let d := b.peekLe (blk + 38) 1
  let depth := stepDepth b q blk
  let cog := requestCog q x
  let list := if x.clist = emptyList then none else listOf b x.clist
  match modelSlot b x.modelSlot, cogOf b cog, readMask b tenant (b.peekLe (blk + 40) 8), ringOf b q.ring with
  | some m, some g, some mask, some r =>
    if 256 < k ∨ (8 < d ∧ d ≠ 0xFF) ∨ (isa = 0x20 ∧ d ≠ 0) ∨ tokensOf x = 0 ∨ m.state ≠ slReady ∨ r.resultBase = 0
        ∨ g.entries.length ≠ m.vocab ∨ (g.shared = false ∧ g.owner ≠ tenant)
        ∨ (list.map fun l => !l.shared && decide (l.owner ≠ tenant)) = some true then .fail St.malformed false
    else if x.clist ≠ emptyList ∧ (list.map (·.cogDg)) ≠ some g.digest then .fail St.malformed true
    else if m.damaged ∨ g.damaged ∨ (list.map (·.damaged)) = some true then .fail St.integrity false
    else
      let run := withDraft b x depth
        { maxNew := maxNew, k := k, depth := 0, mask := mask, draft := none, clist := x.clist, cog := cog, confirmed := 0,
          steps := 0, proposed := 0, kept := 0, h := [], force := none, await := none, start := none }
      if 2 ^ r.resLog2 < entrySlots b run (run.depth + 1) then .fail St.malformed false
      else .ok run (decide (0 < depth) && run.draft.isNone)
  | _, _, _, _ => .fail St.malformed false

/-! ### Checks before a step (order 6; R90, R109, R117, R121, R159) -/

/-- Rows that a sequence's next step computes at most. -/
def nextRows (b : Block) (s : Seqn) (x : Session) : Nat :=
  match s.work with
  | .step r =>
    if pendingPositions x = 0 then 0
    else if runCatchesUp r x then min (catchUp r x (defaultChunk b)) (segmentLength x)
    else segmentLength x + draftLimit r x
  | .prefill chunk _ => min chunk (segmentLength x)
  | .closing => segmentLength x
  | .revival => min (defaultChunk b) (segmentLength x)
  | .finished => 0

/-- What the checks before a step answer for a sequence. -/
inductive Ready where
  | go (s : Seqn) (b : Block)
  /-- It is left out, its counter raised. -/
  | out (b : Block)
  /-- Its request, or its revival, ends with QUOTA (R109). -/
  | quota (b : Block)

/-- The rows due are flushed (R109, R117, R141, R142): nothing while an unconfirmed row stands in the block, or the frames are
frozen (R90). At a mark the rows before it then pass through the WARM form (R84, R141). -/
def flushSeq (s : Seqn) (x : Session) (b : Block) : Ready :=
  if movesHot x ∨ x.staging.drafts ≠ 0 then .go s b
  else
    let mark := markDue x && decide (0 < x.staging.confirmed)
    let done := match flushRows s.sid (flushDue x) b with
      | .ok b => if mark then passRows s.sid b else .ok b
      | r => r
    match done with
    | .ok b => .go s b
    | .noFrame b => .out (b.bump F.PGM_CNT_frame_wait)
    | .quota b => if s.work = .closing ∨ s.work = .finished then .out (b.bump F.PGM_CNT_frame_wait) else .quota b

/-- The staging and the result slots of a sequence's next step reserved (order 6; R90, R121, R133, R159). -/
def checkSeq (s : Seqn) (b : Block) : Ready :=
  match session b s.sid with
  | none => .out b
  | some x =>
    if movesHot x ∧ (16 ≤ x.staging.confirmed ∨ (markDue x = true ∧ 0 < x.staging.confirmed)) then .out (b.bump F.PNE_CNT_MOTION_move_wait)
    else match growStaging s.sid ⟨x.staging.confirmed, nextRows b s x⟩ b with
      | .noQuantum => .out (b.bump F.PGM_CNT_stage_wait)
      | .noSerial => .out (b.bump F.PGM_CNT_frame_wait)
      | .ok b' =>
        if slotsNeeded b s x = 0 then .go s b'
        else match reserveSlots s (slotsNeeded b s x) b' with
          | some (s, b) => .go s b
          | none => .out ((trimStaging s.sid b').bump F.STE_CNT_DEFER_res_full)

/-- A sequence made ready for its next step: what is due is flushed, and its resources are reserved. -/
def readySeq (s : Seqn) (b : Block) : Ready :=
  match session b s.sid with
  | none => .out b
  | some x =>
    match flushSeq s x b with
    | .go s b => checkSeq s b
    | r => r

end Sys2Proof.Machine
end

