-- ==== Sys2Proof/Machine/Steps.lean ====
section
/-! DEFINITION. The rows STEP, PREFILL, DRAFT and ACCEPT (chapters 6 and 7, R64, R261, R262). -/

namespace Sys2Proof.Machine

/-! ### Starting a STEP or PREFILL (R138, R144, R164) -/

/-- Sequences changed wherever they stand. -/
def mapSeqs (f : Seqn → Seqn) (b : Block) : Block :=
  { b with ste := { b.ste with
    waiting := b.ste.waiting.map f
    pelotons := b.ste.pelotons.map fun e => (e.1, { e.2 with seqs := e.2.seqs.map f }) } }

/-- A STEP or PREFILL of another request is in progress on a session: a later one waits (log entry 20). -/
def otherStepRuns (b : Block) (rid sid : Nat) : Bool :=
  (allSeqs b).any fun s => decide (s.sid = sid) && decide (s.rid ≠ some rid) && match s.work with
    | .step _ => true
    | .prefill _ _ => true
    | _ => false

/-- A closing pass of a session is in flight (R164). -/
def closingFlies (b : Block) (sid : Nat) : Bool :=
  b.ste.pelotons.any fun e => decide (e.2.phase = .flight ∨ e.2.phase = .preempted) &&
    e.2.seqs.any fun s => decide (s.sid = sid) && decide (s.work = .closing)

/-- A session owes a closing pass that has a sequence in a peloton (R164). -/
def closingRides (b : Block) (sid : Nat) : Bool :=
  b.ste.pelotons.any fun e => e.2.seqs.any fun t => decide (t.sid = sid) && decide (t.work = .closing)

/-- What waits for a session without a request: a closing pass that is taken over (R164), a flush that is tried again. -/
def dropIdleSeqs (sid : Nat) (b : Block) : Block :=
  setWaiting (b.ste.waiting.filter fun t => !(decide (t.sid = sid) && decide (t.work = .closing ∨ t.work = .finished))) b

/-- The closing pass of a session taken out of its peloton; a peloton left with no sequence is dissolved. -/
def pullClosing (sid : Nat) (b : Block) : Block :=
  let keep := fun (p : Peloton) => { p with seqs := p.seqs.filter fun t => !(decide (t.sid = sid) && decide (t.work = .closing)) }
  updSession sid (fun x => { x with enrolled := false }) { b with ste := { b.ste with
    pelotons := (b.ste.pelotons.map fun e => (e.1, keep e.2)).filter fun e => !e.2.seqs.isEmpty } }

/-- The sequence of a STEP or PREFILL as it starts: it waits for a step in the order of its admission, or takes over the closing
pass that its session owes: in its peloton where the role runs the new work (R137, R147, R164). -/
def startSeq (c : Ctx) (sid : Nat) (x : Session) (work : SeqWork) (b : Block) : Block :=
  let (n, b) := nextAdmission b
  let light := decide (pendingPositions x ≤ b.getF F.STE_CFG_catchup_max)
  let s : Seqn :=
    { sid := sid, rid := some c.rid, ring := c.ring, order := n, light := light, work := work, reserved := 0, plan := 0,
      lead := false, drafts := [], fused := none, missed := false, roleWait := false }
  let runs := runsWork b s x
  let s := { s with roleWait := !runs }
  let here := closingRides b sid && runs
  let b := updReq c.rid (fun q => { q with
    wait := if here then .step else .enrol, ranOn := x.modelSlot :: q.ranOn.filter (· ≠ x.modelSlot) }) b
  let b := if runs then b else b.bump F.STE_CNT_DEFER_role_wait
  let b := dropIdleSeqs sid b
  if here then mapSeqs (fun t => if t.sid = sid ∧ t.work = .closing then s else t) b
  else
    let b := if closingRides b sid then pullClosing sid b else b
    setWaiting (insertSeq s b.ste.waiting) b

/-- A unit that a starting STEP reads has failed (Table 12.4, kinds 5 and 6): the failure is reported. -/
def startFailure (b : Block) (c : Ctx) (x : Session) : Block :=
  match modelSlot b x.modelSlot with
  | some m =>
    if m.damaged then tagFail 5 m.owner 0 false b
    else match cogOf b (requestCog c.req x) with
      | some g => if g.damaged then tagFail 6 g.owner 0 false b
                  else tagFail 6 (((listOf b x.clist).map (·.owner)).getD 0) 0 false b
      | none => b
  | none => b

/-- STEP (R138, R144, R156, R160, R164, R174, R175, R245, R258, R342). It waits for HOT and for its enrolment; the step
engine ends it. -/
def step_ (c : Ctx) (b : Block) : Ans :=
  if (allSeqs b).any fun s => decide (s.rid = some c.rid) then .handled b
  else withSession c false (fun sid x b =>
    if admitted b c sid x .hot = false ∨ otherStepRuns b c.rid sid ∨ closingFlies b sid then .wait .enrol b
    else match startStep b c.req c.tenant c.blk x with
      | .fail st refused =>
        let b := if refused then clistRefused b else b
        let b := if foreignCog b c.tenant (requestCog c.req x) then violation 5 c.tenant c.ring (requestCog c.req x) b else b
        .done st none (if st = St.integrity then startFailure b c x else b)
      | .ok run off =>
        let b := if off then b.bump F.STE_DRAFT_CNT_draft_off else b
        let dg := ((runList b run).map (·.digest)).getD []
        .handled (startSeq c sid x (.step (c.req.redo.getD run))
          (imageRead (updReq c.rid (fun q => { q with clistDg := some dg, redo := none }) b)))) b

/-- STEP of a request (R144). -/
def execStep (rid : Nat) (s : State) : Host.Outcome State Fault Refusal := actC .none (runRow .step step_ rid) s

/-- PREFILL (R138, R140, R164, R342). A `chunk` of 0 takes the `prefill_chunk` in force as the PREFILL starts and keeps it; a
STEP that catches up reads the value in force at each step (log entry 150). -/
def prefill (c : Ctx) (b : Block) : Ans :=
  if (allSeqs b).any fun s => decide (s.rid = some c.rid) then .handled b
  else withSession c false (fun sid x b =>
    if admitted b c sid x .hot = false ∨ otherStepRuns b c.rid sid ∨ closingFlies b sid then .wait .enrol b
    else match modelSlot b x.modelSlot with
      | none => Ans.malformed b
      | some m =>
        let chunk := bitsOf c.e.a 0 16
        if m.state ≠ slReady then Ans.malformed b
        else if pendingPositions x = 0 then .done St.ok (some (leBytes 4 0)) b
        else if m.damaged then .done St.integrity none (tagFail 5 m.owner 0 false b)
        else .handled (startSeq c sid x (.prefill (if chunk = 0 then defaultChunk b else chunk) 0) b)) b

/-- PREFILL of a request (R140). -/
def execPrefill (rid : Nat) (s : State) : Host.Outcome State Fault Refusal := actC .none (runRow .prefill prefill rid) s

/-- A slot holds a draft model bound to a session's model (R173, R343: a draining slot still holds it). A draft model that
another tenant has loaded serves too: R173 gives two cases for MALFORMED, and this is neither (log entry 153). -/
def draftHeld (b : Block) (x : Session) (n : Nat) : Bool :=
  match modelSlot b n with
  | none => false
  | some m => decide (m.state ≠ slEmpty) && m.draft && decide (m.targetDg = weightsOf b x)

/-- DRAFT (R173). -/
def draft (c : Ctx) (b : Block) : Ans :=
  let n := bitsOf c.e.a 0 8
  let d := bitsOf c.e.a 8 4
  withSession c false (fun sid x b =>
    if admitted b c sid x .any = false then .wait .retry b
    else if 8 < d ∨ (n ≠ 0xFF ∧ draftHeld b x n = false) then Ans.malformed b
    else .done St.ok none (updReq c.rid (fun q => { q with draftDepth := some d })
      (updSession sid (fun x => { x with draftSlot := n }) b))) b

/-- DRAFT of a request (R173). -/
def execDraft (rid : Nat) (s : State) : Host.Outcome State Fault Refusal := actC .none (runRow .draft draft rid) s

/-! ### The end of a STEP (R163, R164, R184) -/

/-- The rows in a session's staging cut to its confirmed ones; a quantum left with no row is freed (R115, R180). -/
def cutStaging (sid : Nat) (b : Block) : Block :=
  trimStaging sid (updSession sid (fun x => { x with
    staging := ⟨x.staging.confirmed, 0⟩, stageRows := x.stageRows.take x.staging.confirmed }) b)

/-- Draft rows of a session discarded in place (R180, R181). -/
def discardDrafts (sid n : Nat) (b : Block) : Block := (cutStaging sid b).bumpN F.STE_DRAFT_CNT_draft_discard n

/-- What a sequence is after its STEP or PREFILL has ended: it owes a closing pass, or leaves (R164, R166). -/
def afterEnd (s : Seqn) (x : Session) : Seqn :=
  { s with rid := none, reserved := 0, plan := 0, lead := false, drafts := [], fused := none,
           work := if owesClosing s x then .closing else .finished }

/-- A sequence's STEP or PREFILL has ended: its reservation is released and its rest put in its place. -/
def endSeq (s : Seqn) (b : Block) : Block :=
  let b := releaseSlots s b
  match session b s.sid with
  | none => b
  | some x => mapSeqs (fun t => if t.rid = s.rid then afterEnd s x else t) b

/-- A STEP ends with a status at order 4; `s` holds what it has done. -/
def endStep (rid : Nat) (s : Seqn) (r : StepRun) (status : Nat) (b : Block) : Block :=
  instrDone rid status (some (stepResult r)) (endSeq s b)

/-! ### ACCEPT (R64, R161 to R163, R180, R181, R261, R262) -/

/-- What an ACCEPT says (Table 3.6). -/
structure AcceptArgs where
  count : Nat
  stop : Bool
  handle : Nat
  reqId : Nat
  step : Nat
  addr : Nat
  seed : Nat
  deriving DecidableEq, Repr

/-- The argument block of an ACCEPT. -/
def acceptArgs (b : Block) (e : Entry) : AcceptArgs :=
  ⟨bitsOf e.a 0 4, e.a.testBit 4, b.peekLe (e.hi + 24) 8 % 2 ^ 48, b.peekLe (e.hi + 32) 8, b.peekLe (e.hi + 40) 4,
   b.peekLe (e.hi + 48) 8, b.peekLe (e.hi + 56) 8⟩

/-- The sequence whose list an ACCEPT names (R64, R161); none of a session in QUARANTINE, which takes no token (R34). -/
def awaiting (b : Block) (ring : Nat) (a : AcceptArgs) : Option (Nat × Seqn × StepRun × Await) :=
  (allSeqs b).findSome? fun s =>
    match s.rid, s.work with
    | some rid, .step r =>
      match req b rid, session b s.sid, r.await with
      | some q, some x, some w =>
        if x.state ≠ ssQuarantine ∧ q.ring = ring ∧ q.reqId = a.reqId ∧ q.phase = .body ∧ handleOf s.sid x = a.handle ∧ w.step = a.step then
          some (rid, s, r, w)
        else none
      | _, _, _ => none
    | _, _ => none

/-- The tokens of an ACCEPT are allowed at their positions, and each but the last equals its draft (R162, R180). -/
def tokensOk (l : Option CList) (v : Nat) : (h : List Nat) → (force : Option (Nat × Nat)) → (drafts : List Nat) →
    List Nat → Bool
  | _, _, _, [] => true
  | h, force, ds, t :: ts =>
    allows l v h force t && (decide (ts = []) || decide (ds.head? = some t)) &&
      (let (h, force, _) := advance l h force t
       tokensOk l v h force ds.tail ts)

/-- An ACCEPT refused (R162, R181): nothing is confirmed, the drafts go, and its request ends at once. -/
def refuseAccept (rid : Nat) (s : Seqn) (w : Await) (b : Block) : Block :=
  let b := b.bump F.STE_CNT_END_bad_accept
  let b := if w.late then b else discardDrafts s.sid w.drafts.length b
  endRequest rid St.malformed (((req b rid).map (·.pc)).getD 0) (endSeq s (noteResult rid s.work b))

/-- Tokens confirmed into a session's log by a request (R72, R162). -/
def confirmTokens (rid sid : Nat) (toks : List Nat) (b : Block) : Block :=
  let es := toks.map (BitVec.ofNat 32)
  if es = [] then b
  else
    let b := growLog sid (updSession sid (fun x => { x with log := x.log ++ es }) b)
    match session b sid with
    | none => b
    | some x => updReq rid (fun q => { q with
        confirmed := q.confirmed ++ es.map fun e => (handleOf sid x, e)
        logConf := some x.log.length }) b

/-- Tokens that a STEP may still confirm (R163). -/
def stepRoom (r : StepRun) (x : Session) : Nat :=
  let room := x.maxContext - tokensOf x
  if r.maxNew = 0 then room else min (r.maxNew - r.confirmed) room

/-- The state of a STEP's automaton allows no token (R259). -/
def deadEnd (b : Block) (r : StepRun) : Bool :=
  match runList b r with
  | none => false
  | some l => (List.range (runVocab b r)).all fun t => !allows (some l) (runVocab b r) r.h r.force t

/-- What a taken ACCEPT means for its STEP (R163, R261, R262): the status it ends with, if any. -/
def judgeStep (rid sid : Nat) (stop : Bool) (r : StepRun) (b : Block) : StepRun × Option Nat × Block :=
  let room := fun (b : Block) (r : StepRun) => ((session b sid).map (stepRoom r)).getD 0
  let limit := fun (r : StepRun) (b : Block) => (r, some St.lengthLimit, b.bump F.STE_CNT_END_length_end)
  if stop then (r, some St.ok, b)
  else if room b r = 0 then limit r b
  else if deadEnd b r = false then (r, none, b)
  else match runList b r with
    | none => (r, none, b)
    | some l =>
      if l.escapeMode = false then (r, some St.deadEnd, b.bump F.TXU_CNT_CLIST_dead_end)
      else
        let b := (confirmTokens rid sid [l.escape] b).bump F.TXU_CNT_CLIST_escapes
        let r := { r with confirmed := r.confirmed + 1, h := [], force := none }
        if room b r = 0 then limit r b else (r, none, b)

/-- An ACCEPT taken (R162, R163, R180, R181, R261, R262). -/
def takeAccept (rid : Nat) (s : Seqn) (r : StepRun) (w : Await) (x : Session) (a : AcceptArgs) (toks : List Nat)
    (b : Block) : Block :=
  let toks := toks.take (stepRoom r x)
  let kept := toks.length - 1
  let gone := w.drafts.length - kept
  let b := confirmTokens rid s.sid toks b
  let b := updReq rid (fun q => { q with seeds := q.seeds ++ [a.seed] }) b
  let b := b.bumpN F.STE_DRAFT_ACC_confirmed kept
  let b := if w.late then
      b.bumpN F.STE_DRAFT_CNT_draft_recompute kept
    else discardDrafts s.sid gone (updSession s.sid (fun x => { x with
      computed := x.computed + kept, staging := ⟨x.staging.confirmed + kept, x.staging.drafts⟩ }) b)
  let (h, force, entered) := advanceAll (runList b r) r.h r.force toks
  let b := b.bumpN F.TXU_CNT_CLIST_forced entered
  let r := { r with confirmed := r.confirmed + toks.length, kept := r.kept + kept, h := h, force := force, await := none }
  let (r, ends, b) := judgeStep rid s.sid a.stop r b
  let s := { s with work := .step r, drafts := [] }
  match ends with
  | some st => endStep rid s r st b
  | none => mapSeqs (fun t => if t.rid = some rid then s else t) b

/-- ACCEPT carried out at decode (R64). -/
def accept (ring : Nat) (e : Entry) (b : Block) : Block :=
  let stray := fun (b : Block) => b.bump F.CFE_STAT_stray_count
  match ringOf b ring with
  | none => b
  | some k =>
    if e.ptr = false ∨ blockOk b k.tenant e = false then stray b
    else
      let a := acceptArgs b e
      if hTenant a.handle ≠ k.tenant then stray (violation 3 k.tenant ring a.handle b)
      else
      let b := readPairs (hSlot a.handle) b
      match awaiting b ring a with
        | none => stray b
        | some (rid, s, r, w) =>
          match session b s.sid with
          | none => stray b
          | some x =>
            let toks := tokenWords a.count (b.peek a.addr (4 * a.count))
            if a.count = 0 ∨ w.drafts.length + 1 < a.count ∨ a.addr % 4 ≠ 0
                ∨ ioRead b (some k.tenant) a.addr (4 * a.count) = false
                ∨ tokensOk (runList b r) (runVocab b r) r.h r.force w.drafts toks = false then refuseAccept rid s w b
            else takeAccept rid s r w x a toks b

/-- ACCEPT: an entry of a ring, carried out at decode (R64). It enters no request and no window. -/
def execAccept (ring : BitVec 16) (lo hi : BitVec 64) (s : State) : Host.Outcome State Fault Refusal :=
  actC .none (accept ring.toNat ⟨lo.toNat, hi.toNat, 0⟩) s

end Sys2Proof.Machine
end

