-- ==== Sys2Proof/Machine/Slices.lean ====
section
/-! DEFINITION. Spokes in service (R10, R187, R394, R395): their states, replacement and draining. -/

namespace Sys2Proof.Machine

/-- States of a Spoke (Table 8.16). -/
def spService : Nat := 0
def spDraining : Nat := 1
def spTest : Nat := 2
def spSpare : Nat := 3
def spFailed : Nat := 4

/-- State of a Spoke by physical index. -/
def spkState (b : Block) (i : Nat) : Nat := b.getFi F.SPK_STATE_state i

/-- Physical indices of a wheel (R187). -/
def wheelSpokes (w : Nat) : List Nat := (List.range 68).map fun i => 68 * w + i

/-- Spokes in a state. -/
def spokesIn (b : Block) (st : Nat) : Nat := ((List.range 272).filter fun i => decide (spkState b i = st)).length

/-- A Spoke's state set; SPOKE_LOW follows the Spokes in service (R395). -/
def setSpkState (i st : Nat) (b : Block) : Block :=
  let b := b.setFi F.SPK_STATE_state i st
  setLevel Src.spokeLow (decide (spokesIn b spService < 256)) b

/-- The SPARE of lowest index on a wheel (Table 16.7). -/
def lowestSpare (b : Block) (w : Nat) : Option Nat := (wheelSpokes w).find? fun i => decide (spkState b i = spSpare)

/-- A SPARE of a wheel takes service, where there is one. -/
def takeSpare (w : Nat) (b : Block) : Block :=
  match lowestSpare b w with
  | none => b
  | some i => setSpkState i spService b

/-- A Spoke that drains goes on to its test once its last chain has left (Table 16.7). -/
def settleSpoke (i : Nat) (b : Block) : Block :=
  let k := spoke b i
  if spkState b i = spDraining ∧ k.chain = none ∧ k.running = false ∧ k.swapping = false ∧ k.reserved = false then setSpkState i spTest b else b

/-- A Spoke in service drains, a SPARE taking its place where one exists; a chain that stands on it leaves (Tables 16.6, 16.7). -/
def drainSpoke (i : Nat) (b : Block) : Block :=
  if spkState b i = spService then settleSpoke i (chainLeaves i (setSpkState i spDraining (takeSpare (i / 68) b))) else b

/-- The save slots changed, with the stripes of the staging pool that hold them (R229). -/
def setSaved (cs : List SavedChain) (b : Block) : Block :=
  { b with
    spk := { b.spk with saved := cs }
    ses := { b.ses with saveStripes := (cs.length + savesPerStripe - 1) / savesPerStripe } }

end Sys2Proof.Machine
end

