-- ==== Sys2Proof/Machine/Operands.lean ====
section
/-! DEFINITION. Operand forms of the Spoke instructions (R188, R192, R210 to R217): fields, registers, accumulator rows,
local-store accesses, and the scoreboard of outstanding copies (R221). -/

namespace Sys2Proof.Machine

/-! ### Fields (R212) -/

/-- Class and operation of an instruction word. -/
def clsOf (w : Nat) : Nat := bitsOf w 0 4
def opOf (w : Nat) : Nat := bitsOf w 4 8

/-- The fields d, a, b and c (R213, R214). -/
def fldD (w : Nat) : Nat := bitsOf w 12 5
def fldA (w : Nat) : Nat := bitsOf w 17 5
def fldB (w : Nat) : Nat := bitsOf w 22 5
def fldC (w : Nat) : Nat := bitsOf w 27 5

/-- A field of `n` bits as a two's-complement integer. -/
def signedField (v n : Nat) : Int := if v.testBit (n - 1) then (v : Int) - 2 ^ n else v

/-- The immediate of a scalar instruction, sign-extended (R213). -/
def fldImm (w : Nat) : Int := signedField (bitsOf w 32 32) 32

/-- Fields of a vector instruction (R214). -/
def fldFmt (w : Nat) : Nat := bitsOf w 32 4
def fldMx (w : Nat) : Bool := w.testBit 36
def fldSat (w : Nat) : Bool := w.testBit 37
def fldMode (w : Nat) : Nat := bitsOf w 38 4
def fldS (w : Nat) : Nat := bitsOf w 42 5
def fldOff (w : Nat) : Int := signedField (bitsOf w 47 17) 17

/-! ### Registers and accumulators (R210, R211) -/

/-- A scalar register; s0 reads as 0 (R211). -/
def sreg (k : Spoke) (i : Nat) : BitVec 64 := if i = 0 then 0 else tgetD k.sregs i 0

/-- A scalar register written; a write of s0 is ignored (R211). -/
def setSreg (k : Spoke) (i : Nat) (v : BitVec 64) : Spoke := if i = 0 then k else { k with sregs := tset k.sregs i v }

/-- Lanes of a vector register. -/
def lanes : Nat := 512

/-- A vector register. -/
def vreg (k : Spoke) (i : Nat) : List (BitVec 32) := tgetD k.vregs i (List.replicate lanes 0)

/-- A vector register written. -/
def setVreg (k : Spoke) (i : Nat) (v : List (BitVec 32)) : Spoke := { k with vregs := tset k.vregs i v }

/-- Row r of an accumulator tile. -/
def accRow (k : Spoke) (t r : Nat) : List (BitVec 32) := tgetD k.acc (128 * t + r) (List.replicate 128 0)

/-- Row r of an accumulator tile written. -/
def setAccRow (t r : Nat) (v : List (BitVec 32)) (k : Spoke) : Spoke := { k with acc := tset k.acc (128 * t + r) v }

/-! ### The local store (R188, R192) -/

/-- Bytes of the local store. -/
def lsBytes : Nat := 2 ^ 21

/-- Bytes read from the local store. -/
def lsRead (k : Spoke) (a n : Nat) : Bytes := cellRead k.ls a n

/-- Bytes written to the local store; a word written whole holds no error any more. -/
def lsWrite (a : Nat) (bs : Bytes) (k : Spoke) : Spoke :=
  { k with
    ls := cellWrite k.ls a bs
    upsets := k.upsets.filter fun u => decide (2 ^ 20 ≤ u.1) || decide (8 * u.1 < a) || decide (a + bs.length < 8 * u.1 + 8) }

/-- An address that a register and an offset give, modulo 2^64. -/
def addrOf (base : BitVec 64) (off : Int) : Nat := ((base.toNat + off) % 2 ^ 64).toNat

/-! ### The scoreboard (R221) -/

/-- A range of the local store: address and length. -/
abbrev Range := Nat × Nat

/-- Two ranges share a granule of 8 KiB. -/
def shareGranule (x y : Range) : Bool :=
  decide (x.2 ≠ 0) && decide (y.2 ≠ 0) &&
    decide (x.1 / 8192 ≤ (y.1 + y.2 - 1) / 8192) && decide (y.1 / 8192 ≤ (x.1 + x.2 - 1) / 8192)

/-- Some of the first ranges share a granule with some of the second. -/
def rangesMeet (xs ys : List Range) : Bool := xs.any fun x => ys.any fun y => shareGranule x y

/-- Scale bytes of a copy. -/
def CopyOp.scales (c : CopyOp) : Nat := if c.mxs then c.len * 8 / elemBits c.fsrc / 32 else c.outLen * 8 / elemBits c.fdst / 32

/-- Local-store bytes that a copy reads. -/
def CopyOp.reads (c : CopyOp) : List Range :=
  (if c.op = 1 then [] else [(c.ls, c.len)]) ++ (if c.cvt && c.mxs then [(c.scale, c.scales)] else [])

/-- Local-store bytes that a copy writes. -/
def CopyOp.writes (c : CopyOp) : List Range :=
  (if c.op = 1 then [(c.ls, c.outLen)] else if c.op = 3 then [(c.off, c.outLen)] else []) ++
  (if c.cvt && c.mxd then [(c.scale, c.outLen * 8 / elemBits c.fdst / 32)] else [])

/-- An instruction's reads and writes wait for an outstanding copy. -/
def conflicts (k : Spoke) (reads writes : List Range) : Bool :=
  k.copies.any fun c => rangesMeet writes (c.reads ++ c.writes) || rangesMeet reads c.writes

end Sys2Proof.Machine
end

