-- ==== Sys2Proof/Machine/Copies.lean ====
section
/-! DEFINITION. What a copy of a Spoke does when it completes (R207, R218 to R221): segments and their rights, conversion, and
the bytes it moves. -/

namespace Sys2Proof.Machine

/-- Tenant of a Spoke's context. -/
def spokeTenant (k : Spoke) : Nat := (k.ctx.map (·.1)).getD 0

/-- Rights of a segment kind (Table 9.7). -/
def segReads (kind : Nat) : Bool := [1, 2, 3, 4, 7].contains kind
def segWrites (kind : Nat) : Bool := [3, 4, 5, 6].contains kind

/-- An entry of a Spoke's segment table; an entry that is not there is of kind 0. -/
def segmentOf (k : Spoke) (i : Nat) : Segment := (k.segs[i]?).getD ⟨0, 0, 0, 0⟩

/-- The segment lets a copy of an operation write: CPPEER writes kind 6 only. -/
def mayWrite (op : Nat) (s : Segment) : Bool := segWrites s.kind && (decide (op ≠ 4) || decide (s.kind = 6))

/-- Bytes of a read or write that lie inside the segment and its rights (R220). -/
def bytesInside (s : Segment) (ok : Bool) (off n : Nat) : Nat := if ok then min n (s.size - off) else 0

/-- A copy that leaves its segment is logged and nothing else (R220). -/
def logCopy (spk : Nat) (k : Spoke) (c : CopyOp) (inside n : Nat) (b : Block) : Block :=
  if inside < n then violation 7 (spokeTenant k) spk (c.off + c.seg * 2 ^ 56) b else b

/-- The bytes of a copy converted, with the scale bytes it makes (R207). -/
def convertBytes (c : CopyOp) (scales bs : Bytes) : Bytes × Bytes :=
  if c.cvt then
    let n := c.len * 8 / elemBits c.fsrc
    let xs := readElems c.fsrc n c.mxs bs scales
    let (es, out) := writeElems c.fdst c.mxd c.sat xs
    (padTo c.outLen es, out)
  else (bs, [])

/-- Bytes of HBM as a Spoke copy reads them: a failing block reads zeros (R308). -/
def hbmRead (b : Block) (a n : Nat) : Bytes :=
  if b.mem.poisoned = [] then cellRead b.hbm a n
  else (List.range n).map fun i => if b.mem.poisoned.contains ((a + i) / 64 * 64) then 0 else cellGet b.hbm (a + i)

/-- Bytes written to HBM; a block written whole is sound again. -/
def hbmWrite (a : Nat) (bs : Bytes) (b : Block) : Block :=
  { b with
    hbm := cellWrite b.hbm a bs
    mem := { b.mem with poisoned := b.mem.poisoned.filter fun p => !(decide (a ≤ p) && decide (p + 64 ≤ a + bs.length)) } }

/-- Bytes that a peer's copy puts into a Spoke's local store; the place is noted (R222). -/
def peerWrite (a : Nat) (bs : Bytes) (k : Spoke) : Spoke := { lsWrite a bs k with peerIn := k.peerIn ++ [(a, bs.length)] }

/-- Bytes put into a segment: HBM, or the local store of the Spoke that the consumer of the same context is bound to (Table
9.7, R228, R236). -/
def segPut (ctx : Option (Nat × Nat × Nat)) (s : Segment) (off : Nat) (bs : Bytes) (b : Block) : Block :=
  if s.kind = 6 then
    if (spoke b s.peer).ctx = ctx then
      setSpoke s.peer (peerWrite (s.base + off) (bs.take (lsBytes - (s.base + off))) (spoke b s.peer)) b
    else b
  else hbmWrite (s.base + off) bs b

/-- The source bytes of a copy; what lies outside its segment reads as zero (R220). -/
def copySource (b : Block) (k : Spoke) (c : CopyOp) : Bytes × Nat :=
  if c.op = 1 then
    let s := segmentOf k c.seg
    let n := bytesInside s (segReads s.kind) c.off c.len
    (padTo c.len (hbmRead b (s.base + c.off) n), n)
  else (lsRead k c.ls c.len, c.len)

/-- A copy completes: its bytes move, converted where it converts (R207, R219 to R221). -/
def moveCopy (spk : Nat) (c : CopyOp) (b : Block) : Block :=
  let k := spoke b spk
  let (bs, got) := copySource b k c
  let (out, scales) := convertBytes c (if c.mxs then lsRead k c.scale c.scales else []) bs
  let k' := { k with copies := k.copies.filter fun x => decide (x.num ≠ c.num) }
  let k' := if c.op = 1 then lsWrite c.ls out k' else if c.op = 3 then lsWrite c.off out k' else k'
  let k' := if c.cvt && c.mxd then lsWrite c.scale scales k' else k'
  let b := logCopy spk k c got c.len (setSpoke spk k' b)
  if c.op = 2 ∨ c.op = 4 then
    let s := segmentOf k c.seg
    let n := bytesInside s (mayWrite c.op s) c.off out.length
    logCopy spk k c n out.length (segPut k.ctx s c.off (out.take n) b)
  else b

/-! ### ECC of what is read (R189) -/

/-- Errors that lie in words of the local store, or of accumulator rows, that an instruction reads. -/
def upsetsIn (k : Spoke) (reads : List Range) (rows : List Nat) : List (Nat × Bool) :=
  k.upsets.filter fun u =>
    if u.1 < 2 ^ 20 then reads.any fun r => decide (0 < r.2) && decide (r.1 < 8 * u.1 + 8) && decide (8 * u.1 < r.1 + r.2)
    else rows.contains ((u.1 - 2 ^ 20) / 64)

/-- The counter of an error (Table 8.17). -/
def countUpset (spk : Nat) (u : Nat × Bool) (b : Block) : Block :=
  if u.1 < 2 ^ 20 then b.bumpFi (if u.2 then F.SPK_ERR_ls_uncorr else F.SPK_ERR_ls_corr) spk 1
  else b.bumpFi (if u.2 then F.SPK_ERR_acc_uncorr else F.SPK_ERR_acc_corr) spk 1

/-- A copy of a Spoke that has stopped completes; the errors in what it reads are counted. -/
def landCopy (spk : Nat) (c : CopyOp) (b : Block) : Block :=
  moveCopy spk c ((upsetsIn (spoke b spk) c.reads []).foldl (fun b u => countUpset spk u b) b)

/-- An outstanding copy of a Spoke. -/
def outstanding (b : Block) (spk num : Nat) : Option CopyOp := (spoke b spk).copies.find? fun c => decide (c.num = num)

end Sys2Proof.Machine
end

