-- ==== Sys2Proof/Machine/Pannier.lean ====
section
/-! DEFINITION. The pannier engine's rows within one module (chapter 4, R35, R42): PARK, REVIVE, DEPTH, the idle timers,
speculative revival, late and failed tiers, and the homing mode. -/

namespace Sys2Proof.Machine

/-! ### Room for a revival (R40, R42) -/

/-- Bytes of the page frames that hold `n` rows from a position. -/
def frameBytes (g : GeomClass) (cap first n : Nat) : Nat :=
  ((pageDirectory cap n first n).map fun e => e.1 / 16 * unitBytes g).sum

/-- Rows of a log that land as it is computed (R84, R116): whole groups of 16, and what stands before each mark. -/
def landedOf (log : List (BitVec 32)) : Nat :=
  (log.foldl (fun (acc : Nat × Nat) e =>
    if e = depthMark then (acc.1 + acc.2, 0)
    else if acc.2 = 15 then (acc.1 + 16, 0) else (acc.1, acc.2 + 1)) (0, 0)).1

/-- HOT bytes that a revival needs beyond what is charged (R42); the frames of a shadow slot are charged already. -/
def reviveNeed (b : Block) (x : Session) : Nat :=
  if x.shadow.isSome then 0
  else frameBytes (geomOf b x) (capOf b x) x.prefixTokens (if x.depth = dWarm then x.computed else landedOf x.log)

/-- HOT bytes that a session's demotion frees: its frames that nothing else lists. -/
def demotionFrees (b : Block) (x : Session) : Nat :=
  ((x.table.map (·.entries)).getD []).foldl (fun n e =>
    match tget b.ses.frames e.frame with
    | some f => if f.refs ≤ 1 ∧ prefixLists b e.frame = false then n + 2 ^ f.order * unitBytes (geomOf b x) else n
    | none => n) 0

/-- A session put in its place by `last_active_ns`, then session number (R42). -/
def insertVictim (v : Nat × Session) : List (Nat × Session) → List (Nat × Session)
  | [] => [v]
  | w :: ws => if v.2.lastActiveNs < w.2.lastActiveNs then v :: w :: ws else w :: insertVictim v ws

/-- The demotion that R41 gives an idle session; none when it finds no target. -/
def demotionTarget (b : Block) (x : Session) : Option (Nat × Nat × Bool) :=
  match chooseTarget b x 3 3 true with
  | .go d t f => if d = dHot then none else some (d, t, f)
  | .quota _ => none

/-- Idle HOT sessions of a tenant that R42 may demote, least recently active first. -/
def victims (b : Block) (tenant sid : Nat) : List (Nat × Session) :=
  (b.ses.slots.filter fun e => decide (e.1 ≠ sid) && decide (e.2.tenant = tenant) && decide (e.2.state = ssHot)
    && e.2.motion.isNone && !e.2.enrolled && !e.2.closing && decide (reqRefs b (handleOf e.1 e.2) = 0)
    && (demotionTarget b e.2).isSome).foldl (fun acc v => insertVictim v acc) []

/-- The fewest leading victims that free `short` bytes; none when all of them do not. -/
def fewest (b : Block) : (short : Nat) → List (Nat × Session) → Option (List (Nat × Session))
  | 0, _ => some []
  | _, [] => none
  | n + 1, v :: vs => (fewest b (n + 1 - demotionFrees b v.2) vs).map (v :: ·)

/-- HOT bytes that demotions already ordered for a tenant's revivals will free. -/
def freedSoon (b : Block) (tenant : Nat) : Nat :=
  (b.ses.slots.map fun e => match e.2.motion with
    | some m => if e.2.tenant = tenant ∧ m.kind = .park ∧ m.cls = 1 then demotionFrees b e.2 else 0
    | none => 0).sum

/-- A demotion of R42 ordered (row 6's motion, in the REVIVE's class). -/
def orderDemotion (cls : Nat) (v : Nat × Session) (b : Block) : Block :=
  match demotionTarget b v.2 with
  | none => b
  | some (d, t, f) => orderMotion v.1 .park cls d t none (countFallback f b)

/-- The speculative lift of a session, if complete, ends its revival at once (R97). -/
def liftComplete (x : Session) : Bool := (x.shadow.map (·.complete)).getD false

/-- A revival admitted (R42, R75, R83, R97): QUOTA, a wait for demotions, or the motion. -/
def admitRevival (c : Ctx) (cls sid : Nat) (x : Session) (b : Block) : Ans :=
  let need := hotBytes b x.tenant + reviveNeed b x
  let limit := hotLimit b x.tenant
  if need ≤ limit then
    let b := if x.shadow.isSome then b.bump F.PNE_CNT_SPEC_spec_hit else b
    let b := orderMotion sid .revive cls dHot 0 (some c.rid) b
    let b := instrWait c.rid (.motion (waitsOnLower b sid)) b
    .handled (if liftComplete x ∧ motionsActive b < maxMotions b then finishRevive sid (beginMotion sid b) else b)
  else if b.getFi F.SES_TQ_POLICY_evict_on_revive x.tenant = 0 then .done St.quota none b
  else if need - limit ≤ freedSoon b x.tenant then .wait .retry b
  else
    let b := readAllPairs b
    match fewest b (need - limit - freedSoon b x.tenant) (victims b x.tenant sid) with
    | none => .done St.quota none b
    | some vs => .wait .retry (vs.foldl (fun b v => orderDemotion 1 v b) b)

/-! ### PARK, REVIVE and DEPTH -/

/-- A session's model slot holds the model its sessions were opened with, ready to compute rows (R342). -/
def modelReady (b : Block) (x : Session) : Bool := ((modelSlot b x.modelSlot).map fun m => decide (m.state = 1)).getD false

/-- REVIVE (R33, R42, R83, R84): on a HOT session it moves nothing. -/
def revive (c : Ctx) (b : Block) : Ans :=
  withSession c false (fun sid x b =>
    if admitted b c sid x .settled = false then .wait .retry b
    else if x.state = ssHot then .done St.ok (some [0]) b
    else if x.depth = dCold ∧ 0 < privatePositions x ∧ modelReady b x = false then Ans.malformed b
    else admitRevival c 1 sid x b) b

/-- REVIVE of a request (rows 9 and 11 of Table 2.5). -/
def execRevive (rid : Nat) (s : State) : Host.Outcome State Fault Refusal := actC .none (runRow .revive revive rid) s

/-- Tier that a session holds: its WARM image's, or its log's. -/
def tierHeld (b : Block) (x : Session) : Nat := if x.depth = dWarm then x.warmTier else unitTier b x.logPlace

/-- An instruction that moves nothing completes with OK, giving the depth and tier held (R76). -/
def staysPut (c : Ctx) (x : Session) (b : Block) : Ans :=
  .done St.ok (some (motionResult c.e.opcode x.depth x.depth (tierHeld b x))) b

/-- The shadow slot dropped and the expected-resume time taken as a PARK or DEPTH is admitted (R95, R96). -/
def admitDepth (c : Ctx) (sid : Nat) (b : Block) : Block :=
  let b := dropShadow sid b
  let hint := if c.e.ptr then c.arg b 32 8 else 0
  if hint = 0 then b else updSession sid (fun x => { x with resumeHintNs := hint, hintSpent := false }) b

/-- The motion that PARK or DEPTH orders for a chosen depth and tier (Table 4.1, R76), or none. -/
def motionKindTo (x : Session) (depth tier : Nat) : Option MotionKind :=
  if depth = dHot then (if x.depth = dHot then none else some .revive)
  else if x.depth = dHot then some .park
  else if x.depth = dCold then none
  else if depth = dCold then some .demote
  else if tier = x.warmTier then none else some .retier

/-- PARK or DEPTH to a depth and tier, once admitted (R41, R76, R82). A PARK moves only a HOT session (rows 5 and 9 of
Table 2.5; log entry 17). -/
def toDepth (c : Ctx) (park : Bool) (sid : Nat) (x : Session) (b : Block) : Ans :=
  let depth := bitsOf c.e.a 0 2
  let tier := bitsOf c.e.a 2 2
  if x.depth = dCold ∧ depth = dWarm then Ans.malformed b
  else if park ∧ x.depth ≠ dHot then staysPut c x (admitDepth c sid b)
  else match chooseTarget b x depth tier park with
    | .quota f => .done St.quota none (countFallback f b)
    | .go d t f =>
      let b := countFallback f b
      match motionKindTo x d t with
      | none => staysPut c x (admitDepth c sid b)
      | some .revive =>
        if x.depth = dCold ∧ 0 < privatePositions x ∧ modelReady b x = false then Ans.malformed b
        else
          let b := admitDepth c sid b
          admitRevival c 3 sid ((session b sid).getD x) b
      | some k =>
        let b := admitDepth c sid b
        let b := orderMotion sid k 3 d t (some c.rid) b
        .wait (.motion (waitsOnLower b sid)) b

/-- PARK (R82). In a trailer it does nothing on a closing session (R33). -/
def park (c : Ctx) (b : Block) : Ans :=
  if bitsOf c.e.a 0 2 = 0 then Ans.malformed b
  else withSession c false (fun sid x b =>
    if c.inTrailer ∧ x.closing then staysPut c x b
    else if admitted b c sid x .idle = false then .wait .retry b
    else toDepth c true sid x b) b

/-- PARK of a request (row 5 of Table 2.5). -/
def execPark (rid : Nat) (s : State) : Host.Outcome State Fault Refusal := actC .none (runRow .park park rid) s

/-- DEPTH that orders a motion (R76). -/
def depth (c : Ctx) (b : Block) : Ans :=
  withSession c false (fun sid x b =>
    if c.inTrailer ∧ x.closing then staysPut c x b
    else if admitted b c sid x .idle = false then .wait .retry b
    else toDepth c false sid x b) b

/-- DEPTH of a request (rows 5, 9 and 11 of Table 2.5). -/
def execDepth (rid : Nat) (s : State) : Host.Outcome State Fault Refusal := actC .none (runRow .depth depth rid) s

/-- DEPTH with bit [4] set (R76): the hints, the expected-resume time when a block is given, and no motion. -/
def depthHint (c : Ctx) (b : Block) : Ans :=
  withSession c false (fun sid x b =>
    if c.inTrailer ∧ x.closing then staysPut c x b
    else if admitted b c sid x .any = false then .wait .retry b
    else
      let b := dropShadow sid b
      let b := updSession sid (fun x => { x with hintDepth := bitsOf c.e.a 0 2, hintTier := bitsOf c.e.a 2 2 }) b
      let b := if c.e.ptr then
          updSession sid (fun x => { x with resumeHintNs := c.arg b 32 8, hintSpent := false }) b
        else b
      .done St.ok (some [BitVec.ofNat 8 x.depth]) b) b

/-- DEPTH_HINT of a request (R76). -/
def execDepthHint (rid : Nat) (s : State) : Host.Outcome State Fault Refusal :=
  actC .none (runRow .depthHint depthHint rid) s

/-! ### Idle timers (R35) -/

/-- A session has been idle for an interval, and may be demoted by a timer (R35). -/
def idleFor (b : Block) (sid : Nat) (x : Session) (ns : Nat) : Bool :=
  !b.stale && decide (ns ≠ 0) && decide (x.lastActiveNs + ns ≤ b.now) && x.motion.isNone && !x.enrolled && !x.closing
    && decide (reqRefs b (handleOf sid x) = 0)

/-- Row 6: `hot_idle_ms` expires; a demotion that finds no target leaves the session where it is (R41). -/
def hotIdle (sid : Nat) (b : Block) : Block :=
  let b := readPairs sid b
  match session b sid with
  | none => b
  | some x =>
    if x.state = ssHot ∧ idleFor b sid x (b.getFi F.SES_TQ_POLICY_hot_idle_ms x.tenant * 1000000) = true then
      match demotionTarget b x with
      | none => b
      | some _ => orderDemotion 4 (sid, x) (dropShadow sid b)
    else b

/-- HOT_IDLE_EXPIRY (R35, row 6 of Table 2.5). -/
def execHotIdleExpiry (sid : Nat) (s : State) : Host.Outcome State Fault Refusal := actC (.slot sid) (hotIdle sid) s

/-- Row 10: `warm_idle_s` expires, where `deepest` is COLD; the COLD tier is the one R41 gives. -/
def warmIdle (sid : Nat) (b : Block) : Block :=
  let b := readPairs sid b
  match session b sid with
  | none => b
  | some x =>
    if x.state = ssWarm ∧ coldAllowed b x.tenant = true
        ∧ idleFor b sid x (b.getFi F.SES_TQ_POLICY_warm_idle_s x.tenant * 1000000000) = true then
      match chooseTarget b x dCold 3 true with
      | .quota _ => b
      | .go d t f => orderMotion sid .demote 4 d t none (countFallback f (dropShadow sid b))
    else b

/-- WARM_IDLE_EXPIRY (R35, row 10 of Table 2.5). -/
def execWarmIdleExpiry (sid : Nat) (s : State) : Host.Outcome State Fault Refusal := actC (.slot sid) (warmIdle sid) s

/-! ### Speculative revival (R95 to R97) -/

/-- The lead of a WARM session's tier, in ns (R95). -/
def specLead (b : Block) (x : Session) : Nat :=
  1000 * (if x.warmTier = 0 then b.getF F.PNE_SPEC_CFG_lead_hbm_us else if x.warmTier = 1 then
    b.getF F.PNE_SPEC_CFG_lead_host_us else b.getF F.PNE_SPEC_CFG_lead_nbr_us)

/-- A speculative lift ordered (R75, class 5): it starts, or waits for a place of the engine. -/
def orderLift (sid : Nat) (b : Block) : Block :=
  let (n, b) := nextAdmission b
  if motionsActive b < maxMotions b then startLift sid n b
  else updSession sid (fun x => { x with liftWait := some n }) b

/-- Host time reaches the resume hint minus the lead (R95): the lift starts, or one of the cases that start none counts
in `spec_skip`. Each hint is acted on once. -/
def specRevive (sid : Nat) (b : Block) : Block :=
  let b := readPairs sid b
  match session b sid with
  | none => b
  | some x =>
    if x.resumeHintNs = 0 ∨ x.hintSpent ∨ b.getFi F.SES_TQ_POLICY_spec_revive x.tenant = 0 ∨ x.motion.isSome
        ∨ x.shadow.isSome ∨ x.liftWait.isSome ∨ x.closing ∨ (x.state ≠ ssWarm ∧ x.state ≠ ssCold) ∨ b.now + specLead b x < x.resumeHintNs then b
    else
      let b := updSession sid (fun x => { x with hintSpent := true }) b
      if b.stale ∨ x.state = ssCold ∨ hotLimit b x.tenant < hotBytes b x.tenant + reviveNeed b x then
        b.bump F.PNE_CNT_SPEC_spec_skip
      else orderLift sid b

/-- SPEC_REVIVE_START (R95). -/
def execSpecReviveStart (sid : Nat) (s : State) : Host.Outcome State Fault Refusal := actC (.slot sid) (specRevive sid) s

/-- SHADOW_HOLD_EXPIRY (R96): the host time has passed the hint plus `shadow_hold_ms`. -/
def execShadowHoldExpiry (sid : Nat) (s : State) : Host.Outcome State Fault Refusal :=
  actC (.slot sid) (fun b => match (session b sid).bind (·.shadow) with
    | none => b
    | some sh =>
      if b.stale = false ∧ sh.hint + b.getF F.PNE_SPEC_CFG_shadow_hold_ms * 1000000 < b.now then dropShadow sid b else b) s

/-! ### Late and failed tiers (R92, R94) -/

/-- A motion on a session that runs. -/
def runningMotion (b : Block) (sid : Nat) : Option Motion :=
  (session b sid).bind fun x => x.motion.bind fun m => if m.running then some m else none

/-- TIER_LATE (R92): counted once per motion. -/
def execTierLate (sid : Nat) (s : State) : Host.Outcome State Fault Refusal :=
  actC (.slot sid) (fun b => match session b sid, runningMotion b sid with
    | some _, some m =>
      if m.late = false ∧ waitsOnLower b sid = true then
        (updSession sid (fun x => { x with motion := some { m with late := true } }) b).bump F.PNE_CNT_FAULT_tier_late
      else b
    | _, _ => b) s

/-- A lower-tier access of a session's motion, or of its speculative lift, fails (R94, Table 4.5). An access that the
motion does not make changes nothing. -/
def tierFails (sid : Nat) (read : Bool) (b : Block) : Block :=
  match session b sid, runningMotion b sid with
  | some _, some m =>
    if read then (if waitsOnLower b sid then tierFailure sid true b else b)
    else (if m.toTier ≠ 0 ∧ m.kind ≠ .revive ∧ m.kind ≠ .moveOut then tierFailure sid false b else b)
  | some x, none =>
    if read ∧ x.warmTier ≠ 0 ∧ (x.shadow.map fun sh => !sh.complete).getD false = true then
      (dropShadow sid b).bump F.PNE_CNT_FAULT_tier_fault
    else b
  | none, _ => b

/-- TIER_TIMEOUT (R94): an access stayed outstanding for `tier_timeout_ms`. -/
def execTierTimeout (sid : Nat) (read : Bool) (s : State) : Host.Outcome State Fault Refusal :=
  actC (.slot sid) (tierFails sid read) s

/-- TIER_ERROR (R94): the tier returned an error, its path is down, or its range was revoked. -/
def execTierError (sid : Nat) (read : Bool) (s : State) : Host.Outcome State Fault Refusal :=
  actC (.slot sid) (tierFails sid read) s

/-! ### Homing (R81) -/

/-- A session is WARM or COLD outside HBM: its image, log or scratch stands in a lower tier. -/
def outsideHbm (b : Block) (x : Session) : Bool :=
  (decide (x.depth = dWarm) || decide (x.depth = dCold)) && readsLower b x

/-- A write of PNE_CFG (Table 4.11): `homing` takes effect only while no motion runs or waits and no session is WARM or
COLD outside HBM (R81). -/
def pneCfgWrite (val : Nat) (b : Block) : Block :=
  let free := decide (motionsActive b = 0) && decide (motionsQueued b = 0) && !(b.ses.slots.any fun e => outsideHbm b e.2)
  let b := if free then b.setF F.PNE_CFG_homing (bitsOf val 0 1) else b
  (b.setF F.PNE_CFG_max_motions (bitsOf val 16 9)).setF F.PNE_CFG_pool_timeout_ms (bitsOf val 32 16)

/-- HOMING_WRITE: a write of PNE_CFG from management space (R81). -/
def execHomingWrite (who : Caller) (val : BitVec 64) (s : State) : Host.Outcome State Fault Refusal :=
  actR .none (fun b => if who.isMgmt then pneCfgWrite val.toNat b else b) s

end Sys2Proof.Machine
end

