-- ==== Sys2Proof/Machine/Cutover.lean ====
section
/-! DEFINITION. How sequences leave their pelotons (Table 6.1, order 7), and the pannier that a MOVE sends, with its cutover
(R86, R91, R98 to R100). -/

namespace Sys2Proof.Machine

/-! ### Leaving (order 7) -/

/-- A request's STEP or PREFILL waits to enrol: an end that is owed, or a deadline that has passed, takes effect at once
(R138). -/
def enterWait (rid : Nat) (b : Block) : Block :=
  match req b rid with
  | none => b
  | some q =>
    let b := instrWait rid .enrol b
    match q.owed with
    | some st => cutRequest rid st b
    | none => if b.passed q.deadline then cutRequest rid St.deadline b else b

/-- A session is no longer enrolled (row 4 of Table 2.5). -/
def unenrol (sid : Nat) (b : Block) : Block := updSession sid (fun x => { x with enrolled := false }) b

/-- A sequence leaves its peloton and, where it has work or a flush left, waits. -/
def leaveSeq (s : Seqn) (b : Block) : Block :=
  let b := trimStaging s.sid (unenrol s.sid (releaseSlots s b))
  let s := { s with reserved := 0, plan := 0, lead := false, drafts := [], fused := none }
  if s.work = .finished ∧ ((session b s.sid).map owesFlush).getD false = false then b
  else
    let b := setWaiting (insertSeq s b.ste.waiting) b
    match s.rid with
    | some r => enterWait r b
    | none => b

/-! ### The sections of a pannier (R98 to R100) -/

/-- Length of a section with its padding to 64 bytes. -/
def pad64 (n : Nat) : Nat := (n + 63) / 64 * 64

/-- A section padded with zeros. -/
def paddedSection (bs : Bytes) : Bytes := padTo (pad64 bs.length) bs

/-- Bytes of staging rows in BF16 (Table 4.7, section 5). -/
def stagingBytes (g : GeomClass) (rows : Nat) : Nat := 2 * g.layers * g.elems * rows

/-- The items section: the vector-store items a handle owns. -/
def itemsSection (b : Block) (h : Nat) : Bytes :=
  (ownedItems b h).flatMap fun e => paddedSection (leBytes 4 e.1 ++ leBytes 2 (codeBits b e.1) ++ leBytes 2 0
    ++ leBytes 8 e.2.1.id ++ leBytes 8 e.2.1.attr ++ e.2.1.code)

/-- The rows in a pannier's KV section, in its form (R78, R79, R86). -/
def pannierKv (b : Block) (sid : Nat) (x : Session) (form : Nat) : List KvRow :=
  if form = 2 then (if x.depth = dHot then toWarmRows b x else heldWarm b sid x)
  else if x.depth = dHot then landedList b x else warmRows b sid x

/-- Rows laid out page by page in directory order (Table 4.7, section 4). -/
def pageSections (code layers : Nat) : List (Nat × Nat) → List KvRow → Bytes
  | [], _ => []
  | e :: es, rows => pageBytes code layers (rows.take e.2) ++ pageSections code layers es (rows.drop e.2)

/-- Format code of the rows of a KV section. -/
def formCode (m : Net) (form : Nat) : Nat := if form = 2 then warmCode else kvCode m.kvFormat

/-- Sections 1 to 6 of a pannier (Table 4.7); version 1.0 carries the log and the scratch only (R99). -/
def pannierBody (b : Block) (sid : Nat) (x : Session) (depth : Nat) (v1 : Bool) : Bytes :=
  let m := sessionNet b none x
  let form := pannierForm x depth
  let (rows, staged) := pannierRows x depth
  let head := paddedSection (logBytes (if v1 then x.log else pannierLog x depth)) ++ paddedSection x.scratch
  if v1 then head
  else
    let dir := pageDirectory (capOf b x) rows x.prefixTokens rows
    head ++ paddedSection (dir.flatMap fun e => leBytes 4 e.1 ++ leBytes 4 e.2 ++ leBytes 8 0)
      ++ paddedSection (if form = 0 then [] else pageSections (formCode m form) m.layers dir (pannierKv b sid x form))
      ++ paddedSection (pageBytes workingCode m.layers (x.stageRows.take staged)) ++ itemsSection b (handleOf sid x)

/-- The trailer: the digest of everything before it. -/
def pannierTrailer (header body : Bytes) : Bytes := sha256 (header ++ body) ++ List.replicate 32 0

/-- Version of the domain key in force. -/
def dkVersion (b : Block) : Nat := (b.rtp.dkCur.map (·.1)).getD 0

/-- The per-move key (R100, R354). -/
def moveKey (b : Block) (moveId dest : Nat) : Bytes :=
  kdf ((b.rtp.dkCur.map (·.2)).getD []) "PNE-MOVE" (leBytes 8 moveId ++ leBytes 1 (ownModule b) ++ leBytes 1 dest)

/-- The clear preamble of a wrapped pannier (R100). -/
def preamble (b : Block) (moveId dest length : Nat) : Bytes :=
  padTo 64 (leBytes 4 0x50574E50 ++ leBytes 2 0x0100 ++ leBytes 1 (ownModule b) ++ leBytes 1 dest ++ leBytes 8 moveId
    ++ leBytes 8 length ++ leBytes 4 (dkVersion b))

/-- The segments of 4,096 bytes of a pannier, encrypted (R100); the first argument bounds them. -/
def wrapSegments (key pre : Bytes) (moveId : Nat) : (fuel i : Nat) → Bytes → List Bytes
  | 0, _, _ => []
  | n + 1, i, bs =>
    if bs = [] then []
    else gcmSeal key (leBytes 8 moveId ++ leBytes 4 i) pre (bs.take 4096) :: wrapSegments key pre moveId n (i + 1) (bs.drop 4096)

/-- A pannier streamed to a destination: preamble and segments, the last of them with the trailer (Table 4.3, orders 3 and
4). -/
def sendPannier (dest moveId : Nat) (pannier : Bytes) (b : Block) : Block :=
  let pre := preamble b moveId dest pannier.length
  let segs := wrapSegments (moveKey b moveId dest) pre moveId (pannier.length / 4096 + 1) 0 pannier
  let b := (pre :: segs.dropLast).foldl (fun b s => sendMsg dest 2 moveId (.pannier moveId s) b) b
  sendMsg dest 2 moveId (.trailer moveId (segs.getLast?.getD [])) b

/-! ### What a checkpoint captures of a session (R388) -/

/-- A session's pannier as a checkpoint holds it (R388): version 2.0, in the form of its depth. -/
def ckptPannier (b : Block) (sid : Nat) (x : Session) : Bytes :=
  let header := pannierHeader b sid x x.depth 0 false
  let body := pannierBody b sid x x.depth false
  header ++ body ++ pannierTrailer header body

/-- A session takes part in a step that has not reached its boundary's end. -/
def midStep (b : Block) (sid : Nat) : Bool :=
  b.ste.pelotons.any fun e => decide (e.2.phase ≠ .ready) && e.2.seqs.any fun s => decide (s.sid = sid)

/-- A session captured: its pannier as it now stands, through a snapshot of its table and leases on its frames (R113, R123,
R388). -/
def captureSession (r : CkptRun) (sid : Nat) (x : Session) (b : Block) : CkptRun × Block :=
  let frames := (reachableFrames b x).eraseDups
  let first := decide (r.panniers = [])
  ({ r with
      toCapture := r.toCapture.filter (· ≠ sid)
      panniers := r.panniers ++ [ckptPannier b sid x]
      snaps := r.snaps ++ (x.table.map fun t => (sid, t.version)).toList
      leased := r.leased ++ frames
      startNs := if first then b.now else r.startNs
      epoch := if first then b.getF F.CMP_EPOCH_epoch else r.epoch
      endNs := b.now },
   frames.foldl (fun b k => addLease k b) (takeSnap sid b))

/-- The sessions still to capture that stand at a boundary, or between two of their instructions, are captured; one that is gone is
captured no more (R388). -/
def captureReady (b : Block) : Block :=
  match b.tdm.ckpt with
  | none => b
  | some r =>
    let (r, b) := r.toCapture.foldl (fun (a : CkptRun × Block) sid =>
      match session a.2 sid with
      | some x =>
        if x.state = ssScrubbing then ({ a.1 with toCapture := a.1.toCapture.filter (· ≠ sid) }, a.2)
        else if midStep a.2 sid then a
        else captureSession a.1 sid x a.2
      | none => ({ a.1 with toCapture := a.1.toCapture.filter (· ≠ sid) }, a.2)) (r, b)
    { b with tdm := { b.tdm with ckpt := some r } }

/-- What a checkpoint holds of the table versions and frames it captured given up. -/
def endCapture (r : CkptRun) (b : Block) : Block :=
  r.snaps.foldl (fun b s => dropSnap s b) (r.leased.foldl (fun b k => dropLease k b) b)

/-! ### Cutover (R91) -/

/-- A STEP of some request is in progress on a session (R91). -/
def stepUnderWay (b : Block) (sid : Nat) : Bool :=
  (allSeqs b).any fun s => decide (s.sid = sid) && match s.work with
    | .step _ => true
    | _ => false

/-- A session stands at a step boundary at which a MOVE may cut over (R91). -/
def mayCutOver (b : Block) (sid : Nat) (x : Session) : Bool :=
  !midStep b sid && decide (x.staging.drafts = 0) && !stepUnderWay b sid

/-- A session taken out of every peloton at once (row 4): cut over in single-home mode, it is left out of every step. -/
def leaveSteps (sid : Nat) (b : Block) : Block :=
  [0, 1, 2, 3, 4, 5, 6, 7].foldl (fun b place =>
    match tget b.ste.pelotons place with
    | none => b
    | some p =>
      let (go, stay) := p.seqs.partition fun s => decide (s.sid = sid)
      if go = [] then b
      else go.foldl (fun b s => leaveSeq s b) (if stay = [] then setPel place none b else putSeqs place stay b)) b

/-- The pannier sent whole (Table 4.3, orders 3 and 4), at cutover where the session steps (R91). The header is offered again
where the session has changed since. What the conversion to the WARM form found without a number is counted (R78). -/
def streamMove (sid : Nat) (x : Session) (mo : MoveOut) (b : Block) : Block :=
  let header := pannierHeader b sid x mo.depth mo.moveId mo.oldPannier
  let body := pannierBody b sid x mo.depth mo.oldPannier
  let b := if x.depth = dHot ∧ pannierForm x mo.depth = 2 then countNanBlocks (toWarmRows b x) b else b
  let b := if header = mo.header then b else sendMsg mo.dest 2 mo.moveId (.offer header) b
  let b := sendPannier mo.dest mo.moveId (header ++ body ++ pannierTrailer header body) b
  let home := singleHome b
  let b := endWalk sid (updSession sid (fun x => { x with
    moveOut := some { mo with stage := .sent, cutover := home, header := header } }) b)
  if home then leaveSteps sid b else b

/-- A session whose pages have all been sent cuts over where it may (R91). -/
def cutOver (sid : Nat) (b : Block) : Block :=
  match session b sid with
  | none => b
  | some x =>
    match x.moveOut with
    | none => b
    | some mo =>
      if mo.stage = .streaming ∧ mo.pagesSent = true ∧ (x.depth ≠ dHot ∨ mayCutOver b sid x = true) then streamMove sid x mo b
      else b

/-- The cutovers that a step boundary allows (R91). -/
def cutOvers (b : Block) : Block := b.ses.slots.foldl (fun b e => if e.2.moveOut.isSome then cutOver e.1 b else b) b

end Sys2Proof.Machine
end

