-- ==== Sys2Proof/Machine/Boundary.lean ====
section
/-! DEFINITION. Dispatch and the boundary (R135 to R148, R157 to R166, R169, R181, R232, R233, R308, R344 to R347), and
the teardown after a program fault (R336). -/

namespace Sys2Proof.Machine

/-- The step's snapshots and leases released (Table 6.1, order 1). -/
def releaseStep (p : Peloton) (b : Block) : Block :=
  p.snaps.foldl (fun b s => dropSnap s b) (p.leased.foldl (fun b k => dropLease k b) b)

/-- A sequence's request ends with the step engine, and the rest of the sequence (R164, R166). -/
def endHere (s : Seqn) (b : Block) : Seqn × Block :=
  let b := releaseSlots s b
  match session b s.sid with
  | none => ({ s with reserved := 0, rid := none, work := .finished }, b)
  | some x => (afterEnd s x, b)

/-- A request ends with a status at a boundary; its instruction is the STEP or PREFILL it runs, which gives its result. -/
def endAtBoundary (rid status : Nat) (w : SeqWork) (b : Block) : Block :=
  endRequest rid status (((req b rid).map (·.pc)).getD 0) (noteResult rid w b)

/-! ### Planning a step (R140 to R146, R176) -/

/-- Work that counts as decode work in the MIXED budget (R146); a lead-in step is decode work (log entry 152). -/
def decodeWork (s : Seqn) (x : Session) : Bool :=
  match s.work with
  | .closing => true
  | .step r => !runCatchesUp r x || decide (0 < draftLimit r x)
  | _ => false

/-- The STEP after a PREFILL that the PREFILL's last step starts (R145), with the draft depth it asks for; none where it is not
of this session, not decoded, or fails a starting check. Its draft model is taken up as it starts (R175). -/
def fusedStep (b : Block) (rid : Nat) (x : Session) (h : Nat) : Option (StepRun × Nat) :=
  (req b rid).bind fun q =>
    match q.instrs[q.pc + 1]? with
    | none => none
    | some e =>
      let t := reqTenant b q
      let isa := ((ringOf b q.ring).map (·.isa)).getD 0x31
      if rowOf isa e ≠ some .step ∨ encodingBad b isa t e = true ∨ entryHandle b t e ≠ some h ∨ q.carry.isSome
          ∨ (modelSlot b x.modelSlot).any (·.tuning) = true then none
      else match startStep b q t e.hi x with
        | .ok r _ => some ({ r with depth := 0, draft := none }, stepDepth b q e.hi)
        | .fail _ _ => none

/-- A PREFILL's last step takes up the STEP that follows it where one result entry of one block can be reserved (R145,
R159). -/
def fuse (s : Seqn) (x : Session) (n : Nat) (b : Block) : Seqn × Block :=
  match s.rid with
  | none => (s, b)
  | some rid =>
    if n < pendingPositions x then (s, b)
    else match fusedStep b rid x (handleOf s.sid x) with
      | none => (s, b)
      | some f => match reserveSlots s (entrySlots b f.1 1) b with
        | none => (s, b)
        | some (s, b) => ({ s with fused := some f }, b)

/-- A sequence's part in a step within what is left of the budget: the sequence, what is left, and the block. A decode sequence
takes 1 position and its draft depth (R146). -/
def planSeq (s : Seqn) (rest : Option Nat) (b : Block) : Seqn × Option Nat × Block :=
  let s := { s with plan := 0, lead := false, drafts := [], fused := none }
  match session b s.sid with
  | none => (s, rest, b)
  | some x =>
    let seg := segmentLength x
    let spend := fun n => rest.map (· - n)
    let fit := fun n => match rest with
      | some r => min n r
      | none => n
    match s.work with
    | .step r =>
      if pendingPositions x = 0 then ({ s with lead := true }, spend (leadRows b x), b)
      else if decodeWork s x then
        let (ds, short) := draftsOf b s.rid r x
        let b := if short then b.bump F.STE_DRAFT_CNT_draft_short else b
        let b := b.bumpN F.STE_DRAFT_PROP_proposed ds.length
        ({ s with plan := seg, drafts := ds, work := .step { r with proposed := r.proposed + ds.length } },
          spend (seg + if seg = 1 then r.depth else 0), b)
      else
        let n := fit (min (catchUp r x (defaultChunk b)) seg)
        ({ s with plan := n }, spend n, b)
    | .prefill chunk _ =>
      let n := fit (min chunk seg)
      let (s, b) := fuse s x n b
      ({ s with plan := n }, spend n, b)
    | .closing => ({ s with plan := seg }, spend seg, b)
    | .revival =>
      let n := fit (min (defaultChunk b) seg)
      ({ s with plan := n }, spend n, b)
    | .finished => (s, rest, b)

/-- The sequences of a step planned in order (R146); a decode sequence is never left out for want of budget. -/
def planAll : List Seqn → Option Nat → Block → List Seqn × Block
  | [], _, b => ([], b)
  | s :: ss, rest, b =>
    let (s, rest, b) := planSeq s rest b
    let (ss, b) := planAll ss rest b
    (s :: ss, b)

/-- The order of R146: closing passes, decode and verification, then the rest, each in enrolment order. -/
def budgetOrder (b : Block) (ss : List Seqn) : List Seqn :=
  let dec := fun (s : Seqn) => ((session b s.sid).map (decodeWork s)).getD false
  (ss.filter fun s => decide (s.work = .closing)) ++ (ss.filter fun s => decide (s.work ≠ .closing) && dec s)
    ++ ss.filter fun s => !dec s

/-- The adapter version that a request uses on a slot, fixed at its first step there (R169). -/
def fixVersion (b : Block) (slot : Nat) (q : Req) : Req :=
  let dg := weightsInForce b slot
  { q with
    modelDg := q.modelDg.or (some dg)
    versions := if q.versions.any fun v => decide (v.1 = slot) then q.versions else (slot, dg) :: q.versions }

/-- What a dispatch fixes for a sequence's session and request: the snapshot, the rows its step writes, the adapter
version of its first step (R169) and the overlay in force (R22). -/
def stageSeq (s : Seqn) (b : Block) : Block :=
  match session b s.sid with
  | none => b
  | some x =>
    let rows : Staging := ⟨x.staging.confirmed, s.plan + s.drafts.length⟩
    let b := takeSnap s.sid (trimStaging s.sid (updSession s.sid (fun x => { x with staging := rows }) b))
    match s.rid with
    | none => b
    | some r => updReq r (fun q => { fixVersion b x.modelSlot q with ovlDg := some (overlayDigest b) }) b

/-- A sequence that leaves because the role no longer runs its work waits for a role: its instruction is counted once (R147,
R148). -/
def countRoleWait (s : Seqn) (b : Block) : Seqn × Block :=
  match session b s.sid, s.rid with
  | some x, some _ =>
    if awaitsStep s && !runsWork b s x && !s.roleWait then ({ s with roleWait := true }, b.bump F.STE_CNT_DEFER_role_wait) else (s, b)
  | _, _ => (s, b)

/-- A sequence leaves at order 7; what waits for a role is counted. -/
def leaveCounted (s : Seqn) (b : Block) : Block :=
  let (s, b) := countRoleWait s b
  leaveSeq s b

/-- A sequence may step: it awaits a step, and its session is one that a step may compute. -/
def steppable (b : Block) (s : Seqn) : Bool :=
  match session b s.sid with
  | none => false
  | some x => awaitsStep s && sessionSteps s x

/-- The role and the session's state let a sequence step. -/
def mayStep (b : Block) (s : Seqn) : Bool := steppable b s && ((session b s.sid).map (runsWork b s)).getD false

/-- A sequence whose flush met the quota (R109). -/
def endQuota (s : Seqn) (b : Block) : Seqn × Block :=
  match s.rid with
  | none => ({ s with work := .finished }, failMotion s.sid St.quota b)
  | some r =>
    let w := s.work
    let (s, b) := endHere s b
    (s, instrDone r St.quota (workResult w) b)

/-- Every sequence of a peloton made ready for the step that is dispatched; those that cannot be leave. The role in force does
not move a sequence here (R148). -/
def readyAll : List Seqn → Block → List Seqn × Block
  | [], b => ([], b)
  | s :: ss, b =>
    if steppable b s = false then readyAll ss (leaveSeq s b)
    else match readySeq s b with
    | .go s b =>
      let (ss, b) := readyAll ss b
      (s :: ss, b)
    | .out b => readyAll ss (leaveSeq s b)
    | .quota b =>
      let (t, b) := endQuota s b
      readyAll ss (leaveSeq t b)

/-- The sequences of a step in the order of their places in the peloton, whatever order planned them. -/
def inPlaceOrder (old planned : List Seqn) : List Seqn :=
  old.map fun s => (planned.find? fun t => decide (t.sid = s.sid)).getD s

/-- Bytes of the statistics buffer of a step (R167): for the rows that the sequences of a tuning program's slot compute. -/
def stepStats (b : Block) (slot : Nat) (ss : List Seqn) : Nat :=
  match modelSlot b slot with
  | none => 0
  | some m => if m.tuning || Config.keepsStats m.programDg then statBytes (netOf m []) (ss.map fun s => s.plan + s.drafts.length).sum else 0

/-- The step of a peloton dispatched (order 9; R113, R123, R136): of `tiles` tiles. -/
def dispatch (place tiles : Nat) (b : Block) : Block :=
  match tget b.ste.pelotons place with
  | none => b
  | some p =>
    let (ss, b) := readyAll p.seqs b
    if ss = [] then setPel place none b
    else
      let budget := if role b = roleMixed then some (b.getF F.STE_CFG_mixed_budget) else none
      let (planned, b) := planAll (budgetOrder b ss) budget b
      let ss := inPlaceOrder ss planned
      let snaps := ss.filterMap fun s => (session b s.sid).bind fun x => x.table.map fun t => (s.sid, t.version)
      let frames := (ss.flatMap fun s => ((session b s.sid).map (reachableFrames b)).getD []).eraseDups
      let b := ss.foldl (fun b s => stageSeq s b) b
      let b := frames.foldl (fun b k => addLease k b) b
      let (n, b) := nextTick b
      let tiles := max 1 tiles
      setPel place (some { p with
        seqs := ss, phase := .flight, sent := n, preempting := false, regained := false, tiles := tiles, tilesLeft := tiles,
        tilesOut := 0, faults := 0, fault := none, prog := false, torn := false, abandon := false, failed := [],
        snaps := snaps, leased := frames, stats := stepStats b p.slot ss, targeted := [] }) b

/-- A place given to the peloton that takes the next one (R136, R346): its step is dispatched, or its interrupted step
goes on. -/
def grantPlace (place tiles : Nat) (b : Block) : Block :=
  match nextForPlace b with
  | none => b
  | some (k, p) =>
    if k ≠ place ∨ 4 ≤ inFlight b ∨ tenantState b p.tenant ≠ tsActive ∨ (tget b.ten.tearing p.tenant).isSome then b
    else match p.phase with
      | .ready => dispatch place tiles b
      | .preempted => setPel place (some { p with phase := .flight, regained := true }) b
      | _ => b

/-- PELOTON_PLACE_GRANT (R136, R346). -/
def execPelotonPlaceGrant (place tiles : Nat) (s : State) : Host.Outcome State Fault Refusal :=
  actC (.place place) (grantPlace place tiles) s

/-! ### Orders 1 to 3 -/

/-- A sequence took part in the step. -/
def tookPart (s : Seqn) : Bool := decide (0 < s.plan) || s.lead

/-- A step counts for the request and the STEP that took part in it (Table 3.8, R163);
it counts also where its rows are discarded (log entry 26). -/
def countStep (s : Seqn) (b : Block) : Seqn × Block :=
  if tookPart s = false then (s, b)
  else
    let work := match s.work with
      | .step r => .step { r with steps := r.steps + 1 }
      | w => w
    ({ s with work := work }, match s.rid with
      | some r => updReq r (fun q => { q with steps := q.steps + 1 }) b
      | none => b)

/-- The rows a step computed stand in staging, those of its pending positions as confirmed rows (R139); the step counts for its
request. -/
def computeSeq (s : Seqn) (b : Block) : Seqn × Block :=
  let b := updSession s.sid (fun x => { x with
    computed := x.computed + s.plan, staging := ⟨x.staging.confirmed + s.plan, s.drafts.length⟩,
    stageRows := x.stageRows ++ (computeRows b s.rid x s.plan s.drafts).map PosOut.row }) b
  let (s, b) := countStep s b
  let work := match s.work with
    | .prefill chunk done => .prefill chunk (done + s.plan)
    | .closing => if ((session b s.sid).map pendingPositions).getD 0 = 0 then .finished else .closing
    | w => w
  ({ s with work := work }, b)

/-- The ending check of one sequence (order 2; R165, R166). One that stayed in the peloton with no position in the step (R146) is
ended too, and not counted among those that took part (log entry 151). -/
def endCheck (s : Seqn) (b : Block) : Seqn × Block :=
  match s.rid with
  | none => (s, b)
  | some rid =>
    match req b rid with
    | none => endHere s b
    | some q =>
      let took := tookPart s
      let stop := fun (st : Nat) (f : Fld) =>
        let b := discardDrafts s.sid s.drafts.length b
        let b := if took then b.bump f else b
        let (t, b) := endHere s b
        (t, endAtBoundary rid st s.work b)
      match q.owed with
      | some st =>
        if st = St.cancelled then stop st F.STE_CNT_END_cancel_end
        else
          let b := discardDrafts s.sid s.drafts.length b
          let (t, b) := endHere s b
          (t, endAtBoundary rid st s.work b)
      | none => if b.passed q.deadline then stop St.deadline F.STE_CNT_END_deadline_end else (s, b)

/-- A list written for a STEP's step (order 3; R157 to R159). -/
def writeList (s : Seqn) (rid : Nat) (x : Session) (r : StepRun) (q : Req) (b : Block) : Seqn × Block :=
  let bs := resultEntry b q rid s.sid x r q.steps s.drafts
  let b := postList s.ring s.reserved bs b
  ({ s with reserved := 0, work := .step { r with start := none, await := some ⟨q.steps, s.drafts, tokensOf x - 1, r.start.getD (tokensOf x - s.plan), false⟩ } }, b)

/-- A sequence whose step has been redone goes on as any other (R381). -/
def restarted (s : Seqn) : Seqn :=
  match s.work with
  | .step r => { s with work := .step { r with start := none } }
  | _ => s

/-- Order 3 for one sequence: the list that its step owes; a PREFILL's last step may complete it and start the STEP that
follows (R145). -/
def listSeq (s : Seqn) (b : Block) : Seqn × Block :=
  match s.rid, session b s.sid with
  | some rid, some x =>
    match req b rid with
    | none => (s, b)
    | some q =>
      if tookPart s = false then (s, b)
      else if 0 < pendingPositions x then (restarted s, b)
      else match s.work, s.fused with
        | .step r, _ => writeList s rid x r q b
        | .prefill _ done, some (r, depth) =>
          let b := instrDone rid St.ok (some (leBytes 4 done)) b
          let r := withDraft b x depth r
          let b := if 0 < depth ∧ r.draft = none then b.bump F.STE_DRAFT_CNT_draft_off else b
          let dg := ((runList b r).map (·.digest)).getD []
          let b := imageRead (updReq rid (fun q => { q with wait := .step, clistDg := some dg }) b)
          writeList { s with fused := none } rid x { r with steps := 1 } ((req b rid).getD q) b
        | _, _ => (s, b)
  | _, _ => (s, b)

/-- A function run over the sequences of a step in order. -/
def eachSeq (f : Seqn → Block → Seqn × Block) : List Seqn → Block → List Seqn × Block
  | [], b => ([], b)
  | s :: ss, b =>
    let (s, b) := f s b
    let (ss, b) := eachSeq f ss b
    (s :: ss, b)

/-! ### Orders 5 to 8 -/

/-- Bytes of weights, programs and adapter versions that a tenant's slots hold (Table 14.16, R344). -/
def tenantModelBytes (b : Block) (t : Nat) : Nat :=
  (b.ten.models.map fun e => if e.2.owner = t ∧ e.2.state ≠ slEmpty then
    e.2.bytes + e.2.adapters.length * Config.adapterBytes e.2.programDg else 0).sum

/-- The bytes of the adapter version that a PREFILL makes: what its program's update gives of the version in use and of the
gradients of the positions it computed (R168, R169, log entry 139). -/
def tunedBytes (rid done : Nat) (b : Block) (x : Session) : Bytes :=
  match modelSlot b x.modelSlot with
  | none => []
  | some m =>
    let net := sessionNet b (some rid) x
    let hi := tokensOf x
    padTo (Config.adapterBytes m.programDg) (Config.update net.weights m.programDg
      (gradients net (kvView b x fun _ => false) (fullLog b x) (logTokenIds b x) (hi - done) hi))

/-- The next adapter version of a tuning slot, with the digest of the bytes written (R169, R344); none where `model_gib` or the
KV region has no room. -/
def tuneSlot (rid done : Nat) (x : Session) (b : Block) : Option Block :=
  match modelSlot b x.modelSlot with
  | none => none
  | some m =>
    let n := Config.adapterBytes m.programDg
    if b.getFi F.STE_TQ_SCHED_model_gib m.owner * 2 ^ 30 < tenantModelBytes b m.owner + n then none
    else
      let image := tunedBytes rid done b x
      (takeExtents 0 (extentsFor n) m.owner (.adapter x.modelSlot) b).map fun (run, b) =>
        setModel x.modelSlot (some { m with adapters := (sha256 image, run) :: m.adapters, adapterNs := b.now })
          { b with ses := { b.ses with extents := tupd b.ses.extents run fun e => { e with image := image } } }

/-- A PREFILL whose last pending position is computed completes (R140, R169). -/
def endPrefill (s : Seqn) (rid done : Nat) (x : Session) (b : Block) : Seqn × Block :=
  let (s, b) := endHere s b
  if (modelSlot b x.modelSlot).any (·.tuning) then
    match tuneSlot rid done x b with
    | none => (s, instrDone rid St.quota (some (leBytes 4 done)) b)
    | some b => (s, instrDone rid St.ok (some (leBytes 4 done)) b)
  else (s, instrDone rid St.ok (some (leBytes 4 done)) b)

/-- Order 5 for one sequence: what is due is flushed; a PREFILL or a revival that has computed its last position is done. One
whose flush finds no frame is marked to leave (R109). -/
def flushOne (s : Seqn) (b : Block) : Seqn × Block :=
  match session b s.sid with
  | none => ({ s with work := .finished }, b)
  | some x =>
    let after := fun (s : Seqn) (b : Block) =>
      match s.work, s.rid with
      | .prefill _ done, some rid => if pendingPositions x = 0 then endPrefill s rid done ((session b s.sid).getD x) b else (s, b)
      | .revival, _ => if pendingPositions x = 0 then ({ s with work := .finished }, b) else (s, b)
      | _, _ => (s, b)
    match flushSeq s x b with
    | .go s b => after s b
    | .out b => after { s with missed := true } b
    | .quota b => endQuota s b

/-- The sequence waits for an ACCEPT that has not come in its time (R161). -/
def acceptLate (s : Seqn) : Bool :=
  match s.work with
  | .step r => (r.await.map (·.late)).getD false
  | _ => false

/-- A flush that a sequence out of every peloton still owes is tried again at a boundary (R109, R117): it counts as one more
`frame_wait` where its rows have no step to go with. The staging it reads is checked first (Table 12.2). -/
def retryFlush (b : Block) (s : Seqn) : Block :=
  let late := acceptLate s
  match session b s.sid with
  | none => b
  | some x =>
    if (s.work ≠ .finished ∧ late = false) ∨ owesFlush x = false then b
    else match unitRead s.sid [1] b with
      | some b => b
      | none => match flushSeq s x b with
        | .go _ b => b
        | .out b' => if late then b else b'
        | .quota _ => b

/-- Order 6 for one sequence: one that may step again has its resources reserved, or is marked to leave. -/
def checkOne (s : Seqn) (b : Block) : Seqn × Block :=
  if s.missed || !mayStep b s then (s, b)
  else match checkSeq s b with
    | .go s b => (s, b)
    | .out b => ({ s with missed := true }, b)
    | .quota b => endQuota s b

/-- Order 7 for a sequence whose ACCEPT has not come: it is late, and the drafts go (R161, R181). -/
def markLate (s : Seqn) (b : Block) : Seqn × Block :=
  match s.work with
  | .step r => match r.await with
    | some w => ({ s with work := .step { r with await := some { w with late := true } } }, discardDrafts s.sid w.drafts.length b)
    | none => (s, b)
  | _ => (s, b)

/-- `accept_late` (R138, R161): one for each sequence of the peloton's tenant and slot that misses its next step for want of an ACCEPT. -/
def countLate (p : Peloton) (ss : List Seqn) (b : Block) : Block :=
  b.bumpN F.STE_CNT_DEFER_accept_late
    ((ss ++ b.ste.waiting).filter fun s => acceptLate s && decide (seqKey b s = some (p.tenant, p.slot))).length

/-- A sequence stays in its peloton at order 7. -/
def stays (b : Block) (p : Peloton) (s : Seqn) : Bool :=
  mayStep b s && !p.evict && !s.missed

/-- A sequence waits through a boundary for want of a peloton place (R137, R345). -/
def countPelWait (b : Block) : Block :=
  let n := (b.ste.waiting.filter fun s => match seqKey b s with
    | none => false
    | some key => joinable b s && !hasRoom b key && (decide (freePlace b = none) || decide (maxPel b key.1 ≤ residentOf b key.1))).length
  b.bumpN F.STE_CNT_DEFER_pel_wait n

/-- The peloton waits at order 9 (R136, R377). -/
def awaitPlace (place delta : Nat) (b : Block) : Block :=
  match tget b.ste.pelotons place with
  | none => b
  | some p =>
    let (n, b) := nextTick b
    let b := if deltaAcked b delta then b else b.bump F.TDM_CNT_ack_wait
    let ss := p.seqs.map fun s => { s with plan := 0, lead := false, drafts := [] }
    setPel place (some { p with seqs := ss, phase := .ready, waitFrom := n, preempting := false, regained := false, delta := delta }) b

/-- Orders 5 to 8 of a boundary, with the boundary's delta (R376); the peloton then waits at order 9. One left with no sequence at
order 7 is dissolved (R135, R136, R345, R377). The captures and the cutovers that the boundary allows follow (R91, R388). -/
def finishBoundary (place : Nat) (b : Block) : Block :=
  match tget b.ste.pelotons place with
  | none => b
  | some p =>
    let (ss, b) := eachSeq flushOne p.seqs b
    let b := b.ste.waiting.foldl retryFlush b
    let (delta, b) := if tandemOn b then sendDelta none false b else (0, b)
    let (ss, b) := eachSeq checkOne ss b
    let (ss, b) := eachSeq markLate ss b
    let (stay, go) := ss.partition (stays b p)
    let b := putSeqs place stay (countLate p ss b)
    let b := go.foldl (fun b s => leaveCounted s b) b
    let b := if p.evict then b.bump F.STE_SCHED_pel_evict else b
    let b := if stay = [] then setPel place none b else awaitPlace place delta (joinSeqs place b.ste.waiting b)
    let b := setWaiting (b.ste.waiting.map fun s => { s with missed := false }) b
    countPelWait (cutOvers (captureReady b))

/-- ACCEPT_WAIT_END (R161, R135): the gather of order 4 ends, and the boundary goes on to dispatch. -/
def acceptWaitEnd (place tiles : Nat) (b : Block) : Block :=
  match tget b.ste.pelotons place with
  | none => b
  | some p => if p.phase = .gather then grantPlace place tiles (finishBoundary place b) else b

/-- ACCEPT_WAIT_END of the peloton at a place (R161). -/
def execAcceptWaitEnd (place tiles : Nat) (s : State) : Host.Outcome State Fault Refusal :=
  actC (.place place) (acceptWaitEnd place tiles) s

/-! ### Faulting steps (R232, R233, R308, R336) -/

/-- Rows of a step discarded in place, as draft rows are: their positions stay pending (R181, R232). -/
def discardRows (s : Seqn) (b : Block) : Block := discardDrafts s.sid s.drafts.length b

/-- A step ends under R232: its rows go, its requests end with CONTEXT_FAULT, its peloton is dissolved (R336). -/
def endFaulted (place : Nat) (p : Peloton) (b : Block) : Block :=
  let b := setPel place none (releaseStep p b)
  p.seqs.foldl (fun b s =>
    let (s, b) := countStep s (unenrol s.sid (releaseSlots s (discardRows s b)))
    match s.rid with
    | some r => endAtBoundary r St.contextFault s.work b
    | none => b) b

/-- Requests of a tenant, by place in the decode order. -/
def requestsOf (b : Block) (t : Nat) : List Nat :=
  (b.fe.reqs.filter fun e => decide (e.2.kind = .normal) && decide (reqTenant b e.2 = t)).map (·.1)

/-- A request takes part in a step that has not reached its boundary. -/
def inStep (b : Block) (rid : Nat) : Bool :=
  b.ste.pelotons.any fun e => decide (e.2.phase = .flight) && e.2.seqs.any fun s => decide (s.rid = some rid)

/-- A Spoke at which a tile of a peloton's step has stopped. -/
def haltedAt (b : Block) (place : Nat) (p : Peloton) : List Nat :=
  (b.spk.spokes.filter fun e => e.2.halted && decide (e.2.ctx = some (p.tenant, p.slot, place))).map (·.1)

/-- Machine fault codes (Table 9.8). -/
def machineCode (c : Nat) : Bool := decide (0x10 ≤ c)

/-- A Spoke that stopped over a tile fault is released: after a machine fault it goes to its test, otherwise it stays in
service (R232, R233). The copies it had issued complete (R231). -/
def releaseHalted (i : Nat) (b : Block) : Block :=
  let machine := machineCode (spoke b i).fault
  let b := setSpoke i Spoke.reset ((spoke b i).copies.foldl (fun b c => landCopy i c b) b)
  if machine then settleSpoke i (drainSpoke i b) else settleSpoke i b

/-- Chains of a peloton's step leave their Spokes unsaved; a swap that was saving one is given up (R231). -/
def dropChains (place : Nat) (p : Peloton) (b : Block) : Block :=
  b.spk.spokes.foldl (fun b e =>
    if e.2.ctx = some (p.tenant, p.slot, place) ∧ e.2.halted = false ∧ e.2.running = false then
      settleSpoke e.1 (setSpoke e.1 { e.2 with chain := none, swapping := false, reserved := false, deferred := false } b)
    else b) b

/-- Every Spoke that a step still holds is given up: one that stopped over a fault, and one whose chain stands between two tiles. -/
def leaveSpokes (place : Nat) (p : Peloton) (b : Block) : Block :=
  dropChains place p ((haltedAt b place p).foldl (fun b i => releaseHalted i b) b)

/-- The teardown of a tenant is complete at the last boundary it waits for: the tenant is HELD (R334, R336). -/
def finishTeardown (t : Nat) (b : Block) : Block :=
  match tget b.ten.tearing t with
  | none => b
  | some code =>
    if b.ste.pelotons.any fun e => decide (e.2.tenant = t) then b
    else
      let b := { b with ten := { b.ten with tearing := tdel b.ten.tearing t, teardownNs := tset b.ten.teardownNs t b.now } }
      let b := b.setFi F.MOD_TEN_STAT_last_fault t code
      let b := b.setFi F.MOD_TEN_STAT_fault_s t (b.now / 1000000000)
      let b := b.bumpFi F.MOD_TEN_STAT_ctx_faults t 1
      fire Src.tenantHeld (b.setFi F.MOD_TEN_STAT_tstate t tsHeld)

/-- What a teardown does to one peloton of its tenant (Table 14.3). -/
def tearPeloton (t : Nat) (place : Nat) (b : Block) : Block :=
  match tget b.ste.pelotons place with
  | none => b
  | some p =>
    if p.tenant ≠ t then b
    else match p.phase with
      | .flight => if p.tilesOut = 0 then endFaulted place p (leaveSpokes place p b) else setPel place (some { p with torn := true }) b
      | .preempted => endFaulted place p (leaveSpokes place p b)
      | _ =>
        let b := setPel place none b
        p.seqs.foldl (fun b s =>
          let b := unenrol s.sid (releaseSlots s (discardRows s b))
          match s.rid with
          | some r => instrWait r .enrol b
          | none => b) b

/-- Teardown of a tenant after a program fault (R336, Table 14.3). -/
def teardown (t code : Nat) (b : Block) : Block :=
  if tenantState b t ≠ tsActive ∨ (tget b.ten.tearing t).isSome then b
  else
    let b := { b with ten := { b.ten with tearing := tset b.ten.tearing t code } }
    let b := setSaved (b.spk.saved.filter fun c => decide (c.tenant ≠ t)) b
    let b := [0, 1, 2, 3, 4, 5, 6, 7].foldl (fun b k => tearPeloton t k b) b
    let b := (requestsOf b t).foldl (fun b r => if inStep b r then b else cutRequest r St.contextFault b) b
    finishTeardown t b

/-- A frame that a sequence's step reads fails its tag, or a staging block of its session does (Table 12.4, kinds 1 and 4). -/
def tagBad (b : Block) (x : Session) : Bool :=
  x.badUnits.any (fun u => decide (u.1 = 1))
    || (reachableFrames b x).any fun k => ((tget b.ses.frames k).map (·.badTag)).getD false

/-- A unit that a sequence's step read has failed (R126, R307, R308): reported, and its owner dealt with as Table 12.4 gives; true
where a Spoke's copy met the failing block, and the whole step ends with it. -/
def unitFails (s : Seqn) (b : Block) : Option (Bool × Block) :=
  match session b s.sid with
  | none => none
  | some x =>
    let tag := tagBad b x && !((prefixOf b x).map (·.2.damaged)).getD false
    match (modelSlot b x.modelSlot).map fun m => (m.damaged, m.owner) with
    | some (true, owner) => some (true, tagFail 5 owner 0 false b)
    | _ => match kvRead s.sid b with
      | some b => some (tag, b)
      | none => (prefixRead x b).map fun b => (tag, b)

/-- Every failing unit of a step met once: whether every request of the step ends, and the sessions that read a failing unit. -/
def readFailures : List Seqn → Bool × List Nat → Block → (Bool × List Nat) × Block
  | [], bad, b => (bad, b)
  | s :: ss, bad, b =>
    if tookPart s = false then readFailures ss bad b
    else match unitFails s b with
      | some (wide, b) => readFailures ss (bad.1 || wide, s.sid :: bad.2) b
      | none => readFailures ss bad b

/-- A sequence whose request ends over a failing block: its rows go, and its request, or its revival, ends with INTEGRITY (R126,
R308). It has no further part in the step. -/
def failSeq (s : Seqn) (b : Block) : Seqn × Block :=
  let (s, b) := countStep s (discardRows s b)
  let idle := fun (s : Seqn) => { s with plan := 0, lead := false, drafts := [], fused := none }
  match s.rid, s.work with
  | some r, w =>
    let (s, b) := endHere s b
    (idle s, endAtBoundary r St.integrity w b)
  | none, .revival => (idle { s with work := .finished }, integrityEnds s.sid b)
  | none, _ => (idle s, b)

/-- Orders 1 to 3 of a step that ended without a fault; the boundary goes on at once where no ACCEPT is awaited. -/
def openBoundary (place : Nat) (p : Peloton) (b : Block) : Block :=
  let b := Block.bumpN (releaseStep p b) F.STE_STEPS_steps 1
  let b := if p.failed = [] then b else tagFail 8 p.tenant 0 true b
  let (bad, b) := readFailures p.seqs (decide (p.failed ≠ []), []) b
  let fails := fun (s : Seqn) => tookPart s && (bad.1 || bad.2.contains s.sid)
  let (ss, b) := eachSeq (fun s b => if fails s then failSeq s b else (s, b)) p.seqs b
  let (ss, b) := eachSeq computeSeq ss b
  let (ss, b) := eachSeq endCheck ss b
  let (ss, b) := eachSeq listSeq ss b
  let waits := ss.any fun s => match s.work with
    | .step r => r.await.isSome
    | _ => false
  let b := setPel place (some { p with seqs := ss, phase := .gather, snaps := [], leased := [], stats := 0 }) b
  if waits then b else finishBoundary place b

/-- A step is abandoned over a reset of its tenant: it reaches no boundary, its rows go, and its peloton is gone (Table 14.4,
order 2). Its requests end with the reset. -/
def abandonStep (place : Nat) (p : Peloton) (b : Block) : Block :=
  p.seqs.foldl (fun b s =>
    let (s, b) := countStep s (unenrol s.sid (releaseSlots s (discardRows s b)))
    match s.rid with
    | some r => noteResult r s.work b
    | none => b) (setPel place none (releaseStep p b))

/-- The last tile of a step has ended (Table 6.1, order 1), or of those that still ran after a fault (R231): the boundary
opens, the step is redone, or it ends under R232. -/
def endStepTiles (place : Nat) (b : Block) : Block :=
  match tget b.ste.pelotons place with
  | none => b
  | some p =>
    let b := leaveSpokes place p b
    let b := setSaved (b.spk.saved.filter fun c => decide ((c.tenant, c.slot, c.place) ≠ (p.tenant, p.slot, place))) b
    if p.abandon then abandonStep place p b
    else match p.fault with
    | none => if p.torn then finishTeardown p.tenant (endFaulted place p b) else openBoundary place p b
    | some (code, _) =>
      if p.torn then finishTeardown p.tenant (endFaulted place p (if p.prog then b.bump F.SPK_CNT_prog_fault else b))
      else if p.prog then teardown p.tenant code (endFaulted place p (b.bump F.SPK_CNT_prog_fault))
      else if p.faults < 3 then
        setPel place (some { p with fault := none, tilesLeft := p.tiles, tilesOut := 0, failed := [], targeted := [] })
          ((b.bumpN F.STE_DRAFT_CNT_draft_discard (p.seqs.map (·.drafts.length)).sum).bump F.SPK_CNT_step_redo)
      else
        teardown p.tenant code (endFaulted place p ((b.bump F.SPK_CNT_machine_repeat).bump F.SPK_CNT_prog_fault))

/-! ### Preemption (R346, R347) -/

/-- PREEMPT_COMPLETE (R346): the last chain of the peloton has left its Spoke; the place passes on. -/
def preemptDone (place : Nat) (b : Block) : Block :=
  match tget b.ste.pelotons place with
  | none => b
  | some p =>
    let held := b.spk.spokes.any fun e => decide (e.2.ctx = some (p.tenant, p.slot, place)) &&
      (e.2.running || e.2.swapping || e.2.chain.isSome)
    if p.phase = .flight ∧ p.preempting = true ∧ p.tilesOut = 0 ∧ held = false then
      (setPel place (some { p with phase := .preempted, preempting := false }) b).bump F.STE_SCHED_preempt_pel
    else b

/-- PREEMPT_COMPLETE of the peloton at a place (R346). -/
def execPreemptComplete (place : Nat) (s : State) : Host.Outcome State Fault Refusal := actC (.place place) (preemptDone place) s

end Sys2Proof.Machine
end

