-- ==== Sys2Proof/Machine/Search.lean ====
section
/-! DEFINITION. The search coordinator (chapter 11): filters, flat searches, graph walks, SEARCH, VINSERT, VDELETE, VMERGE,
sharded searches, and the life of an index but for its merges (Merge.lean). -/

namespace Sys2Proof.Machine

/-! ### Distances and filters (R264, R273, R274) -/

/-- Bits that are 1 in a byte. -/
def popcount (v : BitVec 8) : Nat := ((List.range 8).filter fun i => v.toNat.testBit i).length

/-- Hamming distance of two codes (R264). -/
def hamming : Bytes → Bytes → Nat
  | [], _ => 0
  | _, [] => 0
  | a :: as, c :: cs => popcount (a ^^^ c) + hamming as cs

/-- Clauses of a filter block (R273). -/
def filterClauses (f : Bytes) : List Bytes := (List.range (bytesAt f 0 1)).map fun i => (f.drop (64 + 24 * i)).take 24

/-- A clause that R274 refuses. -/
def clauseBad (c : Bytes) : Bool :=
  let kind := bytesAt c 0 1
  let offset := bytesAt c 2 1
  let width := bytesAt c 3 1
  let op1 := bytesAt c 8 8
  let op2 := bytesAt c 16 8
  decide (2 < kind) || decide (2 ≤ bytesAt c 1 1) || decide (bytesAt c 4 4 ≠ 0) ||
  (decide (kind = 0) && (decide (offset ≠ 0) || decide (width ≠ 0))) ||
  (decide (kind = 1) && (decide (48 < offset) || decide (width ≠ 0) || decide (65536 ≤ op1) || decide (65536 ≤ op2)
    || decide (op2 < op1))) ||
  (decide (kind = 2) && (decide (width = 0) || decide (16 < width) || decide (64 < offset + width) || decide (op2 ≠ 0)
    || decide (op1 % 64 ≠ 0)))

/-- Bytes of a clause's bitset. -/
def bitsetBytes (c : Bytes) : Nat := (2 ^ bytesAt c 3 1 + 7) / 8

/-- A clause holds for an attribute word, before its inversion (R273). -/
def clauseHolds (c bitset : Bytes) (attr : Nat) : Bool :=
  let kind := bytesAt c 0 1
  let op1 := bytesAt c 8 8
  let op2 := bytesAt c 16 8
  if kind = 0 then decide (attr &&& op1 = op2 &&& op1)
  else if kind = 1 then
    let v := bitsOf attr (bytesAt c 2 1) 16
    decide (op1 ≤ v) && decide (v ≤ op2)
  else
    let f := bitsOf attr (bytesAt c 2 1) (bytesAt c 3 1)
    (bytesAt bitset (f / 8) 1).testBit (f % 8)

/-- Every clause holds after its own inversion; the bitsets stand in the order of their clauses. -/
def clausesPass : (clauses bitsets : List Bytes) → Nat → Bool
  | [], _, _ => true
  | c :: cs, bs, attr =>
    let holds := clauseHolds c (bs.headD []) attr != decide (bytesAt c 1 1 % 2 = 1)
    holds && clausesPass cs (if bytesAt c 0 1 = 2 then bs.tail else bs) attr

/-- An item passes a filter; an empty block is no filter. -/
def passes (f : Bytes) (bitsets : List Bytes) (attr : Nat) : Bool := clausesPass (filterClauses f) bitsets attr

/-! ### Results (R275 to R277) -/

/-- An entry stands before another: ascending distance, ID, module. -/
def hitBefore (a c : Hit) : Bool :=
  decide (a.dist < c.dist) || (decide (a.dist = c.dist) &&
    (decide (a.id < c.id) || (decide (a.id = c.id) && decide (a.module < c.module))))

/-- An entry put in its place; the first `k` are kept. -/
def insertHit (k : Nat) (h : Hit) (hs : List Hit) : List Hit :=
  (hs.takeWhile (fun g => hitBefore g h) ++ [h] ++ hs.dropWhile (fun g => hitBefore g h)).take k

/-- The entry of an item. -/
def hitOf (module : Nat) (query : Bytes) (i : VItem) : Hit :=
  ⟨BitVec.ofNat 64 i.id, BitVec.ofNat 64 i.attr, hamming query i.code, module⟩

/-- The first `k` of some items that pass. -/
def topHits (module k : Nat) (query f : Bytes) (bitsets : List Bytes) (items : List VItem) (hs : List Hit) : List Hit :=
  items.foldl (fun hs i => if passes f bitsets i.attr then insertHit k (hitOf module query i) hs else hs) hs

/-! ### Walks (R278, R279) -/

/-- A walk under way: unexpanded candidates and the best set, each by distance and slot, lowest first; slots seen; edges
skipped for a generation mismatch. -/
structure Walk where
  open_ : List (Nat × Nat)
  best : List (Nat × Nat)
  seen : List Nat
  skips : Nat
  deriving DecidableEq, Repr

/-- A pair put in its place by distance, then slot. -/
def insertNear (p : Nat × Nat) (ps : List (Nat × Nat)) : List (Nat × Nat) :=
  let before := fun (a : Nat × Nat) => decide (a.1 < p.1) || (decide (a.1 = p.1) && decide (a.2 < p.2))
  ps.takeWhile before ++ [p] ++ ps.dropWhile before

/-- A slot becomes a candidate; an eligible one enters the best set of `beam`. -/
def addCandidate (beam : Nat) (eligible : Nat → VSlot → Bool) (query : Bytes) (n : Nat) (v : VSlot) (w : Walk) : Walk :=
  let p := (hamming query v.item.code, n)
  { w with
    open_ := insertNear p w.open_
    seen := n :: w.seen
    best := if eligible n v then (insertNear p w.best).take beam else w.best }

/-- The edges of an expanded node, in list order (step 3). -/
def followEdges (slots : List VSlot) (beam : Nat) (eligible : Nat → VSlot → Bool) (query : Bytes)
    (edges : List (Nat × Nat)) (w : Walk) : Walk :=
  edges.foldl (fun w e =>
    if w.seen.contains e.1 then w
    else match slots[e.1]? with
      | none => w
      | some v =>
        if slotFree v then w
        else if v.gen ≠ e.2 then { w with skips := w.skips + 1 }
        else addCandidate beam eligible query e.1 v w) w

/-- The expansions of a walk; the first argument bounds them (steps 2 to 5). -/
def expand (slots : List VSlot) (beam : Nat) (eligible : Nat → VSlot → Bool) (query : Bytes) : Nat → Walk → Walk
  | 0, w => w
  | n + 1, w =>
    match w.open_ with
    | [] => w
    | (d, s) :: rest =>
      let worst := (w.best.getLast?.map (·.1)).getD 0
      if beam ≤ w.best.length ∧ worst < d then w
      else
        let edges := ((slots[s]?).map (·.edges)).getD []
        expand slots beam eligible query n (followEdges slots beam eligible query edges { w with open_ := rest })

/-- A walk from the entry slots (R278): the best set by distance and slot, and the edges skipped. -/
def walkFrom (slots : List VSlot) (entries : List Nat) (beam : Nat) (eligible : Nat → VSlot → Bool) (query : Bytes) : Walk :=
  let start := entries.foldl (fun w n => match slots[n]? with
    | none => w
    | some v => if w.seen.contains n then w else addCandidate beam eligible query n v w) (⟨[], [], [], 0⟩ : Walk)
  expand slots beam eligible query (64 * beam) start

/-! ### An unsharded search (R270 to R278) -/

/-- What a SEARCH asks. -/
structure SearchArgs where
  k : Nat
  walk : Bool
  query : Bytes
  filter : Bytes
  bitsets : List Bytes
  deriving DecidableEq, Repr

/-- The entries that a search of an index finds, with the generation mismatches met. -/
def searchIndex (b : Block) (n : Nat) (x : Index) (a : SearchArgs) : List Hit × Nat :=
  let module := recordModule b
  if a.walk then
    let beam := max (graphBeam b n) a.k
    let ok := fun (s : Nat) (v : VSlot) => slotVisible x.side s v && passes a.filter a.bitsets v.item.attr
    let w := walkFrom x.slots x.entrySlots beam ok a.query
    let found := w.best.filterMap fun p => (x.slots[p.2]?).map (·.item)
    (topHits module a.k a.query a.filter a.bitsets (found ++ (visibleRecords x.side).map (·.item)) [], w.skips)
  else (topHits module a.k a.query a.filter a.bitsets ((visibleItems x).map (·.1)) [], 0)

/-- An index whose extents hold a failing block is read (R272): the failure is reported and the index is damaged. -/
def damageIndex (n : Nat) (x : Index) (poisoned : Bool) (b : Block) : Block :=
  tagFail 7 (indexTenant b n) 0 poisoned (setIndex n (some { x with damaged := true }) b)

/-- The index that an instruction names (R264): none when it is MALFORMED, with the violation logged. -/
def namedIndex (c : Ctx) (n : Nat) (b : Block) : Option Index × Block :=
  match indexOf b n with
  | none => (none, b)
  | some x =>
    if indexTenant b n ≠ c.tenant then (none, violation 6 c.tenant c.ring n b)
    else if x.state ≠ ixReady then (none, b)
    else (some x, b)

/-- What a SEARCH reads when it starts (R54, R273, R274); none when it is MALFORMED. -/
def readSearch (c : Ctx) (n : Nat) (b : Block) : Option SearchArgs :=
  let k := c.arg b 32 4
  let q := c.arg b 40 8
  let f := c.arg b 48 8
  let r := c.arg b 56 8
  let filter := if f = 0 then [] else b.peek f 256
  let clauses := filterClauses filter
  let sets := clauses.filter fun x => decide (bytesAt x 0 1 = 2)
  if k = 0 ∨ 1024 < k ∨ q % 64 ≠ 0 ∨ f % 64 ≠ 0 ∨ r % 64 ≠ 0 ∨ c.reads b q (codeBits b n / 8) = false
      ∨ (f ≠ 0 ∧ c.reads b f 256 = false) ∨ c.reach b r (64 + 24 * k) = false ∨ 8 < bytesAt filter 0 1
      ∨ clauses.any clauseBad = true
      ∨ (sets.all fun x => c.reads b (bytesAt x 8 8) (bitsetBytes x)) = false
      ∨ (c.e.a.testBit 0 = true ∧ hasGraph b n = false)
      ∨ (c.e.a.testBit 1 = true ∧ (shardWords b n).all (fun w => decide (w = 0)) = true) then none
  else some
    { k := k, walk := c.e.a.testBit 0, query := b.peek q (codeBits b n / 8), filter := filter,
      bitsets := sets.map fun x => b.peek (bytesAt x 8 8) (bitsetBytes x) }

/-- Entries of a result buffer (R275). -/
def hitBytes (h : Hit) : Bytes :=
  leBytes 8 h.id.toNat ++ leBytes 8 h.attr.toNat ++ leBytes 4 h.dist ++ leBytes 1 h.module ++ [0, 0, 0]

/-- The result buffer written (Table 11.5). -/
def writeHits (buffer version side : Nat) (missing : List Nat) (hs : List Hit) (b : Block) : Block :=
  let map := (missing.eraseDups.map fun m => 2 ^ m).sum
  b.pokeBytes buffer (leBytes 4 hs.length ++ leBytes 4 version ++ leBytes 4 side ++ leBytes 4 0 ++ leBytes 32 map
    ++ leBytes 16 0 ++ hs.flatMap hitBytes)

/-- Status and result of a search that has its entries (R275, R276, R283). -/
def searchEnd (k answered : Nat) (missing : List Nat) (hs : List Hit) (b : Block) : Nat × Bytes × Block :=
  let short := decide (hs.length < k) || decide (missing ≠ [])
  let res := leBytes 4 hs.length ++ leBytes 4 answered ++ leBytes 4 missing.length
  if short then (St.partial_, res, b.bump F.NMS_CNT_partial) else (St.ok, res, b)

/-- The checks that every SEARCH shares, and then its run. `scans`: it reads this module's own extents. -/
def searchWith (scans : Block → Nat → Bool) (run : Nat → Index → SearchArgs → Ctx → Block → Ans) (c : Ctx) (b : Block) : Ans :=
  match namedIndex c c.opB b with
  | (none, b) => Ans.malformed b
  | (some x, b) =>
    match readSearch c c.opB b with
    | none => Ans.malformed b
    | some a =>
      if x.damaged then .done St.integrity none b
      else match (if scans b c.opB then indexBad x a.walk else none) with
        | some poisoned => .done St.integrity none (damageIndex c.opB x poisoned b)
        | none => run c.opB x a c b

/-- A search without shards reads its own index. -/
def scansOwn (_ : Block) (_ : Nat) : Bool := true

/-- SEARCH without the sharded flag (R277, R278). -/
def searchLocal (n : Nat) (x : Index) (a : SearchArgs) (c : Ctx) (b : Block) : Ans :=
  let (hs, skips) := searchIndex b n x a
  let b := b.bumpN F.NMS_CNT_gen_skip skips
  let b := writeHits (c.arg b 56 8) x.version x.side.length [] hs b
  let (st, res, b) := searchEnd a.k 0 [] hs b
  .done st (some res) b

/-- SEARCH_FLAT of a request (R277). -/
def execSearchFlat (rid : Nat) (s : State) : Host.Outcome State Fault Refusal :=
  actC .none (runRow .searchFlat (searchWith scansOwn searchLocal) rid) s

/-- SEARCH_GRAPH of a request (R278). -/
def execSearchGraph (rid : Nat) (s : State) : Host.Outcome State Fault Refusal :=
  actC .none (runRow .searchGraph (searchWith scansOwn searchLocal) rid) s

/-! ### Sharded search (R282 to R284) -/

/-- Class SEARCH (Table 13.6). -/
def clsSearch : Nat := 4

/-- Members of a shard set. -/
def shardMembers (b : Block) (n : Nat) : List Nat :=
  let ws := shardWords b n
  (List.range 256).filter fun m => (ws.getD (m / 64) 0).testBit (m % 64)

/-- A sharded SEARCH reads the requester's own index where its bit is set (R282). -/
def scansShard (b : Block) (n : Nat) : Bool := (shardMembers b n).contains (ownModule b)

/-- A sharded SEARCH with every shard accounted for ends (R275, R283). -/
def finishShards (w : ShardWait) (b : Block) : Nat × Bytes × Block :=
  let b := writeHits w.buffer w.version w.side w.missing w.hits b
  searchEnd w.k w.answered w.missing w.hits b

/-- A shard is missing (R283). -/
def missShard (m : Nat) (w : ShardWait) (b : Block) : ShardWait × Block :=
  ({ w with missing := w.missing ++ [m] }, b.bump F.NMS_CNT_shard_missing)

/-- The answer of this module's shard (R282, R283): refused, or its list. -/
def shardAnswer (q : ShardQuery) (b : Block) : ShardAnswer × Block :=
  match indexOf b q.index with
  | none => (.refused, b)
  | some x =>
    if x.state ≠ ixReady ∨ x.damaged ∨ indexTenant b q.index ≠ q.tenant ∨ q.query.length ≠ codeBits b q.index / 8
        ∨ (q.walk ∧ hasGraph b q.index = false) then (.refused, b)
    else match indexBad x q.walk with
      | some poisoned => (.refused, damageIndex q.index x poisoned b)
      | none =>
        let (hs, skips) := searchIndex b q.index x ⟨q.k, q.walk, q.query, q.filter, q.bitsets⟩
        (.list hs, b.bumpN F.NMS_CNT_gen_skip skips)

/-- A shard's list merged (R275, R282). -/
def takeHits (hs : List Hit) (w : ShardWait) : ShardWait :=
  { w with answered := w.answered + 1, hits := hs.foldl (fun acc h => insertHit w.k h acc) w.hits }

/-- A shard that a REDIRECT has moved to the requester itself: its own index answers (R283). -/
def askSelf (m : Nat) (w : ShardWait) (b : Block) : ShardWait × Block :=
  match shardAnswer w.query b with
  | (.list hs, b) => (takeHits hs w, b)
  | (_, b) => missShard m w b

/-- The query sent to a shard, or the shard missing where its module is no live member, or runs Stoty 1.0 (R283, R314). -/
def askShard (m to_ : Nat) (again : Bool) (w : ShardWait) (b : Block) : ShardWait × Block :=
  if liveMember b to_ = false ∨ stoty10 b to_ = true then missShard m w b
  else if to_ = ownModule b then askSelf m w b
  else ({ w with waitFor := w.waitFor ++ [(m, to_, again)] }, sendMsg to_ clsSearch w.index (.query w.query) b)

/-- SEARCH with the sharded flag (R282). -/
def searchShards (n : Nat) (x : Index) (a : SearchArgs) (c : Ctx) (b : Block) : Ans :=
  let members := shardMembers b n
  let own := members.contains (ownModule b)
  let (hs, skips) := if own then searchIndex b n x a else ([], 0)
  let b := b.bumpN F.NMS_CNT_gen_skip skips
  let q : ShardQuery := ⟨n, c.tenant, a.k, a.walk, b.getF F.CMP_EPOCH_epoch, a.query, a.filter, a.bitsets⟩
  let w : ShardWait := ⟨n, a.k, c.arg b 56 8, x.version, x.side.length, q, [], [], if own then 1 else 0, hs⟩
  let (w, b) := (members.filter (· ≠ ownModule b)).foldl (fun acc m => askShard m m false acc.1 acc.2) (w, b)
  if w.waitFor = [] then
    let (st, res, b) := finishShards w b
    .done st (some res) b
  else .wait .shards (updReq c.rid (fun q => { q with shards := some w }) b)

/-- SEARCH_SHARDED of a request (R282). -/
def execSearchSharded (rid : Nat) (s : State) : Host.Outcome State Fault Refusal :=
  actC .none (runRow .searchSharded (searchWith scansShard searchShards) rid) s

/-- A sharded SEARCH as an answer or a timeout leaves it: it ends, or waits on. -/
def stepShards (rid : Nat) (w : ShardWait) (b : Block) : Block :=
  if w.waitFor = [] then
    let (st, res, b) := finishShards w b
    instrDone rid st (some res) (updReq rid (fun q => { q with shards := none }) b)
  else updReq rid (fun q => { q with shards := some w }) b

/-- The sharded SEARCH of a request that waits for answers. -/
def shardWait (b : Block) (rid : Nat) : Option ShardWait :=
  (req b rid).bind fun q => if q.wait = .shards ∧ q.phase = .body then q.shards else none

/-- A shard's answer (R282, R283): merged; a REDIRECT asked once more; a late one discarded. -/
def takeAnswer (rid src : Nat) (ans : ShardAnswer) (b : Block) : Block :=
  match (shardWait b rid).bind fun w => (w.waitFor.find? fun e => decide (e.2.1 = src)).map fun e => (w, e) with
  | some (w, e) =>
    let w := { w with waitFor := w.waitFor.erase e }
    match ans with
    | .list hs => stepShards rid (takeHits hs w) b
    | .refused =>
      let (w, b) := missShard e.1 w b
      stepShards rid w b
    | .redirect owner =>
      let (w, b) := if e.2.2 then missShard e.1 w b else askShard e.1 owner true w b
      stepShards rid w b
  | none =>
    if b.nms.late.contains (rid, src) then
      Block.bump { b with nms := { b.nms with late := b.nms.late.erase (rid, src) } } F.NMS_CNT_shard_late
    else b

/-- SHARD_ANSWER (R282, R283). -/
def execShardAnswer (rid : Nat) (src : BitVec 8) (ans : ShardAnswer) (s : State) : Host.Outcome State Fault Refusal :=
  actC .none (takeAnswer rid src.toNat ans) s

/-- `shard_timeout_us` passes (R283): the shards asked first, or else those asked for the second time, are missing. -/
def shardTimeout (rid : Nat) (b : Block) : Block :=
  match shardWait b rid with
  | none => b
  | some w =>
    let first := w.waitFor.filter fun e => !e.2.2
    let out := if first = [] then w.waitFor else first
    let b := { b with nms := { b.nms with late := b.nms.late ++ out.map fun e => (rid, e.2.1) } }
    let w := { w with waitFor := w.waitFor.filter fun e => !out.contains e }
    let (w, b) := out.foldl (fun acc e => missShard e.1 acc.1 acc.2) (w, b)
    stepShards rid w b

/-- SHARD_TIMEOUT (R283). -/
def execShardTimeout (rid : Nat) (s : State) : Host.Outcome State Fault Refusal := actC .none (shardTimeout rid) s

/-- A shard query served (R282), checked against the requester's stamp as a request is (R325); one that waits is kept. -/
def serveQuery (src : Nat) (q : ShardQuery) (b : Block) : Block :=
  let answer := fun (a : ShardAnswer) (b : Block) => sendMsg src clsSearch q.index (.answer q.index a) b
  match epochCheck b q.epoch false with
  | .wait => { b with nms := { b.nms with waiting := b.nms.waiting ++ [(src, q)] } }
  | .redirect => answer (((servedEntry b).map fun e => ShardAnswer.redirect e.owner).getD .refused) b
  | .run =>
    let (a, b) := shardAnswer q b
    answer a b

/-- The queries that waited for an epoch or a HANDOVER are judged again (R325, R326). -/
def serveWaiting (b : Block) : Block :=
  b.nms.waiting.foldl (fun b e => serveQuery e.1 e.2 b) { b with nms := { b.nms with waiting := [] } }

/-- Shaper of the port over which a shard query arrives (R330, Table 13.19); none where no port joins the sender. -/
def searchIngress (b : Block) (src index : Nat) : Option Nat :=
  let ports := portsTo b src
  (ports[Config.portHash clsSearch index % ports.length]?).map fun p => 65792 + 8 * p + 4

/-- A shard query arrives at its ingress shaper (R330): it goes on, waits behind others, or is dropped. -/
def arriveQuery (src : Nat) (q : ShardQuery) (b : Block) : Block :=
  match searchIngress b src q.index with
  | none => serveQuery src q b
  | some i =>
    let queue := tgetD b.nms.held i []
    let hold := fun (b : Block) => { b with nms := { b.nms with held := tset b.nms.held i (queue ++ [(src, q)]) } }
    if queue ≠ [] then hold b
    else match admitPacket i (MsgBody.query q).payload false b with
      | .go b => serveQuery src q b
      | .hold b => hold b
      | .drop b => b

/-- SHARD_QUERY (R282). -/
def execShardQuery (src : BitVec 8) (q : ShardQuery) (s : State) : Host.Outcome State Fault Refusal :=
  actC .none (arriveQuery src.toNat q) s

/-! ### VINSERT and VDELETE (R267, R268) -/

/-- Inserts that wait in a side list. -/
def waitingInserts (x : Index) : Nat := (x.side.filter (·.insert)).length

/-- VINSERT (R267). -/
def vinsert (c : Ctx) (b : Block) : Ans :=
  let n := c.opB
  let h := c.arg b 32 8 % 2 ^ 48
  let addr := c.arg b 40 8
  let id := c.arg b 56 8
  match namedIndex c n b with
  | (none, b) => Ans.malformed b
  | (some x, b) =>
    if addr % 64 ≠ 0 ∨ id = noId ∨ c.reads b addr (codeBits b n / 8) = false then Ans.malformed b
    else match (if h = 0 then none else match checkHandle c.tenant c.rid c.ring h false b with
      | .fail st b => some (st, b)
      | .ok _ _ => none) with
    | some (st, b) => .done st none b
    | none =>
      if sideMax ≤ x.side.length then .done St.quota none (b.bump F.NMS_CNT2_side_full)
      else if slotLimit b n < slotsInUse x.slots + waitingInserts x + 1 then .done St.quota none b
      else .done St.ok none (insertItem n x ⟨b.peek addr (codeBits b n / 8), c.arg b 48 8, id, h⟩ b)

/-- VINSERT of a request (R267). -/
def execVinsert (rid : Nat) (s : State) : Host.Outcome State Fault Refusal := actC .none (runRow .vinsert vinsert rid) s

/-- VDELETE (R268). A side list that is full takes no record: the VDELETE waits for a merge (log entry 21). -/
def vdelete (c : Ctx) (b : Block) : Ans :=
  match namedIndex c c.e.a b with
  | (none, b) => Ans.malformed b
  | (some x, b) =>
    match findItem x c.opB with
    | none => .done St.ok none (b.bump F.NMS_CNT2_del_miss)
    | some e => if sideMax ≤ x.side.length then .wait .retry b else .done St.ok none (deleteItem c.e.a x e b)

/-- VDELETE of a request (R268). -/
def execVdelete (rid : Nat) (s : State) : Host.Outcome State Fault Refusal := actC .none (runRow .vdelete vdelete rid) s

/-! ### VMERGE (R280) -/

/-- VMERGE (R280): it starts a merge, or asks for one more after the one that runs, and waits for its publication. -/
def vmerge (c : Ctx) (b : Block) : Ans :=
  let n := c.e.a
  match namedIndex c n b with
  | (none, b) => Ans.malformed b
  | (some x, b) =>
    if x.damaged then .done St.integrity none b
    else match x.merge with
      | none => .wait (.merge n (x.started + 1)) (startMerge n x b)
      | some _ => .wait (.merge n (x.started + 1)) (setIndex n (some { x with again := true }) b)

/-- VMERGE of a request (R280). -/
def execVmerge (rid : Nat) (s : State) : Host.Outcome State Fault Refusal := actC .none (runRow .vmerge vmerge rid) s

/-! ### Creating and destroying (R264, R285) -/

/-- An index as it is created. -/
def newIndex : Index := ⟨ixReady, false, 0, [], [], [], 0, none, 0, false, none, none⟩

/-- A write of NMS_IDX_CMD from management space (Table 11.16): the index that NMS_IDX_SEL selects. -/
def indexCommand (cmd : Nat) (b : Block) : Block :=
  let n := b.getF F.NMS_IDX_SEL_index
  match cmd, indexOf b n with
  | 1, none => setIndex n (some newIndex) b
  | 2, some x => if x.state = ixReady then setIndex n (some { x with state := ixDestroying }) b else b
  | _, _ => b

/-- INDEX_CREATE (R264). -/
def execIndexCreate (who : Caller) (s : State) : Host.Outcome State Fault Refusal :=
  actR .none (fun b => if who.isMgmt then indexCommand 1 b else b) s

/-- INDEX_DESTROY (R285). -/
def execIndexDestroy (who : Caller) (s : State) : Host.Outcome State Fault Refusal :=
  actR .none (fun b => if who.isMgmt then indexCommand 2 b else b) s

/-- A search of an index is in flight. -/
def searching (b : Block) (n : Nat) : Bool :=
  b.fe.reqs.any fun e => decide (e.2.wait = .shards) && decide ((e.2.shards.map (·.index)) = some n)

/-- An index emptied: its extents return, and its items have no owners (R285). -/
def emptyIndex (n : Nat) (x : Index) (b : Block) : Block :=
  let b := (visibleItems x).foldl (fun b e => ownItems e.1.owner (· - 1) b) b
  setIndex n none (dropExtentsWith (fun r => decide (r.use = .search n ∨ r.use = .graph n)) b)

/-- The scrub of a destroyed index's extents ends; its searches and merges have ended first (R285). -/
def indexGone (n : Nat) (b : Block) : Block :=
  match indexOf b n with
  | none => b
  | some x => if x.state = ixDestroying ∧ x.merge = none ∧ searching b n = false then emptyIndex n x b else b

/-- INDEX_DESTROY_DONE (R285). -/
def execIndexDestroyDone (index : BitVec 10) (s : State) : Host.Outcome State Fault Refusal :=
  actC .none (indexGone index.toNat) s

end Sys2Proof.Machine
end

