-- ==== Sys2Proof/Machine/Merge.lean ====
section
/-! DEFINITION. Merges of an index (R281, Table 11.7) and MERGE_COMPLETE. -/

namespace Sys2Proof.Machine

/-- Order 2: slots tombstoned and not free become free, with the next generation. -/
def freeTombstones (slots : List VSlot) : List VSlot :=
  slots.map fun v =>
    if v.tomb ∧ v.item.id ≠ noId then { v with item := { v.item with id := noId }, gen := (v.gen + 1) % 65536, edges := [] }
    else v

/-- Order 3: the slots that the records of a snapshot name. -/
def namedSlots (m : List SideRec) : List Nat := m.filterMap fun r => match r.loc with
  | .slot n => some n
  | _ => none

/-- Slots tombstoned. -/
def tombstone (ns : List Nat) (slots : List VSlot) : List VSlot :=
  slots.zipIdx.map fun e => if ns.contains e.2 then { e.1 with tomb := true } else e.1

/-- The lowest free slot. -/
def lowestFree (slots : List VSlot) : Option Nat := (slots.zipIdx.find? fun e => slotFree e.1).map (·.2)

/-- An item placed in a slot: the lowest free one, else a new one (order 4); with the slot's number. -/
def placeItem (i : VItem) (slots : List VSlot) : Nat × List VSlot :=
  match lowestFree slots with
  | some n => (n, slots.modify n fun v => { v with item := i, tomb := false, edges := [] })
  | none => (slots.length, slots ++ [⟨i, false, 0, []⟩])

/-- Order 4: surviving inserts placed in `seq` order: the slots, and where each record went. -/
def placeItems : List SideRec → List VSlot → List VSlot × List (Nat × Nat)
  | [], slots => (slots, [])
  | r :: rs, slots =>
    let (n, slots) := placeItem r.item slots
    let (slots, placed) := placeItems rs slots
    (slots, (r.seq, n) :: placed)

/-- Code of a slot. -/
def codeAt (slots : List VSlot) (n : Nat) : Bytes := ((slots[n]?).map (·.item.code)).getD []

/-- A slot that holds a live item. -/
def liveAt (slots : List VSlot) (n : Nat) : Bool := ((slots[n]?).map fun v => !v.tomb).getD false

/-- The `degree` nearest of some edges to a code, by distance and slot, each slot once. -/
def nearest (slots : List VSlot) (code : Bytes) (degree : Nat) (edges : List (Nat × Nat)) : List (Nat × Nat) :=
  let once := edges.foldl (fun acc e => if acc.any fun f => decide (f.1 = e.1) then acc else acc ++ [e]) ([] : List (Nat × Nat))
  let near := once.foldl (fun acc e => insertNear (hamming code (codeAt slots e.1), e.1) acc) []
  (near.take degree).filterMap fun p => once.find? fun e => decide (e.1 = p.2)

/-- Generation of a slot. -/
def genAt (slots : List VSlot) (n : Nat) : Nat := ((slots[n]?).map (·.gen)).getD 0

/-- Order 5: a list with edges to slots just tombstoned is made of its other edges and the live edges of those slots;
`old` holds the lists as the order begins. -/
def repairList (degree : Nat) (tombs : List Nat) (old : List VSlot) (e : VSlot × Nat) : VSlot :=
  let v := e.1
  if slotFree v ∨ (v.edges.any fun d => tombs.contains d.1) = false then v
  else
    let dead := v.edges.filter fun d => tombs.contains d.1
    let others := v.edges.filter fun d => !tombs.contains d.1
    let found := dead.flatMap fun d => (((old[d.1]?).map (·.edges)).getD []).filter fun f =>
      liveAt old f.1 && decide (f.1 ≠ e.2) && decide (f.2 = genAt old f.1)
    { v with edges := nearest old v.item.code degree (others ++ found) }

/-- Order 5 for every list. -/
def repairLists (degree : Nat) (tombs : List Nat) (slots : List VSlot) : List VSlot :=
  slots.zipIdx.map (repairList degree tombs slots)

/-- A reverse edge added to a list, which is pruned to the nearest (order 6). -/
def reverseEdge (degree n : Nat) (slots : List VSlot) (m : Nat) : List VSlot :=
  slots.modify m fun v => { v with
    edges := if v.edges.length < degree then v.edges ++ [(n, genAt slots n)]
      else nearest slots v.item.code degree (v.edges ++ [(n, genAt slots n)]) }

/-- Order 6 for one placed item: a walk with the build beam gives its nearest live slots. -/
def linkItem (entries : List Nat) (beam degree : Nat) (acc : List VSlot × Nat) (n : Nat) : List VSlot × Nat :=
  let slots := acc.1
  let w := walkFrom slots entries beam (fun s v => !v.tomb && decide (s ≠ n)) (codeAt slots n)
  let near := (w.best.take degree).map (·.2)
  let slots := slots.modify n fun v => { v with edges := near.map fun s => (s, genAt slots s) }
  (near.foldl (reverseEdge degree n) slots, acc.2 + w.skips)

/-- Order 7: for i from 0 to 7 the first live slot at or above i × N ÷ 8, duplicates removed. -/
def entrySlotsOf (slots : List VSlot) : List Nat :=
  let n := slotsInUse slots
  ((List.range 8).filterMap fun i =>
    ((slots.zipIdx.drop (i * n / 8)).find? fun e => !e.1.tomb).map (·.2)).eraseDups

/-- Order 8: a record's `loc` in terms of the new version. -/
def translateLoc (placed : List (Nat × Nat)) (r : SideRec) : SideRec :=
  match r.loc with
  | .record q => match placed.find? fun p => decide (p.1 = q) with
    | some p => { r with loc := .slot p.2 }
    | none => r
  | _ => r

/-- The version that a merge makes of the first `m` records (Table 11.7, orders 2 to 7): slots, entry slots, where each
surviving insert went, and the generation mismatches its walks met. -/
def mergedVersion (graph : Bool) (beam degree : Nat) (x : Index) (m : Nat) :
    List VSlot × List Nat × List (Nat × Nat) × Nat :=
  let snap := x.side.take m
  let tombs := namedSlots snap
  let (slots, placed) := placeItems (visibleRecords snap) (tombstone tombs (freeTombstones x.slots))
  if graph then
    let slots := repairLists degree tombs slots
    let (slots, skips) := (placed.map (·.2)).foldl (linkItem x.entrySlots beam degree) (slots, 0)
    (slots, entrySlotsOf slots, placed, skips)
  else (slots, [], placed, 0)

/-- Runs of `per` slots in which two versions differ, of the first `runs`. -/
def changedRuns (per : Nat) (same : VSlot → VSlot → Bool) (old new : List VSlot) (runs : Nat) : Nat :=
  ((List.range runs).filter fun e =>
    let a := (old.drop (e * per)).take per
    let c := (new.drop (e * per)).take per
    decide (a.length ≠ c.length) || (a.zip c).any fun p => !same p.1 p.2).length

/-- Extents of `per` slots that hold a version. -/
def runsOfSlots (per : Nat) (slots : List VSlot) : Nat := (slots.length + per - 1) / per

/-- Extents of generations and of neighbour lists: 2 bytes and 8 × `degree` bytes per slot (R265). -/
def genPer : Nat := 2 ^ 20
def listPer (degree : Nat) : Nat := 2 ^ 21 / (8 * degree)

/-- Extents that hold the slots of a version, and its graph: their size, and what of a slot they hold (R265). -/
def itemParts (b : Block) (n : Nat) : List (Nat × (VSlot → VSlot → Bool)) :=
  [(itemsPerExtent b n, fun u v => decide (u.item = v.item ∧ u.tomb = v.tomb))]
def graphParts (b : Block) (n : Nat) : List (Nat × (VSlot → VSlot → Bool)) :=
  if hasGraph b n then
    [(genPer, fun u v => decide (u.gen = v.gen)), (listPer (graphDegree b n), fun u v => decide (u.edges = v.edges))]
  else []

/-- Extents that a new version adds to some parts. -/
def partsGrow (parts : List (Nat × (VSlot → VSlot → Bool))) (old new : List VSlot) : Nat :=
  (parts.map fun p => runsOfSlots p.1 new - runsOfSlots p.1 old).sum

/-- Extents that a new version changes: they are copied first (R281). -/
def partsChange (parts : List (Nat × (VSlot → VSlot → Bool))) (old new : List VSlot) : Nat :=
  (parts.map fun p => changedRuns p.1 p.2 old new (runsOfSlots p.1 old)).sum

/-- Room that a new version needs: for the extents it adds, and for the copies of those it changes. -/
def mergeNeeds (b : Block) (n : Nat) (old new : List VSlot) : Nat :=
  let parts := itemParts b n ++ graphParts b n
  partsGrow parts old new + partsChange parts old new

/-- The extents that a new version adds, taken. -/
def growIndex (n : Nat) (old new : List VSlot) (b : Block) : Option Block :=
  takeIndexExtents n (indexTenant b n) (partsGrow (itemParts b n) old new) (partsGrow (graphParts b n) old new) b

/-- The VMERGEs that a finished merge releases end with a status (R280, R281). -/
def endMerges (n started st : Nat) (b : Block) : Block :=
  b.fe.reqs.foldl (fun b e => match e.2.wait with
    | .merge i k => if i = n ∧ k ≤ started then instrDone e.1 st none b else b
    | _ => b) b

/-- The merge asked for after the one that has ended starts, or, after a publication, one of the coordinator's own (R280). -/
def nextMerge (n : Nat) (own : Bool) (b : Block) : Block :=
  match indexOf b n with
  | none => b
  | some x => if x.again then startMerge n { x with again := false } b else if own then autoMerge n b else b

/-- The running merge of an index ends (R272, R281): published, or stopped for want of room or over a failing block. -/
def completeMerge (n : Nat) (b : Block) : Block :=
  match indexOf b n with
  | none => b
  | some x =>
    match x.merge, indexBad x (hasGraph b n) with
    | none, _ => b
    | some _, some poisoned => endMerges n (x.started + 1) St.integrity (damageIndex n { x with merge := none, again := false } poisoned b)
    | some m, none =>
      let t := indexTenant b n
      let (slots, entries, placed, skips) := mergedVersion (hasGraph b n) (graphBeam b n) (graphDegree b n) x m
      let needs := mergeNeeds b n x.slots slots
      let b := b.bumpN F.NMS_CNT_gen_skip skips
      let stop := fun (b : Block) =>
        nextMerge n false (endMerges n x.started St.quota (setIndex n (some { x with merge := none }) b))
      if kvFree b < needs ∨ hotLimit b t < hotBytes b t + needs * extentBytes then stop b
      else match growIndex n x.slots slots b with
        | none => stop b
        | some b =>
          let x := { x with
            version := (x.version + 1) % 2 ^ 32, slots := slots, entrySlots := entries, merge := none,
            side := (x.side.drop m).map (translateLoc placed) }
          let b := (layIndex n slots (setIndex n (some x) b)).bump F.NMS_CNT2_merges
          nextMerge n true (endMerges n x.started St.ok b)

/-- MERGE_COMPLETE (R281). -/
def execMergeComplete (index : BitVec 10) (s : State) : Host.Outcome State Fault Refusal :=
  actC .none (completeMerge index.toNat) s

end Sys2Proof.Machine
end

