-- ==== Sys2Proof/Machine/Sync.lean ====
section
/-! DEFINITION. Sync counters, watch slots, and the rows SWAIT, SSIGNAL, FENCE, WATCH_ARM, SYNC_CNT_WRITE and
SYNC_OWN_WRITE (R60, R412 to R415). -/

namespace Sys2Proof.Machine

/-- Value of a sync counter. -/
def counterValue (b : Block) (c : Nat) : Nat := tgetD b.intr.counters c 0

/-- The tenant a counter belongs to: by default group g belongs to tenant g (R412). -/
def counterOwner (b : Block) (c : Nat) : Nat := tgetD b.intr.owners (c / 16) (c / 16)

/-- The condition of a wait holds for a value: equal, or at least (R414); comparisons are unsigned (R413). -/
def syncHolds (eq : Bool) (value v : Nat) : Bool := if eq then decide (v = value) else decide (value ≤ v)

/-- A watch slot fires (R414). -/
def fireWatch (w : Nat) (b : Block) : Block :=
  fire (Src.syncWatch w) ((b.setFi F.INT_WATCH_CFG_armed w 0).setFi F.INT_WATCH_CFG_fired w 1)

/-- A watch slot is compared with the value of its counter. -/
def judgeWatch (w : Nat) (b : Block) : Block :=
  if b.getFi F.INT_WATCH_CFG_armed w = 1 ∧
      syncHolds (decide (b.getFi F.INT_WATCH_CFG_eq w = 1)) (b.getFi F.INT_WATCH_VAL_value w)
        (counterValue b (b.getFi F.INT_WATCH_CFG_counter w)) = true then fireWatch w b
  else b

/-- Every wait registered on a counter is compared with its value: SWAITs end with the value that released them (R414). -/
def releaseWaits (c : Nat) (b : Block) : Block :=
  let v := counterValue b c
  let b := b.fe.reqs.foldl (fun b e =>
    if e.2.phase = .body then match e.2.wait with
      | .sync c' eq value true => if c' = c ∧ syncHolds eq value v = true then instrDone e.1 St.ok (some (leBytes 8 v)) b else b
      | _ => b
    else b) b
  (List.range 256).foldl (fun b w => if b.getFi F.INT_WATCH_CFG_counter w = c then judgeWatch w b else b) b

/-- A counter updated, and the waits on it judged before anything else (R413, R414). -/
def setCounter (c v : Nat) (b : Block) : Block :=
  let v := v % 2 ^ 64
  releaseWaits c { b with intr := { b.intr with
    counters := if v = 0 then tdel b.intr.counters c else tset b.intr.counters c v } }

/-- An add, modulo 2^64, or a set of a counter (R413). -/
def signalCounter (c : Nat) (set : Bool) (v : Nat) (b : Block) : Block :=
  setCounter c (if set then v else counterValue b c + v) b

/-- SWAIT (R412, R414): it ends with the value seen, or waits; a counter of another tenant reads as 0, and a wait on it is
not registered. -/
def swait (c : Ctx) (b : Block) : Ans :=
  let n := bitsOf c.e.a 0 16
  let eq := c.e.a.testBit 16
  if counterOwner b n = c.tenant then
    (if syncHolds eq c.opB (counterValue b n) then .done St.ok (some (leBytes 8 (counterValue b n))) b
     else .wait (.sync n eq c.opB true) b)
  else
    let b := violation 8 c.tenant c.ring n b
    if syncHolds eq c.opB 0 then .done St.ok (some (leBytes 8 0)) b else .wait (.sync n eq c.opB false) b

/-- SWAIT of a request (R414). -/
def execSwait (rid : Nat) (s : State) : Host.Outcome State Fault Refusal := actC .none (runRow .swait swait rid) s

/-- SSIGNAL (R412, R413): an update of another tenant's counter is ignored. -/
def ssignal (c : Ctx) (b : Block) : Ans :=
  let n := bitsOf c.e.a 0 16
  if counterOwner b n = c.tenant then .done St.ok none (signalCounter n (c.e.a.testBit 16) c.opB b)
  else .done St.ok none (violation 8 c.tenant c.ring n b)

/-- SSIGNAL of a request (R413). -/
def execSsignal (rid : Nat) (s : State) : Host.Outcome State Fault Refusal := actC .none (runRow .ssignal ssignal rid) s

/-- FENCE (R60): the earlier instructions of the request have completed (R57); ring-wide, it waits for the earlier requests
of its ring. -/
def fence (c : Ctx) (b : Block) : Ans :=
  if c.e.a.testBit 0 && !earlierDone b c.rid c.req then .wait .retry b else .done St.ok none b

/-- FENCE of a request (R60). -/
def execFence (rid : Nat) (s : State) : Host.Outcome State Fault Refusal := actC .none (runRow .fence fence rid) s

/-- WATCH_ARM: a write of INT_WATCH_CFG (R414, Table 17.14). A slot armed while its condition holds fires at once. -/
def watchWrite (w v : Nat) (b : Block) : Block :=
  let b := (b.setFi F.INT_WATCH_CFG_counter w (bitsOf v 0 16)).setFi F.INT_WATCH_CFG_eq w (bitsOf v 16 1)
  let b := if v.testBit 18 then b.setFi F.INT_WATCH_CFG_fired w 0 else b
  judgeWatch w (b.setFi F.INT_WATCH_CFG_armed w (bitsOf v 17 1))

/-- WATCH_ARM (R414). -/
def execWatchArm (slot : BitVec 8) (val : BitVec 64) (s : State) : Host.Outcome State Fault Refusal :=
  act .none (watchWrite slot.toNat val.toNat) s

/-- SYNC_CNT_WRITE: a write of SYNC_CNT acts as a set (R413). -/
def execSyncCntWrite (counter : BitVec 16) (val : BitVec 64) (s : State) : Host.Outcome State Fault Refusal :=
  actR .none (setCounter counter.toNat val.toNat) s

/-- A wait is registered on a counter of a group (R412): an SWAIT or an armed watch slot. -/
def groupWaited (b : Block) (g : Nat) : Bool :=
  (b.fe.reqs.any fun e => match e.2.wait with
    | .sync c _ _ true => decide (c / 16 = g)
    | _ => false) ||
  (List.range 256).any fun w =>
    decide (b.getFi F.INT_WATCH_CFG_armed w = 1) && decide (b.getFi F.INT_WATCH_CFG_counter w / 16 = g)

/-- One owner field of INT_SYNC_OWN written (R412). -/
def ownGroup (g t : Nat) (b : Block) : Block :=
  if groupWaited b g then b
  else { b with intr := { b.intr with owners := if t = g then tdel b.intr.owners g else tset b.intr.owners g t } }

/-- A write of INT_SYNC_OWN, judged field by field (R412). -/
def ownWrite (j v : Nat) (b : Block) : Block :=
  [0, 1, 2, 3].foldl (fun b i => ownGroup (4 * j + i) (bitsOf v (16 * i) 12) b) b

/-- SYNC_OWN_WRITE (R412). -/
def execSyncOwnWrite (word : BitVec 10) (val : BitVec 64) (s : State) : Host.Outcome State Fault Refusal :=
  act .none (ownWrite word.toNat val.toNat) s

end Sys2Proof.Machine
end

