-- ==== Sys2Proof/Machine/Rings.lean ====
section
/-! DEFINITION. Command rings: enable, drain, intake, duplicates, cancels, trailers, and the host time line (R15 to R20, R46 to
R53, R58, R63 to R69, R73, R74, R381 to R383), and the admission of shaped packets (R328 to R330). -/

namespace Sys2Proof.Machine

/-! ### The host time line (R15, R16) -/

/-- The number under which the time line stands among the lines held in the shared state. -/
def timeLine : Nat := 65536

/-- A line enters or leaves the watch table (R315). -/
def watchLine (n : Nat) (on : Bool) (b : Block) : Block :=
  let rest := b.link.shared.filter (· ≠ n)
  { b with link := { b.link with shared := if on then n :: rest else rest } }

/-- A value read from the time line (R15, R16): accepted, no change, not yet written, or discarded as a regression. The
deadlines that an accepted value has reached pass (R17). -/
def acceptTime (v : Nat) (b : Block) : Block :=
  if b.now < v then
    let b := (b.setF F.MOD_TIMELINE_LAST_last_ns v).setF F.MOD_TIMELINE_STAT_stale 0
    let b := setLevel Src.timeStale false { b with fe := { b.fe with tlAccepted := true } }
    if working b then deadlineSweep b else b
  else if v = b.now then b
  else if v = 0 ∧ b.fe.tlAccepted = false then b
  else (b.setF F.MOD_TIMELINE_STAT_regress_seen 1).bump F.MOD_TIMELINE_STAT_regress_count

/-- The time line re-read (R15), while it is watched. -/
def readTimeLine (b : Block) : Block :=
  if b.isSet F.MOD_TIMELINE_ADDR_enable ∧ b.getF F.PMC_STAT_pstate ≠ pstateStandby then
    acceptTime (b.peekLe (64 * b.getF F.MOD_TIMELINE_ADDR_line_addr) 8) (watchLine timeLine true b)
  else b

/-- TIME_LINE_UPDATE (R15). -/
def execTimeLineUpdate (s : State) : Host.Outcome State Fault Refusal := actR .none readTimeLine s

/-- 70,000 cycles have passed with no accepted value (R16): a fresh line becomes stale. -/
def lineStale (b : Block) : Block :=
  if b.isSet F.MOD_TIMELINE_ADDR_enable ∧ b.stale = false then
    setLevel Src.timeStale true ((b.setF F.MOD_TIMELINE_STAT_stale 1).setF F.MOD_TIMELINE_STAT_stale_seen 1)
  else b

/-- TIMELINE_STALE_COUNT (R16). -/
def execTimelineStaleCount (s : State) : Host.Outcome State Fault Refusal := act .none lineStale s

/-- A write of MOD_TIMELINE_ADDR from management space (R15, R16, Table 1.7): `line_addr` is taken only while `enable` is 0;
setting `enable` starts a period in which no value has been accepted, and clearing it holds `stale` at 1. -/
def timelineWrite (v : Nat) (b : Block) : Block :=
  let was := b.isSet F.MOD_TIMELINE_ADDR_enable
  let b := if was then b else b.setF F.MOD_TIMELINE_ADDR_line_addr (bitsOf v 6 46)
  if v.testBit 63 then
    if was then b
    else watchLine timeLine true
      { (b.setF F.MOD_TIMELINE_ADDR_enable 1) with fe := { b.fe with tlAccepted := false } }
  else if was then
    watchLine timeLine false ((b.setF F.MOD_TIMELINE_ADDR_enable 0).setF F.MOD_TIMELINE_STAT_stale 1)
  else b

/-- TIMELINE_ENABLE: a write of MOD_TIMELINE_ADDR (R16). -/
def execTimelineEnable (who : Caller) (val : BitVec 64) (s : State) : Host.Outcome State Fault Refusal :=
  act .none (fun b => if who.isMgmt then timelineWrite val.toNat b else b) s

/-- TIMELINE_DISABLE: a write of MOD_TIMELINE_ADDR (R16). -/
def execTimelineDisable (who : Caller) (val : BitVec 64) (s : State) : Host.Outcome State Fault Refusal :=
  act .none (fun b => if who.isMgmt then timelineWrite val.toNat b else b) s

/-! ### Requests as they are taken in -/

/-- What the front end reads of a request header (Table 3.4). -/
structure Header where
  id : Nat
  deadline : Nat
  epoch : Nat
  rflags : Nat
  deriving DecidableEq, Repr

/-- The header of a head instruction; none where its block cannot be read (R53, R69). -/
def readHeader (b : Block) (tenant : Nat) (e : Entry) : Option Header :=
  if e.ptr && blockOk b tenant e then
    some ⟨b.peekLe e.hi 8, b.peekLe (e.hi + 8) 8, b.peekLe (e.hi + 16) 4, b.peekLe (e.hi + 20) 1⟩
  else none

/-- A request as its head instruction makes it. -/
def newReq (ring : Nat) (kind : ReqKind) (e : Entry) (h : Header) (idx now : Nat) : Req where
  ring := ring
  kind := kind
  reqId := h.id
  deadline := h.deadline
  epoch := h.epoch
  rflags := h.rflags
  acceptNs := now
  acceptIdx := idx
  instrs := [e]
  completeAt := if e.opcode = Op.complete then some 0 else none
  closed := false
  started := false
  phase := .body
  pc := 0
  wait := .none
  owed := none
  endAs := none
  noTrailer := false
  closedBy := []
  status := St.ok
  tag := e.tag
  index := 0
  opcode := e.opcode
  isTrailerFail := false
  result := []
  named := none
  logCut := none
  logApp := none
  logConf := none
  steps := 0
  confirmed := []
  seeds := []
  cog := none
  modelDg := none
  versions := []
  ranOn := []
  clistDg := none
  ovlDg := none
  provHeld := none
  draftDepth := none
  carry := none
  shards := none
  redo := none

/-- The intake of a ring changed. -/
def setIntake (ring : Nat) (x : Intake) (b : Block) : Block := updRing ring (fun r => { r with intake := x }) b

/-- The intake after an entry of a skipped request. -/
def skipEntry (r : Ring) (e : Entry) (after free : Bool) : Intake :=
  if e.opcode = Op.complete && !after then (if r.isa < 0x31 then .none else .skip true free) else .skip after free

/-- No more entries join a request (R52); with its completion written and no COMPLETE it is gone. -/
def closeReq (rid : Nat) (b : Block) : Block :=
  match req b rid with
  | none => b
  | some q =>
    if q.phase = .trailer ∧ q.completeAt = none then delReq rid b
    else runOut rid (setReq rid { q with closed := true } b)

/-- A request is ended by one of its entries (R52, R330): with a status, and the index, opcode and tag of that entry; no
trailer runs. A request whose completion is already due is only closed. -/
def endIntake (rid status : Nat) (as : Nat × Nat × Nat) (b : Block) : Block :=
  match req b rid with
  | none => b
  | some q =>
    if q.phase = .body then
      cutRequest rid status (setReq rid { q with
        closed := true, noTrailer := true, endAs := if q.owed.isSome then q.endAs else some as } b)
    else closeReq rid b

/-- The request that entries join, if it still stands. -/
def joined (b : Block) (r : Ring) : Option (Nat × Req) :=
  match r.intake with
  | .join rid _ => (req b rid).map fun q => (rid, q)
  | _ => none

/-- The request before an entry that ends it is closed: by its trailer's end, or, for a head, as one that lacks its COMPLETE
(R52). -/
def closeBefore (ring : Nat) (e : Entry) (b : Block) : Block :=
  match (ringOf b ring).map (·.intake) with
  | some (Intake.join rid true) => setIntake ring .none (closeReq rid b)
  | some (Intake.join rid false) =>
    if e.isHead then setIntake ring .none (endIntake rid St.malformed (0xFF, e.opcode, e.tag) b) else b
  | some (Intake.skip true _) => setIntake ring .none b
  | some (Intake.skip false _) => if e.isHead then setIntake ring .none b else b
  | _ => b

/-! ### Acceptance and duplicates (R65 to R69) -/

/-- All ones, and 0, are no request IDs (Table 3.4). -/
def badId (id : Nat) : Bool := decide (id = 0) || decide (id = 2 ^ 64 - 1)

/-- Accepted count of a request ID in the window, by the replay area (R65, R67). -/
def windowIndex (b : Block) (r : Ring) (id : Nat) : Option Nat :=
  ((List.range (min 1024 r.acceptSeq)).map fun i => r.acceptSeq - 1 - i).find? fun idx =>
    decide (b.peekLe (replayAddr r idx) 8 = id)

/-- A record alone is due for a head instruction (R65, R69, R323). -/
def plainRecord (ring : Nat) (e : Entry) (h : Header) (status : Nat) (result : Bytes) (b : Block) : Block :=
  let q := { newReq ring .plain e h 0 b.now with status := status, result := result, noTrailer := true, closed := true }
  postRecord e.order (setReq e.order q b)

/-- A tenant or the module holds as many requests as R68 allows. -/
def poolFull (b : Block) (tenant : Nat) : Bool :=
  decide (b.getFi F.CFE_TQ_INFLIGHT_max_inflight tenant ≤ tenantInflight b tenant) || decide (131072 ≤ poolInflight b)

/-- A new request accepted (R65, R67, R68): `hwm`, `accept_seq`, the pending replay entry; beyond a limit, or policed, it
completes with QUOTA and runs nothing. -/
def acceptHead (ring : Nat) (e : Entry) (h : Header) (dropped : Bool) (b : Block) : Block :=
  match ringOf b ring with
  | none => b
  | some r =>
    let full := poolFull b r.tenant
    let q := { newReq ring .normal e h r.acceptSeq b.now with noTrailer := dropped }
    let after := decide (e.opcode = Op.complete)
    let intake := if after && decide (r.isa < 0x31) then Intake.none
                  else if dropped then .skip after true else .join e.order after
    let q := { q with closed := decide (r.isa < 0x31) && after }
    let b := updRing ring (fun r => { r with hwm := h.id, acceptSeq := r.acceptSeq + 1, intake := intake }) b
    let b := b.pokeBytes (replayAddr r r.acceptSeq) (padTo 192 (completionRecord q false true false 0))
    let b := setReq e.order q b
    if full || dropped then endRequest e.order St.quota 0 b else b

/-- The original of a duplicate is in flight (R66). -/
def originalFlies (b : Block) (ring id : Nat) : Bool :=
  b.fe.reqs.any fun e => inflight e.2 && decide (e.2.ring = ring) && decide (e.2.reqId = id)

/-- A duplicate in the window (R65, R66): its replay is due once the original has completed. -/
def duplicateHead (ring : Nat) (e : Entry) (h : Header) (idx : Nat) (b : Block) : Block :=
  let b := setReq e.order { newReq ring (.replay idx) e h idx b.now with noTrailer := true, closed := true }
    (b.bump F.CFE_STAT_dup_count)
  if originalFlies b ring h.id then b else postRecord e.order b

/-- A request of this ring that a restored copy holds under an ID (R381). -/
def heldById (b : Block) (ring id : Nat) : Option (Nat × Req) :=
  b.fe.reqs.find? fun e => decide (e.2.kind = .normal) && decide (e.2.ring = ring) && decide (e.2.reqId = id)

/-- A head instruction decoded (R53, R65, R69, R323, R330, R381). Every request that is not run takes in its entries without
running them (R52). -/
def newHead (ring slot : Nat) (e : Entry) (dropped : Bool) (b : Block) : Block :=
  match ringOf b ring with
  | none => b
  | some r =>
    let skip := fun (b : Block) => setIntake ring (skipEntry r e false dropped) b
    match readHeader b r.tenant e with
    | none => skip (plainRecord ring e ⟨2 ^ 64 - 1, 0, 0, 0⟩ St.malformed [] b)
    | some h =>
      if badId h.id then skip (plainRecord ring e { h with id := 2 ^ 64 - 1 } St.malformed [] b)
      else match (if slot < r.copied then heldById b ring h.id else none) with
      | some (rid, q) => setIntake ring (.join rid q.completeAt.isSome) b
      | none =>
        if b.isSet F.CMP_ID_isolated ∧ h.epoch ≠ 0 then
          (skip (plainRecord ring e h St.redirect (redirectResult b) b)).bump F.CMP_CNT_redirect_count
        else if r.hwm < h.id then acceptHead ring e h dropped b
        else match windowIndex b r h.id with
          | some idx => skip (duplicateHead ring e h idx b)
          | none => skip ((plainRecord ring e h St.duplicateStale [] b).bump F.CFE_STAT_stale_dup_count)

/-! ### Intake (R50, R52) -/

/-- An entry with `head` clear joins the request it belongs to, is skipped, or is a stray (R52). A 257th instruction that is decoded
when the completion has been written ends the trailer: what stands before it runs, and a trailer-failure record with index 0xFF
follows; where the completion is due and not yet written, the request is only closed (log entry 145). -/
def joinEntry (ring slot : Nat) (e : Entry) (b : Block) : Block :=
  match ringOf b ring with
  | none => b
  | some r =>
    match r.intake with
    | .none => b.bump F.CFE_STAT_stray_count
    | .skip after free => setIntake ring (skipEntry r e after free) b
    | .join rid after =>
      if slot < r.copied then b
      else match req b rid with
      | none => setIntake ring (skipEntry r e after false) b
      | some q =>
        if 256 ≤ q.instrs.length then
          let b := setIntake ring (skipEntry r e after false) b
          if q.phase = .trailer then setReq rid { q with instrs := q.instrs ++ [e], closed := true } b
          else endIntake rid St.malformed (0xFF, e.opcode, e.tag) b
        else
          let ends := decide (e.opcode = Op.complete) && q.completeAt.isNone
          let closes := ends && decide (r.isa < 0x31)
          let b := setReq rid { q with
            instrs := q.instrs ++ [e], completeAt := if ends then some q.instrs.length else q.completeAt,
            closed := q.closed || closes } b
          setIntake ring (if closes then .none else .join rid (after || ends)) b

/-- An entry taken in and decoded (R50, R52, R64). -/
def takeEntry (ring slot : Nat) (e : Entry) (b : Block) : Block :=
  if e.opcode = Op.accept then accept ring e (closeBefore ring { e with lo := e.lo - e.lo / 256 % 2 * 256 } b)
  else if e.isHead then newHead ring slot e false (closeBefore ring e b)
  else joinEntry ring slot e b

/-- An entry that the ring-ingress policer drops (R330): its request ends with QUOTA, and the rest of it is taken in without
charge and not run. -/
def dropEntry (ring slot : Nat) (e : Entry) (b : Block) : Block :=
  if e.isHead then newHead ring slot e true (closeBefore ring e b)
  else match ringOf b ring with
    | none => b
    | some r =>
      match r.intake with
      | .none => b.bump F.CFE_STAT_stray_count
      | .skip after _ => setIntake ring (skipEntry r e after true) b
      | .join rid after =>
        let idx := ((req b rid).map (·.instrs.length)).getD 0
        setIntake ring (skipEntry r e after true) (endIntake rid St.quota (idx, e.opcode, e.tag) b)

/-- The entry in a slot of a ring, with the next place in the decode order (R25, Table 3.3). -/
def entryAt (b : Block) (r : Ring) (slot : Nat) : Entry :=
  let a := r.cmdBase + 16 * (slot % 2 ^ r.cmdLog2)
  ⟨b.peekLe a 8, b.peekLe (a + 8) 8, b.fe.order⟩

/-- Payload of an entry at its ring-ingress shaper (R329). -/
def entryCost (e : Entry) : Nat := if e.ptr then 80 else 16

/-- The next entry of a ring meets the ring-ingress shaper (R328 to R330). -/
def admitEntry (ring : Nat) (r : Ring) (e : Entry) (b : Block) : Admission :=
  let free := match r.intake with
    | .skip _ free => free && !e.isHead && decide (e.opcode ≠ Op.accept)
    | _ => false
  if free || decide (r.admitted = 2) then .go b
  else if r.admitted = 1 then
    if b.getFi F.TSH_CFG_rate_mbs ring = 0 then .go b
    else if 0 < tokens b ring then .go (setTokens ring (tokens b ring - (entryCost e + b.getFi F.TSH_CFG_overhead ring)) b)
    else .hold b
  else admitPacket ring (entryCost e) (decide (e.opcode = Op.accept)) b

/-- The front end may fetch from a ring (R74, R335): it runs, and its tenant is ACTIVE. -/
def mayFetch (b : Block) (ring : Nat) (r : Ring) : Bool :=
  decide (b.getFi F.CFE_RING_STAT_state ring = rsRunning) && decide (tenantState b r.tenant = tsActive)

/-- Entries of a ring taken in, up to the fuel (R50). -/
def serveEntries (ring : Nat) : Nat → Block → Block
  | 0, b => b
  | n + 1, b =>
    match ringOf b ring with
    | none => b
    | some r =>
      if mayFetch b ring r = false ∨ r.tail ≤ r.head then b
      else
        let e := entryAt b r r.head
        let step := fun (b : Block) =>
          let b := updRing ring (fun r => { r with head := r.head + 1, admitted := 0 }) b
          { b with fe := { b.fe with order := b.fe.order + 1 } }
        match admitEntry ring r e b with
        | .hold b => updRing ring (fun r => { r with admitted := 1 }) b
        | .go b => serveEntries ring n (takeEntry ring r.head e (step b))
        | .drop b => serveEntries ring n (dropEntry ring r.head e (step b))

/-- `head` written in line 2 (R50, R377). -/
def writeHead (r : Ring) (b : Block) : Block := b.pokeLe (r.cb + 128) 8 (shownHead r)

/-- A ring has entries to serve: it may fetch, and its next entry is not held at the ring-ingress shaper (R50, R328). -/
def ringDue (b : Block) (ring : Nat) (r : Ring) : Bool :=
  mayFetch b ring r && decide (r.head < r.tail)
    && (decide (r.admitted ≠ 1) || decide (b.getFi F.TSH_CFG_rate_mbs ring = 0) || decide (0 < tokens b ring))

/-- The ring whose turn it is: the first with entries to serve after the one served last, in ring order (R50). -/
def nextTurn (b : Block) : Option Nat :=
  let due := (b.fe.rings.filter fun e => ringDue b e.1 e.2).map (·.1)
  (due.find? fun n => decide (b.fe.turn < n)).or due.head?

/-- A turn of a ring (R50): up to 16 entries, then `head` in line 2. While a tandem copy is valid, `head` does not pass the
entries until the delta that records them is acknowledged (R377). Rings are served round robin: a ring whose turn it is not is not
served. -/
def serveRing (ring : Nat) (b : Block) : Block :=
  match ringOf b ring with
  | none => b
  | some r =>
    if b.getF F.PMC_STAT_pstate ≠ 0 ∨ nextTurn b ≠ some ring then b
    else
      let b := serveEntries ring 16 { b with fe := { b.fe with turn := ring } }
      match ringOf b ring with
      | none => b
      | some r' =>
        if r'.head = r.head then b
        else if tandemValid b then
          let (n, b) := sendDelta none false b
          let r' := { r' with heads := r'.heads ++ [(n, r.head)] }
          writeHead r' (updRing ring (fun _ => r') b)
        else writeHead r' b

/-- RING_SERVICE (R50). -/
def execRingService (ring : BitVec 16) (s : State) : Host.Outcome State Fault Refusal :=
  actR .none (serveRing ring.toNat) s

/-- Heads whose deltas are acknowledged, or that no wait of R377 holds back any more, are shown. -/
def releaseHeads (b : Block) : Block :=
  b.fe.rings.foldl (fun b e =>
    let hs := e.2.heads.filter fun h => !deltaAcked b h.1
    if hs.length = e.2.heads.length then b
    else
      let r := { e.2 with heads := hs }
      writeHead r (updRing e.1 (fun _ => r) b)) b

/-! ### The tail line (R19, R20, R49) -/

/-- A ring enters the error state (R47, R49, R408). -/
def ringError (ring err : Nat) (b : Block) : Block :=
  ringPend ring (watchLine ring false ((b.setFi F.CFE_RING_STAT_state ring rsError).setFi F.CFE_RING_STAT_err ring err))

/-- Fetching stops for good: the open request gets no further entries. -/
def closeOpen (ring : Nat) (b : Block) : Block :=
  match (ringOf b ring).map (·.intake) with
  | some (Intake.join rid _) => setIntake ring .none (closeReq rid b)
  | _ => setIntake ring .none b

/-- The tail line re-read (R19, R49): a lower tail is a stray, and one more than the ring's slots ahead is an overrun. -/
def readTail (ring : Nat) (b : Block) : Block :=
  match ringOf b ring with
  | none => b
  | some r =>
    if b.getFi F.CFE_RING_STAT_state ring ≠ rsRunning ∨ b.getF F.PMC_STAT_pstate = pstateStandby then b
    else
      let t := b.peekLe (r.cb + 64) 8
      let b := watchLine ring true b
      if t < r.tail then b.bump F.CFE_STAT_stray_count
      else if 2 ^ r.cmdLog2 < t - r.head then closeOpen ring (ringError ring 3 b)
      else updRing ring (fun r => { r with tail := t }) b

/-- TAIL_LINE_INVALIDATE (R19). -/
def execTailLineInvalidate (ring : BitVec 16) (s : State) : Host.Outcome State Fault Refusal :=
  actR .none (readTail ring.toNat) s

/-- Every watched line re-read (R20): the tail lines, and the time line. -/
def rereadLines (b : Block) : Block :=
  readTimeLine (b.fe.rings.foldl (fun b e => readTail e.1 b) b)

/-! ### Enable and drain (R47, R74, R381 to R383) -/

/-- Chain ISA versions supported (R48, Table 3.11). -/
def isaOk (v : Nat) : Bool := [0x20, 0x30, 0x31].contains v

/-- Size of the result area (R156). -/
def resultBytes (resLog2 : Nat) : Nat := 256 + 64 * 2 ^ resLog2

/-- The checks of R47 in order; 0: every check passes. -/
def enableError (b : Block) (tenant cb : Nat) : Nat :=
  let ws := ioWindows b (some tenant)
  if inOneWindow ws cb 256 = false then 4
  else
    let l := b.peek cb 64
    let cmd := bytesAt l 8 8
    let cq := bytesAt l 16 8
    let rep := bytesAt l 24 8
    let res := bytesAt l 32 8
    if bytesAt l 0 4 ≠ 0x31434843 then 1
    else if isaOk (bytesAt l 4 1) = false then 2
    else if bytesAt l 5 1 < 6 ∨ 20 < bytesAt l 5 1 ∨ bytesAt l 6 1 < 6 ∨ 20 < bytesAt l 6 1 then 1
    else if cmd % 64 ≠ 0 ∨ cq % 64 ≠ 0 ∨ rep % 64 ≠ 0 ∨ res % 64 ≠ 0 then 1
    else if inOneWindow ws cmd (16 * 2 ^ bytesAt l 5 1) = false ∨ inOneWindow ws cq (64 * 2 ^ bytesAt l 6 1) = false
        ∨ inOneWindow ws rep 196608 = false ∨ (res ≠ 0 ∧ inOneWindow ws res 256 = false) then 4
    else if res = 0 then 0
    else if b.peekLe res 4 ≠ 0x31534552 ∨ b.peekLe (res + 4) 1 < 10 ∨ 26 < b.peekLe (res + 4) 1 then 1
    else if inOneWindow ws res (resultBytes (b.peekLe (res + 4) 1)) = false then 4
    else 0

/-- The ring that line 0 describes, with the indices of line 2 where it resumes. -/
def ringFrom (b : Block) (tenant cb : Nat) (old : Option Ring) : Ring :=
  let l := b.peek cb 64
  let resume := bytesAt l 7 1 % 2 = 1
  let res := bytesAt l 32 8
  let idx := fun (i : Nat) => if resume then b.peekLe (cb + 128 + 8 * i) 8 else 0
  { isa := bytesAt l 4 1, cmdLog2 := bytesAt l 5 1, cqLog2 := bytesAt l 6 1, cmdBase := bytesAt l 8 8,
    cqBase := bytesAt l 16 8, replayBase := bytesAt l 24 8, resultBase := res,
    resLog2 := if res = 0 then 0 else b.peekLe (res + 4) 1, cb := cb, tenant := tenant, head := idx 0, tail := idx 0,
    cqTail := idx 1, hwm := idx 2, acceptSeq := idx 3,
    resTail := if resume ∧ res ≠ 0 then b.peekLe (res + 64) 8 else 0, reserved := 0, intake := .none, reEnable := false,
    cqQueue := (old.map (·.cqQueue)).getD [], admitted := 0, copied := 0, heads := [] }

/-- Values of a resumed ring that R47 refuses. -/
def resumeBad (b : Block) (r : Ring) : Bool :=
  decide (b.peekLe (r.cb + 64) 8 < r.head) ||
  (decide (r.resultBase ≠ 0) && (decide (r.resTail < b.peekLe (r.resultBase + 128) 8)
    || decide (2 ^ r.resLog2 < r.resTail - b.peekLe (r.resultBase + 128) 8)))

/-- Accepted count of place `k` of a replay area: below `accept_seq`, or for an ID above `hwm` from it upward. -/
def countOf (seq k : Nat) (above : Bool) : Nat :=
  if above then seq + (k + 1024 - seq % 1024) % 1024 else seq - 1 - (seq - 1 + 1024 - k) % 1024

/-- A replay entry found pending whose request the module does not hold completes with POOL_LOST (R383). -/
def losePending (ring seq hwm k : Nat) (b : Block) : Block :=
  match ringOf b ring with
  | none => b
  | some r =>
    let x := b.peek (r.replayBase + 192 * k) 192
    let id := bytesAt x 0 8
    if bytesAt x 9 1 / 8 % 2 = 0 ∨ badId id = true ∨ (heldById b ring id).isSome = true then b
    else
      let idx := countOf seq k (decide (hwm < id))
      let rid := b.fe.order
      let e : Entry := ⟨bytesAt x 13 1 + bytesAt x 10 2 * 2 ^ 16, 0, rid⟩
      let q := { newReq ring .normal e ⟨id, 0, 0, 0⟩ idx (bytesAt x 16 8) with
        status := St.poolLost, index := bytesAt x 12 1, noTrailer := true, closed := true, completeAt := none }
      let b := updRing ring (fun r => { r with hwm := max r.hwm id, acceptSeq := max r.acceptSeq (idx + 1) }) b
      postRecord rid (setReq rid q { b with fe := { b.fe with order := rid + 1 } })

/-- The requests of a restored copy that belong to a ring restart (R381, R382): each at its next instruction, with what its
records will say. A completion that was due is written unless its replay entry is final. -/
def restartRequests (ring : Nat) (b : Block) : Block :=
  let mine := b.tdm.restored.filter fun e => decide (e.2.req.ring = ring)
  let b := { b with tdm := { b.tdm with restored := b.tdm.restored.filter fun e => decide (e.2.req.ring ≠ ring) } }
  mine.foldl (fun b e =>
    let q := e.2.req
    let b := updRing ring (fun r => { r with
      copied := max r.copied e.2.upto, hwm := max r.hwm q.reqId, acceptSeq := max r.acceptSeq (q.acceptIdx + 1),
      intake := if q.closed then r.intake else .join e.1 q.completeAt.isSome }) b
    match ringOf b ring with
    | none => b
    | some r =>
      let pending := b.peekLe (replayAddr r q.acceptIdx + 9) 1 / 8 % 2 = 1
      match q.phase with
      | .record =>
        if pending then postRecord e.1 (setReq e.1 q b)
        else if q.noTrailer then b else setReq e.1 { q with phase := .trailer } b
      | _ => setReq e.1 q b) b

/-- A ring enabled (R47). -/
def enableRing (ring : Nat) (b : Block) : Block :=
  let t := ringTenant b ring
  let cb := 256 * b.getFi F.CFE_RING_CTRL_cb_addr ring
  let err := enableError b t cb
  if err ≠ 0 then ringError ring err b
  else
    let r := ringFrom b t cb (ringOf b ring)
    let resume := b.peekLe (cb + 7) 1 % 2 = 1
    let b := b.setFi F.CFE_RING_STAT_isa ring r.isa
    let b := { b with fe := { b.fe with rings := tset b.fe.rings ring r } }
    if resume then
      if resumeBad b r then ringError ring 5 b
      else
        let b := watchLine ring true ((b.setFi F.CFE_RING_STAT_state ring rsRunning).setFi F.CFE_RING_STAT_err ring 0)
        let b := restartRequests ring b
        let b := (List.range 1024).foldl (fun b k => losePending ring r.acceptSeq r.hwm k b) b
        readTail ring b
    else
      let b := { b with rtp := { b.rtp with batches := tdel b.rtp.batches ring } }
      let b := writeLine2 r (b.setFi F.PMC_E_RING_energy_uj ring 0)
      let b := if r.resultBase = 0 then b else b.pokeBytes (r.resultBase + 64) (List.replicate 64 0)
      readTail ring (watchLine ring true
        ((b.setFi F.CFE_RING_STAT_state ring rsRunning).setFi F.CFE_RING_STAT_err ring 0))

/-- `enable` cleared (R74): the ring drains. -/
def disableRing (ring : Nat) (b : Block) : Block :=
  closeOpen ring (watchLine ring false (b.setFi F.CFE_RING_STAT_state ring rsDraining))

/-- A ring whose drain has ended is disabled, and a recorded enable, which `enable` shows, acts at once (R74). -/
def drainEnds (ring : Nat) (b : Block) : Block :=
  if b.getFi F.CFE_RING_STAT_state ring = rsDraining ∧ ringInflight b ring = 0 then
    let again := decide (b.getFi F.CFE_RING_CTRL_enable ring = 1)
    let b := b.setFi F.CFE_RING_STAT_state ring rsDisabled
    if again then enableRing ring (updRing ring (fun r => { r with reEnable := false }) b) else b
  else b

/-- RING_DRAINED (R74). -/
def execRingDrained (ring : BitVec 16) (s : State) : Host.Outcome State Fault Refusal :=
  actR .none (drainEnds ring.toNat) s

/-- A write of CFE_RING_CTRL for a ring (R47, R74, Table 3.14). -/
def ringCtrl (ring v : Nat) (b : Block) : Block :=
  let state := b.getFi F.CFE_RING_STAT_state ring
  let was := b.getFi F.CFE_RING_CTRL_enable ring
  let b := if state = rsDisabled then b.setFi F.CFE_RING_CTRL_cb_addr ring (bitsOf v 8 44) else b
  let on := decide (bitsOf v 0 1 = 1)
  let b := b.setFi F.CFE_RING_CTRL_enable ring (bitsOf v 0 1)
  if state = rsDraining then updRing ring (fun r => { r with reEnable := on }) b
  else if on && decide (state = rsDisabled) then enableRing ring b
  else if !on && decide (was = 1) then disableRing ring b
  else b

/-- An access of a caller to the registers of a ring (R73): its own rings, or every ring from management space; any other is
logged. `offset`: the place in the aperture (Table 15.10). -/
def ringAccess (who : Caller) (offset ring : Nat) (f : Block → Block) (b : Block) : Block :=
  match who.tenant? with
  | none => f b
  | some t => if ringTenant b ring = t then f b else violation 4 t offset ring b

/-- A write of CFE_RING_CTRL by a caller: the ring that CFE_RING_SEL selects (R73). -/
def ringCtrlWrite (who : Caller) (v : Nat) (b : Block) : Block :=
  let ring := b.getF F.CFE_RING_SEL_ring
  ringAccess who 0x18 ring (ringCtrl ring v) b

/-- RING_ENABLE: a write of CFE_RING_CTRL (R47). -/
def execRingEnable (who : Caller) (val : BitVec 64) (s : State) : Host.Outcome State Fault Refusal :=
  actR .none (ringCtrlWrite who val.toNat) s

/-- RING_DISABLE: a write of CFE_RING_CTRL (R74). -/
def execRingDisable (who : Caller) (val : BitVec 64) (s : State) : Host.Outcome State Fault Refusal :=
  actR .none (ringCtrlWrite who val.toNat) s

/-! ### Cancels, replays, records that wait, trailers -/

/-- A write of CFE_CANCEL_GO (R63, R73): the request that CFE_CANCEL_ID names on the ring is cancelled. -/
def cancelWrite (who : Caller) (v : Nat) (b : Block) : Block :=
  let ring := bitsOf v 0 16
  let id := b.getF F.CFE_CANCEL_ID_req_id
  ringAccess who 0x38 ring (fun b =>
    match b.fe.reqs.find? fun e => inflight e.2 && decide (e.2.ring = ring) && decide (e.2.reqId = id) with
    | none => b
    | some e => cancelRequest e.1 b) b

/-- CANCEL_GO (R63). -/
def execCancelGo (who : Caller) (val : BitVec 64) (s : State) : Host.Outcome State Fault Refusal :=
  act .none (fun b => if working b then rest (cancelWrite who val.toNat b) else b) s

/-- A duplicate that waits for its original (R66). -/
def replayDuplicate (rid : Nat) (b : Block) : Block :=
  match req b rid with
  | none => b
  | some q => match q.kind with
    | .replay _ => if q.phase = .body ∧ originalFlies b q.ring q.reqId = false then postRecord rid b else b
    | _ => b

/-- DUPLICATE_REPLAY (R66). -/
def execDuplicateReplay (rid : Nat) (s : State) : Host.Outcome State Fault Refusal := actC .none (replayDuplicate rid) s

/-- The records that wait on a request's ring, line 3 being read again (R71). -/
def rereadSpace (rid : Nat) (b : Block) : Block :=
  match req b rid with
  | none => b
  | some q => drainQueue q.ring ((((ringOf b q.ring).map (·.cqQueue.length)).getD 0) + 1) b

/-- CQ_SPACE_REREAD (R71). -/
def execCqSpaceReread (rid : Nat) (s : State) : Host.Outcome State Fault Refusal := actC .none (rereadSpace rid) s

/-- The body of a trailer instruction (R52). -/
def trailerBody (row : CRow) (c : Ctx) (b : Block) : Ans :=
  match row with
  | .sclose => sclose c b
  | .park => park c b
  | .depth => depth c b
  | .depthHint => depthHint c b
  | .pfxdrop => pfxdrop c b
  | .ssignal => ssignal c b
  | _ => Ans.malformed b

/-- A trailer SCLOSE, PARK or DEPTH that names a session whose SCLOSE has cancelled the request does nothing (R33). -/
def trailerIdle (q : Req) (e : Entry) (b : Block) : Bool :=
  [0x02, 0x03, 0x06].contains e.opcode && (entryHandle b (reqTenant b q) e).any fun h => q.closedBy.contains h

/-- The next trailer instruction of a request whose completion is written runs; the request is gone once its trailer has
ended (R52, R58). -/
def runTrailer (rid : Nat) (b : Block) : Block :=
  match req b rid with
  | none => b
  | some q =>
    if q.kind ≠ .normal ∨ q.phase ≠ .trailer ∨ (q.wait ≠ .none ∧ q.wait ≠ .retry) then b
    else match q.completeAt with
      | none => if q.closed then delReq rid b else b
      | some ca =>
        let pc := max q.pc (ca + 1)
        match q.instrs[pc]? with
        | none => if q.closed then delReq rid b else b
        | some e =>
          let q := { q with pc := pc, owed := none }
          let b := setReq rid q b
          let t := reqTenant b q
          let isa := ((ringOf b q.ring).map (·.isa)).getD 0x31
          if 256 ≤ pc then trailerFail rid St.malformed 0xFF e.opcode e.tag b
          else match rowOf isa e with
          | none => instrDone rid St.malformed none b
          | some row =>
            if opInTrailer e.opcode = false ∨ encodingBad b isa t e = true then instrDone rid St.malformed none b
            else if trailerIdle q e b then instrDone rid St.ok none b
            else applyAns rid (trailerBody row ⟨rid, q, e, t, q.ring, entryB b e, e.hi, true⟩ b)

/-- TRAILER (R58). -/
def execTrailer (rid : Nat) (s : State) : Host.Outcome State Fault Refusal := actC .none (runTrailer rid) s

/-! ### Shapers (R328, R330) -/

/-- The packet that waits at a ring-ingress shaper is admitted once the bucket is above zero. -/
def admitWaiting (ring : Nat) (b : Block) : Block :=
  match ringOf b ring with
  | none => b
  | some r =>
    if r.admitted ≠ 1 then b
    else match admitEntry ring r (entryAt b r r.head) b with
      | .go b => updRing ring (fun r => { r with admitted := 2 }) b
      | .hold b => b
      | .drop b => b

/-- Shard queries that wait at a SEARCH ingress shaper go on while its bucket is above zero. -/
def drainQueries (i : Nat) : Nat → Block → Block
  | 0, b => b
  | n + 1, b =>
    match tgetD b.nms.held i [] with
    | [] => b
    | (src, q) :: rest =>
      if b.getFi F.TSH_CFG_rate_mbs i = 0 ∨ 0 < tokens b i then
        let b := if b.getFi F.TSH_CFG_rate_mbs i = 0 then b
                 else setTokens i (tokens b i - ((MsgBody.query q).payload + b.getFi F.TSH_CFG_overhead i)) b
        let b := { b with nms := { b.nms with held := tset b.nms.held i rest } }
        drainQueries i n (serveQuery src q b)
      else b

/-- A bucket has refilled by `amount` bytes; the packets that wait for it are admitted (R328, R330). -/
def shaperAdmit (kind index amount : Nat) (b : Block) : Block :=
  match shaperInst kind index with
  | none => b
  | some i =>
    let b := refillBucket i amount b
    if kind = 0 then admitWaiting i b
    else if kind = 1 then drainShaper i (tgetD b.link.held i []).length b
    else if working b then drainQueries i (tgetD b.nms.held i []).length b
    else b

/-- SHAPER_ADMIT (R328). -/
def execShaperAdmit (kind : BitVec 2) (index : BitVec 16) (refill : Nat) (s : State) :
    Host.Outcome State Fault Refusal :=
  actR .none (shaperAdmit kind.toNat index.toNat refill) s

end Sys2Proof.Machine
end

