-- ==== Sys2Proof/Machine/Tenancy.lean ====
section
/-! DEFINITION. Tenants (R333 to R338, R370): activation, restart, and the reset of Table 14.4; the scrub of sessions (row
22 of Table 2.5). -/

namespace Sys2Proof.Machine

/-- A reservation for an inbound pannier dropped (R87, R88); a slot taken for it and not yet a session's is FREE again. -/
def dropInbound (moveId : Nat) (b : Block) : Block :=
  match tget b.ses.inbound moveId with
  | none => b
  | some e =>
    let b := { b with ses := { b.ses with inbound := tdel b.ses.inbound moveId } }
    match e.ready with
    | none => b
    | some (sid, g) =>
      if (session b sid).isSome then b else { b with ses := { b.ses with freed := (sid, g) :: b.ses.freed } }

/-- The tenant that MOD_TEN_SEL selects. -/
def selTenant (b : Block) : Nat := b.getF F.MOD_TEN_SEL_tenant

/-- A tenant's state set. -/
def setTenant (t st : Nat) (b : Block) : Block := b.setFi F.MOD_TEN_STAT_tstate t st

/-! ### Activation and restart (R334) -/

/-- `activate` (row 1 of Table 14.2): an ABSENT tenant with a current key becomes ACTIVE. -/
def activateTenant (t : Nat) (b : Block) : Block :=
  if tenantState b t = tsAbsent ∧ hasKey b t = true then setTenant t tsActive b else b

/-- `restart` (row 3). -/
def restartTenant (t : Nat) (b : Block) : Block := if tenantState b t = tsHeld then setTenant t tsActive b else b

/-- TENANT_ACTIVATE: `activate` written to MOD_TEN_CMD (R334, R352). -/
def execTenantActivate (who : Caller) (s : State) : Host.Outcome State Fault Refusal :=
  actR .none (fun b => if who.isMgmt then activateTenant (selTenant b) b else b) s

/-- TENANT_RESTART: `restart` written to MOD_TEN_CMD (R334, R352). -/
def execTenantRestart (who : Caller) (s : State) : Host.Outcome State Fault Refusal :=
  actR .none (fun b => if who.isMgmt then restartTenant (selTenant b) b else b) s

/-- The timed restart of row 3 (R334). -/
def autoRestart (t : Nat) (b : Block) : Block :=
  let due := match tget b.ten.teardownNs t with
    | some ns => decide (ns + b.getFi F.STE_TQ_SCHED_restart_ms t * 1000000 ≤ b.now)
    | none => false
  if b.getFi F.STE_TQ_SCHED_auto_restart t = 1 ∧ b.stale = false ∧ due = true then restartTenant t b else b

/-- TENANT_AUTO_RESTART (R334). -/
def execTenantAutoRestart (tenant : BitVec 12) (s : State) : Host.Outcome State Fault Refusal :=
  actR .none (autoRestart tenant.toNat) s

/-! ### Reset (R338, Table 14.4) -/

/-- Another tenant's session names a model slot, as its model or as its draft model. -/
def modelUsedBy (b : Block) (t n : Nat) (draft : Bool) : Bool :=
  b.ses.slots.any fun e => decide (e.2.tenant ≠ t) && decide (e.2.state ≠ ssScrubbing) &&
    decide (if draft then e.2.draftSlot = n else e.2.modelSlot = n)

/-- Another tenant's session or request holds a cog. -/
def cogUsedBy (b : Block) (t n : Nat) : Bool :=
  (b.ses.slots.any fun e => decide (e.2.tenant ≠ t) && decide (e.2.cog = n) && decide (e.2.state ≠ ssScrubbing)) ||
  b.fe.reqs.any fun e => inflight e.2 && decide (e.2.cog = some n) && decide (reqTenant b e.2 ≠ t)

/-- Another tenant's session or STEP uses a list. -/
def listUsedBy (b : Block) (t n : Nat) : Bool :=
  (b.ses.slots.any fun e => decide (e.2.tenant ≠ t) && decide (e.2.clist = n) && decide (e.2.state ≠ ssScrubbing)) ||
  (allSeqs b).any fun s => ((runsOf s).any fun r => decide (r.clist = n)) &&
    (match session b s.sid with
      | some x => decide (x.tenant ≠ t)
      | none => false)

/-- A reset is refused: the tenant owns a shared image that another tenant uses (R338). -/
def resetRefused (b : Block) (t : Nat) : Bool :=
  (b.ten.models.any fun e => decide (e.2.state ≠ slEmpty) && e.2.shared && decide (e.2.owner = t) && modelUsedBy b t e.1 e.2.draft) ||
  (b.txu.cogs.any fun e => e.2.shared && decide (e.2.owner = t) && cogUsedBy b t e.1) ||
  b.txu.lists.any fun e => e.2.shared && decide (e.2.owner = t) && listUsedBy b t e.1

/-- Order 2: one peloton of the tenant. Without a tile running it is abandoned at once. -/
def resetPeloton (t place : Nat) (b : Block) : Block :=
  match tget b.ste.pelotons place with
  | none => b
  | some p =>
    if p.tenant ≠ t then b
    else
      let b := setPel place (some { p with abandon := true, preempting := false }) b
      if p.phase = .flight ∧ p.tilesOut ≠ 0 then b else endStepTiles place b

/-- Chains of the tenant that stand or swap on Spokes without a tile running are dropped. -/
def dropTenantChains (t : Nat) (b : Block) : Block :=
  b.spk.spokes.foldl (fun b e =>
    if (e.2.ctx.map (·.1)) = some t ∧ e.2.running = false ∧ e.2.halted = false then
      settleSpoke e.1 (setSpoke e.1 { e.2 with chain := none, swapping := false, reserved := false, deferred := false } b)
    else b) b

/-- Order 4 for one request: it completes with CONTEXT_FAULT at once, and no trailer runs. -/
def resetRequest (rid : Nat) (b : Block) : Block :=
  match req b rid with
  | none => b
  | some q =>
    let b := setReq rid { q with noTrailer := true, closed := true, owed := none, endAs := none } b
    match q.phase with
    | .trailer => delReq rid b
    | .record => cutRequest rid St.contextFault b
    | .body => endRequest rid St.contextFault (min q.pc (q.instrs.length - 1)) (noteOwnResult rid b)

/-- Order 4 for one ring: it becomes disabled, and its batch is discarded (R366). -/
def resetRing (ring : Nat) (b : Block) : Block :=
  let st := b.getFi F.CFE_RING_STAT_state ring
  let b := { b with rtp := { b.rtp with batches := tdel b.rtp.batches ring } }
  let b := updRing ring (fun r => { r with reEnable := false }) (b.setFi F.CFE_RING_CTRL_enable ring 0)
  if st = rsError then b.setFi F.CFE_RING_STAT_state ring rsDisabled
  else if st = rsRunning ∨ st = rsDraining then drainEnds ring (disableRing ring b)
  else b

/-- The tenant's donors are told which ranges hold its extents (Table 15.11). -/
def scrubRanges (t : Nat) (b : Block) : Block :=
  let ranges := (b.ses.extents.filter fun e => decide (e.2.tier = 2) && decide (e.2.tenant = t)).flatMap fun e =>
    e.2.units.map (· / 2 ^ 21)
  b.mem.borrowed.foldl (fun b r =>
    if ranges.contains r.1 then sendMsg r.2.module 0 0 (.scrub [r.1]) b else b) b

/-- A tenant's model slots, cogs, lists and indexes become empty (order 5). -/
def emptyImages (t : Nat) (b : Block) : Block :=
  let b := b.ten.models.foldl (fun b e =>
    if e.2.owner = t ∧ e.2.state ≠ slEmpty then
      dropExtentsWith (fun r => decide (r.use = .model e.1 ∨ r.use = .adapter e.1)) (setModel e.1
        (if slotSessions b e.1 = 0 then none else some { e.2 with state := slEmpty, adapters := [], bytes := 0 }) b)
    else b) b
  let b := b.txu.cogs.foldl (fun b e =>
    if e.2.owner = t then dropExtentsWith (fun r => decide (r.use = .cog e.1)) (setCog e.1 none b) else b) b
  let b := b.txu.lists.foldl (fun b e =>
    if e.2.owner = t then dropExtentsWith (fun r => decide (r.use = .clist e.1)) (setList e.1 none b) else b) b
  b.nms.indexes.foldl (fun b e => if indexTenant b e.1 = t then emptyIndex e.1 e.2 b else b) b

/-- Keys of the rings that belong to a tenant. -/
def ringsOfTenant (b : Block) (t : Nat) : List Nat := (b.fe.rings.filter fun e => decide (e.2.tenant = t)).map (·.1)

/-- Orders 3 to 6: no tile of the tenant runs; its keys are destroyed, its requests and rings end, and what it holds is given
up for the scrub. -/
def eraseTenant (t : Nat) (b : Block) : Block :=
  let b := { b with
    ten := { b.ten with resetting := b.ten.resetting.filter (· ≠ t) }
    mem := { b.mem with keys := tdel b.mem.keys t } }
  let b := (requestsOf b t).foldl (fun b r => resetRequest r b) b
  let b := (ringsOfTenant b t).foldl (fun b r => resetRing r b) b
  let b := scrubRanges t b
  let b := b.ses.inbound.foldl (fun b e => if bytesAt e.2.header 14 2 = t then dropInbound e.1 b else b) b
  let b := b.ses.slots.foldl (fun b e =>
    if e.2.tenant = t ∧ e.2.state ≠ ssScrubbing then enterScrubbing e.1 b else b) b
  let b := b.ses.prefixes.foldl (fun b e => if e.2.tenant = t then releasePrefix e.1 b else b) b
  emptyImages t b

/-- Resets whose tenants have no tile running any more go on. -/
def settleResets (b : Block) : Block :=
  b.ten.resetting.foldl (fun b t => if b.ste.pelotons.any fun e => decide (e.2.tenant = t) then b else eraseTenant t b) b

/-- `reset` (row 4, R338). -/
def resetTenant (t : Nat) (b : Block) : Block :=
  if tenantState b t ≠ tsActive ∧ tenantState b t ≠ tsHeld then b
  else if resetRefused b t then b.setFi F.MOD_TEN_STAT_reset_refused t 1
  else
    let b := setTenant t tsResetting b
    let b := { b with ten := { b.ten with tearing := tdel b.ten.tearing t, resetting := b.ten.resetting ++ [t] } }
    let b := setSaved (b.spk.saved.filter fun c => decide (c.tenant ≠ t)) b
    let b := [0, 1, 2, 3, 4, 5, 6, 7].foldl (fun b k => resetPeloton t k b) b
    settleResets (dropTenantChains t b)

/-- TENANT_RESET: `reset` written to MOD_TEN_CMD (R338, R352). -/
def execTenantReset (who : Caller) (s : State) : Host.Outcome State Fault Refusal :=
  actR .none (fun b => if who.isMgmt then resetTenant (selTenant b) b else b) s

/-! ### The scrub -/

/-- A scrubbed slot is FREE (row 22 of Table 2.5, R24). -/
def freeSlot (sid : Nat) (b : Block) : Block :=
  match session b sid with
  | none => b
  | some x => { b with ses := { b.ses with slots := tdel b.ses.slots sid, freed := b.ses.freed ++ [(sid, x.gen)] } }

/-- The scrub of a session ends; its owned items have been deleted first (R32, R268), and a restored MOVE that is committed
has had its DONE (Table 16.2). -/
def scrubDone (sid : Nat) (b : Block) : Block :=
  match session b sid with
  | none => b
  | some x => if x.state = ssScrubbing ∧ x.vecItems = 0 ∧ x.moveOut = none then freeSlot sid b else b

/-- SESSION_SCRUB_DONE (row 22 of Table 2.5). -/
def execSessionScrubDone (sid : Nat) (s : State) : Host.Outcome State Fault Refusal := actR (.slot sid) (scrubDone sid) s

/-- Bits of a word of INT_RING_PEND that stand for rings of a tenant cleared (R411). -/
def clearPending (t j : Nat) (b : Block) : Block :=
  let w := b.getFi F.INT_RING_PEND_rings j
  if w = 0 then b
  else b.setFi F.INT_RING_PEND_rings j
    (((List.range 64).filter fun i => w.testBit i && decide (ringTenant b (64 * j + i) ≠ t)).map (2 ^ ·)).sum

/-- What else a tenant leaves as it becomes ABSENT: the pending bits of its rings, its sync counters (R411), its energy
counter (R425) and the fields of MOD_TEN_STAT (Table 14.4, order 7). -/
def absentTenant (t : Nat) (b : Block) : Block :=
  let b := (List.range 1024).foldl (fun b j => clearPending t j b) b
  let b := b.intr.counters.foldl (fun b e => if counterOwner b e.1 = t then setCounter e.1 0 b else b) b
  let b := b.setFi F.PMC_E_TEN_energy_uj t 0
  let b := { b with ten := { b.ten with teardownNs := tdel b.ten.teardownNs t } }
  let b := ((b.setFi F.MOD_TEN_STAT_reset_refused t 0).setFi F.MOD_TEN_STAT_last_fault t 0).setFi F.MOD_TEN_STAT_ctx_faults t 0
  setTenant t tsAbsent (b.setFi F.MOD_TEN_STAT_fault_s t 0)

/-- The last unit of a resetting tenant is scrubbed (row 5 of Table 14.2). -/
def scrubComplete (t : Nat) (b : Block) : Block :=
  if tenantState b t ≠ tsResetting ∨ b.ten.resetting.contains t = true
      ∨ (b.ses.slots.any fun e => decide (e.2.tenant = t ∧ e.2.vecItems ≠ 0)) = true then b
  else absentTenant t (b.ses.slots.foldl (fun b e => if e.2.tenant = t then freeSlot e.1 b else b) b)

/-- SCRUB_COMPLETE (R370). -/
def execScrubComplete (tenant : BitVec 12) (s : State) : Host.Outcome State Fault Refusal :=
  actR .none (scrubComplete tenant.toNat) s

end Sys2Proof.Machine
end

