-- ==== Sys2Proof/Machine/Attest.lean ====
section
/-! DEFINITION. Attestation (R314, R362 to R366): reports, batch statements, capability blocks and link keys, and the RTP's queue
of private-key operations. -/

namespace Sys2Proof.Machine

/-! ### Images and signatures (Tables 15.6, 15.7) -/

/-- A signature by the AK over a byte string (Table 15.2). -/
def akSign (b : Block) (bs : Bytes) : Bytes := padTo 384 (Config.rsaSign (Config.akKey (akMeasurement b)) (sha256 bs))

/-- A tenant may use an image (R242, R339); with no tenant every image is listed. -/
def listedFor (tenant : Option Nat) (shared : Bool) (owner : Nat) : Bool :=
  match tenant with
  | none => true
  | some t => shared || decide (owner = t)

/-- A measurement entry (Table 15.7). -/
def imageEntry (kind flags slot owner loadNs : Nat) (dg : Bytes) : Bytes :=
  leBytes 1 kind ++ leBytes 1 flags ++ leBytes 2 slot ++ leBytes 2 owner ++ leBytes 2 0 ++ leBytes 8 loadNs ++ padTo 32 dg

/-- Flags of a measurement entry. -/
def imageFlags (shared draft tuning : Bool) (state : Nat) : Nat :=
  (if shared then 1 else 0) + (if draft then 2 else 0) + (if tuning then 4 else 0) + (if state = slDraining then 8 else 0)

/-- Model slots that hold an image and are listed. -/
def listedModels (b : Block) (tenant : Option Nat) : List (Nat × ModelSlot) :=
  b.ten.models.filter fun e => decide (e.2.state ≠ slEmpty) && listedFor tenant e.2.shared e.2.owner

/-- Every measurement entry, by kind and then by slot (R363). -/
def imageEntries (b : Block) (tenant : Option Nat) : List Bytes :=
  let ms := listedModels b tenant
  (ms.map fun e => imageEntry 1 (imageFlags e.2.shared e.2.draft e.2.tuning e.2.state) e.1 e.2.owner
      (if e.2.tuning then e.2.adapterNs else e.2.loadNs) (weightsInForce b e.1)) ++
  (ms.map fun e => imageEntry 2 (imageFlags e.2.shared e.2.draft e.2.tuning e.2.state) e.1 e.2.owner e.2.loadNs e.2.programDg) ++
  ((b.txu.cogs.filter fun e => listedFor tenant e.2.shared e.2.owner).map fun e =>
    imageEntry 3 (imageFlags e.2.shared false false e.2.state) e.1 e.2.owner e.2.loadNs e.2.digest) ++
  (b.txu.lists.filter fun e => listedFor tenant e.2.shared e.2.owner).map fun e =>
    imageEntry 4 (imageFlags e.2.shared false false e.2.state) e.1 e.2.owner e.2.loadNs e.2.digest

/-- Bit n: component n runs from slot B. -/
def slotsB (b : Block) : Nat :=
  ((b.rtp.runB.zipIdx).map fun e => if e.1 then 2 ^ e.2 else 0).sum

/-! ### Reports (R363) -/

/-- A report (Tables 15.6, 15.7) with its signature. -/
def reportBytes (b : Block) (tenant : Option Nat) (nonce : Bytes) : Bytes :=
  let es := imageEntries b tenant
  let cert := certSection b
  let certOff := 320 + 48 * es.length
  let body := padTo 320 (leBytes 4 0x52545441 ++ leBytes 2 0x0100 ++ flagByte b.rtp.conf ++ flagByte tenant.isSome
      ++ leBytes 2 (tenant.getD 0) ++ leBytes 2 (b.getF F.MOD_ID_stepping) ++ leBytes 1 (ownModule b) ++ leBytes 1 (slotsB b)
      ++ leBytes 2 0 ++ leBytes 4 (certOff + cert.length + 384) ++ leBytes 2 es.length ++ leBytes 2 0 ++ leBytes 4 certOff
      ++ leBytes 4 b.rtp.boots ++ padTo 32 nonce ++ leBytes 8 b.now ++ ratchetBytes b ++ leBytes 4 0 ++ identityDg
      ++ keyDigest b.rtp.ownerKey ++ keyDigest b.rtp.overlayKey ++ padTo 32 (runningImage b 0).digest
      ++ padTo 32 (runningImage b 1).digest ++ padTo 32 (runningImage b 2).digest ++ padTo 32 (overlayDigest b))
    ++ es.flatten ++ cert
  body ++ akSign b body

/-! ### Batches (R365, R366) -/

/-- The first 192 bytes of a statement (Table 15.8) but for `prev_dg` and `ak_dg`, which the signing fills in. -/
def statementHead (b : Block) (ring : Nat) (x : Batch) : Bytes :=
  padTo 192 (leBytes 4 0x48434442 ++ leBytes 2 0x0100 ++ leBytes 2 ring ++ leBytes 2 (ringTenant b ring)
    ++ leBytes 1 (ownModule b) ++ leBytes 1 ((if x.chainStart then 1 else 0) + (if x.swapped then 2 else 0))
    ++ leBytes 4 x.records.length ++ leBytes 8 x.seq ++ leBytes 8 x.firstId ++ leBytes 8 x.lastId ++ leBytes 8 b.now
    ++ sha256 x.records.flatten ++ zeroDg ++ padTo 32 (runningImage b 1).digest)

/-- The batch that a seal opens. -/
def nextBatch (x : Batch) : Batch :=
  { x with firstId := 0, lastId := 0, records := [], seq := x.seq + 1, chainStart := false, swapped := false }

/-- The statement signed: `prev_dg` is the digest of the ring's previous statement, zeros at the start of a chain. -/
def signStatement (b : Block) (ring : Nat) (head : Bytes) : Bytes :=
  let prev := if bytesAt head 11 1 % 2 = 1 then zeroDg else padTo 32 (batchOf b ring).prevDg
  let body := padTo 192 (head.take 80 ++ prev ++ (head.drop 112).take 32 ++ sha256 (Config.akKey (akMeasurement b)))
  body ++ akSign b body

/-- A signed statement is the previous one of the batch that its seal opened, unless the chain has restarted since. -/
def chainStatement (ring : Nat) (st : Bytes) (b : Block) : Block :=
  match tget b.rtp.batches ring with
  | none => b
  | some x =>
    if x.chainStart = false ∧ bytesAt st 16 8 < x.seq then
      { b with rtp := { b.rtp with batches := tset b.rtp.batches ring { x with prevDg := sha256 st } } }
    else b

/-! ### Requests (R363 to R365, Table 15.20) -/

/-- State and error of a caller's request. -/
def reqState (who : Caller) (state err : Nat) (b : Block) : Block :=
  (b.setFi F.RTP_REQ_CMD_state who.inst state).setFi F.RTP_REQ_CMD_err who.inst err

/-- A caller's RTP_DONE source (Table 17.1). -/
def rtpDone (who : Caller) (b : Block) : Block :=
  match who.tenant? with
  | some t => fire (Src.rtpDoneT t) b
  | none => fire Src.rtpDoneM b

/-- A request ends with an error. -/
def reqFails (who : Caller) (err : Nat) (b : Block) : Block := rtpDone who (reqState who 3 err b)

/-- A request waits in the queue. -/
def enqueueOp (who : Caller) (op : RtpOp) (b : Block) : Block :=
  reqState who 1 0 { b with rtp := { b.rtp with queue := b.rtp.queue ++ [op] } }

/-- Buffer address of a caller. -/
def reqAddr (b : Block) (who : Caller) : Nat := 64 * b.getFi F.RTP_REQ_ADDR_addr who.inst

/-- `op` 1 (R363). -/
def requestReport (who : Caller) (v : Nat) (b : Block) : Block :=
  let scope := match who.tenant? with
    | some t => some t
    | none => if v.testBit 2 then some (bitsOf v 4 12) else none
  let addr := reqAddr b who
  if inOneWindow (ioWindows b who.tenant?) addr (64 + 2 ^ 18) = false then reqFails who 1 b
  else if (scope.map fun t => decide (tenantState b t = tsAbsent)) = some true then reqFails who 3 b
  else enqueueOp who (.report who addr scope) b

/-- `op` 2 (R365): the batch closes at this instant, and its statement waits for its signature. -/
def sealBatch (who : Caller) (v : Nat) (b : Block) : Block :=
  let ring := bitsOf v 16 16
  let addr := reqAddr b who
  if inOneWindow (ioWindows b who.tenant?) addr 576 = false then reqFails who 1 b
  else if (who.tenant?.map fun t => decide (ringTenant b ring = t)) = some false then reqFails who 2 b
  else
    let x := batchOf b ring
    let op := RtpOp.statement who addr ring (statementHead b ring x)
    enqueueOp who op { b with rtp := { b.rtp with batches := tset b.rtp.batches ring (nextBatch x) } }

/-- A write of RTP_REQ_CMD (Table 15.20): nothing while the caller's request is busy. -/
def rtpRequest (who : Caller) (v : Nat) (b : Block) : Block :=
  if b.rtp.ready = false ∨ b.getFi F.RTP_REQ_CMD_state who.inst = 1 then b
  else if bitsOf v 0 2 = 1 then requestReport who v b
  else if bitsOf v 0 2 = 2 then sealBatch who v b
  else b

/-- REPORT_REQUEST: a write of RTP_REQ_CMD with `op` 1 (R363). -/
def execReportRequest (who : Caller) (val : BitVec 64) (s : State) : Host.Outcome State Fault Refusal :=
  act .none (rtpRequest who val.toNat) s

/-- SEAL: a write of RTP_REQ_CMD with `op` 2 (R365). -/
def execSeal (who : Caller) (val : BitVec 64) (s : State) : Host.Outcome State Fault Refusal :=
  act .none (rtpRequest who val.toNat) s

/-- The operation served next: a handshake, else the oldest (R364). -/
def nextOp (q : List RtpOp) : Option RtpOp :=
  (q.find? fun o => match o with
    | .handshake _ _ => true
    | _ => false).or q.head?

/-! ### Capability block and link key (R314, R362) -/

/-- A bit of a byte. -/
def capBit (on : Bool) (n : Nat) : Nat := if on then 2 ^ n else 0

/-- The capability block that this end shows on a port (Table 13.4). -/
def capBlock (b : Block) (p : Nat) : Bytes :=
  padTo 64 (leBytes 4 0x5041434C ++ leBytes 1 (if 4 ≤ p then 1 else 0)
    ++ leBytes 1 (b.getF (if 4 ≤ p then F.STL_CAPS_proto else F.FLL_CAPS_proto)) ++ leBytes 1 (ownModule b)
    ++ leBytes 1 (capBit (singleHome b) 0 + capBit b.rtp.conf 1 + capBit (b.isSet F.CMP_ID_in_domain) 2)
    ++ leBytes 1 (b.getF F.CFE_CAPS_isa_2_0 + 2 * b.getF F.CFE_CAPS_isa_3_0 + 4 * b.getF F.CFE_CAPS_isa_3_1)
    ++ leBytes 1 (b.getF F.PNE_CAPS_pan_1_0 + 2 * b.getF F.PNE_CAPS_pan_2_0)
    ++ leBytes 1 (b.getF F.SPK_ISA_isa_1_0 + 2 * b.getF F.SPK_ISA_isa_1_1) ++ leBytes 1 0x10
    ++ leBytes 2 (b.getF F.SPK_ISA_ucode) ++ leBytes 2 0 ++ leBytes 4 (b.getF F.CMP_EPOCH_epoch))

/-- Two values of the two ends of a port, the lower-ID end's first (R362). -/
def lowerFirst (own peer : Nat) (mine theirs : Bytes) : Bytes := if own < peer then mine ++ theirs else theirs ++ mine

/-- Parts 2 and 4 of the handshake, by the AK: the signature over both nonces and blocks; the lower-ID end draws the secret and
sends it sealed, the other opens it; the link key follows, and messages are numbered from 0. -/
def agreeKey (p : Nat) (c : PeerCert) (b : Block) : Block :=
  let x := portOf b p
  let own := ownModule b
  let peer := bytesAt x.peer 6 1
  let nonces := lowerFirst own peer x.nonce (padTo 32 c.nonce)
  let b := showPort p (.proof (akSign b (nonces ++ lowerFirst own peer (capBlock b p) x.peer))) b
  let (n, b) := b.takeFresh
  let drawn := padTo 32 (Config.keyBytes n)
  let s := if own < peer then drawn else (Config.unwrap (Config.akKey (akMeasurement b)) c.secret).getD drawn
  let b := if own < peer then showPort p (.secret (Config.wrap c.ak drawn)) b else b
  setPort p { x with linkKey := kdf s "STOTY-LINK" nonces, next := 0 } b

/-- A private-key operation ends (R364): its result is written and its caller's source raised; after a handshake the port has its
link key, and is ready to come up (Table 13.3, order 7) or stays up. -/
def finishOp (b : Block) : Block :=
  match nextOp b.rtp.queue with
  | none => b
  | some op =>
    let b := { b with rtp := { b.rtp with queue := b.rtp.queue.erase op } }
    match op with
    | .handshake p c =>
      if (portOf b p).stage = 7 then
        let b := agreeKey p c b
        setPort p { portOf b p with stage := 8 } b
      else if portUp b p then agreeKey p c b
      else b
    | .report who addr scope =>
      rtpDone who (reqState who 2 0 (b.pokeBytes (addr + 64) (reportBytes b scope (b.peek addr 32))))
    | .statement who addr ring head =>
      let st := signStatement b ring head
      rtpDone who (reqState who 2 0 (chainStatement ring st (b.pokeBytes addr st)))

/-- RTP_OP_COMPLETE (R364). -/
def execRtpOpComplete (s : State) : Host.Outcome State Fault Refusal := act .none finishOp s

end Sys2Proof.Machine
end

