-- ==== Sys2Proof/Machine/Ckpt.lean ====
section
/-! DEFINITION. Writing checkpoints (R386 to R389): pool descriptors, automatic triggers, and the rows CKPT and
CKPT_COMPLETE. -/

namespace Sys2Proof.Machine

/-- A pool descriptor (R387). -/
structure PoolDesc where
  kind : Nat
  peer : Nat
  slotA : Nat
  slotB : Nat
  slotBytes : Nat
  deriving DecidableEq, Repr

/-- The descriptor at an address, where it is a good one; a host pool lies in management's io windows. -/
def readPool (b : Block) (addr : Nat) : Option PoolDesc :=
  let x := b.peek addr 64
  let d : PoolDesc := ⟨bytesAt x 4 1, bytesAt x 5 1, bytesAt x 8 8, bytesAt x 16 8, bytesAt x 24 8⟩
  let inPool := fun (a : Nat) => ioReach b none a d.slotBytes
  if addr % 64 = 0 ∧ bytesAt x 0 4 = 0x4C4F4F50 ∧ d.kind ≤ 1 ∧ bytesAt x 6 2 = 0 ∧ bytesAt x 32 32 = 0
      ∧ (d.kind = 1 ∨ (inPool d.slotA = true ∧ inPool d.slotB = true)) then some d
  else none

/-- Bytes written into the slot of a checkpoint at an offset: to the host, or to the peer over class MOVE. -/
def poolWrite (r : CkptRun) (off : Nat) (bs : Bytes) (b : Block) : Block :=
  if r.kind = 0 then b.pokeBytes (r.addr + off) bs
  else sendMsg r.peer 2 r.seq (.ckptShard r.seq (leBytes 8 (r.addr + off) ++ bs)) b

/-! ### Shards (R388) -/

/-- Bytes that a shard holds at most. -/
def shardLimit : Nat := 2 ^ 28

/-- A byte string cut into pieces of at most a shard's size. -/
def chop (bs : Bytes) : List Bytes :=
  if bs.length ≤ shardLimit then [bs]
  else (List.range ((bs.length + shardLimit - 1) / shardLimit)).map fun i => (bs.drop (shardLimit * i)).take shardLimit

/-- Runs of pieces of one kind, each run within a shard's size. -/
def packShards (pieces : List Bytes) : List Bytes :=
  let a := pieces.foldl (fun (a : List Bytes × Bytes) p =>
    if a.2.length + p.length ≤ shardLimit then (a.1, a.2 ++ p) else (a.1 ++ [a.2], p)) ([], [])
  ((a.1 ++ [a.2]).filter (· ≠ [])).flatMap chop

/-- A prefix as its shard holds it: its record, its log copy and the rows of its frames. -/
def prefixPiece (b : Block) (key : Nat) (p : Prefix) : Bytes :=
  let g := (tget b.ses.classes p.cls).map (·.layers)
  let code := ((modelSlot b p.modelSlot).map fun m => kvCode m.kvFormat).getD 0
  (prefixWords b key p).flatMap (fun w => leBytes 8 w.toNat) ++ paddedSection (logBytes p.log)
    ++ p.table.entries.flatMap fun e =>
      paddedSection (pageBytes code (g.getD 0) ((((tget b.ses.frames e.frame).map (·.rows)).getD []).map (·.2)))

/-- A side record as an index shard holds it. -/
def sidePiece (b : Block) (n : Nat) (r : SideRec) : Bytes :=
  let loc := match r.loc with
    | .none => leBytes 8 0
    | .slot k => leBytes 8 (k + 2 ^ 62)
    | .record q => leBytes 8 (q + 2 ^ 63)
  leBytes 8 r.seq ++ flagByte r.insert ++ leBytes 7 0 ++ loc ++ leBytes 8 r.item.id ++ leBytes 8 r.item.owner
    ++ itemImage (codeBits b n / 8) ⟨r.item, false, 0, []⟩

/-- An index as its shard holds it: its extents, those of its graph, and its side records. -/
def indexPiece (b : Block) (n : Nat) (x : Index) : Bytes :=
  leBytes 4 n ++ leBytes 4 x.slots.length ++ leBytes 8 x.version
    ++ (List.range (searchExtents b n)).flatMap (extentImage b n x.slots)
    ++ (x.slots.flatMap fun v => leBytes 4 v.gen ++ leBytes 4 v.edges.length ++ v.edges.flatMap fun e => leBytes 4 e.1 ++ leBytes 4 e.2)
    ++ x.side.flatMap (sidePiece b n)

/-- The sync counters by number, 64 bits each. -/
def counterPiece (b : Block) : Bytes := (List.range 65536).flatMap fun n => leBytes 8 (counterValue b n)

/-- What a checkpoint's shards hold, by kind (Table 16.5), with these panniers. -/
def shardContents (b : Block) (panniers : List Bytes) : List (Nat × Bytes) :=
  (packShards panniers).map (fun s => (0, s)) ++ (packShards (b.ses.prefixes.map fun e => prefixPiece b e.1 e.2)).map (fun s => (1, s))
    ++ (packShards (b.nms.indexes.map fun e => indexPiece b e.1 e.2)).map (fun s => (2, s)) ++ [(3, counterPiece b)]

/-- Bytes of a shard once it is wrapped (R100). -/
def wrappedLength (bs : Bytes) : Nat := 64 + bs.length + 16 * ((bs.length + 4095) / 4096)

/-- A shard wrapped as in R100 under its own key. -/
def wrapShard (b : Block) (n i : Nat) (bs : Bytes) : Bytes :=
  let key := kdf ((b.rtp.dkCur.map (·.2)).getD []) "TDM-CKPT" (leBytes 1 (ownModule b) ++ leBytes 4 n ++ leBytes 4 i)
  let pre := preamble b n (ownModule b) bs.length
  pre ++ (wrapSegments key pre n (bs.length / 4096 + 1) 0 bs).flatten

/-- The shards of a checkpoint from an index and an offset on: each entry of the manifest with its bytes. -/
def layShards (b : Block) (n : Nat) : (i off : Nat) → List (Nat × Bytes) → List (ShardEntry × Bytes)
  | _, _, [] => []
  | i, off, s :: ss =>
    let w := wrapShard b n i s.2
    (⟨off, w.length, s.1, sha256 w⟩, w) :: layShards b n (i + 1) (off + w.length) ss

/-- The shards of a checkpoint whose captures are these. -/
def shardsOf (b : Block) (n : Nat) (panniers : List Bytes) : List (ShardEntry × Bytes) :=
  layShards b n 0 (2 ^ 20) (shardContents b panniers)

/-- Sessions that a checkpoint captures. -/
def capturable (b : Block) : List (Nat × Session) := b.ses.slots.filter fun e => decide (e.2.state ≠ ssScrubbing)

/-- The shards of a checkpoint of what now stands fit behind the manifest. -/
def shardsFit (b : Block) (slotBytes : Nat) : Bool :=
  decide (2 ^ 20 + ((shardContents b ((capturable b).map fun e => ckptPannier b e.1 e.2)).map fun s => wrappedLength s.2).sum ≤ slotBytes)

/-- A checkpoint starts (R387, R389): its slot by the parity of its number, its manifest's magic zeroed first; none when the
shards would not fit behind the manifest. -/
def beginCkpt (d : PoolDesc) (rid : Option Nat) (b : Block) : Option Block :=
  if shardsFit b d.slotBytes = false then none
  else
    let n := (b.getF F.TDM_CKPT_seq + 1) % 2 ^ 32
    let r : CkptRun :=
      { seq := n, kind := d.kind, peer := d.peer, addr := if n % 2 = 0 then d.slotA else d.slotB, slotBytes := d.slotBytes,
        rid := rid, startNs := b.now, epoch := b.getF F.CMP_EPOCH_epoch, sessions := (capturable b).length,
        toCapture := (capturable b).map (·.1), panniers := [], snaps := [], leased := [], endNs := b.now }
    let b := (b.setF F.TDM_CKPT_state 1).setF F.TDM_CKPT_shards 0
    some (captureReady (poolWrite r 0 (leBytes 4 0) { b with tdm := { b.tdm with ckpt := some r, lastCkptNs := b.now } }))

/-- The pool that TDM_POOL names. -/
def tdmPool (b : Block) : Option PoolDesc :=
  if b.isSet F.TDM_POOL_valid then readPool b (64 * b.getF F.TDM_POOL_addr) else none

/-- An event of R386, by its bit of `auto_mask`: 0 MEM_CE_WARN, 1 MEM_UE, 2 a Spoke FAILED, 3 a port at half width, 4
FUSE_LOW. -/
def autoCkpt (event : Nat) (b : Block) : Block :=
  if (b.getF F.TDM_CFG_auto_mask).testBit event = false ∨ b.isSet F.CMP_ID_isolated = true then b
  else if b.tdm.ckpt.isSome then b.bump F.TDM_CNT_ckpt_skip
  else if b.tdm.lastCkptNs ≠ 0 ∧ b.now < b.tdm.lastCkptNs + b.getF F.TDM_CFG_ckpt_min_s * 1000000000 then b
  else match (tdmPool b).bind fun d => beginCkpt d none b with
    | none => b
    | some b => b

/-- CKPT (R386, R387): it waits for a checkpoint that runs. -/
def ckpt (c : Ctx) (b : Block) : Ans :=
  if b.tdm.ckpt.isSome then .wait .timed b
  else if c.reads b c.opB 64 = false then Ans.malformed b
  else match readPool b c.opB with
    | none => Ans.malformed b
    | some d => match beginCkpt d (some c.rid) b with
      | none => .done St.quota none b
      | some b => .wait .ckpt b

/-- CKPT of a request (R386). -/
def execCkpt (rid : Nat) (s : State) : Host.Outcome State Fault Refusal := actC .none (runRow .ckpt ckpt rid) s

/-- A shard entry of a manifest (Table 16.5). -/
def shardBytes (x : ShardEntry) : Bytes :=
  leBytes 8 x.offset ++ leBytes 4 x.length ++ leBytes 1 x.kind ++ leBytes 3 0 ++ padTo 32 x.digest

/-- The manifest (Table 16.5), signed by the AK. -/
def manifest (b : Block) (r : CkptRun) (shards : List ShardEntry) : Bytes :=
  let images := imageEntries b none
  let cert := certSection b
  let certOff := 256 + 48 * shards.length + 48 * images.length
  let body := padTo 256 (leBytes 4 0x544E4D43 ++ leBytes 2 0x0100 ++ leBytes 1 (ownModule b)
      ++ leBytes 1 (if singleHome b then 2 else 0) ++ leBytes 4 r.seq ++ leBytes 4 (dkVersion b) ++ leBytes 4 r.epoch
      ++ leBytes 4 shards.length ++ leBytes 4 images.length ++ leBytes 4 r.panniers.length ++ leBytes 8 r.startNs ++ leBytes 8 r.endNs
      ++ leBytes 4 certOff ++ leBytes 4 (certOff + cert.length + 384) ++ leBytes 8 0 ++ keyDigest b.rtp.ownerKey)
    ++ shards.flatMap shardBytes ++ images.flatten ++ cert
  body ++ akSign b body

/-- The CKPT that waits for a checkpoint ends with a status. -/
def ckptAnswers (r : CkptRun) (status : Nat) (result : Option Bytes) (b : Block) : Block :=
  match r.rid with
  | none => if b.getF F.TDM_CMD_state = 1 ∧ b.tdm.loading = none then b.setF F.TDM_CMD_state (if status = St.ok then 2 else 3) else b
  | some rid =>
    match req b rid with
    | none => b
    | some q => if q.wait = .ckpt ∧ q.phase = .body then instrDone rid status result b else b

/-- The checkpoint fails (R389): the slot is left without a valid manifest. -/
def failCkpt (r : CkptRun) (b : Block) : Block := ckptAnswers r St.tierFault none ((b.bump F.TDM_CNT_ckpt_fail).setF F.TDM_CKPT_state 3)

/-- Shards written at their places, and counted (R389, order 2; Table 16.15). -/
def writeShards (r : CkptRun) (shards : List (ShardEntry × Bytes)) (b : Block) : Block :=
  (shards.foldl (fun b s => poolWrite r s.1.offset s.2 b) b).setF F.TDM_CKPT_shards shards.length

/-- Every shard of a checkpoint and then its manifest written (R389). -/
def writeCkpt (r : CkptRun) (b : Block) : Block :=
  let shards := shardsOf b r.seq r.panniers
  let b := writeShards r shards b
  let b := poolWrite r 0 (manifest b r (shards.map (·.1))) b
  fire Src.ckptDone (ckptAnswers r St.ok (some (leBytes 4 r.seq)) ((b.setF F.TDM_CKPT_seq r.seq).setF F.TDM_CKPT_state 2))

/-- The checkpoint ends (R389), once every session is captured: its shards and its manifest are written, or a pool write has
failed after the first `n` of them. One whose shards have outgrown the slot since it began fails. -/
def endCkpt (ok : Bool) (n : Nat) (b : Block) : Block :=
  let b := captureReady b
  match b.tdm.ckpt with
  | none => b
  | some r =>
    if ok = true ∧ r.toCapture ≠ [] then b
    else
      let b := endCapture r { b with tdm := { b.tdm with ckpt := none } }
      let fits := ((shardContents b r.panniers).map fun s => wrappedLength s.2).sum + 2 ^ 20 ≤ r.slotBytes
      if ok = true ∧ fits then writeCkpt r b
      else failCkpt r (if fits then writeShards r ((shardsOf b r.seq r.panniers).take n) b else b)

/-- CKPT_COMPLETE (R389). -/
def execCkptComplete (ok : Bool) (shards : Nat) (s : State) : Host.Outcome State Fault Refusal := actC .none (endCkpt ok shards) s

end Sys2Proof.Machine
end

