-- ==== Sys2Proof/Machine/MemTier.lean ====
section
/-! DEFINITION. Memory controllers and lower tiers (R291 to R307, R370): host windows, key rotation, re-serialising, patrol
and ECC, lent ranges and their blocks. -/

namespace Sys2Proof.Machine

/-! ### Host windows (R298) -/

/-- Units of 2 MiB that enabled tier windows hold, but for one. -/
def tierWindowUnits (b : Block) (w : Nat) : Nat :=
  ((List.range 64).map fun v => if v = w then 0 else windowExtents b v).sum

/-- A write of MEM_HWIN_CFG for a window, judged by the value that `enable` held before; one by which the tier windows would hold
more than 4 TiB is ignored (R298). -/
def windowWrite (w v : Nat) (b : Block) : Block :=
  let on := decide (bitsOf v 0 1 = 1)
  if b.getFi F.MEM_HWIN_CFG_enable w = 1 then
    if on = false ∧ windowInUse b w = 0 then b.setFi F.MEM_HWIN_CFG_enable w 0 else b
  else
    let size := min (bitsOf v 16 22) 0x200000
    if on = true ∧ bitsOf v 1 1 = 1 ∧ 0x200000 < tierWindowUnits b w + bitsOf v 16 22 then b
    else
      let b := (b.setFi F.MEM_HWIN_CFG_tier w (bitsOf v 1 1)).setFi F.MEM_HWIN_CFG_all_tenants w (bitsOf v 2 1)
      let b := (b.setFi F.MEM_HWIN_CFG_tenant w (bitsOf v 4 12)).setFi F.MEM_HWIN_CFG_size_2m w size
      b.setFi F.MEM_HWIN_CFG_enable w (bitsOf v 0 1)

/-- HWIN_CONFIG: a write of MEM_HWIN_CFG from management space, for the window MEM_HWIN_SEL selects (R298, R309). -/
def execHwinConfig (who : Caller) (val : BitVec 64) (s : State) : Host.Outcome State Fault Refusal :=
  actR .none (fun b => if who.isMgmt then windowWrite (b.getF F.MEM_HWIN_SEL_window) val.toNat b else b) s

/-! ### Keys (R291, R304 to R306, R370) -/

/-- MEM_KEY_CMD acts only when written by the RTP or by a management ring (R309). -/
def mayCommandKeys (who : Caller) : Bool := decide (who = .rtp ∨ who = .mgmtRing)

/-- Units of tenant data of a tenant: frames, extents, staging quanta and save slots. -/
def tenantUnits (b : Block) (t : Nat) : Nat :=
  (b.ses.frames.filter fun e => decide (e.2.tenant = t)).length
    + ((b.ses.extents.filter fun e => decide (e.2.tenant = t)).map (·.2.count)).sum
    + ((b.ses.slots.filter fun e => decide (e.2.tenant = t)).map (·.2.quanta.length)).sum
    + (b.spk.saved.filter fun c => decide (c.tenant = t)).length

/-- The version after a version (R304). -/
def nextVersion (v : Nat) : Nat := if v = 255 then 1 else v + 1

/-- A fresh key of a tenant at a version; with a retiring version, its key is kept beside it. -/
def installKey (t current retiring units : Nat) (b : Block) : Block :=
  let (n, b) := b.takeFresh
  let old := if retiring = 0 then 0 else ((tget b.mem.keys t).map (·.keyNo)).getD 0
  { b with mem := { b.mem with keys := tset b.mem.keys t ⟨current, retiring, units, n, old⟩ } }

/-- `rotate` (R304): a new version, and the pass starts. -/
def rotateKey (t : Nat) (b : Block) : Block :=
  match tget b.mem.keys t with
  | none => b
  | some k =>
    if k.current = 0 ∨ k.retiring ≠ 0 then b else installKey t (nextVersion k.current) k.current (tenantUnits b t) b

/-- KEY_ROTATE: `rotate` written to MEM_KEY_CMD (R304, R309). -/
def execKeyRotate (who : Caller) (s : State) : Host.Outcome State Fault Refusal :=
  act .none (fun b => if mayCommandKeys who then rotateKey (b.getF F.MEM_KEY_SEL_tenant) b else b) s

/-- A unit of a session that the pass cannot reach in its tier (R305): as the read of a revival that fails (Table 4.5). -/
def passLost (sid : Nat) (x : Session) (b : Block) : Block :=
  if x.motion.isSome then tierFailure sid true b
  else
    let b := dropShadow sid (b.bump F.PNE_CNT_FAULT_tier_fault)
    if singleHome b then quarantine sid St.tierFault 5 b
    else updSession sid (fun x => { x with state := ssCold, depth := dCold, warmTier := 0, computed := 0 }) (releaseWarm sid b)

/-- The pass meets the failing units of a session (R305, R307): as any reader of them would. -/
def passReads (sid : Nat) (b : Block) : Block :=
  match unitRead sid [1, 2, 3] b, session b sid with
  | some b, _ => b
  | none, none => b
  | none, some x => if readsLost b sid x [1, 2, 3] then passLost sid x b else b

/-- The units of a tenant in HBM and in the lower tiers written back under the current version, those that were under the retiring
one (R304); the chains in save slots too. -/
def rewriteUnits (t : Nat) (k : KeyEntry) (b : Block) : Block :=
  let ver := fun (v : Nat) => if v = k.retiring then k.current else v
  let frame := fun (e : Nat × Frame) => if e.2.tenant = t then (e.1, { e.2 with keyVer := ver e.2.keyVer }) else e
  let extent := fun (e : Nat × ExtentRun) => if e.2.tenant = t then (e.1, { e.2 with keyVer := ver e.2.keyVer }) else e
  let slot := fun (e : Nat × Session) =>
    if e.2.tenant = t then (e.1, { e.2 with quanta := e.2.quanta.map fun q => { q with keyVer := ver q.keyVer } }) else e
  let old := b.ses.extents.filter fun e => decide (e.2.tenant = t ∧ e.2.keyVer = k.retiring ∧ e.2.tier ≠ 0)
  let b := { b with ses := { b.ses with
    frames := b.ses.frames.map frame, extents := b.ses.extents.map extent, slots := b.ses.slots.map slot } }
  (b.ses.slots.filter fun e => decide (e.2.tenant = t)).foldl (fun b e =>
    (([1, 2, 3] : List Nat).filter fun u => (unitBlocks b e.1 e.2 u).any fun x => old.any fun o => decide (o.1 = x.1)).foldl
      (fun b u => if (e.2.badUnits.any fun v => decide (v.1 = u)) then b else writeUnit e.1 u b) b) b

/-- A unit of a tenant stands under a version. -/
def standsUnder (b : Block) (t ver : Nat) : Bool :=
  (b.ses.frames.any fun e => decide (e.2.tenant = t ∧ e.2.keyVer = ver)) || (b.ses.extents.any fun e => decide (e.2.tenant = t ∧ e.2.keyVer = ver))
    || b.ses.slots.any fun e => decide (e.2.tenant = t) && e.2.quanta.any fun q => decide (q.keyVer = ver)

/-- The pass ends (R304): failing units are met, every other one is written back under the current version, and once the final walk
finds none under the retiring version, that version is destroyed. -/
def endPass (t : Nat) (b : Block) : Block :=
  match tget b.mem.keys t with
  | none => b
  | some k =>
    if k.retiring = 0 then b
    else
      let b := b.ses.slots.foldl (fun b e =>
        if e.2.tenant = t ∧ e.2.state ≠ ssQuarantine ∧ e.2.state ≠ ssScrubbing then passReads e.1 b else b) b
      let b := rewriteUnits t k b
      if standsUnder b t k.retiring then b
      else { b with mem := { b.mem with keys := tset b.mem.keys t { k with retiring := 0, unitsLeft := 0, oldNo := 0 } } }

/-- ROTATE_PASS_END (R304). -/
def execRotatePassEnd (tenant : BitVec 12) (s : State) : Host.Outcome State Fault Refusal := actC .none (endPass tenant.toNat) s

/-- The module holds a unit of tenant data, or an extent in use (R306). -/
def holdsData (b : Block) : Bool :=
  b.ses.frames ≠ [] || (b.ses.extents.any fun e => match e.2.use with
    | .lent _ => false
    | _ => true) || decide (kvUnits b ≠ 0)
where
  /-- Staging quanta and save slots in use. -/
  kvUnits (b : Block) : Nat := (b.ses.classes.map fun e => classQuanta b e.1).sum + b.spk.saved.length

/-- `reserial` (R306). -/
def reserialise (b : Block) : Block :=
  if holdsData b then b
  else
    let b := b.mem.keys.foldl (fun b e => if e.2.current = 0 then b else installKey e.1 (nextVersion e.2.current) 0 0 b) b
    settle { b with ses := { b.ses with nextSerial := 1 } }

/-- RESERIAL: `reserial` written to MEM_KEY_CMD (R306, R309). -/
def execReserial (who : Caller) (s : State) : Host.Outcome State Fault Refusal :=
  act .none (fun b => if mayCommandKeys who then reserialise b else b) s

/-! ### The side-band of HBM (R287 to R293) -/

/-- The 16 bytes of side-band of a block of HBM, of its data and its tag word (Table 12.1). -/
def sideBand (data tagWord : Bytes) : Bytes := tagWord ++ padTo 8 (Config.checkSymbols (data ++ tagWord))

/-- A block of tenant data in HBM, as ciphertext and side-band (R287, R289, R290). -/
def hbmBlock (b : Block) (tenant serial index ver : Nat) (plain : Bytes) : Bytes × Bytes :=
  let (c, t) := sealData b tenant serial index ver plain
  (c, sideBand c t)

/-- The rows of a frame by slot, in the layout of R101, and block `i` of the frame in HBM; a slot not written holds no row. -/
def frameBlock (b : Block) (f : Frame) (kvFormat layers slots i : Nat) : Bytes × Bytes :=
  let rows := (List.range slots).map fun n => tgetD f.rows n []
  hbmBlock b f.tenant f.serial i f.keyVer (((pageBytes (kvCode kvFormat) layers rows).drop (64 * i)).take 64)

/-- The metadata key (R292). -/
def metadataKey (b : Block) : Bytes := padTo 32 (Config.keyBytes b.mem.metaNo)

/-- The side-band of a block of metadata, which stands in clear: the tag is bound to the address, under key version 0 (R292). -/
def metaBand (b : Block) (addr : Nat) (data : Bytes) : Bytes :=
  let n := addr / 64
  sideBand data (blockTag (metadataKey b) (n / 2 ^ 32) (n % 2 ^ 32) 0 data ++ [0])

/-- A block that a zeroing scrub has written: zero data, a zero tag and version; it fails its tag for every key (Table 12.2). -/
def scrubbedBlock : Bytes × Bytes := (List.replicate 64 0, sideBand (List.replicate 64 0) (List.replicate 8 0))

/-- The record of extent `i` of a lower-tier run, and its complement (Table 12.3). -/
def extentRecord (e : ExtentRun) (i : Nat) : BitVec 64 × BitVec 64 :=
  let w := BitVec.ofNat 64 ((e.serial + i) % 2 ^ 48 + e.tenant % 2 ^ 12 * 2 ^ 48 + 2 ^ 60)
  (w, ~~~w)

/-! ### ECC and patrol (R286, R293 to R296) -/

/-- What a base die makes of a number of erroneous bytes in a block (R293). -/
inductive EccAnswer where
  | clean
  | corrected
  | detected
  | miscorrected
  deriving DecidableEq, Repr

/-- Up to 3 bytes are corrected, 4 and 5 detected, and more may be miscorrected (R293). -/
def eccAnswer (bytes moment : Nat) : EccAnswer :=
  if bytes = 0 then .clean
  else if bytes ≤ 3 then .corrected
  else if bytes ≤ 5 then .detected
  else if Config.miscorrects moment then .miscorrected
  else .detected

/-- Module channel of an address (R286). -/
def channelOf (addr : Nat) : Nat := 32 * (addr / 2 ^ 36) + addr / 256 % 32

/-- Corrected errors on a channel (R294, R296): MEM_CE_WARN when the hour's count reaches `ce_warn`. -/
def correctedErrors (ch n : Nat) (b : Block) : Block :=
  let before := b.getFi F.MEM_CH_STAT_ce_hour ch
  let b := (b.bumpFi F.MEM_CH_STAT_ce_hour ch n).bumpFi F.MEM_CH_STAT_ce_total ch n
  let b := b.bumpN F.MEM_CNT_ECC_ce_total n
  let warn := b.getF F.MEM_CFG_ce_warn
  if warn ≠ 0 ∧ before < warn ∧ warn ≤ before + n then
    let b := fire Src.memCeWarn (b.setF F.MEM_STAT_ce_warn_seen 1)
    autoCkpt 0 (Block.bump { b with brp := { b.brp with patches := b.brp.patches.modify 1 (· + 1) } } F.BRP_CNT_patches)
  else b

/-- An uncorrectable error on a channel (R294, R296): the block is poisoned, and MEM_UE is raised. -/
def uncorrectable (addr : Nat) (b : Block) : Block :=
  let blk := addr / 64 * 64
  let b := if b.mem.poisoned.contains blk then b else { b with mem := { b.mem with poisoned := b.mem.poisoned ++ [blk] } }
  let b := (b.bumpFi F.MEM_CH_STAT_ue (channelOf addr) 1).bump F.MEM_CNT_ECC_ue_total
  autoCkpt 1 (fire Src.memUe (b.setF F.MEM_STAT_ue_seen 1))

/-- A unit of a session marked as one whose next read fails (R307): `kind` by Table 12.4. -/
def markUnit (sid kind : Nat) (poisoned : Bool) (b : Block) : Block :=
  updSession sid (fun x => { x with badUnits := if x.badUnits.any fun u => u.1 = kind then x.badUnits else x.badUnits ++ [(kind, poisoned)] }) b

/-- A frame marked. -/
def markFrame (key : Nat) (f : Frame → Frame) (b : Block) : Block := { b with ses := { b.ses with frames := tupd b.ses.frames key f } }

/-- A block of a unit that is poisoned, or fails its tag: the next engine or Spoke that reads the unit meets the failure (R294,
R307, R308). A metadata block is the owner's at once. -/
def spoilUnit (u : Config.HbmUnit) (poisoned : Bool) (b : Block) : Block :=
  match u with
  | .kv sid => markUnit sid 1 poisoned b
  | .log sid => markUnit sid 2 poisoned b
  | .scratch sid => markUnit sid 3 poisoned b
  | .frame key => markFrame key (fun f => { f with badTag := true }) b
  | .model n => match modelSlot b n with
    | some m => setModel n (some { m with damaged := true }) b
    | none => b
  | .cog n => match cogOf b n with
    | some g => setCog n (some { g with damaged := true }) b
    | none => b
  | .clist n => match listOf b n with
    | some l => setList n (some { l with damaged := true }) b
    | none => b
  | .index n => match indexOf b n with
    | some x => setIndex n (some { x with bad := x.bad.or (some poisoned) }) b
    | none => b
  | .graph n => match indexOf b n with
    | some x => setIndex n (some { x with badGraph := x.badGraph.or (some poisoned) }) b
    | none => b
  | .save place => match tget b.ste.pelotons place with
    | some p => setPel place (some { p with failed := p.failed ++ [(8, place)] }) b
    | none => b
  | .buffer place => bufferFails place b
  | .nothing => b
  | _ => pairFails u (tagFail 10 0 0 poisoned b)
where
  /-- A metadata block: its pair disagrees, or its tag fails, and its owner's rule applies (R295, R307 kind 10). -/
  pairFails (u : Config.HbmUnit) (b : Block) : Block :=
    match u with
    | .descriptor sid pair =>
      match session b sid with
      | none => b
      | some x =>
        if x.state = ssScrubbing ∨ x.state = ssQuarantine then b
        else (quarantine sid St.integrity 1 (updSession sid (fun x => { x with badPairs := if x.badPairs.contains (pair % 8) then x.badPairs else x.badPairs ++ [pair % 8] }) b)).bump
          F.SES_STAT_integ_count
    | .frameRecord key => reportPair key b
    | .prefixRecord key => damagePrefix key (b.bump F.PGM_STAT_integ_count)
    | .prefixTable key => damagePrefix key (b.bump F.PGM_STAT_integ_count)
    | .rootRecord sid => tableFails sid b
    | .table sid => tableFails sid b
    | .extentRecord key =>
      match tget b.ses.extents key with
      | none => b
      | some e => extentFails key e b
    | .mapRecord => { b with cmp := { b.cmp with badReplica := true } }
    | _ => b
  /-- A page table of a session disagrees (R126). -/
  tableFails (sid : Nat) (b : Block) : Block :=
    match session b sid with
    | some _ => quarantine sid St.integrity 3 (b.bump F.PGM_STAT_integ_count)
    | none => b
  /-- The record of a run of lower-tier extents disagrees (R307, kind 10): as for kinds 1 to 3, by what it holds. -/
  extentFails (key : Nat) (e : ExtentRun) (b : Block) : Block :=
    let b := tagFail 10 0 e.tier false b
    match e.use with
    | .warm sid => quarantine sid St.integrity 3 b
    | .shadowWarm sid => quarantine sid St.integrity 3 b
    | .pack => b.ses.slots.foldl (fun b x =>
        if (x.2.logPlace.map (·.extent)) = some key then quarantine x.1 St.integrity 2 b
        else if (x.2.scratchPlace.map (·.extent)) = some key then quarantine x.1 St.integrity 4 b
        else b) b
    | _ => b
  /-- A step buffer fails (kind 9): a machine fault of the step in flight, which is redone under R233. -/
  bufferFails (place : Nat) (b : Block) : Block :=
    match tget b.ste.pelotons place with
    | none => b
    | some p =>
      if p.phase ≠ .flight then b
      else
        let b := tagFail 9 p.tenant 0 true b
        let b := setPel place (some { p with
          fault := p.fault.or (some (0x13, 0)), faults := if p.fault = none then p.faults + 1 else p.faults }) b
        if p.tilesOut = 0 then endStepTiles place b else b
  /-- The record of a frame disagrees (R126): the prefix records that list it are damaged, or the session that holds it is
  in QUARANTINE. -/
  reportPair (key : Nat) (b : Block) : Block :=
    let b := markFrame key (fun f => { f with badPair := true }) (b.bump F.PGM_STAT_integ_count)
    match prefixesListing b key with
    | [] => b.ses.slots.foldl (fun b e =>
        if (e.2.table.map fun t => t.entries.any fun x => decide (x.frame = key)) = some true then
          quarantine e.1 St.integrity 3 b
        else b) b
    | ps => ps.foldl (fun b k => damagePrefix k b) b

/-- A patrol read of a block (R293 to R295): up to 3 erroneous bytes are corrected, more are met as R293 gives, and a pair of a metadata
block that disagrees goes to its owner. The patrol stands still while the time line is stale (R13). -/
def patrolBlock (addr : Nat) (f : EccFinding) (b : Block) : Block :=
  let (m, b) := b.takeFresh
  let u := Config.hbmUnit addr m
  match f with
  | .errors n => match eccAnswer n m with
    | .clean => b
    | .corrected => correctedErrors (channelOf addr) 1 b
    | .detected => spoilUnit u true (uncorrectable addr b)
    | .miscorrected => spoilUnit u false (correctedErrors (channelOf addr) 1 b)
  | .pairMismatch => spoilUnit.pairFails u (b.bump F.MEM_STAT_patrol_cmp)

/-- A patrol read (R295); the last block of a stack completes its patrol. -/
def patrolRead (addr : Nat) (f : EccFinding) (b : Block) : Block :=
  if b.stale then b
  else
  let b := patrolBlock addr f b
  if addr / 64 % 2 ^ 30 = 2 ^ 30 - 1 then
    { b with mem := { b.mem with patrols := b.mem.patrols.modify (addr / 2 ^ 36) (· + 1) } }
  else b

/-- An hour of host time ends (R296); while the time line is stale the hour does not advance. -/
def hourEnds (b : Block) : Block :=
  if b.stale then b else (List.range 256).foldl (fun b c => b.setFi F.MEM_CH_STAT_ce_hour c 0) b

/-- CE_HOUR_WINDOW (R296). -/
def execCeHourWindow (s : State) : Host.Outcome State Fault Refusal := act .none hourEnds s

/-! ### Lent ranges (R302, R303, R327, R370) -/

/-- Key of a lent block. -/
def lentKey (range block : Nat) : Nat := 2 ^ 40 * range + block

/-- A lent range. -/
def lentRange (b : Block) (r : Nat) : Option NbrRange := tget b.mem.lent r

/-- A lent range changed. -/
def updLent (r : Nat) (f : NbrRange → NbrRange) (b : Block) : Block := { b with mem := { b.mem with lent := tupd b.mem.lent r f } }

/-- A block written into a lent range: kept as it came, with its tag word (R302). -/
def putLent (r n : Nat) (data : Bytes) (tagWord : BitVec 64) (b : Block) : Block :=
  { b with mem := { b.mem with lentBlocks := tset b.mem.lentBlocks (lentKey r n) (padTo 64 data, tagWord) } }

/-- A block of a lent range, where it has been written. -/
def lentBlock (b : Block) (r n : Nat) : Option (Bytes × BitVec 64) := tget b.mem.lentBlocks (lentKey r n)

/-- A lent range scrubbed: every block reads as zeros with a tag word of 0 (Table 12.2, R303). -/
def scrubLent (r : Nat) (b : Block) : Block :=
  { b with mem := { b.mem with lentBlocks := b.mem.lentBlocks.filter fun e => decide (e.1 / 2 ^ 40 ≠ r) } }

/-- The block a fetch returns: what was written, or zeros; none where it has not arrived from the old donor. -/
def fetchLent (b : Block) (x : NbrRange) (r n : Nat) : Option (Bytes × BitVec 64) :=
  match lentBlock b r n with
  | some v => some v
  | none => if x.source.isSome || x.gap then none else some (List.replicate 64 0, 0)

/-- A neighbour-tier access at a donor (R302, R303, R325, R327): the borrower's, or a block that the old donor streams. An
access to a range that this module no longer owns goes on to its new owner; one to no range fails. -/
def nbrAccess (src : Nat) (acc : NbrAccess) (b : Block) : Block :=
  let (r, n) := match acc with
    | .store r n _ _ => (r, n)
    | .fetch r n => (r, n)
  let fails := sendMsg src 3 r (.blockFail r n) b
  match lentRange b r with
  | none => fails
  | some x =>
    if x.size * 32768 ≤ n then fails
    else match x.heir with
    | some m => if src = m then serve x r n b else sendMsg m 3 r (.forward acc) b
    | none =>
      if x.state ≠ 1 then fails
      else match acc with
      | .store _ _ data tagWord =>
        if x.source = some src then arrive x r n data tagWord b
        else if x.module = src then putLent r n data tagWord b
        else fails
      | .fetch _ _ => if x.module = src then serve x r n b else fails
where
  /-- A fetch answered; a block still with the old donor is fetched from it first. -/
  serve (x : NbrRange) (r n : Nat) (b : Block) : Block :=
    match fetchLent b x r n, x.source with
    | some (d, w), _ => sendMsg x.module 3 r (.block r n d w) b
    | none, some old => sendMsg old 3 r (.forward (.fetch r n)) (updLent r (fun x => { x with waiting := x.waiting ++ [n] }) b)
    | none, none => sendMsg x.module 3 r (.blockFail r n) b
  /-- A block of the stream: it does not overwrite one written here since, and answers a fetch that waits for it. -/
  arrive (x : NbrRange) (r n : Nat) (data : Bytes) (tagWord : BitVec 64) (b : Block) : Block :=
    let b := if (lentBlock b r n).isSome then b else putLent r n data tagWord b
    if x.waiting.contains n then
      let (d, w) := (lentBlock b r n).getD (data, tagWord)
      sendMsg x.module 3 r (.block r n d w) (updLent r (fun x => { x with waiting := x.waiting.filter (· ≠ n) }) b)
    else b

/-- NBR_TIER_ACCESS (R302). -/
def execNbrTierAccess (src : BitVec 8) (acc : NbrAccess) (s : State) : Host.Outcome State Fault Refusal :=
  actC .none (nbrAccess src.toNat acc) s

/-- SCRUB from a borrower (Table 15.11): the ranges it borrows are scrubbed under R303; they stay lent. -/
def donorScrub (src : Nat) (ranges : List Nat) (b : Block) : Block :=
  ranges.foldl (fun b r => match lentRange b r with
    | some x => if x.module = src then scrubLent r b else b
    | none => b) b

/-- DONOR_SCRUB (R370). -/
def execDonorScrub (src : BitVec 8) (ranges : List Nat) (s : State) : Host.Outcome State Fault Refusal :=
  actC .none (donorScrub src.toNat ranges) s

end Sys2Proof.Machine
end

