-- ==== Sys2Proof/Machine/Move.lean ====
section
/-! DEFINITION. Moves between modules (R85 to R91, R98 to R100): the source's half, the destination's half, losses, and the
end of every motion (R75). -/

namespace Sys2Proof.Machine

/-! ### The source's half -/

/-- Tier that a MOVE's motion heads for in single-home mode (R41, R86). -/
def moveTier (b : Block) (x : Session) (tier : Nat) : Nat :=
  if tier ≠ 3 then tier else if x.hintTier ≠ 3 then x.hintTier
  else if b.getFi F.SES_TQ_POLICY_warm_tier x.tenant ≠ 3 then b.getFi F.SES_TQ_POLICY_warm_tier x.tenant else 0

/-- A MOVE admitted (Table 4.3, order 1): its motion waits in its class. In mirror mode the motion has the session's own
depth and tier as its target (R86). -/
def startMove (c : Ctx) (sid : Nat) (x : Session) (dest depth tier : Nat) (b : Block) : Ans :=
  let b := dropShadow sid b
  let moveId := ownModule b * 2 ^ 56 + b.ses.moveSeq % 2 ^ 56
  let b := { b with ses := { b.ses with moveSeq := b.ses.moveSeq + 1 } }
  let mo : MoveOut :=
    { dest := dest, moveId := moveId, depth := depth, oldPannier := reads10Only b dest, stage := .streaming, rid := some c.rid,
      dstHandle := 0, dstTandem := false, cutover := false, header := [], commitDelta := none, pagesSent := false,
      snap := none, leased := [] }
  let b := updSession sid (fun x => { x with moveOut := some mo }) b
  let (d, t) := if singleHome b then (depth, moveTier b x tier) else (x.depth, x.warmTier)
  .wait (.motion (readsLower b x)) (orderMotion sid .moveOut 2 d t (some c.rid) b)

/-- MOVE (R33, R41, R85): a MOVE to HOT may start on an enrolled session. One whose predecessor still waits for DONE
waits. -/
def move (c : Ctx) (b : Block) : Ans :=
  let dest := bitsOf c.e.a 0 8
  let depth := bitsOf c.e.a 8 2
  if depth = 3 then Ans.malformed b
  else withSession c false (fun sid x b =>
    if admitted b c sid x (if depth = dHot then .settled else .idle) = false ∨ x.moveOut.isSome = true then .wait .retry b
    else if dest = ownModule b then Ans.malformed b
    else if liveMember b dest = false then .done St.poolLost none b
    else if x.log.contains depthMark ∧ reads10Only b dest = true then Ans.malformed b
    else if x.depth = dCold ∧ depth = dWarm then Ans.malformed b
    else if depth = dCold ∧ coldAllowed b x.tenant = false then .done St.quota none b
    else startMove c sid x dest depth (bitsOf c.e.a 10 2) b) b

/-- MOVE of a request (rows 7, 8, 9 and 11 of Table 2.5). -/
def execMove (rid : Nat) (s : State) : Host.Outcome State Fault Refusal := actC .none (runRow .move move rid) s

/-- The engine has read and sent every page of an outbound pannier: the session cuts over now, or at the first step boundary that
allows it (R91). What fails its tag ends the MOVE (R94, R307). -/
def finishMoveOut (sid : Nat) (b : Block) : Block :=
  match session b sid with
  | none => b
  | some x =>
    match x.moveOut with
    | none => b
    | some mo =>
      if mo.stage ≠ .streaming then b
      else if readsLower b x ∧ hasKey b x.tenant = false then tierFailure sid true b
      else match unitRead sid [2, 3] b with
      | some b => integrityEnds sid b
      | none =>
        match (if pannierForm x mo.depth = 0 then none else kvRead sid b) with
        | some b => integrityEnds sid b
        | none =>
          cutOver sid (updSession sid (fun x => { x with moveOut := some { mo with pagesSent := true } }) b)

/-- COMMIT sent (Table 4.3, order 6): from here the source serves nothing of the session, and its items go (R268). -/
def sendCommit (sid : Nat) (b : Block) : Block :=
  match session b sid with
  | none => b
  | some x =>
    match x.moveOut with
    | none => b
    | some mo =>
      let b := updSession sid (fun x => { x with moveOut := some { mo with commitDelta := none } }) b
      dropOwned (handleOf sid x) (sendMsg mo.dest 2 mo.moveId (.commit mo.moveId) b)

/-- READY received at the source (Table 4.3, order 6). -/
def moveReady (sid handle : Nat) (dstTandem : Bool) (b : Block) : Block :=
  match session b sid with
  | none => b
  | some x =>
    match x.moveOut, x.motion with
    | some mo, some m =>
      if mo.stage ≠ .sent ∨ m.kind ≠ .moveOut then b
      else
        let mo := { mo with dstHandle := handle, dstTandem := dstTandem }
        if singleHome b then
          let b := updSession sid (fun x => { x with moveOut := some { mo with stage := .committed } }) b
          if tandemValid b then
            let (n, b) := sendDelta none false b
            updSession sid (fun x => { x with moveOut := some { mo with stage := .committed, commitDelta := some n } }) b
          else sendCommit sid (noteDelta b)
        else
          updSession sid (fun x => { x with moveOut := some mo, motion := none, state := stateOfDepth x.depth }) b
    | _, _ => b

/-- MOVE_READY (R86). -/
def execMoveReady (sid : Nat) (handle : BitVec 48) (dstTandem : Bool) (s : State) : Host.Outcome State Fault Refusal :=
  actC (.slot sid) (moveReady sid handle.toNat dstTandem) s

/-- A session's MOVE ends with a status, and its motion with it where it still runs (row 13). -/
def moveFails (sid status : Nat) (b : Block) : Block :=
  match session b sid with
  | none => b
  | some x =>
    match x.moveOut with
    | none => b
    | some mo =>
      if x.motion.any fun m => decide (m.kind = .moveOut) then failMotion sid status b
      else motionEnds sid x mo.rid status none (updSession sid (fun x => { x with moveOut := none }) b)

/-- A MOVE's instruction ends with the destination handle, and the source slot goes to SCRUBBING (row 15). -/
def passOwnership (sid status : Nat) (x : Session) (mo : MoveOut) (b : Block) : Block :=
  let b := updSession sid (fun x => { x with moveOut := none, motion := none }) b
  enterScrubbing sid (motionEnds sid x mo.rid status (some (leBytes 6 mo.dstHandle)) b)

/-- DONE received at the source (Table 4.3, order 8). A MOVE of a restored copy waits for its ring first. -/
def moveDone (sid : Nat) (b : Block) : Block :=
  match session b sid with
  | none => b
  | some x =>
    match x.moveOut with
    | none => b
    | some mo =>
      if mo.dstHandle = 0 ∨ mo.commitDelta.isSome ∨ (b.tdm.restored.any fun e => decide (some e.1 = mo.rid)) then b
      else
        let b := b.bump F.PNE_CNT_MOTION_moves
        if mo.stage = .committed then passOwnership sid St.ok x mo b
        else motionEnds sid x mo.rid St.ok (some (leBytes 6 mo.dstHandle)) (updSession sid (fun x => { x with moveOut := none }) b)

/-- MOVE_DONE (R86). -/
def execMoveDone (sid : Nat) (s : State) : Host.Outcome State Fault Refusal := actC (.slot sid) (moveDone sid) s

/-- The destination of a MOVE is lost (R88): the first three rows of Table 4.4. -/
def destinationLost (sid : Nat) (b : Block) : Block :=
  match session b sid with
  | none => b
  | some x =>
    match x.moveOut with
    | none => b
    | some mo =>
      if mo.stage = .committed ∧ mo.commitDelta = none ∧ mo.dstTandem = true then passOwnership sid St.poolLost x mo b
      else moveFails sid St.poolLost b

/-- POOL_TIMEOUT (R88): the destination's path has carried nothing for `pool_timeout_ms`. -/
def execPoolTimeout (sid : Nat) (s : State) : Host.Outcome State Fault Refusal := actC (.slot sid) (destinationLost sid) s

/-- A refusal of a MOVE received at the source (R87). -/
def moveRefused (moveId status : Nat) (b : Block) : Block :=
  b.ses.slots.foldl (fun b e => match e.2.moveOut with
    | some mo => if mo.moveId = moveId ∧ mo.stage ≠ .committed then moveFails e.1 status b else b
    | none => b) b

/-! ### The destination's half: the header (R87, R99) -/

/-- Every byte of some ranges of a header is zero. -/
def hdrZero (h : Bytes) (ranges : List (Nat × Nat)) : Bool := ranges.all fun r => decide (hdrField h r.1 r.2 = 0)

/-- The header fails its own checks, or its version is not one the module reads (R87, R98, R99). -/
def headerBad (src : Nat) (h : Bytes) : Bool :=
  let old := hdrOld h
  decide (h.length ≠ 256) || decide (hdrField h 0 4 ≠ 0x524E4E50) || (!old && decide (hdrField h 4 2 ≠ 0x0200))
    || decide (32 ≤ hdrField h 6 2) || decide (4096 ≤ hdrTenant h) || decide (hTenant (hdrField h 8 6) ≠ hdrTenant h)
    || decide (hdrField h 16 1 ≠ src) || decide (2 < hdrDepth h) || decide (32 ≤ hdrField h 18 1)
    || decide (hdrTokens h < hdrPrefixTokens h) || decide (65536 < hdrField h 104 4) || decide (16 < hdrField h 108 4)
    || decide (hdrField h 151 1 ≠ src) || !hdrZero h [(116, 4), (165, 3), (204, 52)] || decide (16 ≤ hdrField h 164 1)
    || decide (2 ^ 48 ≤ hdrField h 128 8) || decide (16 ≤ hdrField h 160 1) || decide (4096 ≤ hdrField h 162 2)
    || (decide (hdrField h 32 8 = 0) && !hdrZero h [(28, 4), (72, 32)])
    || (old && (decide (hdrDepth h ≠ 2) || decide (hdrField h 6 2 % 16 ≠ 0)
      || !hdrZero h [(18, 2), (108, 8), (120, 16), (136, 8), (161, 1), (162, 2), (164, 1)]))

/-- The resident model that a header's weights digest names (R87), with its slot. -/
def headerModel (b : Block) (h : Bytes) : Option (Nat × ModelSlot) :=
  b.ten.models.find? fun e => decide (e.2.state = 1) && !e.2.draft && (e.2.shared || decide (e.2.owner = hdrTenant h))
    && decide (e.2.weightsDg = (h.drop 40).take 32)

/-- The pinned prefix that a header names, under its digest (R87). -/
def headerPrefix (b : Block) (h : Bytes) : Option (Nat × Prefix) :=
  b.ses.prefixes.find? fun e => decide (e.2.tenant = hdrTenant h) && decide (e.2.handle = hdrField h 32 8)
    && decide (e.2.pstate = 1) && decide (e.2.digest = (h.drop 72).take 32) && decide (e.2.tokens = hdrPrefixTokens h)

/-- Depth at which the module takes a pannier: a 1.0 pannier is a COLD session (R99). -/
def arriveDepth (h : Bytes) : Nat := if hdrOld h then dCold else hdrDepth h

/-- Tier of an inbound session's WARM image, or of its log and scratch in single-home mode: by its hint, then by policy, then
HBM (R41). -/
def arriveTier (b : Block) (h : Bytes) : Nat :=
  let hint := if hdrOld h then 3 else bitsOf (hdrField h 164 1) 2 2
  let policy := b.getFi F.SES_TQ_POLICY_warm_tier (hdrTenant h)
  if hint ≠ 3 then hint else if policy ≠ 3 then policy else 0

/-- Private rows that a pannier carries, staging included. -/
def arriveRows (h : Bytes) : Nat := if hdrFlag h 0 || hdrFlag h 2 then hdrTokens h - hdrPrefixTokens h else 0

/-- Room that an inbound session needs: HOT bytes; or extents of a WARM tier. -/
def arriveNeed (b : Block) (cls : Nat) (h : Bytes) : Nat × Nat :=
  let g := geomClass b cls
  let rows := hdrTokens h - hdrPrefixTokens h
  let cap := ((headerPrefix b h).map (·.2.table.cap)).getD (tenantCap b (hdrTenant h))
  if arriveDepth h = dHot then (frameBytes g cap (hdrPrefixTokens h) (rows - hdrStaged h), 0)
  else if arriveDepth h = dWarm then (0, extentsFor (rows * warmRowBytes g))
  else (0, 0)

/-- The other reservations of a header's tenant that are not yet sessions. -/
def otherInbound (b : Block) (h : Bytes) : List Bytes :=
  (b.ses.inbound.filter fun e => decide (e.1 ≠ hdrMoveId h) && decide (hdrTenant e.2.header = hdrTenant h)
    && !((e.2.ready.bind fun r => session b r.1).isSome)).map (·.2.header)

/-- A tenant's limits, and the table, have room for one more inbound session (R87). -/
def arriveRoom (b : Block) (cls fmt : Nat) (h : Bytes) : Bool :=
  let t := hdrTenant h
  let others := otherInbound b h
  let tier := arriveTier b h
  let hot := (arriveNeed b cls h).1 + (others.map fun o => (arriveNeed b cls o).1).sum
  let warm := (arriveNeed b cls h).2 + (others.map fun o => if arriveTier b o = tier then (arriveNeed b cls o).2 else 0).sum
  decide (tenantSessions b t + others.length < b.getFi F.SES_TQ_LIMITS_max_sessions t)
    && decide (reservedSlots b (fun g => decide (hdrMoveId g ≠ hdrMoveId h)) < freeSlots b)
    && (decide ((arriveNeed b cls h).1 = 0) || decide (hotBytes b t + hot ≤ hotLimit b t))
    && (decide (arriveDepth h ≠ dWarm) || (hasWarmForm fmt && decide (warmBytes b t tier + warm * extentBytes ≤ warmLimit b t tier)
      && tierSupplies b tier warm))

/-- The checks of R87 that a header meets, at OFFER and again with the trailer: the status of the refusal, if any. -/
def arriveCheck (b : Block) (src : Nat) (h : Bytes) : Option Nat :=
  if headerBad src h ∨ hdrFlag h 4 ≠ singleHome b then some St.malformed
  else match headerModel b h with
    | none => some St.malformed
    | some (_, m) =>
      if hdrField h 32 8 ≠ 0 ∧ (headerPrefix b h).isNone = true then some St.malformed
      else if arriveRoom b m.cls m.kvFormat h then none else some St.quota

/-- A pannier refused (R87). -/
def refuseMove (src moveId status : Nat) (b : Block) : Block :=
  sendMsg src 2 moveId (.refuse moveId status) ((dropInbound moveId b).bump F.PNE_CNT_FAULT_refused)

/-- OFFER received (Table 4.3, order 2): the reservation, or a refusal. A header offered again replaces the first. -/
def takeOffer (src : Nat) (h : Bytes) (b : Block) : Block :=
  let id := hdrMoveId h
  if ((tget b.ses.inbound id).bind (·.ready)).isSome then b
  else match arriveCheck b src h with
    | some st => refuseMove src id st b
    | none => { b with ses := { b.ses with inbound := tset b.ses.inbound id ⟨src, h, [], none, none, none⟩ } }

/-- MOVE_OFFER (R86, R87). -/
def execMoveOffer (src : BitVec 8) (hdr : Bytes) (s : State) : Host.Outcome State Fault Refusal :=
  actC .none (takeOffer src.toNat hdr) s

/-- A streamed section received, unwrapped by the hub. -/
def takeSection (id : Nat) (bs : Bytes) (b : Block) : Block :=
  match tget b.ses.inbound id with
  | none => b
  | some e =>
    if e.ready.isSome then b
    else { b with ses := { b.ses with inbound := tset b.ses.inbound id { e with body := e.body ++ bs } } }

/-- MOVE_SECTION (R86). -/
def execMoveSection (moveId : BitVec 64) (bytes : Bytes) (s : State) : Host.Outcome State Fault Refusal :=
  actC .none (takeSection moveId.toNat bytes) s

/-! ### The destination's half: the session -/

/-- Offsets and lengths of the log, scratch and items sections in a body. -/
def logSection (h body : Bytes) : List (BitVec 32) :=
  (List.range (hdrField h 24 4)).map fun i => BitVec.ofNat 32 (bytesAt body (4 * i) 4)
def scratchSection (h body : Bytes) : Bytes := (body.drop (pad64 (4 * hdrField h 24 4))).take (hdrField h 104 4)
def itemsOffset (g : GeomClass) (h : Bytes) : Nat :=
  pad64 (4 * hdrField h 24 4) + pad64 (hdrField h 104 4) + pad64 (16 * hdrField h 112 4) + pad64 (hdrField h 120 8)
    + pad64 (stagingBytes g (hdrStaged h))

/-- The items of an items section, by index; the first argument bounds them. -/
def itemsOf (owner : Nat) : Nat → Bytes → List (Nat × VItem)
  | 0, _ => []
  | n + 1, bs =>
    if bs = [] then []
    else
      let code := bytesAt bs 4 2 / 8
      (bytesAt bs 0 4, ⟨(bs.drop 24).take code, bytesAt bs 16 8, bytesAt bs 8 8, owner⟩)
        :: itemsOf owner n (bs.drop (pad64 (24 + code)))

/-- The session that a pannier makes in its new slot (Table 4.3): fresh generation, `move_count` one higher, no constraint
list and no draft model; it is IN_MOTION toward the pannier's depth. -/
def arriveSession (b : Block) (gen slot cls : Nat) (h body : Bytes) : Session :=
  let x := newSession gen (hdrTenant h) slot cls (hdrField h 160 1) (hdrField h 156 4) b.now ((h.drop 168).take 16)
  let old := hdrOld h
  { x with
    state := ssMotion
    depth := dCold
    prefixHandle := hdrField h 32 8
    prefixTokens := hdrPrefixTokens h
    resumeHintNs := if old then 0 else hdrField h 136 8
    hintDepth := if old then 3 else bitsOf (hdrField h 164 1) 0 2
    hintTier := if old then 3 else bitsOf (hdrField h 164 1) 2 2
    openNs := hdrField h 184 8
    parkCount := hdrField h 192 4
    reviveCount := hdrField h 196 4
    moveCount := hdrField h 200 4 + 1
    log := logSection h body
    scratch := scratchSection h body }

/-- Items of a pannier inserted into their indexes through the side lists (Table 4.7); an index that is not ready, or has no
room, takes none. -/
def arriveItems (tenant : Nat) (items : List (Nat × VItem)) (b : Block) : Block :=
  items.foldl (fun b e => match indexOf b e.1 with
    | some x => if x.state = ixReady ∧ indexTenant b e.1 = tenant ∧ x.side.length < sideMax then insertItem e.1 x e.2 b else b
    | none => b) b

/-- DONE sent once an inbound session has reached its depth (Table 4.3, order 7). -/
def settleInbound (sid : Nat) (b : Block) : Block :=
  match b.ses.inbound.find? fun e => decide (e.2.ready.map (·.1) = some sid) with
  | none => b
  | some (id, e) =>
    match session b sid with
    | none => b
    | some x =>
      if x.motion.isSome then b
      else
        let b := { b with ses := { b.ses with inbound := tdel b.ses.inbound id } }
        sendMsg e.src 2 id (.moveDone id (handleOf sid x)) (b.bump F.PNE_CNT_MOTION_moves)

/-- Bytes of `n` rows of a layer-major layout. -/
def rowsLength (m : Net) (code : Nat) (scaled : Bool) (n : Nat) : Nat :=
  n * (m.layers * (elemBytes code m.elems + if scaled then m.elems / 32 else 0))

/-- Rows of a KV section, page by page, by the rows that the directory gives each page (Table 4.7, sections 3 and 4). -/
def sectionRows (m : Net) (code : Nat) (scaled : Bool) : List Nat → Bytes → List KvRow
  | [], _ => []
  | n :: ns, bs => pageRows code m.layers m.elems n scaled bs ++ sectionRows m code scaled ns (bs.drop (rowsLength m code scaled n))

/-- Rows held by each page of a pannier's directory. -/
def directoryRows (h body : Bytes) : List Nat :=
  let off := pad64 (4 * hdrField h 24 4) + pad64 (hdrField h 104 4)
  (List.range (hdrField h 112 4)).map fun i => bytesAt body (off + 16 * i + 4) 4

/-- Bytes of a pannier before its KV section. -/
def kvOffset (h : Bytes) : Nat := pad64 (4 * hdrField h 24 4) + pad64 (hdrField h 104 4) + pad64 (16 * hdrField h 112 4)

/-- The rows of a pannier's KV section, in its form: the WARM form where its flag says so (Table 4.6). -/
def arrivedRows (b : Block) (x : Session) (h body : Bytes) : List KvRow :=
  let m := sessionNet b none x
  let (code, scaled) := if hdrFlag h 1 then (warmCode, true) else (kvCode m.kvFormat, kvScaled m.kvFormat)
  if hdrFlag h 0 then sectionRows m code scaled (directoryRows h body) (body.drop (kvOffset h)) else []

/-- The rows of its staging section, in BF16 (Table 4.7, section 5). -/
def arrivedStaging (b : Block) (x : Session) (h body : Bytes) : List KvRow :=
  let m := sessionNet b none x
  pageRows workingCode m.layers m.elems (hdrStaged h) false (body.drop (kvOffset h + pad64 (hdrField h 120 8)))

/-- Frames and staging for an inbound session bound for HOT: its rows land, and its staging rows stand in staging. Without a frame
or a quantum it waits for one. -/
def landArrival (sid : Nat) (x : Session) (rows staged : List KvRow) (tier : Nat) (b : Block) : Block :=
  let b := shedShadows sid x [rows] (b.ses.slots.length + 1) b
  match (if rows = [] then Landed.ok (newTable b x.cls x.tenant x.prefixTokens none) b else tryLand sid x [rows] b) with
  | .quota => failMotion sid St.quota b
  | .noFrame => b
  | .ok t b' =>
    match growStaging sid ⟨staged.length, 0⟩ b' with
    | .ok b' =>
      reach sid dHot tier id (updSession sid (fun x => { x with
        table := if rows = [] then x.table else some t, staging := ⟨staged.length, 0⟩, stageRows := staged
        computed := rows.length + staged.length }) b')
    | _ => b

/-- The WARM image of an inbound session bound for WARM written to a tier, in the form it came in or converted (R78, R86). -/
def landImage (sid tier : Nat) (x : Session) (h body : Bytes) (b : Block) : Option Block :=
  let fmt := (sessionNet b none x).kvFormat
  let rows := arrivedRows b x h body
  let warm := if hdrFlag h 1 then rows else (rows ++ (arrivedStaging b x h body).map (storeRow fmt)).map (warmRow fmt)
  let b := updSession sid (fun x => { x with computed := warm.length }) b
  (putImage sid tier { x with computed := warm.length } warm b).map fun b => if hdrFlag h 1 then b else countNanBlocks warm b

/-- The motion of an inbound session runs: frames, WARM image or neither, by its depth (Table 4.3, order 7). A pannier
without KV that is bound for HOT is computed anew by the step engine (R84). -/
def finishMoveIn (sid : Nat) (m : Motion) (b : Block) : Block :=
  match session b sid, b.ses.inbound.find? fun e => decide (e.2.ready.map (·.1) = some sid) with
  | some x, some (_, e) =>
    let fmt := (sessionNet b none x).kvFormat
    if m.toDepth = dHot then
      if 0 < arriveRows e.header ∧ x.computed = 0 then
        let rows := arrivedRows b x e.header e.body
        landArrival sid x (if hdrFlag e.header 1 then rows.map (expandRow fmt) else rows) (arrivedStaging b x e.header e.body) m.toTier b
      else if x.computed < privatePositions x then b
      else reach sid dHot 0 id b
    else
      match ((if m.toDepth = dWarm then landImage sid m.toTier x e.header e.body b else some b).bind fun b =>
          if singleHome b then relocate sid m.toTier b else some b) with
      | none => failMotion sid St.tierFault (updSession sid (fun x => { x with computed := 0 }) b)
      | some b => reach sid m.toDepth m.toTier id b
  | _, _ => b

/-- The destination takes the slot (row 2): the session is built, its log and scratch placed, its items inserted, its prefix
attached, and its motion runs as soon as the engine has a place. -/
def activateInbound (id : Nat) (b : Block) : Block :=
  match tget b.ses.inbound id with
  | none => b
  | some e =>
    match e.ready, headerModel b e.header with
    | some (sid, gen), some (slot, m) =>
      if (session b sid).isSome then b
      else
        let x := arriveSession b gen slot m.cls e.header e.body
        let h := handleOf sid x
        let b := setSession sid x b
        let b := match prefixOf b x with
          | some (k, p) => { b with ses := { b.ses with prefixes := tset b.ses.prefixes k { p with attach := p.attach + 1 } } }
          | none => b
        let b := growLog sid b
        let b := match placeUnit 0 x.tenant x.scratch.length b with
          | some (p, b) => updSession sid (fun x => { x with scratchPlace := p }) b
          | none => b
        let items := if hdrFlag e.header 3 then e.body.drop (itemsOffset (geomClass b m.cls) e.header) else []
        let b := arriveItems x.tenant (itemsOf h items.length items) b
        let b := orderMotion sid .moveIn 2 (arriveDepth e.header) (arriveTier b e.header) none b
        if motionsActive b < maxMotions b then
          let b := beginMotion sid b
          match (session b sid).bind (·.motion) with
          | some mo => settleInbound sid (finishMoveIn sid mo b)
          | none => b
        else b
    | _, _ => b

/-- READY sent (Table 4.3, order 5); in mirror mode the destination activates on it. -/
def sendReady (id : Nat) (b : Block) : Block :=
  match tget b.ses.inbound id with
  | none => b
  | some e =>
    match e.ready with
    | none => b
    | some (sid, gen) =>
      let b := { b with ses := { b.ses with inbound := tset b.ses.inbound id { e with waitDelta := none } } }
      let b := sendMsg e.src 2 id (.ready id (mkHandle (hdrTenant e.header) sid gen) (tandemValid b)) b
      if singleHome b then b else activateInbound id b

/-- The trailer received (Table 4.3, orders 4 and 5): the digest and R87 are checked; the new handle's slot is taken, and
READY waits until a tandem partner holds the session (R377). -/
def takeTrailer (id : Nat) (bs : Bytes) (wrapOk : Bool) (b : Block) : Block :=
  match tget b.ses.inbound id with
  | none => b
  | some e =>
    if e.ready.isSome then b
    else if wrapOk = false ∨ bs.take 32 ≠ sha256 (e.header ++ e.body) then refuseMove e.src id St.integrity b
    else match arriveCheck b e.src e.header, headerModel b e.header, oldestFree b with
      | some st, _, _ => refuseMove e.src id st b
      | none, some (slot, m), some (sid, g) =>
        let gen := nextGen g
        let x := arriveSession b gen slot m.cls e.header e.body
        let held := copySession b { x with state := stateOfDepth dCold }
        let b := takeFree b
        let e := { e with ready := some (sid, gen), held := some held }
        let b := { b with ses := { b.ses with inbound := tset b.ses.inbound id e } }
        if tandemValid b then
          let (n, b) := sendDelta none false b
          { b with ses := { b.ses with inbound := tset b.ses.inbound id { e with waitDelta := some n } } }
        else sendReady id (noteDelta b)
      | none, _, _ => refuseMove e.src id St.quota b

/-- MOVE_TRAILER (R87). -/
def execMoveTrailer (moveId : BitVec 64) (bytes : Bytes) (wrapOk : Bool) (s : State) : Host.Outcome State Fault Refusal :=
  actC .none (takeTrailer moveId.toNat bytes wrapOk) s

/-- COMMIT received (Table 4.3, order 7). -/
def takeCommit (id : Nat) (b : Block) : Block :=
  match tget b.ses.inbound id with
  | none => b
  | some e => if e.waitDelta.isSome then b else activateInbound id b

/-- MOVE_COMMIT (R86). -/
def execMoveCommit (moveId : BitVec 64) (s : State) : Host.Outcome State Fault Refusal := actC .none (takeCommit moveId.toNat) s

/-- The waits of moves that R377 puts on deltas, once they are acknowledged. -/
def releaseMoves (b : Block) : Block :=
  let b := b.ses.slots.foldl (fun b e => match e.2.moveOut.bind (·.commitDelta) with
    | some n => if deltaAcked b n then sendCommit e.1 b else b
    | none => b) b
  b.ses.inbound.foldl (fun b e => match e.2.waitDelta with
    | some n => if deltaAcked b n then sendReady e.1 b else b
    | none => b) b

/-- A module has left the domain (R88): moves to it lose their destination, and reservations for it are dropped. -/
def moveMemberLost (m : Nat) (b : Block) : Block :=
  let b := b.ses.slots.foldl (fun b e => match e.2.moveOut with
    | some mo => if mo.dest = m then destinationLost e.1 b else b
    | none => b) b
  b.ses.inbound.foldl (fun b e =>
    if e.2.src = m ∧ (e.2.ready.bind fun r => session b r.1).isNone = true then dropInbound e.1 b else b) b

/-! ### The end of a motion (R75) -/

/-- Blocks that a session's motion or lift reads have still to come back from their donors (R92, R302). -/
def readsOut (b : Block) (sid : Nat) : Bool := b.mem.fetches.any fun f => decide (f.sid = sid)

/-- A speculative lift ends: complete, or failed with its source (R94, R96). -/
def endLift (sid : Nat) (x : Session) (b : Block) : Block :=
  match x.shadow with
  | some sh =>
    if lifting sh = false then b
    else if readsLost b sid x [1] then (dropShadow sid b).bump F.PNE_CNT_FAULT_tier_fault
    else updSession sid (fun x => { x with shadow := some { sh with complete := true } }) b
  | none => b

/-- A motion that runs ends, by its kind (Table 4.1), once every block it reads has come (R92); one whose reads are lost fails
(R94). Its descriptor's pairs are compared as it is read (R29). A restore ends with the load that feeds it (R385). -/
def motionComplete (sid : Nat) (b : Block) : Block :=
  if readsOut b sid then b
  else
    let b := readPairs sid b
    match session b sid, runningMotion b sid with
    | none, _ => b
    | some x, none => endLift sid x b
    | some x, some m =>
      if readsLost b sid x (motionReads b x) then tierFailure sid true b
      else match m.kind with
      | .park => finishPark sid m b
      | .demote => finishDemote sid m b
      | .retier => finishRetier sid m b
      | .revive => finishRevive sid b
      | .moveOut => finishMoveOut sid b
      | .moveIn => settleInbound sid (finishMoveIn sid m b)
      | .restore => b

/-- MOTION_COMPLETE (R75). -/
def execMotionComplete (sid : Nat) (s : State) : Host.Outcome State Fault Refusal := actC (.slot sid) (motionComplete sid) s

end Sys2Proof.Machine
end

