-- ==== Sys2Proof/Machine/Tandem.lean ====
section
/-! DEFINITION. Tandem copies and restores (R373 to R385, R390, R391): seeding, deltas and acknowledgements, loss, and the
commands of TDM_CMD. -/

namespace Sys2Proof.Machine

/-! ### Copies -/

/-- A table with the changed entries of a delta set and those that are gone removed. -/
def applyChanges {α : Type} (old changed : Tab α) (gone : List Nat) : Tab α :=
  gone.foldl (fun t k => tdel t k) (changed.foldl (fun t e => tset t e.1 e.2) old)

/-- A copy with a delta applied (R376): what a delta brings of a unit's frames replaces what was held of it. -/
def applyDelta (c : TandemCopy) (d : TandemDelta) : TandemCopy where
  sessions := applyChanges c.sessions d.changed.sessions d.goneSessions
  requests := applyChanges c.requests d.changed.requests d.goneRequests
  prefixes := applyChanges c.prefixes d.changed.prefixes d.gonePrefixes
  counters := (applyChanges c.counters d.changed.counters []).filter fun e => decide (e.2 ≠ 0)
  indexes := applyChanges c.indexes d.changed.indexes d.goneIndexes
  frames := (c.frames.filter fun f => !(d.changed.frames.any fun g => decide (g.1 = f.1))
    && !d.goneSessions.contains f.1 && !(d.gonePrefixes.any fun k => decide (2 ^ 24 + k = f.1))) ++ d.changed.frames

/-- Bytes of the core of a copy (R374, Table 16.3). -/
def coreBytes (c : TandemCopy) : Nat :=
  (c.sessions.map fun e => 256 + 4 * e.2.log.length + e.2.scratch.length).sum
    + (c.prefixes.map fun e => 128 + 4 * e.2.log.length).sum
    + Config.tableBytes c.requests.length c.counters.length (c.indexes.map fun e => e.2.slots.length + e.2.side.length).sum

/-- Frames of a copy dropped, oldest received first, until the rest fits in some bytes (R374). -/
def keepFrames (room : Nat) : List (Nat × Nat × Nat) → List (Nat × Nat × Nat)
  | [] => []
  | f :: fs => if ((f :: fs).map fun g => g.2.2).sum ≤ room then f :: fs else keepFrames room fs

/-- The reservation of `keep_gib`, in bytes. -/
def keepBytes (b : Block) : Nat := b.getF F.TDM_CFG_keep_gib * 2 ^ 30

/-- A copy as the reservation holds it. -/
def fitCopy (b : Block) (c : TandemCopy) : TandemCopy := { c with frames := keepFrames (keepBytes b - coreBytes c) c.frames }

/-- The copy kept changed, with the fields of TDM_STAT that show it. -/
def setKept (k : Option KeptCopy) (b : Block) : Block :=
  let b := { b with tdm := { b.tdm with kept := k } }
  let b := b.setF F.TDM_STAT_keeping (if k.isSome then 1 else 0)
  let b := b.setF F.TDM_STAT_source ((k.map (·.source)).getD 0)
  b.setF F.TDM_STAT_follow (if (k.map (·.follow)).getD false then 1 else 0)

/-! ### The source (R373, R377, R378) -/

/-- Every TANDEM that waits for its copy ends with a status (R373). -/
def endSeeding (status : Nat) (b : Block) : Block :=
  b.fe.reqs.foldl (fun b e => if e.2.phase = .body ∧ e.2.wait = .seed then instrDone e.1 status none b else b) b

/-- The waits of R377 that the acknowledged deltas, or the end of the copy, let go. -/
def releaseAcked (b : Block) : Block := releaseMoves (releaseHeads (releaseRecords b))

/-- Seeding starts (R373): the first delta carries the copy whole. -/
def startSeeding (partner : Nat) (b : Block) : Block :=
  let b := (((b.setF F.TDM_STAT_tstate tdSeeding).setF F.TDM_STAT_partner partner).setF F.TDM_STAT_err 0).setF F.TDM_DELTA_sent 0
  let b := b.setF F.TDM_DELTA_acked 0
  let b := { b with tdm := { b.tdm with sent := TandemCopy.empty } }
  (sendDelta (some (singleHome b, dkVersion b)) false b).2

/-- TANDEM with bit 8 set (R373). -/
def tandem (c : Ctx) (b : Block) : Ans :=
  let partner := bitsOf c.e.a 0 8
  if partner = ownModule b ∨ b.isSet F.CMP_ID_in_domain = false ∨ tandemOn b = true then Ans.malformed b
  else if liveMember b partner = false then .done St.poolLost none b
  else .wait .seed (startSeeding partner b)

/-- TANDEM of a request (R373). -/
def execTandem (rid : Nat) (s : State) : Host.Outcome State Fault Refusal := actC .none (runRow .tandem tandem rid) s

/-- The partner released: a message of number 0 tells it to discard the copy, and the waits cease. -/
def releasePartner (b : Block) : Block :=
  let b := if tandemOn b then
      sendMsg (b.getF F.TDM_STAT_partner) clsTandem 0 (.delta 0 ⟨none, TandemCopy.empty, [], [], [], [], false⟩) b
    else b
  releaseAcked ((b.setF F.TDM_STAT_tstate tdNone).setF F.TDM_STAT_partner 0)

/-- TANDEM with bit 8 clear (R373). -/
def tandemRelease (_ : Ctx) (b : Block) : Ans := .done St.ok none (releasePartner b)

/-- TANDEM_RELEASE of a request (R373). -/
def execTandemRelease (rid : Nat) (s : State) : Host.Outcome State Fault Refusal :=
  actC .none (runRow .tandemRelease tandemRelease rid) s

/-- The partner has refused (R373): number 0, with `copyValid` set where the core exceeds the reservation. -/
def partnerRefuses (tooBig : Bool) (b : Block) : Block :=
  let b := ((b.setF F.TDM_STAT_tstate tdNone).setF F.TDM_STAT_partner 0).setF F.TDM_STAT_err (if tooBig then 2 else 1)
  endSeeding St.quota b

/-- An acknowledgement received at the source (R374, R376, R377): the copy is valid once every delta sent has been applied. -/
def takeAck (src n : Nat) (copyValid : Bool) (b : Block) : Block :=
  if tandemOn b = false ∨ src ≠ b.getF F.TDM_STAT_partner ∨ b.getF F.TDM_DELTA_sent < n then b
  else if n = 0 then (if b.getF F.TDM_STAT_tstate = tdSeeding then partnerRefuses copyValid b else b)
  else
    let b := if b.getF F.TDM_DELTA_acked < n then b.setF F.TDM_DELTA_acked n else b
    let b := if b.getF F.TDM_STAT_tstate = tdSeeding ∧ copyValid = true ∧ n = b.getF F.TDM_DELTA_sent then
        endSeeding St.ok (b.setF F.TDM_STAT_tstate tdValid) else b
    if working b then releaseAcked b else b

/-- TANDEM_ACK (R377). -/
def execTandemAck (src : BitVec 8) (number : BitVec 32) (copyValid : Bool) (s : State) : Host.Outcome State Fault Refusal :=
  actR .none (takeAck src.toNat number.toNat copyValid) s

/-- A module is unreachable, fenced or removed (R378): a partner that is lost ends the waits; the copy of a lost source is
kept frozen. -/
def tandemMemberLost (m : Nat) (b : Block) : Block :=
  let b := match b.tdm.kept with
    | some k => if k.source = m then setKept (some { k with frozen := true }) b else b
    | none => b
  if tandemOn b ∧ b.getF F.TDM_STAT_partner = m then
    let b := fire Src.tandemLost ((b.setF F.TDM_STAT_tstate tdLost).setF F.TDM_STAT_err 3)
    releaseAcked (endSeeding St.poolLost b)
  else b

/-! ### Loading a copy (R380, R381, R385) -/

/-- Rows that a copy holds in frames of a session or of a prefix record (2^24 and its number). -/
def heldRows (c : TandemCopy) (key : Nat) : Nat :=
  c.frames.foldl (fun n f => if f.1 = key then f.2.1 else n) 0

/-- Tokens of a log before its last depth mark. -/
def tokensBeforeMark (log : List (BitVec 32)) : Nat :=
  (log.foldl (fun (acc : Nat × Nat) e => if e = depthMark then (acc.2, acc.2) else (acc.1, acc.2 + 1)) (0, 0)).1

/-- Depth of a restored session, with the rows it has (Table 16.2). -/
def restoredDepth (c : TandemCopy) (sid : Nat) (x : CopySession) : Nat × Nat :=
  let rows := min (heldRows c sid) (logTokens x.log)
  if x.depth = dHot then (if tokensBeforeMark x.log ≤ rows then (dHot, rows) else (dCold, 0))
  else if x.depth = dWarm ∧ x.image = true ∧ (0 < rows ∨ logTokens x.log = 0) then (dWarm, rows)
  else (dCold, 0)

/-- A session as its copy gives it, COLD until its rows are loaded. -/
def sessionOfCopy (base cls : Nat) (x : CopySession) : Session :=
  let y := newSession x.gen x.tenant x.modelSlot cls x.cog x.maxContext x.openNs x.userTag
  { y with
    state := ssCold
    depth := dCold
    closing := x.closing
    closeOrder := base + x.closeOrder
    vecItems := x.vecItems
    prefixHandle := x.prefixHandle
    prefixTokens := x.prefixTokens
    lastActiveNs := x.lastActiveNs
    resumeHintNs := x.resumeHintNs
    hintDepth := x.hintDepth
    hintTier := x.hintTier
    clist := x.clist
    draftSlot := x.draftSlot
    parkCount := x.parkCount
    reviveCount := x.reviveCount
    moveCount := x.moveCount
    qStatus := x.qStatus
    qSite := x.qSite
    log := x.log
    scratch := x.scratch }

/-- A session's rows loaded to a depth, the first so many of its private ones: they are what its log gives (R38, R380). Where the
module has no room for them it stays COLD. -/
def loadRows (sid depth rows : Nat) (b : Block) : Block :=
  match session b sid with
  | none => b
  | some x =>
    if depth = dHot then
      if rows = 0 then updSession sid (fun x => { x with depth := dHot, state := ssHot }) b
      else match tryLand sid x [rebuiltRows b x rows] b with
        | .ok t b => updSession sid (fun x => { x with depth := dHot, state := ssHot, table := some t, computed := rows }) b
        | _ => b
    else if depth = dWarm then
      match putImage sid 0 x ((rebuiltRows b x rows).map (warmRow (sessionNet b none x).kvFormat)) b with
      | some b => updSession sid (fun x => { x with depth := dWarm, state := ssWarm, warmTier := 0, computed := rows }) b
      | none => b
    else if singleHome b then
      let t := if x.hintTier ≠ 3 then some x.hintTier else if b.getFi F.SES_TQ_POLICY_warm_tier x.tenant ≠ 3 then
        some (b.getFi F.SES_TQ_POLICY_warm_tier x.tenant) else none
      match firstTier (coldTierOk b x) t with
      | some (k, _) => (relocate sid k b).getD b
      | none => b
    else b

/-- A session loaded from a copy into its slot (R380, Table 16.2). -/
def loadSession (c : TandemCopy) (base sid : Nat) (x : CopySession) (b : Block) : Block :=
  let cls := ((modelSlot b x.modelSlot).map (·.cls)).getD x.cls
  let b := growLog sid (setSession sid (sessionOfCopy base cls x) b)
  let b := match placeUnit 0 x.tenant x.scratch.length b with
    | some (p, b) => updSession sid (fun y => { y with scratchPlace := p }) b
    | none => b
  let (depth, rows) := restoredDepth c sid x
  loadRows sid depth rows b

/-- An outbound MOVE of a session in a copy ends as Table 4.4 gives: with a commit record the slot is SCRUBBING, and its MOVE
waits for DONE. -/
def loadMove (base sid : Nat) (x : CopySession) (b : Block) : Block :=
  match x.move with
  | none => b
  | some m =>
    if m.committed then
      let mo : MoveOut :=
        { dest := m.dest, moveId := m.moveId, depth := x.depth, oldPannier := false, stage := .committed,
          rid := m.rid.map (base + ·), dstHandle := m.handle, dstTandem := m.dstTandem, cutover := true, header := [],
          commitDelta := none, pagesSent := true, snap := none, leased := [] }
      updSession sid (fun y => { y with moveOut := some mo }) (enterScrubbing sid b)
    else b

/-- A slot number taken out of the FREE slots (R380). -/
def claimSlot (sid : Nat) (b : Block) : Block :=
  if sid < b.ses.firstUnused then { b with ses := { b.ses with freed := b.ses.freed.filter fun f => decide (f.1 ≠ sid) } }
  else
    let between := (List.range (sid - b.ses.firstUnused)).map fun i => (b.ses.firstUnused + i, 0)
    { b with ses := { b.ses with freed := between ++ b.ses.freed, firstUnused := sid + 1 } }

/-- A session of a copy takes its slot at its recorded number and generation. -/
def placeSession (c : TandemCopy) (base : Nat) (e : Nat × CopySession) (b : Block) : Block :=
  let x := e.2
  if x.state = ssScrubbing then b
  else
    let b := loadMove base e.1 x (loadSession c base e.1 x (claimSlot e.1 b))
    if x.state = ssQuarantine then updSession e.1 (fun y => { y with state := ssQuarantine }) b else b

/-- A prefix record of a copy loaded: its frames, held or computed anew, and its log copy. -/
def loadPrefix (c : TandemCopy) (e : Nat × CopyPrefix) (b : Block) : Block :=
  let p := e.2
  let cls := ((modelSlot b p.modelSlot).map (·.cls)).getD p.cls
  let attach := (c.sessions.filter fun s => decide (s.2.tenant = p.tenant) && decide (s.2.prefixHandle = p.handle)
    && decide (s.2.state ≠ ssScrubbing)).length
  let (place, b) := (placeUnit 0 p.tenant (4 * p.log.length) b).getD (none, b)
  let rows := ((modelSlot b p.modelSlot).map fun m => rebuiltPrefix (netOf m p.weights) p.log).getD []
  let (t, damaged, b) := match landRows p.supplier p.tenant 0 rows (newTable b cls p.tenant 0 (some p.cap)) b with
    | .ok t b => (t, false, b)
    | _ => (newTable b cls p.tenant 0 (some p.cap), true, b)
  let r : Prefix :=
    { tenant := p.tenant, handle := p.handle, pstate := p.pstate, damaged := damaged, modelSlot := p.modelSlot, cls := cls,
      attach := attach, table := { t with version := 1 }, tokens := p.tokens, log := p.log, digest := p.digest,
      weights := p.weights, pinNs := p.pinNs, badPair := false, logPlace := place, supplier := p.supplier,
      badTable := false }
  { b with ses := { b.ses with prefixes := tset b.ses.prefixes e.1 r } }

/-- An index of a copy loaded: its configuration, its published version and its side records. -/
def loadIndex (e : Nat × CopyIndex) (b : Block) : Block :=
  let n := e.1
  let w := e.2.cfg.toNat
  let b := ((b.setFi F.NMS_IDX_CFG_tenant n (bitsOf w 0 12)).setFi F.NMS_IDX_CFG_width n (bitsOf w 12 2)).setFi
    F.NMS_IDX_CFG_graph n (bitsOf w 14 1)
  let b := ((b.setFi F.NMS_IDX_CFG_degree n (bitsOf w 16 2)).setFi F.NMS_IDX_CFG_beam n (bitsOf w 32 11)).setFi
    F.NMS_IDX_CFG_max_log2 n (bitsOf w 48 6)
  let b := (e.2.shards.zipIdx).foldl (fun b s => b.setFi F.NMS_IDX_SHARD_shards (4 * n + s.2) s.1) b
  let b := layIndex n e.2.slots ((growIndex n [] e.2.slots b).getD b)
  setIndex n (some ⟨ixReady, false, e.2.version, e.2.slots, e.2.entrySlots, e.2.side, e.2.nextSeq, none, 0, false, none, none⟩) b

/-- The last place of the decode order that a copy's requests and sessions name. -/
def lastOrder (c : TandemCopy) : Nat :=
  (c.requests.flatMap fun e => e.1 :: e.2.req.instrs.map (·.order)).foldl max
    ((c.sessions.map fun e => e.2.closeOrder).foldl max 0)

/-- A request of a copy in this module's decode order. Its MOVE without a commit record ends with POOL_LOST; with one it waits
for DONE (Table 16.2). -/
def shiftRequest (c : TandemCopy) (base : Nat) (e : Nat × CopyRequest) : Nat × CopyRequest :=
  let q := e.2.req
  let moves := c.sessions.findSome? fun s => s.2.move.bind fun m => if m.rid = some e.1 then some m.committed else none
  let q := { q with instrs := q.instrs.map fun i => { i with order := base + i.order } }
  let q := match moves with
    | some true => { q with wait := .motion false }
    | some false => { q with owed := some St.poolLost }
    | none => q
  (base + e.1, { e.2 with req := q })

/-- A copy loaded whole (R380, R391): prefix records, sessions, counters and indexes; its requests restart as their rings are
enabled (R381). -/
def loadCopy (c : TandemCopy) (b : Block) : Block :=
  let base := b.fe.order
  let b := c.prefixes.foldl (fun b e => loadPrefix c e b) b
  let b := c.sessions.foldl (fun b e => placeSession c base e b) b
  let b := c.indexes.foldl (fun b e => loadIndex e b) b
  let restored := c.requests.map (shiftRequest c base)
  { b with
    intr := { b.intr with counters := c.counters.foldl (fun t e => tset t e.1 e.2) b.intr.counters }
    fe := { b.fe with order := base + lastOrder c + 1 }
    tdm := { b.tdm with restored := b.tdm.restored ++ restored } }

/-- A unit of a restored session whose tag failed (R380). -/
def quarantineUnit (u : Nat × Nat) (b : Block) : Block :=
  match session b u.1 with
  | none => b
  | some x => if x.state = ssScrubbing then b else quarantine u.1 St.integrity (siteOf u.2) b

/-- A quarantined session restored (R385): what it held is released, and the copy takes its place. -/
def loadOne (c : TandemCopy) (sid : Nat) (b : Block) : Block :=
  match session b sid, tget c.sessions sid with
  | some x, some y =>
    if x.motion.isNone then b
    else
      let b := freeUnit x.scratchPlace (freeUnit x.logPlace (releaseWarm sid (releaseHot sid b)))
      let b := loadSession c 0 sid { y with
        closing := x.closing, closeOrder := x.closeOrder, prefixHandle := x.prefixHandle, prefixTokens := x.prefixTokens,
        vecItems := x.vecItems, qStatus := 0, qSite := 0 } b
      updSession sid (fun z => { z with moveOut := x.moveOut }) b
  | _, _ => b

/-! ### The partner (R373, R374, R376, R384) -/

/-- The module starts to serve the range given to it (R326, R384): a follower loads its copy, and what waits goes on. -/
def startServing (b : Block) : Block :=
  let b := { b with cmp := { b.cmp with serving := true, awaiting := false } }
  let b := match b.tdm.kept with
    | some k => if k.follow then setKept none (loadCopy k.copy b) else b
    | none => b
  serveWaiting b

/-- The module holds a version of the domain key (R356). -/
def holdsDk (b : Block) (v : Nat) : Bool :=
  [b.rtp.dkCur, b.rtp.dkPrev, b.rtp.dkImp].any fun k => decide (k.map (·.1) = some v)

/-- The first delta of a seeding reaches the partner, which refuses it or keeps the copy (R373, R374). -/
def takeSeed (src n : Nat) (home : Bool) (dk : Nat) (d : TandemDelta) (b : Block) : Block :=
  let c := applyDelta TandemCopy.empty d
  if b.tdm.kept.isSome ∨ home ≠ singleHome b ∨ holdsDk b dk = false then sendMsg src clsTandem 0 (.deltaAck 0 false) b
  else if keepBytes b < coreBytes c then sendMsg src clsTandem 0 (.deltaAck 0 true) b
  else
    let b := setKept (some ⟨src, fitCopy b c, n, true, false, false, d.final, false⟩) b
    sendMsg src clsTandem 0 (.deltaAck n true) b

/-- A delta received by the partner (R376): applied in order and acknowledged cumulatively. A final delta whose HANDOVER has
come lets a follower serve (R384). -/
def takeDelta (src n : Nat) (d : TandemDelta) (b : Block) : Block :=
  match d.start, b.tdm.kept with
  | some (home, dk), _ => takeSeed src n home dk d b
  | none, none => b
  | none, some k =>
    if k.source ≠ src ∨ k.frozen then b
    else if n = 0 then setKept none b
    else if n ≠ k.applied + 1 then
      if n ≤ k.applied then sendMsg src clsTandem 0 (.deltaAck k.applied k.valid) b else b
    else
      let k := { k with copy := fitCopy b (applyDelta k.copy d), applied := n, final := k.final || d.final }
      let b := sendMsg src clsTandem 0 (.deltaAck n k.valid) (setKept (some k) b)
      if k.follow && k.final && k.handover then startServing b else b

/-- TANDEM_DELTA (R376). -/
def execTandemDelta (src : BitVec 8) (number : BitVec 32) (delta : TandemDelta) (s : State) :
    Host.Outcome State Fault Refusal :=
  actC .none (takeDelta src.toNat number.toNat delta) s

/-! ### TDM_CMD (Table 16.16) -/

/-- The command ends in error (Table 16.16). -/
def tdmError (err : Nat) (b : Block) : Block := (b.setF F.TDM_CMD_state 3).setF F.TDM_CMD_err err

/-- The command is done, or busy. -/
def tdmState (st : Nat) (b : Block) : Block := (b.setF F.TDM_CMD_state st).setF F.TDM_CMD_err 0

/-- The module has no allocated slot, prefix record or index (R380). -/
def moduleEmpty (b : Block) : Bool := b.ses.slots.isEmpty && b.ses.prefixes.isEmpty && b.nms.indexes.isEmpty

/-- A tenant is ACTIVE with a key. -/
def tenantReady (b : Block) (t : Nat) : Bool := decide (tenantState b t = tsActive) && hasKey b t

/-- The images that a session of a copy names are ready under the same numbers and digests (R380). -/
def imagesReady (b : Block) (x : CopySession) : Bool :=
  ((modelSlot b x.modelSlot).map fun m => decide (m.state = 1) && decide (m.weightsDg = x.modelDg)).getD false
    && ((tget b.txu.cogs x.cog).map fun g => decide (g.state = 1) && decide (g.digest = x.cogDg)).getD false
    && (decide (x.clist = 0xFFF)
      || ((tget b.txu.lists x.clist).map fun l => decide (l.state = 1) && decide (l.digest = x.listDg)).getD false)
    && (decide (x.draftDg = [])
      || ((modelSlot b x.draftSlot).map fun m => decide (m.state = 1) && m.draft && decide (m.weightsDg = x.draftDg)).getD false)

/-- The conditions of R380 on a copy; 0: it may be loaded. -/
def restoreErr (b : Block) (c : TandemCopy) : Nat :=
  if moduleEmpty b = false then 1
  else if (c.sessions.all fun e => tenantReady b e.2.tenant && imagesReady b e.2)
      && (c.prefixes.all fun e => tenantReady b e.2.tenant)
      && (c.indexes.all fun e => tenantReady b (bitsOf e.2.cfg.toNat 0 12)) then 0
  else 2

/-- A load starts (R380). -/
def startLoad (c : TandemCopy) (b : Block) : Block :=
  match restoreErr b c with
  | 0 => tdmState 1 { b with tdm := { b.tdm with loading := some (c, none) } }
  | e => tdmError e b

/-- `restore`: the copy of the named source, as its partner, or this module, holds it. -/
def tdmRestore (src : Nat) (found : Option TandemCopy) (b : Block) : Block :=
  let own := b.tdm.kept.bind fun k => if k.source = src ∧ k.valid then some k.copy else none
  match found.or own with
  | none => tdmError 3 b
  | some c => startLoad c b

/-- `follow` (R384): the copy this module keeps becomes that of standby slots, which serve nothing until a HANDOVER. -/
def tdmFollow (src : Nat) (b : Block) : Block :=
  match b.tdm.kept with
  | none => tdmError 3 b
  | some k =>
    if k.source ≠ src ∨ k.valid = false then tdmError 3 b
    else match restoreErr b k.copy with
      | 0 =>
        let b := setKept (some { k with follow := true }) b
        tdmState 1 { b with tdm := { b.tdm with loading := some (k.copy, none) } }
      | e => tdmError e b

/-- A slot of a pool holds a valid checkpoint (R390), the key version apart. -/
def foundSound (f : CkptFound) : Bool := f.magicOk && f.versionOk && f.signatureOk && f.digestsOk

/-- The valid checkpoint with the higher `seq`, each other slot being counted (R390); or the error. -/
def chooseCkpt (slots : List CkptFound) (b : Block) : Block × Except Nat TandemCopy :=
  let good := slots.filter fun f => foundSound f && holdsDk b f.dkVersion
  let b := b.bumpN F.TDM_CNT_ck_ignored (slots.length - good.length)
  match good.foldl (fun (best : Option CkptFound) f => match best with
      | none => some f
      | some g => if g.seq < f.seq then some f else some g) none with
  | some f => (b, .ok f.content)
  | none => (b, .error (if slots.any foundSound then 4 else 3))

/-- `ck_restore` (R391): no request is restored. -/
def tdmCkRestore (slots : List CkptFound) (b : Block) : Block :=
  if (tdmPool b).isNone then tdmError 3 b
  else match chooseCkpt slots b with
    | (b, .error e) => tdmError e b
    | (b, .ok c) => startLoad { c with requests := [] } b

/-- `restore_one` (R385, row 19 of Table 2.5). -/
def tdmRestoreOne (slots : List CkptFound) (b : Block) : Block :=
  let h := b.getF F.TDM_HANDLE_handle
  let sid := hSlot h
  match session b sid with
  | none => tdmError 3 b
  | some x =>
    if handleOf sid x ≠ h ∨ x.state ≠ ssQuarantine ∨ x.motion.isSome then tdmError 3 b
    else
      let start := fun (c : TandemCopy) (b : Block) =>
        match tget c.sessions sid with
        | none => tdmError 3 b
        | some y =>
          if y.gen ≠ x.gen ∨ y.tenant ≠ x.tenant then tdmError 3 b
          else
            let (d, _) := restoredDepth c sid y
            let b := tdmState 1 { b with tdm := { b.tdm with loading := some (c, some sid) } }
            orderMotion sid .restore 1 d 0 none (updSession sid (fun x => { x with state := ssMotion }) b)
      if tandemValid b then start b.tdm.sent b
      else match (if (tdmPool b).isNone then (b, Except.error 3) else chooseCkpt slots b) with
        | (b, .error e) => tdmError e b
        | (b, .ok c) => start c b

/-- `ckpt` (R386). -/
def tdmCkpt (b : Block) : Block :=
  if b.tdm.ckpt.isSome then tdmError 5 b
  else match (tdmPool b).bind fun d => beginCkpt d none b with
    | none => tdmError 3 b
    | some b => tdmState 1 b

/-- `release` (R378). -/
def tdmRelease (src : Nat) (b : Block) : Block :=
  match b.tdm.kept with
  | some k => if k.source = src then tdmState 2 (setKept none b) else tdmError 3 b
  | none => tdmError 3 b

/-- A write of TDM_CMD from management space; one met by a command that runs sets `err` and changes nothing else. -/
def tdmCommand (who : Caller) (v : Nat) (found : Option TandemCopy) (slots : List CkptFound) (b : Block) : Block :=
  let cmd := bitsOf v 0 3
  let src := bitsOf v 8 8
  if who.isMgmt = false ∨ cmd = 0 ∨ cmd = 7 then b
  else
    let b := (b.setF F.TDM_CMD_cmd cmd).setF F.TDM_CMD_module src
    if b.getF F.TDM_CMD_state = 1 then b.setF F.TDM_CMD_err 5
    else if cmd ≤ 3 ∧ (b.tdm.kept.map (·.follow)).getD false = true then tdmError 5 b
    else match cmd with
      | 1 => tdmRestore src found b
      | 2 => tdmFollow src b
      | 3 => tdmCkRestore slots b
      | 4 => tdmRestoreOne slots b
      | 5 => tdmCkpt b
      | _ => tdmRelease src b

/-- TDM_RESTORE (R380). -/
def execTdmRestore (who : Caller) (val : BitVec 64) (found : Option TandemCopy) (s : State) :
    Host.Outcome State Fault Refusal :=
  actC .none (tdmCommand who val.toNat found []) s

/-- TDM_FOLLOW (R384). -/
def execTdmFollow (who : Caller) (val : BitVec 64) (s : State) : Host.Outcome State Fault Refusal :=
  actC .none (tdmCommand who val.toNat none []) s

/-- TDM_CK_RESTORE (R391). -/
def execTdmCkRestore (who : Caller) (val : BitVec 64) (slots : List CkptFound) (s : State) :
    Host.Outcome State Fault Refusal :=
  actC .none (tdmCommand who val.toNat none slots) s

/-- TDM_RESTORE_ONE (R385). -/
def execTdmRestoreOne (who : Caller) (val : BitVec 64) (slots : List CkptFound) (s : State) :
    Host.Outcome State Fault Refusal :=
  actC .none (tdmCommand who val.toNat none slots) s

/-- TDM_CKPT (R386). -/
def execTdmCkpt (who : Caller) (val : BitVec 64) (s : State) : Host.Outcome State Fault Refusal :=
  actC .none (tdmCommand who val.toNat none []) s

/-- TDM_RELEASE (R378). -/
def execTdmRelease (who : Caller) (val : BitVec 64) (s : State) : Host.Outcome State Fault Refusal :=
  actC .none (tdmCommand who val.toNat none []) s

/-- The load in progress ends (R380, R385, R391), with the units whose tags have failed as session and kind. -/
def endLoad (badUnits : List (Nat × Nat)) (b : Block) : Block :=
  match b.tdm.loading with
  | none => b
  | some (c, one) =>
    let b := tdmState 2 { b with tdm := { b.tdm with loading := none } }
    match one with
    | some sid => (badUnits.filter fun u => decide (u.1 = sid)).foldl (fun b u => quarantineUnit u b) (loadOne c sid b)
    | none =>
      let b := b.bump F.TDM_CNT_restores
      if (b.tdm.kept.map (·.follow)).getD false then b
      else
        let b := loadCopy c b
        badUnits.foldl (fun b u => quarantineUnit u b) b

/-- RESTORE_COMPLETE (R380). -/
def execRestoreComplete (badUnits : List (Nat × Nat)) (s : State) : Host.Outcome State Fault Refusal :=
  actC .none (endLoad badUnits) s

end Sys2Proof.Machine
end

