-- ==== Sys2Proof/Machine/Map.lean ====
section
/-! DEFINITION. The composition map (R318 to R327): its replica, the two-phase change, fencing, the coordinator's
takeover, and the handover of ranges. -/

namespace Sys2Proof.Machine

/-! ### The replica -/

/-- Class CTRL (Table 13.6). -/
def clsCtrl : Nat := 0

/-- A message on CTRL. -/
def sendCtrl (m : Nat) (body : MsgBody) (b : Block) : Block := sendMsg m clsCtrl 0 body b

/-- A message on CTRL to each of some modules but this one. -/
def broadcast (ms : List Nat) (body : MsgBody) (b : Block) : Block :=
  ms.foldl (fun b m => if m = ownModule b then b else sendCtrl m body b) b

/-- Modules whose record is live. -/
def liveIn (ms : Tab MemberRec) : List Nat := (ms.filter fun e => decide (e.2.mstate = 1)).map (·.1)

/-- The live members. -/
def liveMembers (b : Block) : List Nat := liveIn b.cmp.members

/-- An entry in use; kind 3 is reserved. -/
def entryUsed (e : RangeEntry) : Bool := decide (e.kind = 1) || decide (e.kind = 2)

/-- A table of entries with changed ones written; a free one clears its number. -/
def applyEntries (old changed : Tab RangeEntry) : Tab RangeEntry :=
  changed.foldl (fun t e => if entryUsed e.2 then tset t e.1 e.2 else tdel t e.1) old

/-- Member records with changed ones written. -/
def applyMembers (old changed : Tab MemberRec) : Tab MemberRec := changed.foldl (fun t e => tset t e.1 e.2) old

/-- The entry of a kind at a base. -/
def entryAtBase (es : Tab RangeEntry) (kind base : Nat) : Option RangeEntry :=
  (es.find? fun e => decide (e.2.kind = kind) && decide (e.2.base2m = base)).map (·.2)

/-- Two entries overlap. -/
def entriesOverlap (x y : RangeEntry) : Bool :=
  decide (x.base2m < y.base2m + y.len2m) && decide (y.base2m < x.base2m + x.len2m)

/-- Two entries of a table overlap. -/
def anyOverlap : Tab RangeEntry → Bool
  | [] => false
  | e :: es => es.any (fun f => entriesOverlap e.2 f.2) || anyOverlap es

/-- Base of the service range that module m owns at formation (R319), in units of 2 MiB. -/
def svcBase (m : Nat) : Nat := m * 2 ^ 19 + 2 ^ 18

/-- A service range of a module, as formed. -/
def svcEntry (m : Nat) : RangeEntry := ⟨svcBase m, 1, m, 0, false, 2048, 1⟩

/-! ### Fencing (R320, R323, R379) -/

/-- An outbound move or a lower-tier access of a session ends as a loss (R88, R94). -/
def loseOutside (sid : Nat) (b : Block) : Block :=
  match session b sid with
  | none => b
  | some x =>
    if x.moveOut.isSome then destinationLost sid b
    else match x.motion with
      | none => b
      | some m =>
        if readsLower b x then tierFailure sid true b
        else if m.toTier ≠ 0 then tierFailure sid false b else b

/-- The shards that its own searches still wait for are missing (R283); the searches stay pending (R379). -/
def loseShards (b : Block) : Block :=
  b.fe.reqs.foldl (fun b e => match shardWait b e.1 with
    | none => b
    | some w =>
      let (w, b) := w.waitFor.foldl (fun acc e => missShard e.1 acc.1 acc.2) ({ w with waitFor := [] }, b)
      updReq e.1 (fun q => { q with shards := some w }) b) b

/-- The module fences itself: its own moves, tier accesses and shard queries end as losses, and its accepted requests stay
pending. -/
def isolate (b : Block) : Block :=
  if b.isSet F.CMP_ID_isolated then b
  else
    let b := loseShards b
    let reqs := b.fe.reqs
    let b := { b with fe := { b.fe with reqs := [] } }
    let b := b.ses.slots.foldl (fun b e => loseOutside e.1 b) b
    let b := { b with fe := { b.fe with reqs := reqs } }
    fire Src.cmpEvent (b.setF F.CMP_ID_isolated 1)

/-- The replica of the map is lost (R320): the module fences itself and fetches the map again. -/
def loseReplica (b : Block) : Block :=
  if b.cmp.badReplica = true ∧ b.isSet F.CMP_ID_isolated = false then
    sendCtrl (b.getF F.CMP_STAT_coord) .fetchMap (isolate b)
  else b

/-- PATROL (R294, R295, R320). -/
def execPatrol (addr : BitVec 39) (finding : EccFinding) (s : State) : Host.Outcome State Fault Refusal :=
  actR .none (fun b => loseReplica (patrolRead addr.toNat finding b)) s

/-! ### Switching the replica (Table 13.9, order 4) -/

/-- A version of the domain key installed (R356): the former current version becomes the previous one. A joining member
receives both. -/
def installDk (v : Nat) (b : Block) : Block :=
  if v ≤ dkVersion b then b
  else
    let (n, b) := b.takeFresh
    let (m, b) := b.takeFresh
    let prev := if b.rtp.dkCur.isNone ∧ 1 < v then some (v - 1, Config.keyBytes m) else b.rtp.dkCur
    { b with rtp := { b.rtp with dkCur := some (v, Config.keyBytes n), dkPrev := prev } }

/-- The coordinator as a module sees it: the lowest live member that it can reach (R322, R324). -/
def setCoordinator (b : Block) : Block :=
  let c := ((liveMembers b).filter fun m => !b.cmp.unreachable.contains m).head?.getD (ownModule b)
  (b.setF F.CMP_STAT_coord c).setF F.CMP_ID_coordinator (if c = ownModule b then 1 else 0)

/-- The changed entries of a proposal as COMMIT leaves them: `since` is the new epoch, and an entry that takes its range from
a live owner is departing until HANDOVER. -/
def committedEntries (old : Tab RangeEntry) (members : Tab MemberRec) (p : Proposal) : Tab RangeEntry :=
  p.entries.map fun e => match entryAtBase old e.2.kind e.2.base2m with
    | none => (e.1, { e.2 with since := p.epoch, departing := false })
    | some o =>
      if o.owner = e.2.owner ∧ o.user = e.2.user ∧ o.len2m = e.2.len2m then (e.1, o)
      else (e.1, { e.2 with
        since := p.epoch, departing := decide (o.owner ≠ e.2.owner) && (liveIn members).contains o.owner })

/-- Lowest range number that no range holds and no extent names. -/
def freeRange (t : Tab NbrRange) (b : Block) : Option Nat :=
  (List.range 64).find? fun r => (tget t r).isNone && (unitsInUse b 2).all fun u => decide (u / 2 ^ 21 ≠ r)

/-- Number of the range of a LEND entry. -/
def rangeOfBase (t : Tab NbrRange) (base : Nat) : Option Nat := (t.find? fun e => decide (e.2.base2m = base)).map (·.1)

/-- The range taken up by its new donor; with a live old donor its blocks are still to come (R327). -/
def beginLending (e : RangeEntry) (old : Option RangeEntry) (oldLive : Bool) (b : Block) : Block :=
  match freeRange b.mem.lent b with
  | none => b
  | some r =>
    let b := ((takeExtents 0 e.len2m 0 (.lent r) b).map (·.2)).getD b
    let source := if oldLive then old.map (·.owner) else none
    let x : NbrRange := ⟨e.user, 1, e.len2m, e.base2m, none, 0, source, [], old.isSome && !oldLive⟩
    { b with mem := { b.mem with lent := tset b.mem.lent r x } }

/-- A lent range given up: scrubbed, and back in the KV region (R303). -/
def endLending (r : Nat) (b : Block) : Block :=
  let b := scrubLent r b
  dropExtentsWith (fun e => decide (e.use = .lent r)) { b with mem := { b.mem with lent := tdel b.mem.lent r } }

/-- A LEND entry that is gone, or has another borrower: donor and borrower give it up. -/
def dropLend (o : RangeEntry) (b : Block) : Block :=
  let b := match rangeOfBase b.mem.lent o.base2m with
    | some r => endLending r b
    | none => b
  match rangeOfBase b.mem.borrowed o.base2m with
  | some r => { b with mem := { b.mem with borrowed := tdel b.mem.borrowed r } }
  | none => b

/-- A LEND entry as COMMIT leaves it, at its donor, its former donor and its borrower. -/
def switchLend (members : Tab MemberRec) (old : Option RangeEntry) (e : RangeEntry) (b : Block) : Block :=
  let own := ownModule b
  let sameUser := old.any fun o => decide (o.user = e.user)
  let b := if sameUser then b else (old.map fun o => dropLend o b).getD b
  let old := if sameUser then old else none
  let moved := old.any fun o => decide (o.owner ≠ e.owner)
  let oldLive := old.any fun o => (liveIn members).contains o.owner
  let b := match rangeOfBase b.mem.lent e.base2m with
    | some r => if e.owner ≠ own ∧ moved then updLent r (fun x => { x with heir := some e.owner, pos := 0 }) b else b
    | none => if e.owner = own then beginLending e old oldLive b else b
  if e.user ≠ own then b
  else match rangeOfBase b.mem.borrowed e.base2m with
    | some r => { b with mem := { b.mem with borrowed := tupd b.mem.borrowed r fun x => { x with module := e.owner } } }
    | none => match freeRange b.mem.borrowed b with
      | none => b
      | some r =>
        let x : NbrRange := ⟨e.owner, 1, e.len2m, e.base2m, none, 0, none, [], false⟩
        { b with mem := { b.mem with borrowed := tset b.mem.borrowed r x } }

/-- The LEND entries that a switch removes or changes. -/
def switchLends (old new : Tab RangeEntry) (members : Tab MemberRec) (b : Block) : Block :=
  let b := old.foldl (fun b o =>
    if o.2.kind = 2 ∧ entryAtBase new 2 o.2.base2m = none then dropLend o.2 b else b) b
  new.foldl (fun b e =>
    if e.2.kind = 2 ∧ entryAtBase old 2 e.2.base2m ≠ some e.2 then switchLend members (entryAtBase old 2 e.2.base2m) e.2 b
    else b) b

/-- The departing flag of a range cleared. -/
def clearDeparting (base : Nat) (b : Block) : Block :=
  { b with cmp := { b.cmp with entries := b.cmp.entries.map fun e =>
      if e.2.base2m = base then (e.1, { e.2 with departing := false }) else e } }

/-- A module without a range takes up the service range that it owns: at once, or on the departing owner's HANDOVER
(R326). -/
def takeRange (departer : Nat → Nat) (b : Block) : Block :=
  if b.cmp.serving || b.cmp.awaiting then b
  else match b.cmp.entries.find? fun e => decide (e.2.kind = 1) && decide (e.2.owner = ownModule b) with
    | none => b
    | some (_, e) =>
      let b := { b with cmp := { b.cmp with range := some e.base2m } }
      if e.departing then { b with cmp := { b.cmp with awaiting := true, departer := departer e.base2m } }
      else startServing b

/-- What the switch does to the service range that this module serves or awaits (R324, R326). -/
def switchService (old : Tab RangeEntry) (b : Block) : Block :=
  let owned := (servedEntry b).any fun e => decide (e.owner = ownModule b)
  let ownedBefore := (b.cmp.range.bind fun base => entryAtBase old 1 base).any fun e => decide (e.owner = ownModule b)
  let b := if b.cmp.serving && ownedBefore && !owned then
      { b with cmp := { b.cmp with commitOrder := b.fe.order } }
    else if b.cmp.awaiting && !owned then { b with cmp := { b.cmp with awaiting := false } }
    else if b.cmp.awaiting && !(liveMembers b).contains b.cmp.departer then
      startServing (clearDeparting (b.cmp.range.getD 0) b)
    else b
  takeRange (fun base => ((entryAtBase old 1 base).map (·.owner)).getD 0) b

/-- Modules that a switch takes out of the domain (R88, R378); the rest of an old donor's stream is lost with it (R327). -/
def switchLosses (lost : List Nat) (b : Block) : Block :=
  let b := lost.foldl (fun b m => tandemMemberLost m (moveMemberLost m b)) b
  { b with mem := { b.mem with lent := b.mem.lent.map fun e =>
      if (e.2.source.any fun m => lost.contains m) then (e.1, { e.2 with source := none, gap := true }) else e } }

/-- The replica switched to a committed proposal (Table 13.9, order 4; R356). A joining module, and one that has missed a
change, takes the whole map as it is given. -/
def switchMap (p : Proposal) (b : Block) : Block :=
  let whole := !b.isSet F.CMP_ID_in_domain || b.cmp.badReplica || decide (p.epoch ≠ b.getF F.CMP_EPOCH_epoch + 1)
  let old := b.cmp.entries
  let oldLive := liveMembers b
  let members := applyMembers (if whole then [] else b.cmp.members) p.members
  let new := if whole then applyEntries [] p.entries else applyEntries old (committedEntries old members p)
  let b := { b with cmp := { b.cmp with entries := new, members := members, held := none, badReplica := false } }
  let b := b.cmp.handed.foldl (fun b base => clearDeparting base b) b
  let b := { b with cmp := { b.cmp with handed := [] } }
  let b := setCoordinator ((b.setF F.CMP_EPOCH_epoch p.epoch).setF F.CMP_ID_in_domain 1)
  let b := fire Src.cmpEvent (installDk p.dkVersion b)
  let b := switchLosses (oldLive.filter fun m => !(liveIn members).contains m) b
  if liveMember b (ownModule b) = false then isolate b
  else serveWaiting (switchService old (switchLends old new members b))

/-! ### The coordinator's change (R322, Table 13.9) -/

/-- The proposal with the whole of the map, for a module that joins. -/
def fullProposal (b : Block) (p : Proposal) : Proposal :=
  let members := applyMembers b.cmp.members p.members
  { p with entries := applyEntries b.cmp.entries (committedEntries b.cmp.entries members p), members := members }

/-- Modules that a PREPARE goes to: the live and the joining members. -/
def changeTargets (b : Block) (p : Proposal) : List Nat :=
  let joining := (liveIn p.members).filter fun m => !(liveMembers b).contains m
  liveMembers b ++ joining

/-- Members named in a change, whose ACK it needs: live after it, and an owner, borrower or former owner of a changed entry,
or of a changed record. -/
def changeNamed (b : Block) (p : Proposal) : List Nat :=
  let of_ := fun (e : RangeEntry) => if e.kind = 2 then [e.owner, e.user] else if e.kind = 1 then [e.owner] else []
  let es := p.entries.flatMap fun e => of_ e.2 ++ ((tget b.cmp.entries e.1).map of_).getD []
      ++ ((entryAtBase b.cmp.entries e.2.kind e.2.base2m).map of_).getD []
  let live := liveIn (applyMembers b.cmp.members p.members)
  ((es ++ p.members.map (·.1)).filter fun m => live.contains m)

/-- A donor's check of a proposal (R303, R351): its lent ranges stay within `lend_gib`, and its KV region can supply the new
ones. Neither end of a link that runs Stoty 1.0 lends or borrows over it (R314). -/
def donorAgrees (b : Block) (p : Proposal) : Bool :=
  let own := ownModule b
  let fresh := p.entries.filter fun e => decide (e.2.kind = 2) && decide (e.2.owner = own)
    && !((entryAtBase b.cmp.entries 2 e.2.base2m).any fun o => decide (o.owner = own))
  let more := (fresh.map (·.2.len2m)).sum
  let lent := (b.mem.lent.map (·.2.size)).sum
  let carried := p.entries.all fun e => decide (e.2.kind ≠ 2) ||
    ((decide (e.2.owner ≠ own) || !stoty10 b e.2.user) && (decide (e.2.user ≠ own) || !stoty10 b e.2.owner))
  carried && (fresh.isEmpty || (decide (lent + more ≤ b.ten.lendGib * 512) && tierSupplies b 0 more
    && decide (b.mem.lent.length + fresh.length ≤ 64)))

/-- A change of the coordinator set. -/
def setChange (c : Option MapChange) (b : Block) : Block := { b with cmp := { b.cmp with change := c } }

/-- ABORT sent, and the proposal discarded. -/
def abortChange (b : Block) : Block :=
  match b.cmp.change with
  | none => b
  | some c =>
    if c.committed then b
    else
      let b := broadcast (changeTargets b c.proposal) (.mapAbort c.proposal.epoch) b
      fire Src.cmpEvent ((setChange (if c.handovers = [] then none else some { c with committed := true }) b).bump F.CMP_CNT_aborts)

/-- The last HANDOVER has been reported: the change is complete, and `departing` is cleared everywhere. -/
def endChange (b : Block) : Block :=
  let live := liveMembers b
  let bases := (b.cmp.entries.filter fun e => e.2.departing).map (·.2.base2m)
  setChange none (bases.foldl (fun b base => clearDeparting base (broadcast live (.handover base) b)) b)

/-- HANDOVERs that a commit waits for: those of the changed entries, and those outstanding whose owner has not been
removed. -/
def awaitedHandovers (b : Block) (old : Tab RangeEntry) (p : Proposal) (before : List (Nat × Nat)) : List (Nat × Nat) :=
  (before.filter fun h => (liveMembers b).contains h.2) ++ p.entries.filterMap fun e =>
    match entryAtBase old e.2.kind e.2.base2m, entryAtBase b.cmp.entries e.2.kind e.2.base2m with
    | some o, some n => if n.departing ∧ o.owner ≠ n.owner then some (n.base2m, o.owner) else none
    | _, _ => none

/-- COMMIT sent (Table 13.9, orders 3 and 4). -/
def commitChange (c : MapChange) (b : Block) : Block :=
  let old := b.cmp.entries
  let b := broadcast (changeTargets b c.proposal) (.mapCommit c.proposal.epoch) b
  let b := switchMap c.proposal (setChange none b)
  let hs := awaitedHandovers b old c.proposal c.handovers
  let c : MapChange := { c with committed := true, handovers := hs }
  if hs = [] then endChange b else setChange (some c) b

/-- The replies counted: COMMIT once every named member and more than half of the live members have acknowledged. -/
def judgeChange (b : Block) : Block :=
  match b.cmp.change with
  | none => b
  | some c =>
    let live := liveMembers b
    if c.committed = false ∧ (changeNamed b c.proposal).all (fun m => c.acks.contains m) = true
        ∧ live.length < 2 * (live.filter fun m => c.acks.contains m).length then commitChange c b
    else b

/-- A change begins: PREPARE to every live and joining member; the coordinator counts as one reply of its own. -/
def startChange (p : Proposal) (before : List (Nat × Nat)) (b : Block) : Block :=
  let full := fullProposal b p
  let live := liveMembers b
  let b' := (changeTargets b p).foldl (fun b m =>
    if m = ownModule b then b else sendCtrl m (.prepare (if live.contains m then p else full)) b) b
  let b' := setChange (some ⟨p, [ownModule b], false, before⟩) b'
  if donorAgrees b p then judgeChange b' else abortChange b'

/-- The next epoch's proposal. -/
def nextProposal (b : Block) (entries : Tab RangeEntry) (members : Tab MemberRec) : Proposal :=
  ⟨b.getF F.CMP_EPOCH_epoch + 1, entries, members, dkVersion b⟩

/-- A change that only removes members whose records are fenced, which no other change holds back (R322). -/
def onlyRemoves (entries : Tab RangeEntry) (members : Tab MemberRec) : Bool :=
  entries.isEmpty && !members.isEmpty && members.all fun e => decide (e.2.mstate = 2)

/-- Members that own two service ranges. -/
def twoRanges (es : Tab RangeEntry) : Bool :=
  es.any fun e => decide (e.2.kind = 1) && es.any fun f => decide (f.2.kind = 1) && decide (e.1 < f.1) && decide (e.2.owner = f.2.owner)

/-- The refusals of R322 that a staged change meets, from the resulting table: 0, or the code of CMP_STAT `err`. -/
def changeErr (b : Block) (entries : Tab RangeEntry) (members : Tab MemberRec) : Nat :=
  let result := applyEntries b.cmp.entries entries
  let live := liveIn (applyMembers b.cmp.members members)
  let fresh := (liveIn members).filter fun m => !(liveMembers b).contains m
  if anyOverlap result then 3
  else if (entries.all fun e => !entryUsed e.2 || (live.contains e.2.owner && (decide (e.2.kind = 1) || live.contains e.2.user))) = false
    then 4
  else if twoRanges result then 5
  else if (fresh.all homingAgrees) = false then 6
  else 0
where
  /-- A new member's homing, by its staged record and by the capability block of its port (R314), is the domain's. -/
  homingAgrees (m : Nat) : Bool :=
    ((tget members m).all fun r => r.homing == singleHome b) && (decide (m = ownModule b)
      || (peerBlock b m).all fun c => decide (bytesAt c 7 1 % 2 = 1) == singleHome b)

/-- `propose` refused. -/
def proposeErr (b : Block) : Nat :=
  if b.isSet F.CMP_ID_in_domain = false ∨ b.isSet F.CMP_ID_coordinator = false ∨ b.isSet F.CMP_ID_isolated = true then 1
  else if b.getF F.CMP_EPOCH_epoch = 0xFFFFFFFF then 7
  else if b.cmp.change.isSome ∧ onlyRemoves b.cmp.staged b.cmp.stagedMembers = false then 2
  else changeErr b b.cmp.staged b.cmp.stagedMembers

/-- A change begins in place of an incomplete one, whose HANDOVERs it goes on waiting for. -/
def supersede (entries : Tab RangeEntry) (members : Tab MemberRec) (b : Block) : Block :=
  let b := abortChange b
  let before := (b.cmp.change.map (·.handovers)).getD []
  startChange (nextProposal b entries members) before b

/-- `propose` (R322). -/
def mapPropose (b : Block) : Block :=
  match proposeErr b with
  | 0 => supersede b.cmp.staged b.cmp.stagedMembers b
  | e => b.setF F.CMP_STAT_err e

/-- MAP_PROPOSE (R322, R332). -/
def execMapPropose (who : Caller) (s : State) : Host.Outcome State Fault Refusal :=
  actR .none (fun b => if mayCommandKeys who then mapPropose b else b) s

/-- MAP_CLEAR (Table 13.27). -/
def execMapClear (who : Caller) (s : State) : Host.Outcome State Fault Refusal :=
  act .none (fun b => if mayCommandKeys who then
    { b with cmp := { b.cmp with staged := [], stagedMembers := [] } } else b) s

/-- The staged map of `form`: every live staged member owns a service range (R319). -/
def formEntries (entries : Tab RangeEntry) (live : List Nat) : Tab RangeEntry :=
  live.foldl (fun t m =>
    if t.any fun e => decide (e.2.kind = 1) && decide (e.2.owner = m) then t
    else (((List.range 8192).find? fun n => (tget t n).isNone).map fun n => tset t n (svcEntry m)).getD t)
    ((applyEntries [] entries).map fun e => (e.1, { e.2 with since := 1, departing := false }))

/-- `form`: the staged map is committed as epoch 1 among the staged members, and the RTP draws a domain key (R319, R321,
R356). -/
def mapForm (b : Block) : Block :=
  let live := liveIn b.cmp.stagedMembers
  let own := ownModule b
  let entries := formEntries b.cmp.staged live
  if b.isSet F.CMP_ID_in_domain = true then b.setF F.CMP_STAT_err 2
  else if live.head? ≠ some own then b.setF F.CMP_STAT_err 1
  else match changeErr { b with cmp := { b.cmp with entries := [], members := [] } } entries b.cmp.stagedMembers with
    | 0 =>
      let p : Proposal := ⟨1, entries, b.cmp.stagedMembers.filter fun e => decide (e.2.mstate = 1), dkVersion b + 1⟩
      let b := { b with cmp := { b.cmp with entries := [], members := [] } }
      switchMap p (broadcast live (.mapCommit 1) (broadcast live (.prepare p) b))
    | e => b.setF F.CMP_STAT_err e

/-- MAP_FORM (R319, R332). -/
def execMapForm (who : Caller) (s : State) : Host.Outcome State Fault Refusal :=
  actR .none (fun b => if mayCommandKeys who then mapForm b else b) s

/-! ### The members' side -/

/-- PREPARE received (Table 13.9, order 2): the proposal is held and answered. -/
def takePrepare (src : Nat) (p : Proposal) (b : Block) : Block :=
  let joining := !b.isSet F.CMP_ID_in_domain || b.cmp.badReplica
  let next := decide (b.getF F.CMP_EPOCH_epoch < p.epoch) && liveMember b src
  if (joining || next) && donorAgrees b p then
    sendCtrl src (.ack p.epoch true) { b with cmp := { b.cmp with held := some (src, p) } }
  else sendCtrl src (.ack p.epoch false) b

/-- MAP_PREPARE (R322). -/
def execMapPrepare (src : BitVec 8) (p : Proposal) (s : State) : Host.Outcome State Fault Refusal :=
  actR .none (takePrepare src.toNat p) s

/-- MAP_PREP_TIMEOUT (R322). -/
def execMapPrepTimeout (s : State) : Host.Outcome State Fault Refusal := actR .none abortChange s

/-- COMMIT received (Table 13.9, order 4). One that this module holds no proposal for makes it fetch the map. -/
def takeMapCommit (src epoch : Nat) (b : Block) : Block :=
  match b.cmp.held with
  | some (_, p) =>
    if p.epoch = epoch then switchMap p b else b
  | none => if b.getF F.CMP_EPOCH_epoch < epoch then sendCtrl src .fetchMap b else b

/-- MAP_COMMIT (R322). -/
def execMapCommit (src : BitVec 8) (epoch : BitVec 32) (s : State) : Host.Outcome State Fault Refusal :=
  actR .none (takeMapCommit src.toNat epoch.toNat) s

/-- ABORT received: the proposal is discarded. -/
def takeMapAbort (epoch : Nat) (b : Block) : Block :=
  match b.cmp.held with
  | some (_, p) =>
    if p.epoch = epoch then
      fire Src.cmpEvent (Block.bump { b with cmp := { b.cmp with held := none } } F.CMP_CNT_aborts)
    else b
  | none => b

/-- MAP_ABORT (R322). -/
def execMapAbort (_src : BitVec 8) (epoch : BitVec 32) (s : State) : Host.Outcome State Fault Refusal :=
  actR .none (takeMapAbort epoch.toNat) s

/-! ### Handover (R326, R384) -/

/-- The range that this module serves and no longer owns. -/
def departingRange (b : Block) : Bool :=
  b.cmp.serving && !((servedEntry b).any fun e => decide (e.owner = ownModule b))

/-- Drain count of the departing range: requests accepted before COMMIT and not completed (R326). -/
def drainCount (b : Block) : Nat :=
  if departingRange b then (b.fe.reqs.filter fun e => inflight e.2 && decide (e.1 < b.cmp.commitOrder)).length else 0

/-- The coordinator learns of a HANDOVER. -/
def reportHandover (base : Nat) (b : Block) : Block :=
  match b.cmp.change with
  | none => b
  | some c =>
    let c := { c with handovers := c.handovers.filter fun h => decide (h.1 ≠ base) }
    if c.committed = true ∧ c.handovers = [] then endChange (setChange (some c) b) else setChange (some c) b

/-- A report to the coordinator, which may be this module. -/
def tellCoordinator (base : Nat) (b : Block) : Block :=
  if b.isSet F.CMP_ID_coordinator then reportHandover base b else sendCtrl (b.getF F.CMP_STAT_coord) (.handover base) b

/-- The drain count has reached 0: the final delta, HANDOVER, and the range's slots enter SCRUBBING (R326, R384). -/
def rangeDrained (b : Block) : Block :=
  if departingRange b = false ∨ drainCount b ≠ 0 then b
  else
    let base := b.cmp.range.getD 0
    let b := match servedEntry b with
      | none => b
      | some e =>
        let b := if tandemOn b ∧ b.getF F.TDM_STAT_partner = e.owner then
            releaseAcked ((sendDelta none true b).2.setF F.TDM_STAT_tstate tdNone) else b
        sendCtrl e.owner (.handover base) b
    let b := tellCoordinator base (b.bump F.CMP_CNT_handovers)
    let b := b.ses.slots.foldl (fun b e => if e.2.state = ssScrubbing then b else enterScrubbing e.1 b) b
    takeRange (fun _ => 0) { b with cmp := { b.cmp with serving := false } }

/-- RANGE_DRAINED (R326). -/
def execRangeDrained (s : State) : Host.Outcome State Fault Refusal := actC .none rangeDrained s

/-- HANDOVER of the service range that this module awaits: it serves, as soon as a follower has the final delta. -/
def takeService (base : Nat) (b : Block) : Block :=
  let b := clearDeparting base (b.bump F.CMP_CNT_handovers)
  match b.tdm.kept with
  | some k =>
    if k.follow ∧ k.final = false then setKept (some { k with handover := true }) b else startServing b
  | none => startServing b

/-- HANDOVER received: by the coordinator as a report, by a new owner, or from the coordinator once the change is
complete. -/
def takeHandover (src base : Nat) (b : Block) : Block :=
  let b := if b.isSet F.CMP_ID_coordinator then reportHandover base b else b
  let b := match b.mem.lent.find? fun e => decide (e.2.base2m = base) && decide (e.2.source = some src) with
    | some (r, _) => clearDeparting base ((updLent r (fun x => { x with source := none }) b).bump F.CMP_CNT_handovers)
    | none => b
  let mine := (entryAtBase b.cmp.entries 1 base).any fun e => decide (e.owner = ownModule b)
  if b.cmp.awaiting ∧ b.cmp.range = some base ∧ mine then takeService base b
  else if b.cmp.held.isSome ∧ mine = false then { b with cmp := { b.cmp with handed := b.cmp.handed ++ [base] } }
  else clearDeparting base b

/-- MAP_HANDOVER (R326). -/
def execMapHandover (src : BitVec 8) (base2m : BitVec 43) (s : State) : Host.Outcome State Fault Refusal :=
  actR .none (takeHandover src.toNat base2m.toNat) s

/-- Blocks of a lent range sent to the new donor in address order (R327). -/
def streamBlocks (r heir : Nat) : (n pos : Nat) → Block → Block
  | 0, _, b => b
  | n + 1, pos, b =>
    let (d, w) := (lentBlock b r pos).getD (List.replicate 64 0, 0)
    streamBlocks r heir n (pos + 1) (sendMsg heir 3 r (.block r pos d w) b)

/-- The old donor's stream goes on by some blocks (R327); once it has ended the old donor sends HANDOVER and scrubs the
range. -/
def lendStream (r blocks : Nat) (b : Block) : Block :=
  match lentRange b r with
  | none => b
  | some x =>
    match x.heir with
    | none => b
    | some heir =>
      let n := min blocks (x.size * 32768 - x.pos)
      let b := streamBlocks r heir n x.pos b
      if x.size * 32768 ≤ x.pos + n then
        let b := sendCtrl heir (.handover x.base2m) b
        tellCoordinator x.base2m (endLending r (b.bump F.CMP_CNT_handovers))
      else updLent r (fun x => { x with pos := x.pos + n }) b

/-- LEND_STREAM (R327). -/
def execLendStream (range : BitVec 6) (blocks : Nat) (s : State) : Host.Outcome State Fault Refusal :=
  actR .none (fun b => if working b then lendStream range.toNat blocks b else b) s

/-! ### Heartbeats and lost peers (R318, R323, R324) -/

/-- A heartbeat on CTRL on every up Stoty port. -/
def sendHeartbeats (b : Block) : Block :=
  stotyPorts.foldl (fun b p =>
    if portUp b p then match peerModule b p with
      | some m => emit ⟨m, clsCtrl, .heartbeat, p, [], 0⟩ b
      | none => b
    else b) b

/-- HEARTBEAT (R318). -/
def execHeartbeat (s : State) : Host.Outcome State Fault Refusal := act .none sendHeartbeats s

/-- The record of a member that is removed. -/
def fencedRec (b : Block) (m : Nat) : Nat × MemberRec := (m, { memberRec b m with mstate := 2 })

/-- The coordinator removes the unreachable members on its own (R322). -/
def removeUnreachable (b : Block) : Block :=
  let gone := b.cmp.unreachable.filter fun m => liveMember b m
  if b.isSet F.CMP_ID_auto_remove = false ∨ gone = [] ∨ b.getF F.CMP_EPOCH_epoch = 0xFFFFFFFF then b
  else supersede [] (applyMembers [] (gone.map (fencedRec b))) b

/-- Every member asked has answered, and none has committed a change that this coordinator has not: ABORT (R324). -/
def endTakeover (b : Block) : Block :=
  let b := match b.cmp.held with
    | some (_, p) => takeMapAbort p.epoch (broadcast (changeTargets b p) (.mapAbort p.epoch) b)
    | none => b
  let departing : List (Nat × Nat) := (b.cmp.entries.filter fun e => e.2.departing).map fun e => (e.2.base2m, e.2.owner)
  let b := if departing.isEmpty then b else
    setChange (some ⟨nextProposal b [] [], [], true, departing⟩) b
  removeUnreachable b

/-- A member answers a coordinator that takes over with the epoch it has committed (R324). -/
def takeoverReply (src epoch : Nat) (b : Block) : Block :=
  if b.cmp.asking.contains src = false then b
  else
    let b := { b with cmp := { b.cmp with asking := b.cmp.asking.filter fun m => decide (m ≠ src) } }
    let b := match b.cmp.held with
      | some (_, p) =>
        if p.epoch = epoch then switchMap p (broadcast (changeTargets b p) (.mapCommit epoch) b) else b
      | none => b
    if b.cmp.asking = [] then endTakeover b else b

/-- A reply to PREPARE (Table 13.9, order 3), or to a coordinator that takes over. -/
def takeMapAck (src epoch : Nat) (ok : Bool) (b : Block) : Block :=
  match b.cmp.change with
  | none => takeoverReply src epoch b
  | some c =>
    if c.committed ∨ c.proposal.epoch ≠ epoch then b
    else if ok = false then abortChange b
    else judgeChange (setChange (some { c with acks := if c.acks.contains src then c.acks else c.acks ++ [src] }) b)

/-- MAP_ACK (R322). -/
def execMapAck (src : BitVec 8) (epoch : BitVec 32) (ack : Bool) (s : State) : Host.Outcome State Fault Refusal :=
  actR .none (takeMapAck src.toNat epoch.toNat ack) s

/-- The next-lowest live member takes over from an unreachable coordinator (R324). -/
def takeOver (b : Block) : Block :=
  let b := setCoordinator b
  if b.isSet F.CMP_ID_coordinator = false then b
  else
    let others := (liveMembers b).filter fun m => decide (m ≠ ownModule b) && !b.cmp.unreachable.contains m
    let b := broadcast others .askState { b with cmp := { b.cmp with asking := others } }
    if others = [] then endTakeover b else b

/-- A peer has become unreachable (R318): a partner or source is lost (R378), and the module fences itself when it no longer
reaches more than half of the live members (R323). -/
def peerLost (m : Nat) (b : Block) : Block :=
  if b.cmp.unreachable.contains m then b
  else
    let b := tandemMemberLost m { b with cmp := { b.cmp with unreachable := b.cmp.unreachable ++ [m] } }
    if liveMember b m = false ∨ b.isSet F.CMP_ID_isolated = true then b
    else
      let live := liveMembers b
      let reached := live.filter fun m => !b.cmp.unreachable.contains m
      if 2 * reached.length ≤ live.length then isolate b
      else if b.cmp.asking.contains m then takeoverReply m 0 b
      else if b.isSet F.CMP_ID_coordinator then (if b.cmp.asking = [] then removeUnreachable b else b)
      else if m = b.getF F.CMP_STAT_coord then takeOver b
      else b

/-- PEER_UNREACHABLE (R318). -/
def execPeerUnreachable (peer : BitVec 8) (s : State) : Host.Outcome State Fault Refusal :=
  actR .none (peerLost peer.toNat) s

/-- A coordinator that takes over asks for this module's state (R324): it answers with the epoch it has committed. -/
def answerState (src : Nat) (b : Block) : Block :=
  if liveMember b src then sendCtrl src (.ack (b.getF F.CMP_EPOCH_epoch) true) (b.setF F.CMP_STAT_coord src) else b

/-- A member fetches the map again (R320): the coordinator sends it whole. -/
def answerFetch (src : Nat) (b : Block) : Block :=
  if b.isSet F.CMP_ID_in_domain then
    let e := b.getF F.CMP_EPOCH_epoch
    sendCtrl src (.mapCommit e) (sendCtrl src (.prepare ⟨e, b.cmp.entries, b.cmp.members, dkVersion b⟩) b)
  else b

end Sys2Proof.Machine
end

