-- ==== Sys2Proof/Machine/Links.lean ====
section
/-! DEFINITION. Link ports (R310 to R317): training, width and lanes, capability blocks, flits, the shared lines of Falolo,
and the order of Stoty messages. -/

namespace Sys2Proof.Machine

/-! ### States of a port (Tables 13.3 and 13.14) -/

def psDown : Nat := 0
def psTraining : Nat := 1
def psUp : Nat := 2
def psDegraded : Nat := 3
def psError : Nat := 4

/-- A port of STL. -/
def isStoty (p : Nat) : Bool := decide (4 ≤ p)

/-- Link group of a port (Table 19.8). -/
def linkGroup (p : Nat) : Nat := if p < 4 then 0 else if p < 9 then 1 else if p < 14 then 2 else 3

/-- The reference clock of a port is present and in range (R453). -/
def clockOk (b : Block) (p : Nat) : Bool := (b.getF F.MOD_BOARD_refclk_ok).testBit (linkGroup p)

/-- State of a port set; PORT_EVENT fires when it changes (Table 17.1), and a port at half width may start a checkpoint
(R386). -/
def setPortState (p st : Nat) (b : Block) : Block :=
  if b.getFi F.FLL_PORT_STAT_state p = st then b
  else
    let b := fire Src.portEvent (b.setFi F.FLL_PORT_STAT_state p st)
    if st = psDegraded then autoCkpt 3 b else b

/-- A port stops at a stage of training, or running, with an error. -/
def portStops (p st err : Nat) (b : Block) : Block :=
  setPortState p st ((setPort p { portOf b p with stage := 0, swapping := none } b).setFi F.FLL_PORT_STAT_err p err)

/-- Training starts (Table 13.3, order 1); without a reference clock the port stays down (R453). -/
def startTraining (p : Nat) (b : Block) : Block :=
  if clockOk b p then
    let b := setPort p { portOf b p with stage := 2, swapping := none, spare := 8 } b
    setPortState p psTraining ((b.setFi F.FLL_PORT_STAT_err p 0).setFi F.FLL_PORT_STAT_spare_for p 15)
  else portStops p psDown 0 b

/-- A port retrains (R311 to R313). -/
def retrain (p : Nat) (b : Block) : Block := startTraining p (b.bumpFi F.FLL_PORT_CNT_retrains p 1)

/-- A write of FLL_PORT_CTRL or STL_PORT_CTRL from management space, for the port that PORT_SEL selects (R313, R332). -/
def portCtrlWrite (stoty : Bool) (v : Nat) (b : Block) : Block :=
  let p := b.getF (if stoty then F.STL_PORT_SEL_port else F.FLL_PORT_SEL_port)
  if 18 ≤ p ∨ isStoty p ≠ stoty then b
  else
    let was := b.getFi F.FLL_PORT_CTRL_enable p = 1
    let on := v.testBit 0
    let b := (b.setFi F.FLL_PORT_CTRL_retry_ms p (bitsOf v 8 16)).setFi F.FLL_PORT_CTRL_swap_thresh p (bitsOf v 24 16)
    let b := b.setFi F.FLL_PORT_CTRL_enable p (bitsOf v 0 1)
    if on = false then (if was then portStops p psDown 0 b else b)
    else if was = false then startTraining p b
    else if v.testBit 1 ∧ b.getFi F.FLL_PORT_STAT_state p ≠ psError then retrain p b
    else b

/-- PORT_ENABLE (R313). -/
def execPortEnable (who : Caller) (stoty : Bool) (val : BitVec 64) (s : State) : Host.Outcome State Fault Refusal :=
  actR .none (fun b => if who.isMgmt then portCtrlWrite stoty val.toNat b else b) s

/-- PORT_RETRAIN (R313). -/
def execPortRetrain (who : Caller) (stoty : Bool) (val : BitVec 64) (s : State) : Host.Outcome State Fault Refusal :=
  actR .none (fun b => if who.isMgmt then portCtrlWrite stoty val.toNat b else b) s

/-! ### Width (R312, Table 13.2) -/

/-- Good lanes of a port: neither bad nor drained for test. -/
def goodLanes (b : Block) (p : Nat) : List Nat :=
  (List.range 9).filter fun l => !(b.getFi F.FLL_PORT_STAT_lanes_bad p).testBit l && decide ((portOf b p).drained ≠ some l)

/-- The lane map fixed at order 4: with eight good lanes the spare carries the traffic of the data lane that is not good. -/
def fixLanes (p : Nat) (b : Block) : Block :=
  let good := goodLanes b p
  let out := (List.range 8).find? fun l => !good.contains l
  if 8 ≤ good.length then b.setFi F.FLL_PORT_STAT_spare_for p (out.getD 15) else b.setFi F.FLL_PORT_STAT_spare_for p 15

/-- A timed stage of training ends (Table 13.3, orders 2 to 5). -/
def stageDone (p lanesLocked : Nat) (b : Block) : Block :=
  let x := portOf b p
  match x.stage with
  | 2 => setPort p { x with stage := 3 } (b.setFi F.FLL_PORT_STAT_lanes_bad p (511 - lanesLocked))
  | 3 => setPort p { x with stage := 4 } b
  | 4 =>
    if (goodLanes b p).length ≤ 3 then portStops p psDown 2 b
    else setPort p { x with stage := 5 } (fixLanes p b)
  | 5 => showPort p (.caps (capBlock b p)) (setPort p { x with stage := 6 } b)
  | _ => b

/-- TRAINING_STAGE_DONE (R313). -/
def execTrainingStageDone (port : Nat) (lanesLocked : BitVec 9) (s : State) : Host.Outcome State Fault Refusal :=
  actR (.port port) (stageDone port lanesLocked.toNat) s

/-! ### Capabilities and the handshake (R314, R362) -/

/-- The highest version that both blocks mark (Tables 13.4, 13.5), as the version field codes it. -/
def commonVersion (stoty : Bool) (own peer : Nat) : Option Nat :=
  let both := own &&& peer
  if stoty then (if both.testBit 1 then some 0x20 else if both.testBit 0 then some 0x10 else none)
  else if both.testBit 2 then some 0x20 else if both.testBit 1 then some 0x11 else if both.testBit 0 then some 0x10 else none

/-- The peer's capability block (Table 13.3, order 6). -/
def takeCapability (p : Nat) (block : Bytes) (b : Block) : Block :=
  if (portOf b p).stage ≠ 6 then b
  else
    let blk := padTo 64 block
    let own := b.getF (if isStoty p then F.STL_CAPS_proto else F.FLL_CAPS_proto)
    let fits := decide (bytesAt blk 0 4 = 0x5041434C) && decide (bytesAt blk 4 1 = if isStoty p then 1 else 0)
    let b := setPort p { portOf b p with peer := blk } b
    match if fits then commonVersion (isStoty p) own (bytesAt blk 5 1) else none with
    | none => portStops p psError 3 b
    | some v =>
      let b := b.setFi F.FLL_PORT_STAT_version p v
      if isStoty p then sayHello p (setPort p { portOf b p with stage := 7 } b) else setPort p { portOf b p with stage := 8 } b

/-- CAPABILITY_BLOCK (R314). -/
def execCapabilityBlock (port : Nat) (block : Bytes) (s : State) : Host.Outcome State Fault Refusal :=
  actR (.port port) (takeCapability port block) s

/-- The RTP refuses a peer (R362). -/
def peerRefused (b : Block) (c : PeerCert) : Bool :=
  !c.chainOk || decide (c.ownerDg ≠ keyDigest b.rtp.ownerKey) || c.conf != b.rtp.conf

/-- The handshake of order 7, or its repetition on a port that is up (R362): a refusal, or the RTP's private-key operation. -/
def takeHandshake (p : Nat) (c : PeerCert) (b : Block) : Block :=
  if isStoty p = false ∨ b.rtp.ready = false ∨ ((portOf b p).stage ≠ 7 ∧ portUp b p = false) then b
  else if peerRefused b c then portStops p psError 4 b
  else
    let b := if (portOf b p).stage = 7 then b else sayHello p b
    { b with rtp := { b.rtp with queue := b.rtp.queue ++ [.handshake p c] } }

/-- LINK_HANDSHAKE (R362). -/
def execLinkHandshake (port : Nat) (peer : PeerCert) (s : State) : Host.Outcome State Fault Refusal :=
  actR (.port port) (takeHandshake port peer) s

/-- Training completes (Table 13.3, order 8): a Falolo port re-reads the watched lines (R20). -/
def linkUp (p : Nat) (b : Block) : Block :=
  if (portOf b p).stage ≠ 8 then b
  else
    let st := if 8 ≤ (goodLanes b p).length then psUp else psDegraded
    let b := setPort p { portOf b p with stage := 0 } (b.setFi F.FLL_PORT_STAT_up_s p (b.now / 1000000000))
    let b := setPortState p st b
    if isStoty p then b else rereadLines b

/-- LINK_UP (R313). -/
def execLinkUp (port : Nat) (s : State) : Host.Outcome State Fault Refusal := actR (.port port) (linkUp port) s

/-- `retry_ms` has passed for a port that is enabled and down (Table 13.2, R453). -/
def trainingRetry (p : Nat) (b : Block) : Block :=
  if b.getFi F.FLL_PORT_CTRL_enable p = 1 ∧ b.getFi F.FLL_PORT_STAT_state p = psDown then startTraining p b else b

/-- TRAINING_RETRY (R313). -/
def execTrainingRetry (port : Nat) (s : State) : Host.Outcome State Fault Refusal := actR (.port port) (trainingRetry port) s

/-! ### Running ports (R311, R312) -/

/-- A lane of a port marked bad. -/
def markLane (p l : Nat) (b : Block) : Block :=
  let bad := b.getFi F.FLL_PORT_STAT_lanes_bad p
  if bad.testBit l then b else b.setFi F.FLL_PORT_STAT_lanes_bad p (bad + 2 ^ l)

/-- The spare of a port is unused and good. -/
def spareFree (b : Block) (p : Nat) : Bool :=
  decide (b.getFi F.FLL_PORT_STAT_spare_for p = 15) && decide ((portOf b p).swapping = none) && (goodLanes b p).contains (portOf b p).spare

/-- A running lane goes bad, or is drained for test (R312): its traffic moves to the spare, or the port retrains. -/
def loseLane (p l : Nat) (b : Block) : Block :=
  let idle := (l = (portOf b p).spare ∧ b.getFi F.FLL_PORT_STAT_spare_for p = 15) ∨ b.getFi F.FLL_PORT_STAT_spare_for p = l
  if idle then b
  else if spareFree b p = true ∧ b.getFi F.FLL_PORT_STAT_state p = psUp then
    setPort p { portOf b p with swapping := some l } b
  else retrain p b

/-- A flit received on a port (R311, R312): FEC and CRC, replay, the lane's error count, and the sign of life of its sender
(R318). -/
def flitReceive (p : Nat) (f : FlitInfo) (b : Block) : Block :=
  if portUp b p = false then b
  else
    let b := match peerModule b p with
      | some m => if isStoty p then { b with cmp := { b.cmp with unreachable := b.cmp.unreachable.filter (· ≠ m) } } else b
      | none => b
    let b := if f.fecOk then b else b.bumpFi F.FLL_PORT_CNT_fec_uncorr p 1
    let replay := !(f.crcOk && f.fecOk)
    let b := if replay then b.bumpFi F.FLL_PORT_CNT_replays p 1 else b
    if replay && f.sixteenth then retrain p b
    else if f.lane < 9 ∧ b.getFi F.FLL_PORT_CTRL_swap_thresh p < f.corrPerBillion ∧ (goodLanes b p).contains f.lane = true then
      loseLane p f.lane (markLane p f.lane b)
    else b

/-- FLIT_RECEIVE (R311). -/
def execFlitReceive (port : Nat) (flit : FlitInfo) (s : State) : Host.Outcome State Fault Refusal :=
  actR (.port port) (flitReceive port flit) s

/-- The spare takes a lane's traffic at a flit boundary (R312). -/
def laneSwapDone (p : Nat) (b : Block) : Block :=
  match (portOf b p).swapping with
  | none => b
  | some l =>
    (setPort p { portOf b p with swapping := none } (b.setFi F.FLL_PORT_STAT_spare_for p l)).bumpFi F.FLL_PORT_CNT_lane_swaps p 1

/-- LANE_SWAP_DONE (R312). -/
def execLaneSwapDone (port : Nat) (s : State) : Host.Outcome State Fault Refusal := actR (.port port) (laneSwapDone port) s

/-- A running port loses lanes other than by a swap (R312). -/
def lossOfWidth (p lanesGood : Nat) (b : Block) : Block :=
  if portUp b p then
    retrain p ((List.range 9).foldl (fun b l => if lanesGood.testBit l then b else markLane p l b) b)
  else b

/-- LOSS_OF_WIDTH (R312). -/
def execLossOfWidth (port : Nat) (lanesGood : BitVec 9) (s : State) : Host.Outcome State Fault Refusal :=
  actR (.port port) (lossOfWidth port lanesGood.toNat) s

/-! ### Falolo (R315) -/

/-- The line that a member of the watch table stands for, by its address ÷ 64. -/
def watchedLine (b : Block) (n : Nat) : Option Nat :=
  if n = timeLine then some (b.getF F.MOD_TIMELINE_ADDR_line_addr) else (ringOf b n).map fun r => (r.cb + 64) / 64

/-- A snoop answered (R315): the line leaves the shared state until it is read again. -/
def faloloSnoop (addr : Nat) (b : Block) : Block :=
  b.link.shared.foldl (fun b n => if watchedLine b n = some (addr / 64) then watchLine n false b else b) b

/-- FALOLO_SNOOP (R315). The companion's write of the line comes with it: companion memory is its own, whether or not the
module is up or holds the line (log entry 140). -/
def execFaloloSnoop (lineAddr : BitVec 52) (bytes : Bytes) (s : State) : Host.Outcome State Fault Refusal :=
  actB .none (fun b =>
    let b := b.pokeBytes lineAddr.toNat (bytes.take (64 - lineAddr.toNat % 64))
    if b.up then faloloSnoop lineAddr.toNat b else b) s

/-! ### Stoty messages (R316, R317) -/

/-- What a donor answers to the oldest block asked of it (R302): 64 bytes of data and their tag word, which are checked as any
block's (R299); anything else says that the access failed (R94). -/
def takeBlock (src : Nat) (payload : Bytes) (b : Block) : Block :=
  match b.mem.fetches.find? fun f => decide (f.donor = src) with
  | none => b
  | some f =>
    let b := { b with mem := { b.mem with fetches := b.mem.fetches.erase f } }
    if payload.length ≠ 72 then tierFails f.sid true b
    else match tget b.ses.extents f.run with
      | none => b
      | some e =>
        if blockStands b e f.block (payload.take 64) (payload.drop 64) then b else markUnit f.sid f.kind false b

/-- A message delivered to its block. What has a command of its own comes with that command; the others act here: the
refusal of a MOVE (R87), the blocks that donors return (R302), and on CTRL the questions of R320 and R324. -/
def deliver (m : InMsg) (b : Block) : Block :=
  let b := { b with link := { b.link with inbox := b.link.inbox ++ [m] } }
  if m.cls = 2 ∧ m.payload.length = 9 then
    (if working b then moveRefused (bytesAt m.payload 0 8) (bytesAt m.payload 8 1) b else b)
  else if m.cls = 3 then (if working b then takeBlock m.src m.payload b else b)
  else if m.cls = 0 ∧ m.payload = [BitVec.ofNat 8 (MsgBody.kind .fetchMap)] then answerFetch m.src b
  else if m.cls = 0 ∧ m.payload = [BitVec.ofNat 8 (MsgBody.kind .askState)] then answerState m.src b
  else b

/-- Messages that have come early delivered as their turn comes; the fuel bounds them. -/
def deliverEarly (src cls : Nat) : Nat → Block → Block
  | 0, b => b
  | n + 1, b =>
    let k := tgetD b.link.expect (8 * src + cls) 0
    match b.link.early.find? fun m => decide (m.src = src) && decide (m.cls = cls) && decide (m.seq = k) with
    | none => b
    | some m =>
      let b := { b with link := { b.link with
        early := b.link.early.erase m, expect := tset b.link.expect (8 * src + cls) (k + 1) } }
      deliverEarly src cls n (deliver m b)

/-- A message received whole (R317): delivered in the order of its pair and class. -/
def takeMessage (src cls seq : Nat) (payload : Bytes) (b : Block) : Block :=
  if seq < tgetD b.link.expect (8 * src + cls) 0 ∨ 5 ≤ cls ∨ portsTo b src = [] then b
  else
    let b := { b with link := { b.link with early := b.link.early ++ [⟨src, cls, seq, payload⟩] } }
    deliverEarly src cls (b.link.early.length + 1) b

/-- STOTY_MESSAGE (R317). -/
def execStotyMessage (src : BitVec 8) (cls : BitVec 3) (_stream seq : Nat) (payload : Bytes) (s : State) :
    Host.Outcome State Fault Refusal :=
  actR .none (takeMessage src.toNat cls.toNat seq payload) s

end Sys2Proof.Machine
end

