-- ==== Sys2Proof/Machine/Rtp.lean ====
section
/-! DEFINITION. The management commands of the root-of-trust processor (R356 to R361, R370, R372): firmware images, ratchets,
the claim, owner commands, tenant keys and domain keys. -/

namespace Sys2Proof.Machine

/-- The RTP changed. -/
def updRtp (f : RtpState → RtpState) (b : Block) : Block := { b with rtp := f b.rtp }

/-- A command of RTP_CMD ends (Table 15.18): 0 done, else in error. -/
def cmdEnds (err : Nat) (b : Block) : Block := (b.setF F.RTP_CMD_state (if err = 0 then 2 else 3)).setF F.RTP_CMD_err err

/-- Address of the buffer of RTP_CMD. -/
def cmdAddr (b : Block) : Nat := 64 * b.getF F.RTP_CMD_ADDR_addr

/-- The buffer of a command lies in an io window that management space reaches. -/
def cmdReach (b : Block) (off len : Nat) : Bool := ioReach b none (cmdAddr b + off) len

/-! ### Firmware images (R357 to R359) -/

/-- What the checks of R357 find in an image: 0, or the error of Table 15.18. -/
def imageErr (b : Block) (comp : Nat) (img : Bytes) : Nat :=
  let bodyLen := bytesAt img 8 4
  let certLen := bytesAt img 12 4
  let bodyOff := 512 + (certLen + 63) / 64 * 64
  if bytesAt img 0 4 ≠ 0x474D494C ∨ bytesAt img 4 1 ≠ comp ∨ 2 ^ 24 < bodyLen ∨ img.length < bodyOff + bodyLen then 1
  else if (img.drop 16).take 32 ≠ sha256 ((img.drop bodyOff).take bodyLen) ∨ bytesAt img 5 1 < ratchet b comp
      ∨ 127 < bytesAt img 5 1 then 1
  else match Config.firmwareKey ((img.drop 512).take certLen) with
    | none => 2
    | some key => if Config.rsaVerify key (sha256 (img.take 128)) ((img.drop 128).take 384) then 0 else 2

/-- The slot of an image. -/
def slotOf (img : Bytes) : ImageSlot := ⟨true, bytesAt img 5 1, bytesAt img 6 2, (img.drop 16).take 32⟩

/-- Component n's slot B is the active one. -/
def activeIsB (b : Block) (n : Nat) : Bool := (b.rtp.activeB[n]?).getD false

/-- The inactive slot of a component. -/
def inactiveSlot (b : Block) (n : Nat) : ImageSlot :=
  ((if activeIsB b n then b.rtp.slotA else b.rtp.slotB)[n]?).getD ImageSlot.shipped

/-- An image written to a component's inactive slot. -/
def writeInactive (n : Nat) (x : ImageSlot) (b : Block) : Block :=
  updRtp (fun r => if activeIsB b n then { r with slotA := r.slotA.set n x } else { r with slotB := r.slotB.set n x }) b

/-- `stage` (R359). -/
def rtpStage (comp len : Nat) (b : Block) : Block :=
  if comp = 3 then cmdEnds 4 b
  else if cmdReach b 0 len = false then cmdEnds 5 b
  else
    let img := b.peek (cmdAddr b) len
    match imageErr b comp img with
    | 0 => cmdEnds 0 (writeInactive comp (slotOf img) b)
    | e => cmdEnds e b

/-- `activate` (R359): from the next boot, or by the live swap. -/
def rtpActivate (comp : Nat) (b : Block) : Block :=
  if comp = 3 ∨ (inactiveSlot b comp).valid = false then cmdEnds 4 b
  else if comp = 1 then
    (if b.getF F.BRP_STAT_swap = 1 ∨ b.getF F.BRP_STAT_swap = 2 then cmdEnds 4 b
     else if (inactiveSlot b 1).svn < ratchet b 1 then cmdEnds 1 b
     else cmdEnds 0 (b.setF F.BRP_STAT_swap 1))
  else cmdEnds 0 (updRtp (fun r => { r with activeB := r.activeB.modify comp (!·) }) b)

/-- `ratchet` (R358). -/
def rtpRatchet (comp : Nat) (b : Block) : Block :=
  if comp = 3 then cmdEnds 4 b
  else cmdEnds 0 (updRtp (fun r => { r with ratchets := r.ratchets.modify comp fun v => max v (min 127 (runningImage b comp).svn) }) b)

/-! ### Owner (R360, R361) -/

/-- A DER element at the start of a buffer, cut to its own length. -/
def derOf (bs : Bytes) : Bytes :=
  match bs with
  | 0x30 :: 0x82 :: hi :: lo :: _ => bs.take (4 + 256 * hi.toNat + lo.toNat)
  | _ => bs

/-- `claim`: accepted only while no owner is set; ratchet 3 advances (R358). -/
def rtpClaim (len : Nat) (b : Block) : Block :=
  if b.rtp.ownerKey.isSome then cmdEnds 4 b
  else if cmdReach b 0 len = false then cmdEnds 5 b
  else cmdEnds 0 (updRtp (fun r => { r with
    ownerKey := some (derOf (b.peek (cmdAddr b) len)), ratchets := r.ratchets.modify 3 fun v => min 127 (v + 1) }) b)

/-- A new RTP_NONCE. -/
def drawNonce (b : Block) : Block :=
  let (n, b) := b.takeFresh
  updRtp (fun r => { r with nonce := Config.nonce n }) b

/-- The DK versions held. -/
def heldDks (b : Block) : List (Nat × Bytes) := [b.rtp.dkCur, b.rtp.dkPrev, b.rtp.dkImp].filterMap id

/-- What `dk_export` writes: each version under the owner key. -/
def exportBytes (b : Block) (owner : Bytes) : Bytes :=
  (heldDks b).flatMap fun k => leBytes 4 k.1 ++ padTo 384 (Config.wrap owner k.2)

/-- The effect of an owner command whose nonce, identity and signature match (R360); an error where its `op` is not allowed
now. -/
def ownerOp (owner : Bytes) (op : Nat) (arg : Bytes) (b : Block) : Except Nat Block :=
  match op with
  | 1 => .ok (updRtp (fun r => { r with overlayKey := some (derOf arg) }) b)
  | 2 => .ok (updRtp (fun r => { r with confNext := false }) b)
  | 3 => if b.rtp.confNext then .error 4 else .ok (updRtp (fun r => { r with ownerKey := none, overlayKey := none }) b)
  | 4 => if b.rtp.conf then .error 4 else .ok (updRtp (fun r => { r with debugOpen := true }) b)
  | 5 =>
    let out := exportBytes b owner
    if cmdReach b 4096 out.length then .ok (b.pokeBytes (cmdAddr b + 4096) out) else .error 5
  | 6 => match Config.unwrap Config.identityKey ((arg.drop 4).take 384) with
    | some k => .ok (updRtp (fun r => { r with dkImp := some (bytesAt arg 0 4, k) }) b)
    | none => .error 4
  | _ => .error 4

/-- The checks on an owner command block of a buffer (R360, Table 15.4): 0, or the error of Table 15.18. -/
def ownerErr (b : Block) (owner blk : Bytes) : Nat :=
  let argLen := bytesAt blk 48 4
  if bytesAt blk 0 4 ≠ 0x444D434F ∨ 4096 < argLen ∨ blk.length < 64 + argLen + 384 then 4
  else if bytesAt blk 8 8 ≠ b.rtp.nonce.toNat ∨ (blk.drop 16).take 32 ≠ identityDg then 3
  else if Config.rsaVerify owner (sha256 (blk.take (64 + argLen))) ((blk.drop (64 + argLen)).take 384) = false then 2
  else 0

/-- An owner command refused: logged with kind 10. -/
def ownerRefused (op err : Nat) (b : Block) : Block := cmdEnds err (violation 10 mgmtTenant 0 op b)

/-- An owner command (R360): a new nonce follows it, accepted or refused. -/
def ownerCommand (len : Nat) (b : Block) : Block :=
  if cmdReach b 0 len = false then drawNonce (cmdEnds 5 b)
  else
    let blk := b.peek (cmdAddr b) len
    let op := bytesAt blk 4 1
    drawNonce <| match b.rtp.ownerKey with
      | none => ownerRefused op 4 b
      | some owner => match ownerErr b owner blk with
        | 0 => match ownerOp owner op ((blk.drop 64).take (bytesAt blk 48 4)) b with
          | .ok b => cmdEnds 0 b
          | .error e => ownerRefused op e b
        | e => ownerRefused op e b

/-! ### Keys (R356, R370) -/

/-- `tenant_key` (R370): version 1, unless the tenant is not ABSENT or holds a key. -/
def rtpTenantKey (t : Nat) (b : Block) : Block :=
  if tenantState b t ≠ tsAbsent ∨ hasKey b t = true then cmdEnds 4 b else cmdEnds 0 (installKey t 1 0 0 b)

/-- `dk_rotate` (R356): at the coordinator, a map change that moves no range and carries the next version. -/
def rtpDkRotate (b : Block) : Block :=
  if b.isSet F.CMP_ID_in_domain = false ∨ b.isSet F.CMP_ID_coordinator = false ∨ b.isSet F.CMP_ID_isolated = true
      ∨ b.cmp.change.isSome ∨ b.getF F.CMP_EPOCH_epoch = 0xFFFFFFFF then cmdEnds 4 b
  else cmdEnds 0 (startChange { nextProposal b [] [] with dkVersion := dkVersion b + 1 } [] b)

/-! ### RTP_CMD (Table 15.18) -/

/-- A write of RTP_CMD from management space or by a management ring (R372). -/
def rtpCommand (who : Caller) (v : Nat) (b : Block) : Block :=
  let comp := bitsOf v 3 2
  let len := 64 * bitsOf v 32 24
  if who.isMgmt = false ∨ b.rtp.ready = false then b
  else match bitsOf v 0 3 with
    | 1 => rtpStage comp len b
    | 2 => rtpActivate comp b
    | 3 => rtpRatchet comp b
    | 4 => rtpClaim len b
    | 5 => ownerCommand len b
    | 6 => rtpTenantKey (bitsOf v 8 12) b
    | 7 => rtpDkRotate b
    | _ => b

/-- RTP_STAGE (R359). -/
def execRtpStage (who : Caller) (val : BitVec 64) (s : State) : Host.Outcome State Fault Refusal :=
  actR .none (rtpCommand who val.toNat) s

/-- RTP_ACTIVATE (R359). -/
def execRtpActivate (who : Caller) (val : BitVec 64) (s : State) : Host.Outcome State Fault Refusal :=
  actR .none (rtpCommand who val.toNat) s

/-- RTP_RATCHET (R358). -/
def execRtpRatchet (who : Caller) (val : BitVec 64) (s : State) : Host.Outcome State Fault Refusal :=
  actR .none (rtpCommand who val.toNat) s

/-- CLAIM (R360). -/
def execClaim (who : Caller) (val : BitVec 64) (s : State) : Host.Outcome State Fault Refusal :=
  actR .none (rtpCommand who val.toNat) s

/-- SET_OVL_KEY (R360). -/
def execSetOvlKey (who : Caller) (val : BitVec 64) (s : State) : Host.Outcome State Fault Refusal :=
  actR .none (rtpCommand who val.toNat) s

/-- CONF_OPEN (R360). -/
def execConfOpen (who : Caller) (val : BitVec 64) (s : State) : Host.Outcome State Fault Refusal :=
  actR .none (rtpCommand who val.toNat) s

/-- RELEASE (R360). -/
def execOwnerRelease (who : Caller) (val : BitVec 64) (s : State) : Host.Outcome State Fault Refusal :=
  actR .none (rtpCommand who val.toNat) s

/-- DEBUG_UNLOCK (R360). -/
def execDebugUnlock (who : Caller) (val : BitVec 64) (s : State) : Host.Outcome State Fault Refusal :=
  actR .none (rtpCommand who val.toNat) s

/-- DK_EXPORT (R360). -/
def execDkExport (who : Caller) (val : BitVec 64) (s : State) : Host.Outcome State Fault Refusal :=
  actR .none (rtpCommand who val.toNat) s

/-- DK_IMPORT (R360). -/
def execDkImport (who : Caller) (val : BitVec 64) (s : State) : Host.Outcome State Fault Refusal :=
  actR .none (rtpCommand who val.toNat) s

/-- TENANT_KEY (R370). -/
def execTenantKey (who : Caller) (val : BitVec 64) (s : State) : Host.Outcome State Fault Refusal :=
  actR .none (rtpCommand who val.toNat) s

/-- DK_ROTATE (R356). -/
def execDkRotate (who : Caller) (val : BitVec 64) (s : State) : Host.Outcome State Fault Refusal :=
  actR .none (rtpCommand who val.toNat) s

end Sys2Proof.Machine
end

