-- ==== Sys2Proof/Machine/Bist.lean ====
section
/-! DEFINITION. Self-test, repair and the live firmware swap (R393 to R399). -/

namespace Sys2Proof.Machine

/-- The controller changed. -/
def updBrp (f : BrpState → BrpState) (b : Block) : Block := { b with brp := f b.brp }

/-! ### Rotation (R393, Table 16.6) -/

/-- A test period of BRP_CFG, of this number of seconds, has run out in host time; it stands still while the line is stale (R13). -/
def periodOver (b : Block) (key seconds : Nat) : Bool :=
  !b.stale && decide (tgetD b.brp.periods key 0 + max 1 seconds * 1000000000 ≤ b.now)

/-- The period starts again. -/
def periodStarts (key : Nat) (b : Block) : Block := updBrp (fun r => { r with periods := tset r.periods key b.now }) b

/-- Keys of the periods: Spokes by wheel, lanes by port, hub partitions, channels by stack. -/
def spokePeriod (w : Nat) : Nat := w
def lanePeriod (p : Nat) : Nat := 8 + p
def hubPeriod : Nat := 4
def channelPeriod (c : Nat) : Nat := 64 + c / 32

/-- Healthy Spokes of a wheel. -/
def healthySpokes (b : Block) (w : Nat) : Nat := ((wheelSpokes w).filter fun i => decide (spkState b i ≠ spFailed)).length

/-- Spokes of a wheel in a state. -/
def wheelIn (b : Block) (w st : Nat) : Nat := ((wheelSpokes w).filter fun i => decide (spkState b i = st)).length

/-- The Spoke in service whose last test is the oldest of the wheel. -/
def oldestTested (b : Block) (w : Nat) : Option Nat :=
  ((wheelSpokes w).filter fun i => decide (spkState b i = spService)).foldl (fun acc i => match acc with
    | none => some i
    | some a => if tgetD b.brp.tested i 0 < tgetD b.brp.tested a 0 then some i else acc) none

/-- `spoke_period_s` has passed for a wheel (R10, R395): its oldest-tested Spoke drains after a SPARE takes service. -/
def rotateSpoke (w : Nat) (b : Block) : Block :=
  if periodOver b (spokePeriod w) (min 0x13D (b.getF F.BRP_CFG_spoke_period_s)) = false ∨ healthySpokes b w ≤ 64 ∨ (lowestSpare b w).isNone = true ∨ wheelIn b w spTest + wheelIn b w spDraining ≠ 0 then b
  else match oldestTested b w with
    | none => b
    | some i => drainSpoke i (periodStarts (spokePeriod w) b)

/-- SPOKE_TEST_ROTATE (R393). -/
def execSpokeTestRotate (wheel : BitVec 2) (s : State) : Host.Outcome State Fault Refusal :=
  actR .none (rotateSpoke wheel.toNat) s

/-- `lane_period_s` has passed for a port: a lane drains, its traffic moving to the spare. -/
def rotateLane (p l : Nat) (b : Block) : Block :=
  let x := portOf b p
  let unused := decide (l = x.spare) && decide (b.getFi F.FLL_PORT_STAT_spare_for p = 15)
  if b.getFi F.FLL_PORT_STAT_state p ≠ psUp ∨ x.drained.isSome ∨ x.swapping.isSome ∨ (goodLanes b p).contains l = false
      ∨ (unused || spareFree b p) = false ∨ periodOver b (lanePeriod p) (b.getF F.BRP_CFG_lane_period_s) = false then b
  else periodStarts (lanePeriod p) <| setPort p { portOf b p with drained := some l, swapping := if unused then none else some l } b

/-- LANE_TEST_ROTATE (R393). -/
def execLaneTestRotate (port lane : Nat) (s : State) : Host.Outcome State Fault Refusal :=
  actR (.lane port lane) (rotateLane port lane) s

/-- Lowest number of the SRAM bank groups among the hub partitions; those below are the hub control cores. -/
def firstBank : Nat := 8

/-- A hub partition can be tested: a core; or a bank group, while an idle group can take its contents. -/
def hubTestable (b : Block) (n : Nat) : Bool :=
  decide (b.brp.hubTest = none) && !b.brp.hubOut.contains n && (decide (n < firstBank) || decide (b.brp.idleBank < 17))

/-- `hub_period_s` has passed: a hub partition is under test. -/
def rotateHub (n : Nat) (b : Block) : Block := 
  if hubTestable b n && periodOver b hubPeriod (b.getF F.BRP_CFG_hub_period_s) then
    periodStarts hubPeriod (updBrp (fun r => { r with hubTest := some n }) b)
  else b

/-- HUB_TEST_ROTATE (R393). -/
def execHubTestRotate (partition : Nat) (s : State) : Host.Outcome State Fault Refusal :=
  actR (.hub partition) (rotateHub partition) s

/-- `chan_period_s` has passed for a stack: one of its channels is under test. -/
def rotateChannel (c : Nat) (b : Block) : Block :=
  if (b.brp.channels.any fun d => decide (d / 32 = c / 32)) || !periodOver b (channelPeriod c) (b.getF F.BRP_CFG_chan_period_s) then b
  else periodStarts (channelPeriod c) (updBrp (fun r => { r with channels := r.channels ++ [c] }) b)

/-- CHANNEL_TEST_ROTATE (R393). -/
def execChannelTestRotate (channel : BitVec 8) (s : State) : Host.Outcome State Fault Refusal :=
  actR .none (rotateChannel channel.toNat) s

/-! ### Results (R394 to R397, Table 16.7) -/

/-- A patch applied by the controller (R397): 0 Spoke, 1 HBM, 2 hub SRAM. -/
def applyPatch (kind : Nat) (b : Block) : Block :=
  (updBrp (fun r => { r with patches := r.patches.modify kind (· + 1) }) b).bump F.BRP_CNT_patches

/-- A test counted, with the patch that cured what it found. -/
def countTest (pass patched : Bool) (kind : Nat) (b : Block) : Block :=
  let b := if pass then b.bump F.BRP_CNT_bist_pass else b.bump F.BRP_CNT_bist_fail
  if pass && patched then applyPatch kind b else b

/-- BIST_OVERDUE follows the Spokes that are overdue (R395). -/
def settleOverdue (b : Block) : Block := setLevel Src.bistOverdue (!b.brp.overdue.isEmpty) b

/-- A wheel with fewer than 64 Spokes in service takes a SPARE (R10, R395). -/
def fillWheel (w : Nat) (b : Block) : Block := if wheelIn b w spService < 64 then takeSpare w b else b

/-- A Spoke's test ends. -/
def spokeTested (i : Nat) (pass patched : Bool) (b : Block) : Block :=
  if spkState b i ≠ spTest then b
  else
    let b := countTest pass patched 0 (setSpoke i Spoke.reset b)
    let b := updBrp (fun r => { r with tested := tset r.tested i b.now, overdue := r.overdue.filter (· ≠ i) }) b
    let b := settleOverdue (b.setFi F.SPK_STATE_last_test_s i (b.now / 1000000000))
    if pass then
      let b := if patched then b.setFi F.SPK_STATE_patched i 1 else b
      fillWheel (i / 68) (setSpkState i spSpare b)
    else autoCkpt 2 (setSpkState i spFailed b)

/-- A lane's test ends (R393, R396): the tested lane becomes the spare, or is bad. -/
def laneTested (p l : Nat) (pass : Bool) (b : Block) : Block :=
  let x := portOf b p
  if x.drained ≠ some l ∨ x.swapping = some l then b
  else
    let b := countTest pass false 0 (setPort p { x with drained := none } b)
    if pass then setPort p { portOf b p with spare := l } (b.setFi F.FLL_PORT_STAT_spare_for p 15) else markLane p l b

/-- A hub partition's test ends (R393, R396): a bank group tested is the new idle one; one that fails stays out. -/
def hubTested (n : Nat) (pass patched : Bool) (b : Block) : Block :=
  if b.brp.hubTest ≠ some n then b
  else
    let b := countTest pass (patched && decide (firstBank ≤ n)) 2 (updBrp (fun r => { r with hubTest := none }) b)
    if pass then (if n < firstBank then b else updBrp (fun r => { r with idleBank := n - firstBank }) b)
    else
      let b := updBrp (fun r => { r with
        hubOut := r.hubOut ++ [n], idleBank := if n < firstBank then r.idleBank else 17 }) b
      setLevel Src.hubDegraded true b

/-- A channel's test ends (R396). -/
def channelTested (c : Nat) (pass patched : Bool) (b : Block) : Block :=
  if b.brp.channels.contains c then
    countTest pass patched 1 (updBrp (fun r => { r with channels := r.channels.filter (· ≠ c) }) b)
  else b

/-- A slice's self-test ends. -/
def sliceTested (x : Slice) (pass patched : Bool) (b : Block) : Block :=
  match x with
  | .spoke i => spokeTested i pass patched b
  | .lane p l => laneTested p l pass b
  | .hub n => hubTested n pass patched b
  | .channel c => channelTested c pass patched b

/-- BIST_COMPLETE (R394). -/
def execBistComplete (slice : Slice) (pass patched : Bool) (s : State) : Host.Outcome State Fault Refusal :=
  actR (.slice slice) (sliceTested slice pass patched) s

/-- A Spoke's last test is more than 6 h of host time old (R395). -/
def spokeOverdue (i : Nat) (b : Block) : Block :=
  if b.stale ∨ spkState b i = spFailed ∨ b.now ≤ tgetD b.brp.tested i 0 + 21600000000000 ∨ b.brp.overdue.contains i = true then b
  else settleOverdue (updBrp (fun r => { r with overdue := r.overdue ++ [i] }) b)

/-- BIST_OVERDUE (R395). -/
def execBistOverdue (spk : Nat) (s : State) : Host.Outcome State Fault Refusal := actR (.spoke spk) (spokeOverdue spk) s

/-! ### BRP_CMD (R395, R397, R399) -/

/-- Fuse repairs left of a kind (Table 16.21). -/
def fusesLeft (b : Block) (kind : Nat) : Nat := Config.fuseBudget kind - (b.brp.fusesUsed[kind]?).getD 0

/-- A budget has fallen below a tenth of its value at manufacture (R397). -/
def fuseLow (b : Block) : Bool := [0, 1, 2].any fun k => decide (10 * fusesLeft b k < Config.fuseBudget k)

/-- Patches of one kind turned into fuse repairs, as far as the budget goes. -/
def commitKind (b : Block) (kind : Nat) : Block :=
  let n := min ((b.brp.patches[kind]?).getD 0) (fusesLeft b kind)
  updBrp (fun r => { r with patches := r.patches.modify kind (· - n), fusesUsed := r.fusesUsed.modify kind (· + n) }) b

/-- The patched Spokes are repaired by fuse, when every Spoke patch was. -/
def fuseSpokes (b : Block) : Block :=
  if (b.brp.patches[0]?).getD 0 ≠ 0 then b
  else (List.range numSpokes).foldl (fun b i =>
    if b.getFi F.SPK_STATE_patched i = 1 then (b.setFi F.SPK_STATE_patched i 0).setFi F.SPK_STATE_fused i 1 else b) b

/-- `fuse_commit` (R397); FUSE_LOW may start a checkpoint (R386). -/
def fuseCommit (b : Block) : Block :=
  let was := b.intr.levels.contains Src.fuseLow
  let b := fuseSpokes ([0, 1, 2].foldl commitKind b)
  let low := fuseLow b
  let b := setLevel Src.fuseLow low b
  if low && !was then autoCkpt 4 b else b

/-- FUSE_COMMIT (R397, R399). -/
def execFuseCommit (who : Caller) (s : State) : Host.Outcome State Fault Refusal :=
  actR .none (fun b => if who.isMgmt && b.rtp.ready then fuseCommit b else b) s

/-- `test_now` (R10, R395): the selected Spoke drains, after a SPARE takes its place if there is one. -/
def testNow (b : Block) : Block := if b.getF F.SPK_SEL_spoke < numSpokes then drainSpoke (b.getF F.SPK_SEL_spoke) b else b

/-- TEST_NOW (R395, R399). -/
def execTestNow (who : Caller) (s : State) : Host.Outcome State Fault Refusal :=
  actR .none (fun b => if who.isMgmt then testNow b else b) s

/-! ### The live swap (R398, Table 16.8) -/

/-- The new image is loaded: dispatch stops at order 9. -/
def swapLoaded (b : Block) : Block := if b.getF F.BRP_STAT_swap = 1 then b.setF F.BRP_STAT_swap 2 else b

/-- FW_SWAP_LOAD_DONE (R398). -/
def execFwSwapLoadDone (s : State) : Host.Outcome State Fault Refusal := actR .none swapLoaded s

/-- No peloton is in flight: the new image starts from the old one's state block. -/
def swapSwitch (b : Block) : Block :=
  if b.getF F.BRP_STAT_swap = 2 ∧ (b.ste.pelotons.all fun e => decide (e.2.phase = .ready)) then
    updBrp (fun r => { r with switched := true }) b
  else b

/-- FW_SWAP_SWITCH (R398). -/
def execFwSwapSwitch (s : State) : Host.Outcome State Fault Refusal := actR .none swapSwitch s

/-- The image that a component's slot holds. -/
def imageIn (b : Block) (slotB : Bool) (n : Nat) : ImageSlot :=
  ((if slotB then b.rtp.slotB else b.rtp.slotA)[n]?).getD ImageSlot.shipped

/-- The new image accepts the state block: dispatch resumes, and open batches are marked (Table 15.8). -/
def swapAccept (b : Block) : Block :=
  if b.brp.switched = false then b
  else
    let toB := !activeIsB b 1
    let b := updRtp (fun r => { r with
      activeB := r.activeB.set 1 toB, runB := r.runB.set 1 toB, running := r.running.set 1 (imageIn b toB 1),
      batches := r.batches.map fun e => (e.1, { e.2 with swapped := true }) }) b
    (updBrp (fun r => { r with switched := false }) (b.setF F.BRP_STAT_swap 0)).bump F.BRP_CNT_fw_swaps

/-- FW_SWAP_ACCEPT (R398). -/
def execFwSwapAccept (s : State) : Host.Outcome State Fault Refusal := actR .none swapAccept s

/-- 5 ms pass, or the new image refuses: the old one resumes. -/
def swapReverts (b : Block) : Block :=
  if b.brp.switched = false then b
  else (updBrp (fun r => { r with switched := false }) (b.setF F.BRP_STAT_swap 3)).bump F.BRP_CNT_swap_err

/-- FW_SWAP_TIMEOUT (R398). -/
def execFwSwapTimeout (s : State) : Host.Outcome State Fault Refusal := actR .none swapReverts s

end Sys2Proof.Machine
end

