-- ==== Sys2Proof/Machine/Models.lean ====
section
/-! DEFINITION. Model slots and overlays (R148, R237, R339 to R344, R349 to R351): MLOAD and MUNLOAD of a model, OVERLAY
and OVERLAY_APPLY. -/

namespace Sys2Proof.Machine

/-! ### Model images (R105, R237, R339, R340) -/

/-- Bits of an element of a format (Table 8.3); none for a reserved code. -/
def formatBits (code : Nat) : Option Nat := [32, 16, 16, 8, 8, 6, 6, 4, 8, 4, 1][code]?

/-- A model program header (Table 14.5). -/
structure ProgramHeader where
  isa : Nat
  draft : Bool
  tuning : Bool
  kvFormat : Nat
  layers : Nat
  elems : Nat
  vocab : Nat
  targetDg : Bytes
  deriving DecidableEq, Repr

/-- The header of a program image; none where it breaks Table 14.5 or declares another Spoke ISA (R237). -/
def programHeader (img : Bytes) : Option ProgramHeader :=
  let flags := bytesAt img 6 1
  let h : ProgramHeader :=
    { isa := bytesAt img 5 1 * 16 + bytesAt img 4 1, draft := flags.testBit 0, tuning := flags.testBit 1,
      kvFormat := bytesAt img 7 1, layers := bytesAt img 8 2, elems := bytesAt img 10 2, vocab := bytesAt img 12 4,
      targetDg := (img.drop 64).take 32 }
  let zeroKv := decide (h.kvFormat = 0 ∧ h.layers = 0 ∧ h.elems = 0)
  if img.length < 128 ∨ bytesAt img 0 4 ≠ 0x4D504C49 ∨ bytesAt img 5 1 ≠ 1 ∨ 1 < bytesAt img 4 1 ∨ 4 ≤ flags
      ∨ 32 ≤ h.kvFormat ∨ bytesAt img 16 48 ≠ 0 ∨ bytesAt img 96 32 ≠ 0 ∨ (h.draft = true ∧ zeroKv = false) then none
  else some h

/-- Row width w of a format and E elements; none where R105 is broken. -/
def rowWidth (kvFormat layers elems : Nat) : Option Nat :=
  match formatBits (kvFormat % 16) with
  | none => none
  | some bits =>
    let w := elems * bits / 8 + (if kvFormat.testBit 4 then elems / 32 else 0)
    if layers = 0 ∨ elems = 0 ∨ elems * bits % 8 ≠ 0 ∨ (kvFormat.testBit 4 = true ∧ elems % 32 ≠ 0) ∨ 16 * w % 64 ≠ 0 then none
    else some w

/-- The geometry class of a layer count and a row width: an existing one, else the lowest free number; none when all 256
are in use (R105). -/
def takeClass (layers w elems : Nat) (b : Block) : Option (Nat × Block) :=
  match b.ses.classes.find? fun e => decide (e.2.layers = layers ∧ e.2.rowBytes = w) with
  | some e => some (e.1, b)
  | none =>
    ((List.range 256).find? fun c => (tget b.ses.classes c).isNone).map fun c =>
      (c, { b with ses := { b.ses with classes := tset b.ses.classes c ⟨layers, w, elems⟩ } })

/-- A refill of an emptied slot that sessions still name (R342): the same weights and the same geometry. -/
def refillOk (old : ModelSlot) (h : ProgramHeader) (w : Nat) (dg : Bytes) : Bool :=
  let g := slotGeom old
  decide (old.state = slEmpty) && !h.draft && decide (old.weightsDg = dg ∧ g.layers = h.layers ∧ g.rowBytes = w)

/-- The sessions that name a slot take the class of the model loaded into it (R105, R342). -/
def putClass (n cls : Nat) (b : Block) : Block :=
  let put := fun (e : Nat × Session) => if e.2.modelSlot = n then (e.1, { e.2 with cls := cls }) else e
  { b with ses := { b.ses with slots := b.ses.slots.map put } }

/-- MLOAD of a model once its images are read (R340, R342, R344). -/
def loadModel (c : Ctx) (n : Nat) (weights program : Bytes) (h : ProgramHeader) (w : Nat) (b : Block) : Ans :=
  let old := modelSlot b n
  let dg := sha256 weights
  if (old.map fun m => refillOk m h w dg) = some false then Ans.malformed b
  else
    let owner := (old.map (·.owner)).getD c.tenant
    let bytes := weights.length + program.length
    if b.getFi F.STE_TQ_SCHED_model_gib owner * 2 ^ 30 < tenantModelBytes b owner + bytes then .done St.quota none b
    else match (if h.draft then some (0, b) else takeClass h.layers w h.elems b) with
      | none => .done St.quota none b
      | some (cls, b') =>
        match takeExtents 0 (extentsFor weights.length + extentsFor program.length) owner (.model n) b' with
        | none => .done St.quota none b
        | some (_, b) =>
          let m : ModelSlot :=
            { state := slReady, draft := h.draft, tuning := h.tuning, shared := c.e.a.testBit 11, owner := owner, cls := cls,
              kvFormat := h.kvFormat, layers := h.layers, elems := h.elems, vocab := h.vocab, isa := h.isa,
              targetDg := h.targetDg, weightsDg := dg, programDg := sha256 program, bytes := bytes, adapters := [],
              loadNs := b.now, adapterNs := b.now, damaged := false }
          .done St.ok (some dg) (putClass n cls (setModel n (some m) b))

/-- MLOAD with `kind` 0 (R339, R340). -/
def mloadModel (c : Ctx) (b : Block) : Ans :=
  let n := bitsOf c.e.a 0 8
  let wa := c.arg b 32 8
  let wl := c.arg b 40 8
  let pa := c.arg b 48 8
  let pl := c.arg b 56 8
  if wa % 64 ≠ 0 ∨ pa % 64 ≠ 0 ∨ c.reads b wa wl = false ∨ c.reads b pa pl = false then Ans.malformed b
  else if ((modelSlot b n).map fun m => decide (m.state ≠ slEmpty)) = some true then Ans.malformed b
  else
    let program := b.peek pa pl
    match programHeader program with
    | none => Ans.malformed b
    | some h =>
      let zeroTarget := decide (leVal h.targetDg = 0)
      if h.draft ≠ c.e.a.testBit 8 ∨ (h.draft = zeroTarget) then Ans.malformed b
      else if h.draft then loadModel c n (b.peek wa wl) program h 0 b
      else match rowWidth h.kvFormat h.layers h.elems with
        | none => Ans.malformed b
        | some w => loadModel c n (b.peek wa wl) program h w b

/-- MLOAD_MODEL of a request (R340). -/
def execMloadModel (rid : Nat) (s : State) : Host.Outcome State Fault Refusal :=
  actC .none (runRow .mloadModel mloadModel rid) s

/-- MUNLOAD with `kind` 0 (R342, R343). -/
def munloadModel (c : Ctx) (b : Block) : Ans :=
  let n := bitsOf c.e.a 0 8
  match modelSlot b n with
  | none => Ans.malformed b
  | some m =>
    if m.state = slEmpty then Ans.malformed b
    else if mayUnload c m.owner b = false then Ans.malformed (violation 5 c.tenant c.ring n b)
    else if m.state ≠ slReady then Ans.malformed b
    else .done St.ok none (setModel n (some { m with state := slDraining }) b)

/-- MUNLOAD_MODEL of a request (R342). -/
def execMunloadModel (rid : Nat) (s : State) : Host.Outcome State Fault Refusal :=
  actC .none (runRow .munloadModel munloadModel rid) s

/-! ### Overlays (R148, R349, R350) -/

/-- The shaper that a TSH_SEL value selects (Table 13.19). -/
def shaperOfSel (v : Nat) : Option Nat := shaperInst (bitsOf v 16 2) (bitsOf v 0 16)

/-- `n` shaper entries of an overlay image: a TSH_SEL value and a TSH_CFG value. -/
def shaperEntries : Nat → Bytes → List (Nat × Nat)
  | 0, _ => []
  | n + 1, bs => (bytesAt bs 0 8, bytesAt bs 8 8) :: shaperEntries n (bs.drop 16)

/-- The overlay that an image holds (Table 14.7); none where R350 refuses it. -/
def parseOverlay (img key : Bytes) (rid : Nat) : Option Overlay :=
  let n := bytesAt img 28 2
  let body := img.take (64 + 16 * n)
  let entries := shaperEntries n (img.drop 64)
  let field := fun (lo w least most : Nat) => decide (least ≤ bytesAt img lo w ∧ bytesAt img lo w ≤ most)
  if img.length ≠ 64 + 16 * n + 384 ∨ bytesAt img 0 4 ≠ 0x59414C4F ∨ bytesAt img 4 1 ≠ 0x10 ∨ 1024 < n
      ∨ bytesAt img 6 2 ≠ 0 ∨ bytesAt img 30 34 ≠ 0 ∨ field 5 1 0 4 = false ∨ field 16 2 1 4096 = false
      ∨ field 18 2 1 65535 = false ∨ field 20 2 16 65535 = false ∨ field 22 1 1 255 = false ∨ field 23 1 1 255 = false
      ∨ (entries.all fun e => (shaperOfSel e.1).isSome) = false
      ∨ Config.rsaVerify key (sha256 body) (img.drop (64 + 16 * n)) = false then none
  else some
    { rid := some rid, digest := sha256 body, role := bytesAt img 5 1, maxSeq := bytesAt img 16 2,
      prefillChunk := bytesAt img 18 2, mixedBudget := bytesAt img 20 2, catchupMax := bytesAt img 22 1,
      acceptWait := bytesAt img 23 1, lendGib := bytesAt img 24 4, shapers := entries }

/-- Another OVERLAY decoded earlier waits for its turn (R350). -/
def earlierOverlay (b : Block) (c : Ctx) : Bool :=
  b.fe.reqs.any fun e => decide (e.1 ≠ c.rid) && decide (e.2.kind = .normal) && decide (e.2.wait = .retry) &&
    match currentEntry e.2 with
    | none => false
    | some i => decide (i.opcode = 0x31) && decide (i.order < c.e.order)

/-- OVERLAY (R350): admitted in decode order, it stops dispatch and waits for the derailleur (R148). -/
def overlay (c : Ctx) (b : Block) : Ans :=
  if b.ten.overlay.isSome ∨ earlierOverlay b c then .wait .retry b
  else
    let addr := c.opB
    let len := c.arg b 32 4
    if addr % 64 ≠ 0 ∨ c.reads b addr len = false then Ans.malformed b
    else match b.rtp.overlayKey with
      | none => Ans.malformed b
      | some key => match parseOverlay (b.peek addr len) key c.rid with
        | none => Ans.malformed b
        | some o => .wait .overlay { b with
            ten := { b.ten with overlay := some o }
            ste := { b.ste with stopped := true } }

/-- OVERLAY of a request (R350). -/
def execOverlay (rid : Nat) (s : State) : Host.Outcome State Fault Refusal := actC .none (runRow .overlay overlay rid) s

/-- The search role (Table 6.9). -/
def roleSearch : Nat := 4

/-- MiB of hub SRAM by use under a role, in the rows of Table 1.3: session cache, page-table cache, text unit, peloton and
dispatch state, the rest (R9). -/
def sramDivision (role : Nat) : List Nat := if role = roleSearch then [64, 48, 32, 8, 40] else [64, 48, 32, 24, 24]

/-- The settings of an overlay put in force (R9, R148, R350). -/
def putOverlay (o : Overlay) (b : Block) : Block :=
  let b := b.setF F.STE_STAT_role o.role
  let b := b.setF F.STE_CFG_max_seq o.maxSeq
  let b := b.setF F.STE_CFG_prefill_chunk o.prefillChunk
  let b := b.setF F.STE_CFG_mixed_budget o.mixedBudget
  let b := b.setF F.STE_CFG_catchup_max o.catchupMax
  let b := b.setF F.STE_CFG_accept_wait_10us o.acceptWait
  let b := o.shapers.foldl (fun b e => match shaperOfSel e.1 with
    | some i => shaperSet i e.2 b
    | none => b) b
  { b with
    ten := { b.ten with overlayDg := some o.digest, lendGib := o.lendGib, overlay := none, sram := sramDivision o.role }
    ste := { b.ste with stopped := false } }

/-- The derailleur applies the admitted overlay once no peloton is in flight and no interrupted step is left; its
OVERLAY completes (R21, R148, R350). -/
def applyOverlay (b : Block) : Block :=
  match b.ten.overlay with
  | none => b
  | some o =>
    if b.ste.pelotons.any fun e => decide (e.2.phase ≠ .ready) then b
    else
      let b := putOverlay o b
      match o.rid with
      | none => b
      | some r => if (req b r).any fun q => decide (q.wait = .overlay) then instrDone r St.ok (some o.digest) b else b

/-- OVERLAY_APPLY (R148). -/
def execOverlayApply (s : State) : Host.Outcome State Fault Refusal := actC .none applyOverlay s

end Sys2Proof.Machine
end

