-- ==== Sys2Proof/Machine/Power.lean ====
section
/-! DEFINITION. The power management controller (R416 to R432): the cap, CADENCE hints, energy, temperature, the hard brake
and standby. -/

namespace Sys2Proof.Machine

/-- The PMC changed. -/
def updPmc (f : PmcState → PmcState) (b : Block) : Block := { b with pmc := f b.pmc }

/-- Power states (Table 18.8). -/
def psRun : Nat := 0
def psBraking : Nat := 1
def psBraked : Nat := 2
def psLeaving : Nat := 3

/-! ### Ceilings (R419, R420, R426) -/

/-- Full value of a thermal limit, in 1/2,100; a step is a tenth of it. -/
def fullLimit : Nat := 2100

/-- A thermal limit by site: 0 hub, 1 to 4 wheel dies, 5 to 12 base dies, 13 to 20 stacks, 21 carrier. -/
def thermalLimit (b : Block) (site : Nat) : Nat := tgetD b.pmc.limits site fullLimit

/-- Floor of a site's limit (Table 18.1): 100 of 700 MHz, or 120 of 420 W for memory. -/
def limitFloor (site : Nat) : Nat := if 5 ≤ site ∧ site ≤ 20 then 600 else 300

/-- Cap in force (Table 18.7). -/
def capWatts (b : Block) : Nat := max 600 (min 2000 (b.getF F.PMC_CFG_cap_w))

/-- Equalised ceiling in force (Table 18.7). -/
def eqMhz (b : Block) : Nat := max 100 (min 700 (b.getF F.PMC_CFG_eq_mhz)) / 10 * 10

/-- Ceiling of a wheel die's Spokes (R419). -/
def wheelCeiling (b : Block) (w : Nat) : Nat :=
  let c := min (min 700 b.pmc.capMhz) (min (thermalLimit b (1 + w) / 3) (thermalLimit b 21 / 3))
  if b.isSet F.PMC_CFG_equalised then min c (eqMhz b) else c

/-- Lowest Spoke-island ceiling in force. -/
def lowestCeiling (b : Block) : Nat := [0, 1, 2, 3].foldl (fun c w => min c (wheelCeiling b w)) 700

/-- A thermal limit is below its full value (R426). -/
def anyThermal (b : Block) : Bool := b.pmc.limits.any fun e => decide (e.2 < fullLimit)

/-- `thermal`, `eq_broken` and `ceil_mhz` brought up to date, with their counters and PMC_THROTTLE (R419, R420, R426). -/
def settlePower (b : Block) : Block :=
  let b := b.setF F.PMC_STAT_ceil_mhz (lowestCeiling b)
  let thermal := anyThermal b
  let b := if thermal && !b.isSet F.PMC_STAT_thermal then b.bump F.PMC_CNT_throttles else b
  let b := b.setF F.PMC_STAT_thermal (if thermal then 1 else 0)
  let broken := b.isSet F.PMC_CFG_equalised && (decide (lowestCeiling b < eqMhz b) || b.pmc.heldBack)
  let b := if broken && !b.isSet F.PMC_STAT_eq_broken then (b.setF F.PMC_STAT_eq_broken_seen 1).bump F.PMC_CNT_eq_breaks else b
  let b := b.setF F.PMC_STAT_eq_broken (if broken then 1 else 0)
  setLevel Src.pmcThrottle (thermal || broken) b

/-! ### The cap loop (R417, R418, R423) -/

/-- Floor of a limited domain (Table 18.1): 0 links, 1 memory, 2 compute. -/
def domFloor (d : Nat) : Nat := if d = 0 then 60 else if d = 1 then 120 else 200

/-- A budget shared in order: each domain has its demand, as far as the floors of those after it leave room. -/
def shareBudget (demand : Nat → Nat) : List Nat → Nat → List (Nat × Nat)
  | [], _ => []
  | d :: ds, budget =>
    let rest := (ds.map domFloor).sum
    let give := max (domFloor d) (min (demand d) (budget - rest))
    (d, give) :: shareBudget demand ds (budget - give)

/-- The order in which domains are served; in equalised mode compute holds its ceiling first (R420). -/
def domOrder (b : Block) : List Nat :=
  let o := [b.getF F.PMC_CFG_order0, b.getF F.PMC_CFG_order1, b.getF F.PMC_CFG_order2]
  if b.isSet F.PMC_CFG_equalised then 2 :: o.filter (· ≠ 2) else o

/-- A span of time widened by the windows that overlap it, as often as the fuel says. -/
def widenWindow (hs : List Hint) : Nat → Nat × Nat → Nat × Nat
  | 0, w => w
  | n + 1, w => widenWindow hs n (hs.foldl (fun w h =>
      if h.start < w.2 ∧ w.1 < h.start + h.duration then (min w.1 h.start, max w.2 (h.start + h.duration)) else w) w)

/-- Share of `cap_w` that the windows give compute now (R423): overlapping windows act as one with the largest share, in the
first 100 µs of it. -/
def hintShare (b : Block) : Nat :=
  let hs := (b.pmc.hints.filter fun e => e.2.active).map (·.2)
  match hs.find? fun h => decide (h.start ≤ b.now) && decide (b.now < h.start + h.duration) with
  | none => 0
  | some h =>
    let w := widenWindow hs hs.length (h.start, h.start + h.duration)
    if w.1 + 100000 ≤ b.now then 0
    else (hs.filter fun h => decide (w.1 ≤ h.start) && decide (h.start < w.2)).foldl (fun m h => max m h.share) 0

/-- What a domain is given. -/
def givenTo (gs : List (Nat × Nat)) (d : Nat) : Nat := ((gs.find? fun g => decide (g.1 = d)).map (·.2)).getD (domFloor d)

/-- The compute ceiling for what compute is given, in steps of 10 MHz; the part fixes it (R417). -/
def ceilingFor (demand give moment : Nat) : Nat :=
  if demand ≤ give then 700 else max 100 (min 700 (Config.computeCeiling give moment / 10 * 10))

/-- A sample of the carrier's rail monitors, every 20 µs (R417, R418). -/
def pmcSample (m : PowerSample) (b : Block) : Block :=
  let compute := max m.demandCompute (hintShare b * capWatts b / 100)
  let demand := fun (d : Nat) => if d = 0 then m.demandLinks else if d = 1 then m.demandMem else compute
  let gs := shareBudget demand (domOrder b) (capWatts b - m.fixed)
  let (n, b) := b.takeFresh
  let held := decide (givenTo gs 0 < m.demandLinks) || decide (givenTo gs 1 < m.demandMem)
  let us := if b.pmc.coolantOk then b.pmc.okUs + 20 else 0
  let b := updPmc (fun p => { p with
    give := (givenTo gs 0, givenTo gs 1, givenTo gs 2), capMhz := ceilingFor compute (givenTo gs 2) n, heldBack := held,
    okUs := us }) b
  let b := (b.setF F.PMC_POWER_input_w (min m.input 0xFFFF)).setF F.PMC_POWER_links_w (min m.linksW 0xFFF)
  let b := (b.setF F.PMC_POWER_mem_w (min m.memW 0xFFF)).setF F.PMC_POWER_compute_w (min m.computeW 0xFFF)
  settlePower (b.setF F.PMC_POWER_fixed_w (min m.fixed 0xFFF))

/-- PMC_SAMPLE (R418). -/
def execPmcSample (m : PowerSample) (s : State) : Host.Outcome State Fault Refusal := act .none (pmcSample m) s

/-- SUPPLY_DROOP (R419). -/
def execSupplyDroop (spk : Nat) (s : State) : Host.Outcome State Fault Refusal :=
  act (.spoke spk) (fun b => b.bumpFi F.SPK_ERR_stretch spk 1) s

/-! ### CADENCE hints (R422, R423) -/

/-- CADENCE (R422). -/
def cadence (c : Ctx) (b : Block) : Ans :=
  let duration := bitsOf c.e.a 0 16 * 10000
  let share := bitsOf c.e.a 16 8
  if duration = 0 ∨ share = 0 ∨ 100 < share then Ans.malformed b
  else if c.opB + duration ≤ b.now ∨ 16 ≤ (b.pmc.hints.filter fun e => decide (e.2.tenant = c.tenant)).length
      ∨ 1024 ≤ b.pmc.hints.length then .done St.ok none (b.bump F.PMC_CNT_cadence_drop)
  else .done St.ok none (updPmc (fun p => { p with
    hints := tset p.hints (freshKey p.hints) ⟨c.tenant, c.opB, duration, share, false⟩ }) b)

/-- CADENCE of a request (R422). -/
def execCadence (rid : Nat) (s : State) : Host.Outcome State Fault Refusal := actC .none (runRow .cadence cadence rid) s

/-- A held hint's window opens, `cad_lead_us` before its start (R423). -/
def windowStarts (n : Nat) (b : Block) : Block :=
  match tget b.pmc.hints n with
  | none => b
  | some h =>
    if b.stale ∨ b.now + b.getF F.PMC_CFG_cad_lead_us * 1000 < h.start then b
    else updPmc (fun p => { p with hints := tset p.hints n { h with active := true } }) b

/-- CADENCE_WINDOW_START (R423). -/
def execCadenceWindowStart (hint : Nat) (s : State) : Host.Outcome State Fault Refusal := act .none (windowStarts hint) s

/-- A held hint's window has ended, and the hint is discarded (R422). -/
def windowEnds (n : Nat) (b : Block) : Block :=
  match tget b.pmc.hints n with
  | none => b
  | some h =>
    if h.start + h.duration ≤ b.now then updPmc (fun p => { p with hints := tdel p.hints n }) b else b

/-- CADENCE_WINDOW_END (R422). -/
def execCadenceWindowEnd (hint : Nat) (s : State) : Host.Outcome State Fault Refusal := act .none (windowEnds hint) s

/-! ### Energy (R424) -/

/-- An update of the energy counters. -/
def chargeEnergy (e : EnergyReport) (b : Block) : Block :=
  match e with
  | .step t energy rings =>
    let total := (rings.map (·.2)).sum
    rings.foldl (fun b r => b.bumpFi F.PMC_E_RING_energy_uj (r.1 % 65536) (energy * r.2 / total))
      (b.bumpFi F.PMC_E_TEN_energy_uj (t % 4096) energy)
  | .work t ring energy =>
    let b := b.bumpFi F.PMC_E_TEN_energy_uj (t % 4096) energy
    match ring with
    | some r => b.bumpFi F.PMC_E_RING_energy_uj (r % 65536) energy
    | none => b
  | .unattributed energy => b.bumpN F.PMC_E_MOD_energy_uj energy

/-- ENERGY_UPDATE (R424). -/
def execEnergyUpdate (e : EnergyReport) (s : State) : Host.Outcome State Fault Refusal := act .none (chargeEnergy e) s

/-! ### The hard brake (R428, Table 18.4) -/

/-- The brake starts (order 2), with its cause. In STANDBY the module is braked at once (R431). -/
def startBrake (cause : Nat) (b : Block) : Block :=
  let ps := b.getF F.PMC_STAT_pstate
  if ps = psBraking ∨ ps = psBraked then b
  else
    let b := fire Src.pmcBraked ((b.setF F.PMC_STAT_cause cause).bump F.PMC_CNT_brakes)
    let b := if b.getF F.PMC_CMD_state = 1 then (b.setF F.PMC_CMD_state 3).setF F.PMC_CMD_err 4 else b
    if ps = pstateStandby then updPmc (fun p => { p with fromStandby := true }) (b.setF F.PMC_STAT_pstate psBraked)
    else b.setF F.PMC_STAT_pstate psBraking

/-- COOLANT_OK falls, and stays low for 5 µs (R428). -/
def coolantFalls (b : Block) : Block :=
  let b := updPmc (fun p => { p with coolantOk := false, okUs := 0 }) b
  if b.up then startBrake 1 b else b

/-- COOLANT_OK_FALL (R428). -/
def execCoolantOkFall (s : State) : Host.Outcome State Fault Refusal := actB .none coolantFalls s

/-- COOLANT_OK_RISE (R430): the time it has been high counts from here. -/
def execCoolantOkRise (s : State) : Host.Outcome State Fault Refusal :=
  actB .none (updPmc fun p => { p with coolantOk := true, okUs := 0 }) s

/-- THERM_TRIP_N is driven low from outside (R427, R428). -/
def tripFalls (b : Block) : Block :=
  let b := updPmc (fun p => { p with tripLow := true }) b
  if b.up then startBrake 2 b else b

/-- THERM_TRIP_N_LOW (R428). -/
def execThermTripNLow (s : State) : Host.Outcome State Fault Refusal := actB .none tripFalls s

/-- THERM_TRIP_N_RISE (R448): no outside driver holds it any more. -/
def execThermTripNRise (s : State) : Host.Outcome State Fault Refusal :=
  actB .none (updPmc fun p => { p with tripLow := false }) s

/-- Every Spoke stops: what it held is lost, and one that drained or had faulted goes to its test (orders 3 and 4). -/
def stopSpokes (b : Block) : Block :=
  b.spk.spokes.foldl (fun b e =>
    if e.2.halted then releaseHalted e.1 (setSpoke e.1 { e.2 with copies := [] } b)
    else settleSpoke e.1 (setSpoke e.1 Spoke.reset b)) b

/-- Chains of a peloton's step leave the save slots. -/
def dropSaved (place : Nat) (p : Peloton) (b : Block) : Block :=
  setSaved (b.spk.saved.filter fun c => decide ((c.tenant, c.slot, c.place) ≠ (p.tenant, p.slot, place))) b

/-- A step in flight abandoned (order 3): its leases and snapshots stay, and it will run again from them. One that was to end
anyway has no tile left to run. -/
def brakeStep (place : Nat) (p : Peloton) (b : Block) : Block :=
  if p.phase ≠ .flight then b
  else
    let b := p.seqs.foldl (fun b s => if p.torn || p.abandon || p.prog then b else discardRows s b) (dropSaved place p b)
    if p.torn || p.abandon || p.prog then setPel place (some { p with tilesOut := 0, tilesLeft := 0, preempting := false }) b
    else
      let b := p.seqs.foldl (fun b s => stageSeq s b) b
      setPel place (some { p with
        fault := none, tilesLeft := p.tiles, tilesOut := 0, failed := [], preempting := false, targeted := [] }) b

/-- Rails of the wheel dies (Table 19.2). -/
def wheelRails : List Nat := [10, 11, 12, 13]

/-- Some rails off, or in regulation. -/
def setRails (rails : List Nat) (on : Bool) (b : Block) : Block :=
  let rest := b.mod.railsUp.filter fun r => !rails.contains r
  { b with mod := { b.mod with railsUp := if on then rest ++ rails else rest } }

/-- Memory writes in flight are complete (order 4): compute rails off, and BRAKED. -/
def enterBraked (b : Block) : Block :=
  if b.getF F.PMC_STAT_pstate ≠ psBraking then b
  else
    let b := b.ste.pelotons.foldl (fun b e => brakeStep e.1 e.2 b) (stopSpokes b)
    (setRails wheelRails false b).setF F.PMC_STAT_pstate psBraked

/-- BRAKED_ENTER (R428). -/
def execBrakedEnter (s : State) : Host.Outcome State Fault Refusal := act .none enterBraked s

/-! ### Temperature (R426, R427) -/

/-- A sensor at reset (Table 18.3): its thresholds by site. -/
def sensorReset (i : Nat) : Sensor :=
  if i < 40 then ⟨0, 100, 110, false, false⟩
  else if i < 48 then ⟨0, 95, 105, false, false⟩
  else if i < 56 then ⟨0, 90, 100, false, false⟩
  else ⟨0, 110, 125, false, false⟩

/-- A sensor. -/
def sensor (b : Block) (i : Nat) : Sensor := tgetD b.pmc.sensors i (sensorReset i)

/-- A sensor changed. -/
def setSensor (i : Nat) (x : Sensor) (b : Block) : Block := updPmc (fun p => { p with sensors := tset p.sensors i x }) b

/-- A temperature of 11 bits, two's complement, in units of 0.125 °C. -/
def tempOf (v : Nat) : Int := if v < 1024 then Int.ofNat v else Int.ofNat v - 2048

/-- Some sensor has `tripped` set: the module drives THERM_TRIP_N low (R427). -/
def tripDriven (b : Block) : Bool := b.pmc.sensors.any fun e => e.2.tripped

/-- A sensor's temperature: at or above `throttle_c` it sets `throttling`, at `trip_c` it sets `tripped`; below `throttle_c`
both clear (R426, R427). A trip starts the brake. -/
def senseTemp (i temp : Nat) (b : Block) : Block :=
  let x := sensor b i
  let t := tempOf temp
  let hot := decide (Int.ofNat (8 * x.throttleC) ≤ t)
  let trip := decide (Int.ofNat (8 * min x.tripC (sensorReset i).tripC) ≤ t)
  let driven := tripDriven b
  let b := setSensor i { x with temp := temp, throttling := hot, tripped := hot && (trip || x.tripped) } b
  if tripDriven b && !driven && b.up then startBrake 3 b else b

/-- THROTTLE_SET (R426). -/
def execThrottleSet (sensor : Nat) (temp : BitVec 11) (s : State) : Host.Outcome State Fault Refusal :=
  actB (.sensor sensor) (senseTemp sensor temp.toNat) s

/-- SENSOR_TRIP (R427, R441). -/
def execSensorTrip (sensor : Nat) (temp : BitVec 11) (s : State) : Host.Outcome State Fault Refusal :=
  actB (.sensor sensor) (senseTemp sensor temp.toNat) s

/-- SENSOR_BELOW_THROTTLE (R427). -/
def execSensorBelowThrottle (sensor : Nat) (temp : BitVec 11) (s : State) : Host.Outcome State Fault Refusal :=
  actB (.sensor sensor) (senseTemp sensor temp.toNat) s

/-- Sensors of a site (Table 18.3). -/
def siteSensors (site : Nat) : List Nat :=
  if site = 0 then List.range 8
  else if site ≤ 4 then (List.range 8).map (8 * site + ·)
  else if site ≤ 12 then [35 + site]
  else if site ≤ 20 then [35 + site]
  else if site = 21 then [56, 57, 58, 59]
  else []

/-- A site's limit set. -/
def setLimit (site v : Nat) (b : Block) : Block :=
  settlePower (updPmc (fun p => { p with limits := if fullLimit ≤ v then tdel p.limits site else tset p.limits site v }) b)

/-- A millisecond with a sensor of the site throttling: the limit falls by a tenth of its full value (R426). -/
def throttleDown (site : Nat) (b : Block) : Block :=
  if (siteSensors site).any fun i => (sensor b i).throttling then
    setLimit site (max (limitFloor site) (thermalLimit b site - 210)) b
  else b

/-- THROTTLE_STEP_DOWN (R426). -/
def execThrottleStepDown (site : Nat) (s : State) : Host.Outcome State Fault Refusal :=
  act (.sensor site) (throttleDown site) s

/-- Ten milliseconds with every sensor of the site below `throttle_c` − 3 °C: the limit rises by a tenth (R426). -/
def throttleUp (site : Nat) (b : Block) : Block :=
  if (siteSensors site).all fun i => decide (tempOf (sensor b i).temp < Int.ofNat (8 * (sensor b i).throttleC) - 24) then
    setLimit site (thermalLimit b site + 210) b
  else b

/-- THROTTLE_STEP_UP (R426). -/
def execThrottleStepUp (site : Nat) (s : State) : Host.Outcome State Fault Refusal := act (.sensor site) (throttleUp site) s

/-! ### PMC_CMD (R430 to R432) -/

/-- A command of PMC_CMD ends: 0 done, else in error (Table 18.10). -/
def pmcEnds (err : Nat) (b : Block) : Block := (b.setF F.PMC_CMD_state (if err = 0 then 2 else 3)).setF F.PMC_CMD_err err

/-- THERM_TRIP_N is low, from any driver. -/
def tripIsLow (b : Block) : Bool := b.pmc.tripLow || tripDriven b

/-- `unbrake` refused (R430): 0, or the error of Table 18.10. -/
def unbrakeErr (b : Block) : Nat :=
  if b.getF F.PMC_STAT_pstate ≠ psBraked then 4
  else if b.pmc.coolantOk = false ∨ b.pmc.okUs < 2000000 then 1
  else if tripIsLow b = true ∨ (b.pmc.sensors.any fun e => e.2.throttling) = true then 2
  else 0

/-- `unbrake` (R430): through LEAVING, or back to STANDBY (R431). -/
def unbrake (b : Block) : Block :=
  match unbrakeErr b with
  | 0 =>
    if b.pmc.fromStandby then
      pmcEnds 0 (updPmc (fun p => { p with fromStandby := false }) (b.setF F.PMC_STAT_pstate pstateStandby))
    else ((b.setF F.PMC_STAT_pstate psLeaving).setF F.PMC_CMD_state 1).setF F.PMC_CMD_err 0
  | e => pmcEnds e b

/-- UNBRAKE (R430, R432). -/
def execUnbrake (who : Caller) (s : State) : Host.Outcome State Fault Refusal :=
  act .none (fun b => if who.isMgmt then unbrake b else b) s

/-- Steps that were to end as the brake came end now. -/
def endBraked (b : Block) : Block :=
  b.ste.pelotons.foldl (fun b e =>
    if e.2.phase = .flight ∧ e.2.tilesLeft = 0 ∧ e.2.tilesOut = 0 then settleResets (endStepTiles e.1 b) else b) b

/-- What waited while the module did no work goes on: deadlines that passed (R17), acknowledgements, and shard queries. -/
def resumeWork (b : Block) : Block := endBraked (serveWaiting (releaseAcked (deadlineSweep b)))

/-- Compute rails are up, and HBM has left self-refresh (R430): abandoned steps run again, and fetch resumes. -/
def leaveComplete (b : Block) : Block :=
  if b.getF F.PMC_STAT_pstate ≠ psLeaving then b
  else
    let b := pmcEnds 0 ((setRails wheelRails true b).setF F.PMC_STAT_pstate psRun)
    if b.isSet F.CMP_ID_isolated then b else resumeWork b

/-- LEAVE_COMPLETE (R430). -/
def execLeaveComplete (s : State) : Host.Outcome State Fault Refusal := actR .none leaveComplete s

/-- The module is idle as `standby` asks (R431). -/
def standbyIdle (b : Block) : Bool :=
  !b.isSet F.CMP_ID_in_domain && decide (poolInflight b = 0) && decide (motionsActive b = 0) && decide (motionsQueued b = 0)
    && b.ste.pelotons.isEmpty && b.tdm.ckpt.isNone && decide (b.getF F.TDM_STAT_tstate = tdNone) && b.tdm.kept.isNone

/-- A port's state set as the module enters or leaves STANDBY. -/
def standbyPort (p st : Nat) (b : Block) : Block :=
  if b.getFi F.FLL_PORT_STAT_state p = st then b
  else fire Src.portEvent (setPort p { portOf b p with stage := 0, swapping := none } (b.setFi F.FLL_PORT_STAT_state p st))

/-- Ports 1 to 17. -/
def otherPorts : List Nat := (List.range 17).map (· + 1)

/-- `standby` (R431): ports 1 to 17 down, port 0 idle at half width. -/
def standby (b : Block) : Block :=
  if b.getF F.PMC_STAT_pstate ≠ psRun then pmcEnds 4 b
  else if standbyIdle b = false then pmcEnds 3 b
  else
    let b := b.setF F.PMC_STAT_pstate pstateStandby
    let b := otherPorts.foldl (fun b p => standbyPort p psDown b) b
    let b := if portUp b 0 then standbyPort 0 psDegraded b else b
    pmcEnds 0 (setRails wheelRails false { b with spk := { b.spk with spokes := [] } })

/-- STANDBY (R431, R432). -/
def execStandby (who : Caller) (s : State) : Host.Outcome State Fault Refusal :=
  actR .none (fun b => if who.isMgmt then standby b else b) s

/-- The module returns to RUN (R410, R431): the interrupt state is restored, ports train again, and every watched line is
re-read (R20). -/
def wakeUp (b : Block) : Block :=
  let b := intrWake ((setRails wheelRails true b).setF F.PMC_STAT_pstate psRun)
  let b := if b.getFi F.FLL_PORT_STAT_state 0 = psDegraded ∧ 8 ≤ (goodLanes b 0).length then standbyPort 0 psUp b else b
  let b := otherPorts.foldl (fun b p => if b.getFi F.FLL_PORT_CTRL_enable p = 1 then startTraining p b else b) b
  rereadLines (deadlineSweep b)

/-- `wake`, or an invalidation of a watched tail line with `wake_on_ring` (R431). -/
def wake (src : WakeSource) (b : Block) : Block :=
  let asleep := decide (b.getF F.PMC_STAT_pstate = pstateStandby)
  match src with
  | .command who =>
    if who.isMgmt = false then b
    else if asleep then pmcEnds 0 (wakeUp b) else pmcEnds 4 b
  | .tailLine ring =>
    if asleep && b.isSet F.PMC_CFG_wake_on_ring && decide (b.getFi F.CFE_RING_STAT_state ring.toNat = rsRunning) then wakeUp b
    else b

/-- WAKE (R431). -/
def execWake (src : WakeSource) (s : State) : Host.Outcome State Fault Refusal := actR .none (wake src) s

end Sys2Proof.Machine
end

