-- ==== Sys2Proof/Machine/Module.lean ====
section
/-! DEFINITION. The board of the module (R355, R357, R433 to R453): power sequence, reset, boot, rail and clock monitors, the
recovery operations of the management bus, and the debug port. -/

namespace Sys2Proof.Machine

/-- The board changed. -/
def updMod (f : ModState → ModState) (b : Block) : Block := { b with mod := f b.mod }

/-! ### Internal reset (R355, R440, R441) -/

/-- Fields that a reset keeps: those the RTP store or the fuses hold (R353, R387, R397), and what the carrier's monitors and
straps hold in MOD_BOARD and MOD_RAIL (R435, R443). -/
def keptFields : List Fld :=
  [F.TDM_CKPT_seq, F.SPK_STATE_patched, F.SPK_STATE_fused, F.MOD_BOARD_tray_slot, F.MOD_BOARD_boot_sel,
   F.MOD_BOARD_refclk_ok, F.MOD_BOARD_reset_cause, F.MOD_BOARD_fault_rail, F.MOD_RAIL_mv, F.MOD_RAIL_warn]

/-- What the RTP keeps: fuses and store (R353); the page-serial counter as the page manager last had it (R133). -/
def rtpKept (b : Block) : RtpState :=
  { RtpState.reset with
    ratchets := b.rtp.ratchets, slotA := b.rtp.slotA, slotB := b.rtp.slotB, activeB := b.rtp.activeB,
    ownerKey := b.rtp.ownerKey, overlayKey := b.rtp.overlayKey, dkCur := b.rtp.dkCur, dkPrev := b.rtp.dkPrev,
    dkImp := b.rtp.dkImp, confNext := b.rtp.confNext, boots := b.rtp.boots, savedSerial := b.ses.nextSerial }

/-- The sensors after a reset: the same temperatures, compared with the thresholds of reset (R441). -/
def sensorsKept (b : Block) : Tab Sensor :=
  b.pmc.sensors.map fun e =>
    let x := sensorReset e.1
    let t := tempOf e.2.temp
    (e.1, { x with
      temp := e.2.temp, throttling := decide (Int.ofNat (8 * x.throttleC) ≤ t),
      tripped := decide (Int.ofNat (8 * x.throttleC) ≤ t) && (decide (Int.ofNat (8 * x.tripC) ≤ t) || e.2.tripped) })

/-- The instruction of the debug port is one the mode allows (Table 15.5). -/
def jtagAllowed (b : Block) (ir : JtagInstr) : Bool :=
  match ir with
  | .idcode => true
  | .bypass => true
  | _ => b.rtp.debugOpen && !b.rtp.conf

/-- The internal reset: every block at its reset values but for fuses, store, board, pins and temperatures; what HBM held is
unreadable (R355). The model's own records and its counter go on (log entries 3, 5, 15). -/
def resetBlock (b : Block) : Block :=
  let jtag := b.mod.jtag.map fun ir => if jtagAllowed Block.reset ir then ir else .bypass
  { Block.reset with
    flds := Block.reset.flds.foldl (fun t e => ftSet t e.1 e.2)
      (b.flds.filter fun e => keptFields.any fun f => decide (e.1.1 = f.key)),
    cmem := b.cmem, fresh := b.fresh, rdata := b.rdata, rtp := rtpKept b,
    ses := { SesState.reset with nextSerial := b.ses.nextSerial },
    link := { Block.reset.link with sent := b.link.sent, shown := b.link.shown },
    brp := { Block.reset.brp with patches := b.brp.patches, fusesUsed := b.brp.fusesUsed },
    pmc := { PmcState.reset with sensors := sensorsKept b, coolantOk := b.pmc.coolantOk, tripLow := b.pmc.tripLow },
    mod := { b.mod with released := false, i3cAddr := none, recovery := [], slotAFirst := false, jtag := jtag } }

/-- MOD_RESET_N has been low for 2 µs (R441, R442): with power good, every block is reset and the rails stay up; wheel rails
that a brake or STANDBY turned off come up again, unless COOLANT_OK is low. -/
def resetFalls (b : Block) : Block :=
  let b := updMod (fun m => { m with modResetN := false }) b
  if b.mod.pwrGood then
    let b := if b.pmc.coolantOk then setRails wheelRails true b else b
    (resetBlock b).setF F.MOD_BOARD_reset_cause 1
  else b

/-- MOD_RESET_N_FALL (R442). -/
def execModResetNFall (s : State) : Host.Outcome State Fault Refusal := actB .none resetFalls s

/-- MOD_RESET_N is high; with PWR_GOOD high too, the straps are sampled, CMP_ID `module_id` takes the tray slot, and the
internal reset is released (order 7 of Table 19.5, R443). -/
def resetRises (x : Straps) (b : Block) : Block :=
  let b := updMod (fun m => { m with modResetN := true }) b
  if b.mod.pwrGood = true ∧ b.mod.released = false then
    let b := (b.setF F.MOD_BOARD_tray_slot x.traySlot.toNat).setF F.MOD_BOARD_boot_sel (if x.bootSel then 1 else 0)
    updMod (fun m => { m with released := true }) (b.setF F.CMP_ID_module_id x.traySlot.toNat)
  else b

/-- RESET_RELEASE (R443). -/
def execResetRelease (straps : Straps) (s : State) : Host.Outcome State Fault Refusal := actB .none (resetRises straps) s

/-! ### Power sequence (R433, R435, R438 to R440) -/

/-- Rails of orders 2 to 5 of Table 19.5. -/
def stageRails (order : Nat) : List Nat :=
  match order with
  | 2 => [0, 1]
  | 3 => [2, 3, 4]
  | 4 => [5, 6, 7, 8, 9]
  | 5 => wheelRails
  | _ => []

/-- Power stage set. -/
def setStage (st : PowerStage) (b : Block) : Block := updMod (fun m => { m with stage := st }) b

/-- With the input in range, PWR_EN decides whether rails rise. -/
def startStage (b : Block) : PowerStage := if b.mod.pwrEn then .up 2 else .input

/-- The input has risen above the turn-on threshold (order 1 of Table 19.5), which lies somewhere from 38.5 V up; at 58 V the
carrier has shut down (Table 19.1, log entry 128). -/
def vinApplied (mv : Nat) (b : Block) : Block :=
  if b.mod.overvolt ∨ mv < 38500 ∨ 58000 ≤ mv then b
  else
    let b := updMod (fun m => { m with vinMv := mv }) b
    if b.mod.stage = .dead ∨ b.mod.stage = .input then setStage (startStage b) b else b

/-- VIN_APPLY (R438). -/
def execVinApply (mv : BitVec 16) (s : State) : Host.Outcome State Fault Refusal := actB .none (vinApplied mv.toNat) s

/-- PWR_EN rises: the sequence starts when the input is in range. -/
def pwrEnRises (b : Block) : Block :=
  let b := updMod (fun m => { m with pwrEn := true }) b
  if b.mod.stage = .input then setStage (.up 2) b else b

/-- PWR_EN_RISE (R438). -/
def execPwrEnRise (s : State) : Host.Outcome State Fault Refusal := actB .none pwrEnRises s

/-- A stage of Table 19.5 or 19.6 is complete. COOLANT_OK is judged as order 5 begins (R439); at order 6 PWR_GOOD rises. After
the last rails fall, the module waits at order 1 or without input. -/
def railStage (b : Block) : Block :=
  match b.mod.stage with
  | .up 4 => setStage (if b.pmc.coolantOk then .up 5 else .up 6) (setRails (stageRails 4) true b)
  | .up 6 => updMod (fun m => { m with stage := .good, pwrGood := true }) b
  | .up n => setStage (.up (n + 1)) (setRails (stageRails n) true b)
  | .down 2 => setStage (.down 3) (setRails wheelRails false b)
  | .down 3 => setStage (.down 4) (setRails (stageRails 3 ++ stageRails 4) false b)
  | .down 4 => setStage (if b.mod.overvolt ∨ b.mod.vinMv = 0 then .dead else .input) (setRails (stageRails 2) false b)
  | _ => b

/-- RAIL_STAGE_DONE (R438). -/
def execRailStageDone (s : State) : Host.Outcome State Fault Refusal := actB .none railStage s

/-- The internal reset as power goes (order 1 of Table 19.6): PWR_GOOD is low. -/
def powerReset (cause : Nat) (b : Block) : Block :=
  ((updMod (fun m => { m with pwrGood := false }) (resetBlock b)).setF F.MOD_BOARD_reset_cause cause).setF
    F.MOD_BOARD_fault_rail 0

/-- Where Table 19.6 takes the sequence up: at the last rails raised. -/
def downFrom (st : PowerStage) : PowerStage :=
  match st with
  | .good => .down 2
  | .up 2 => .down 4
  | .up 3 => .down 3
  | .up 4 => .down 3
  | .up _ => .down 2
  | x => x

/-- PWR_EN falls (R440). -/
def pwrEnFalls (b : Block) : Block :=
  let b := updMod (fun m => { m with pwrEn := false }) b
  if downFrom b.mod.stage = b.mod.stage then b else setStage (downFrom b.mod.stage) (powerReset 2 b)

/-- PWR_EN_FALL (R440). -/
def execPwrEnFall (s : State) : Host.Outcome State Fault Refusal := actB .none pwrEnFalls s

/-- Rails that are off before a loss of power concern nothing; the others are those the event names (R435). -/
def lossApplies (cause : LossCause) (b : Block) : Bool :=
  match cause with
  | .rail i => b.mod.railsUp.contains i
  | _ => true

/-- The input as a loss of power leaves it: gone, or shut off above the overvoltage threshold. -/
def loseInput (cause : LossCause) (b : Block) : Block :=
  match cause with
  | .inputLow => updMod (fun m => { m with vinMv := 0 }) b
  | .overvoltage => updMod (fun m => { m with overvolt := true }) b
  | _ => b

/-- `reset_cause` of a loss (Table 19.12). -/
def lossCode (cause : LossCause) : Nat :=
  match cause with
  | .inputLow => 3
  | .overvoltage => 3
  | .rail _ => 4
  | .vio => 5

/-- Power is lost (R435): every rail but V_AON and V_NOR goes off, and those two are held. -/
def powerLost (cause : LossCause) (b : Block) : Block :=
  if lossApplies cause b = false ∨ b.mod.stage = .dead then b
  else
    let b := loseInput cause b
    if b.mod.stage = .input then (if cause = .vio then b else setStage .dead b)
    else
      let b := setRails (stageRails 3 ++ stageRails 4 ++ wheelRails) false (powerReset (lossCode cause) b)
      let b := match cause with
        | .rail i => b.setF F.MOD_BOARD_fault_rail i
        | _ => b
      setStage (.down 4) b

/-- POWER_LOSS (R435). -/
def execPowerLoss (cause : LossCause) (s : State) : Host.Outcome State Fault Refusal := actB .none (powerLost cause) s

/-- After an overvoltage the input has fallen to the restart threshold (R433): the carrier may power again, unless the input
is below every turn-off threshold (Table 19.1). -/
def overvoltageEnds (mv : Nat) (b : Block) : Block :=
  if b.mod.overvolt = false ∨ 55500 < mv then b
  else
    let b := updMod (fun m => { m with overvolt := false, vinMv := if mv < 37000 then 0 else mv }) b
    if b.mod.stage = .dead ∧ 37000 ≤ mv then setStage (startStage b) b else b

/-- OVERVOLTAGE_RESTART (R433). -/
def execOvervoltageRestart (mv : BitVec 16) (s : State) : Host.Outcome State Fault Refusal :=
  actB .none (overvoltageEnds mv.toNat) s

/-! ### Boot (R357, Table 15.3) -/

/-- The slot of a component that the boot tries first: slot B or not. -/
def firstSlotB (b : Block) (n : Nat) : Bool :=
  if n = 0 ∧ b.mod.slotAFirst then false
  else if b.isSet F.MOD_BOARD_boot_sel then !activeIsB b n else activeIsB b n

/-- The image in a component's slot passes the checks of R357. -/
def slotPasses (x : BootOutcome) (b : Block) (n : Nat) (slotB : Bool) : Bool :=
  let img := imageIn b slotB n
  img.valid && decide (ratchet b n ≤ img.svn) && ((if slotB then x.slotBOk else x.slotAOk)[n]?).getD false

/-- The slot a component boots from, none where both fail. -/
def bootSlot (x : BootOutcome) (b : Block) (n : Nat) : Option Bool :=
  let first := firstSlotB b n
  if slotPasses x b n first then some first else if slotPasses x b n (!first) then some (!first) else none

/-- The module stays in ROM recovery (order 3). -/
def enterRecovery (b : Block) : Block :=
  updMod (fun m => { m with recovery := [], slotAFirst := false }) (updRtp (fun r => { r with recovery := true }) b)

/-- Every Spoke tested at boot (R394). -/
def bootSpokes (failed : List Nat) (b : Block) : Block :=
  [0, 1, 2, 3].foldl (fun b w =>
    let ok := (wheelSpokes w).filter fun i => !failed.contains i
    (wheelSpokes w).foldl (fun b i =>
      let st := if failed.contains i then spFailed else if (ok.take 64).contains i then spService else spSpare
      setSpkState i st b) b) b

/-- Orders 6 to 8: the mode is fixed, a nonce drawn, and every block released; the enabled ports start training. -/
def bootReady (failed : List Nat) (slots : List Bool) (fell : Bool) (b : Block) : Block :=
  let b := updRtp (fun r => { r with
    runB := slots, running := [0, 1, 2].map fun n => imageIn b ((slots[n]?).getD false) n, fallback := fell,
    conf := r.confNext, ready := true }) b
  let (n, b) := Block.takeFresh { b with ses := { b.ses with poolStripes := 16 * max 4 (min 64 (b.getF F.PGM_CFG_pool_gib)) } }
  let b := { b with mem := { b.mem with metaNo := n } }
  let b := drawNonce (updMod (fun m => { m with slotAFirst := false }) b)
  let b := setLevel Src.fuseLow (fuseLow b) (bootSpokes failed b)
  (List.range numPorts).foldl (fun b p => if b.getFi F.FLL_PORT_CTRL_enable p = 1 then startTraining p b else b) b

/-- The brake as the boot completes: without wheel rails the module comes up BRAKED (R439); a pin that calls for the brake
starts it (R428). -/
def bootBrake (b : Block) : Block :=
  if b.mod.railsUp.contains 10 = false then
    fire Src.pmcBraked (((b.setF F.PMC_STAT_pstate psBraked).setF F.PMC_STAT_cause 1).bump F.PMC_CNT_brakes)
  else if b.pmc.coolantOk = false then startBrake 1 b
  else if b.pmc.tripLow then startBrake 2 b
  else if tripDriven b then startBrake 3 b
  else b

/-- The boot of Table 15.3 ends, ready or in ROM recovery. -/
def bootCompletes (x : BootOutcome) (b : Block) : Block :=
  if b.mod.released = false ∨ b.rtp.ready = true ∨ b.rtp.recovery = true then b
  else match bootSlot x b 0 with
    | none => enterRecovery b
    | some s0 =>
      let counted := updRtp (fun r => { r with boots := (r.boots + 1) % 2 ^ 32 }) b
      match bootSlot x b 1, bootSlot x b 2 with
      | some s1, some s2 =>
        let fell := (s0 != firstSlotB b 0) || (s1 != firstSlotB b 1) || (s2 != firstSlotB b 2)
        bootBrake (bootReady x.failedSpokes [s0, s1, s2] fell counted)
      | _, _ => enterRecovery counted

/-- BOOT_COMPLETE (R357). -/
def execBootComplete (b : BootOutcome) (s : State) : Host.Outcome State Fault Refusal := actB .none (bootCompletes b) s

/-! ### Monitors (R448, R453) -/

/-- A rail's voltage leaves or returns within ±4 % of its setting. -/
def railWarns (rail : Nat) (warn : Bool) (mv : Nat) (b : Block) : Block :=
  if rail = 14 then b
  else
    let b := b.setFi F.MOD_RAIL_mv rail mv
    let b := if warn ∧ b.getFi F.MOD_RAIL_warn rail = 0 then b.setFi F.MOD_RAIL_warn_seen rail 1 else b
    b.setFi F.MOD_RAIL_warn rail (if warn then 1 else 0)

/-- RAIL_WARN (R448). -/
def execRailWarn (rail : BitVec 4) (warn : Bool) (mv : BitVec 16) (s : State) : Host.Outcome State Fault Refusal :=
  actB .none (railWarns rail.toNat warn mv.toNat) s

/-- A link group's reference clock appears or is lost (R453): its ports without a clock are down. -/
def clockChanges (g : Nat) (ok : Bool) (b : Block) : Block :=
  let v := b.getF F.MOD_BOARD_refclk_ok
  let b := if v.testBit g = ok then b else b.setF F.MOD_BOARD_refclk_ok (if ok then v + 2 ^ g else v - 2 ^ g)
  if ok ∨ b.up = false then b
  else (List.range numPorts).foldl (fun b p => if linkGroup p = g then portStops p psDown 0 b else b) b

/-- REFCLK_CHANGE (R453). -/
def execRefclkChange (group : BitVec 2) (ok : Bool) (s : State) : Host.Outcome State Fault Refusal :=
  actB .none (clockChanges group.toNat ok) s

/-! ### The management bus: addressing and recovery (R444, R446) -/

/-- A dynamic address is given, once the bus is reachable. -/
def assignAddress (a : Nat) (b : Block) : Block :=
  if b.mod.released then updMod (fun m => { m with i3cAddr := some a }) b else b

/-- I3C_ADDRESS_ASSIGN (R444). -/
def execI3cAddressAssign (addr : BitVec 7) (s : State) : Host.Outcome State Fault Refusal :=
  actB .none (assignAddress addr.toNat) s

/-- Status of a bus operation (R445). -/
def busAnswer (status : Nat) (b : Block) : Block := updMod (fun m => { m with busStatus := status }) b

/-- End of the longest image that a gathered header allows: 16 MiB plus header and certificate (R446). -/
def recoveryLimit (b : Block) : Nat := 512 + (leVal (cellRead b.mod.recovery 12 4) + 63) / 64 * 64 + 2 ^ 24

/-- REC_DATA. -/
def recoveryData (offset : Nat) (bytes : Bytes) (b : Block) : Block :=
  if b.mod.released = false then b
  else if b.rtp.recovery = false then busAnswer 3 b
  else if offset % 64 ≠ 0 ∨ recoveryLimit b < offset + 64 then busAnswer 2 b
  else busAnswer 0 (updMod (fun m => { m with recovery := cellWrite m.recovery offset (padTo 64 bytes) }) b)

/-- REC_DATA (R446). -/
def execRecData (offset : BitVec 32) (bytes : List (BitVec 8)) (s : State) : Host.Outcome State Fault Refusal :=
  actB .none (recoveryData offset.toNat bytes) s

/-- REC_COMMIT: an image that passes goes to slot A, and the boot runs again from order 3 with slot A first. -/
def recoveryCommit (len : Nat) (b : Block) : Block :=
  if b.mod.released = false then b
  else if b.rtp.recovery = false then busAnswer 3 b
  else
    let img := cellRead b.mod.recovery 0 len
    if imageErr b 0 img ≠ 0 then busAnswer 3 b
    else
      let b := updRtp (fun r => { r with slotA := r.slotA.set 0 (slotOf img), recovery := false }) b
      busAnswer 0 (updMod (fun m => { m with recovery := [], slotAFirst := true }) b)

/-- REC_COMMIT (R446). -/
def execRecCommit (length : BitVec 32) (s : State) : Host.Outcome State Fault Refusal :=
  actB .none (recoveryCommit length.toNat) s

/-! ### The debug port (R449, Table 15.5) -/

/-- An instruction is loaded, TRST_N being high; what the mode does not allow acts as BYPASS. IDCODE shows the identity code. -/
def jtagLoad (ir : JtagInstr) (b : Block) : Block :=
  let ir := if jtagAllowed b ir then ir else .bypass
  let b := updMod (fun m => { m with jtag := some ir }) b
  if ir = .idcode then { b with rdata := 0xB074058F } else b

/-- JTAG_INSTRUCTION (R449). -/
def execJtagInstruction (ir : JtagInstr) (s : State) : Host.Outcome State Fault Refusal := actB .none (jtagLoad ir) s

/-- TEST_LOGIC_RESET (R449). -/
def execTestLogicReset (s : State) : Host.Outcome State Fault Refusal :=
  actB .none (updMod fun m => { m with jtag := none }) s

end Sys2Proof.Machine
end

