-- ==== Sys2Proof/Machine/Regs.lean ====
section
/-! DEFINITION. Reads and writes of registers (R5, R6, Table 0.3): the instance a selector names, the access codes, the fields
that are computed when they are read, the writes with an effect of their own, tenant apertures (R367, R368), confidential
mode (Table 15.5), and the READ and WRITE operations of the management bus (R445). -/

namespace Sys2Proof.Machine

/-! ### Addresses and instances -/

/-- Which instance of a register an address names. -/
def Reg.index (r : Reg) (a : Nat) : Option Nat :=
  if a < r.addr then none
  else if r.stride = 0 then (if a = r.addr then some 0 else none)
  else if (a - r.addr) % r.stride = 0 ∧ (a - r.addr) / r.stride < r.count then some ((a - r.addr) / r.stride)
  else none

/-- The register at an address, with the number of its instance there. -/
def findReg (a : Nat) : List Reg → Option (Reg × Nat)
  | [] => none
  | r :: rs => match r.index a with
    | some i => some (r, i)
    | none => findReg a rs

/-- The register at a management-space address (R445). -/
def regAt (a : Nat) : Option (Reg × Nat) := findReg a allRegs

/-- Port that a block's PORT_SEL selects (R332). -/
def selPort (b : Block) (stoty : Bool) : Option Nat :=
  let p := b.getF (if stoty then F.STL_PORT_SEL_port else F.FLL_PORT_SEL_port)
  if p < 18 ∧ isStoty p = stoty then some p else none

/-- Spoke that SPK_SEL selects (Table 8.15). -/
def selSpoke (b : Block) : Option Nat :=
  if b.getF F.SPK_SEL_spoke < numSpokes then some (b.getF F.SPK_SEL_spoke) else none

/-- Sensor that PMC_THERM_SEL selects (Table 18.12). -/
def selSensor (b : Block) : Option Nat :=
  if b.getF F.PMC_THERM_SEL_sensor < numSensors then some (b.getF F.PMC_THERM_SEL_sensor) else none

/-- The instance that a register shows to a caller, where a selector chooses it: none where it selects nothing. -/
def selectors : List (Reg × (Caller → Block → Nat → Option Nat)) :=
  [(R.CFE_RING_CTRL, fun _ b _ => some (b.getF F.CFE_RING_SEL_ring)),
   (R.CFE_RING_CFG, fun _ b _ => some (b.getF F.CFE_RING_SEL_ring)),
   (R.CFE_RING_STAT, fun _ b _ => some (b.getF F.CFE_RING_SEL_ring)),
   (R.NMS_IDX_CFG, fun _ b _ => some (b.getF F.NMS_IDX_SEL_index)),
   (R.NMS_IDX_STAT, fun _ b _ => some (b.getF F.NMS_IDX_SEL_index)),
   (R.NMS_IDX_VER, fun _ b _ => some (b.getF F.NMS_IDX_SEL_index)),
   (R.NMS_IDX_SHARD, fun _ b i => some (4 * b.getF F.NMS_IDX_SEL_index + i)),
   (R.MEM_KEY_STAT, fun _ b _ => some (b.getF F.MEM_KEY_SEL_tenant)),
   (R.MEM_HWIN_ADDR, fun _ b _ => some (b.getF F.MEM_HWIN_SEL_window)),
   (R.MEM_HWIN_CFG, fun _ b _ => some (b.getF F.MEM_HWIN_SEL_window)),
   (R.MEM_HWIN_TAG, fun _ b _ => some (b.getF F.MEM_HWIN_SEL_window)),
   (R.MEM_CH_STAT, fun _ b _ => some (b.getF F.MEM_CH_SEL_channel)),
   (R.FLL_PORT_CTRL, fun _ b _ => selPort b false),
   (R.FLL_PORT_STAT, fun _ b _ => selPort b false),
   (R.FLL_PORT_CNT, fun _ b _ => selPort b false),
   (R.STL_PORT_CTRL, fun _ b _ => selPort b true),
   (R.STL_PORT_STAT, fun _ b _ => selPort b true),
   (R.STL_PORT_CNT, fun _ b _ => selPort b true),
   (R.STL_PEER, fun _ b _ => selPort b true),
   (R.TSH_CFG, fun _ b _ => shaperInst (b.getF F.TSH_SEL_kind) (b.getF F.TSH_SEL_index)),
   (R.TSH_STAT, fun _ b _ => shaperInst (b.getF F.TSH_SEL_kind) (b.getF F.TSH_SEL_index)),
   (R.SPK_STATE, fun _ b _ => selSpoke b),
   (R.SPK_ERR, fun _ b _ => selSpoke b),
   (R.SPK_FAULT, fun _ b _ => selSpoke b),
   (R.MOD_TEN_STAT, fun _ b _ => some (b.getF F.MOD_TEN_SEL_tenant)),
   (R.MOD_RAIL, fun _ b _ => if b.getF F.MOD_RAIL_SEL_rail = 14 then none else some (b.getF F.MOD_RAIL_SEL_rail)),
   (R.PMC_THERM, fun _ b _ => selSensor b),
   (R.PMC_E_TEN, fun who b _ => some (who.tenant?.getD (b.getF F.PMC_TEN_SEL_tenant))),
   (R.PMC_E_RING, fun _ b _ => some (b.getF F.PMC_RING_SEL_ring)),
   (R.RTP_REQ_ADDR, fun who _ _ => some who.inst),
   (R.RTP_REQ_CMD, fun who _ _ => some who.inst)]

/-- Entry for a register in a list of rules. -/
def ruleFor {α : Type} (r : Reg) : List (Reg × α) → Option α
  | [] => none
  | (k, x) :: t => if k.addr = r.addr then some x else ruleFor r t

/-- The instance of a register that an access reaches. -/
def instOf (who : Caller) (b : Block) (r : Reg) (i : Nat) : Option Nat :=
  match ruleFor r selectors with
  | some f => f who b i
  | none => some i

/-! ### Access codes (R6, Table 0.3) -/

/-- A field's bits of a written value. -/
def Fld.of (f : Fld) (v : Nat) : Nat := bitsOf v f.lo f.width

/-- A write to one field by its access code: RW, RWL and WO set it, a 1 clears a bit of RW1C, RO ignores it. -/
def writeField (i v : Nat) (b : Block) (f : Fld) : Block :=
  match f.acc with
  | .ro => b
  | .rw => b.setFi f i (f.of v)
  | .rwl => b.setFi f i (f.of v)
  | .wo => b.setFi f i (f.of v)
  | .rw1c => b.setFi f i (b.getFi f i - (b.getFi f i &&& f.of v))

/-- A write to a register by the access codes alone. -/
def writeFields (r : Reg) (i v : Nat) (b : Block) : Block := r.fields.foldl (writeField i v) b

/-- What a read of a register returns by the access codes alone: WO fields and reserved bits are 0 (R5). -/
def readFields (r : Reg) (i : Nat) (b : Block) : Nat :=
  (r.fields.map fun f => if f.acc = .wo then 0 else b.getFi f i * 2 ^ f.lo).sum

/-- A word with a field replaced. -/
def putFld (f : Fld) (v w : Nat) : Nat := w - f.of w * 2 ^ f.lo + v % 2 ^ f.width * 2 ^ f.lo

/-- A word with a field replaced by a value that saturates. -/
def satFld (f : Fld) (v w : Nat) : Nat := putFld f (min v (2 ^ f.width - 1)) w

/-- 1 or 0. -/
def bit (x : Bool) : Nat := if x then 1 else 0

/-! ### Computed fields -/

/-- Any rail's `warn` is 1 (Table 19.13). -/
def anyRailWarn (b : Block) : Bool := (List.range 16).any fun i => decide (b.getFi F.MOD_RAIL_warn i = 1)

/-- The module drives ALERT_N low (R448). -/
def alertLow (b : Block) : Bool :=
  b.rtp.recovery
    || (b.isSet F.MOD_ALERT_en_brake && (decide (b.getF F.PMC_STAT_pstate = psBraking) || decide (b.getF F.PMC_STAT_pstate = psBraked)))
    || (b.isSet F.MOD_ALERT_en_trip && tripIsLow b)
    || (b.isSet F.MOD_ALERT_en_rail && anyRailWarn b)
    || (b.isSet F.MOD_ALERT_en_time && b.stale)

/-- `state` of a rail (Table 19.15). -/
def railState (b : Block) (i : Nat) : Nat :=
  if i = 15 ∨ b.mod.railsUp.contains i then 2
  else if b.getF F.PMC_STAT_pstate = psLeaving ∧ wheelRails.contains i = true then 1
  else if b.getF F.MOD_BOARD_reset_cause = 4 ∧ b.getF F.MOD_BOARD_fault_rail = i then 3
  else 0

/-- Sessions HOT, or in motion toward HOT (Table 2.15). -/
def hotSessions (b : Block) (t : Nat) : Nat :=
  (b.ses.slots.filter fun e => decide (e.2.tenant = t) &&
    (decide (e.2.state = ssHot) ||
      (decide (e.2.state = ssMotion) && (e.2.motion.map fun m => decide (m.toDepth = dHot)).getD false))).length

/-- Sessions of a tenant in QUARANTINE. -/
def quarantinedSessions (b : Block) (t : Nat) : Nat :=
  (b.ses.slots.filter fun e => decide (e.2.tenant = t) && decide (e.2.state = ssQuarantine)).length

/-- A number of bytes in units, rounded up. -/
def unitsUp (n unit : Nat) : Nat := n / unit + if n % unit = 0 then 0 else 1

/-- Superblocks of a class. -/
def classSupers (b : Block) (c : Nat) : Tab Superblock := b.ses.supers.filter fun e => decide (e.2.cls = c)

/-- Free and used units of a class (Table 5.18). -/
def classFree (b : Block) (c : Nat) : Nat := ((classSupers b c).map fun e => (e.2.free.map fun x => 2 ^ x.2).sum).sum
def classUsed (b : Block) (c : Nat) : Nat :=
  (b.ses.frames.map fun e => if (classSupers b c).any fun s => decide (s.1 = e.1 / 256) then 2 ^ e.2.order else 0).sum

/-- The words of a range entry, complements among them (Table 13.7). -/
def entryWords4 (e : RangeEntry) : List Nat :=
  let w0 := e.base2m % 2 ^ 43 + e.kind % 4 * 2 ^ 43 + e.owner % 256 * 2 ^ 45 + e.user % 256 * 2 ^ 53 + bit e.departing * 2 ^ 61
  let w2 := e.len2m % 2 ^ 32 + e.since % 2 ^ 32 * 2 ^ 32
  [w0, compl64 w0, w2, compl64 w2]

/-- The words of a member record (Table 13.8). -/
def memberWords (m : MemberRec) : List Nat :=
  let w := m.mstate % 4 + m.role % 8 * 4 + bit m.homing * 32 + m.stoty % 256 * 256
  [w, compl64 w]

/-- Word n of what CMP_ENT_SEL selects. -/
def entWindow (b : Block) (n : Nat) : Nat :=
  let k := b.getF F.CMP_ENT_SEL_entry
  let staged := b.isSet F.CMP_ENT_SEL_staged
  if b.isSet F.CMP_ENT_SEL_member then
    (memberWords (tgetD (if staged then b.cmp.stagedMembers else b.cmp.members) (k % 256) ⟨0, 0, false, 0⟩)).getD n 0
  else (entryWords4 (tgetD (if staged then b.cmp.staged else b.cmp.entries) k ⟨0, 0, 0, 0, false, 0, 0⟩)).getD n 0

/-- State of a map change as CMP_STAT shows it (Table 13.25). -/
def changeState (b : Block) : Nat :=
  if (b.cmp.change.map (·.committed)).getD false ∨ (b.cmp.entries.any fun e => e.2.departing) then 2
  else if b.cmp.held.isSome ∨ b.cmp.change.isSome then 1
  else 0

/-- The violation log entry that RTP_VLOG_SEL selects, as words (R369). -/
def vlogWords (b : Block) : List Nat :=
  match b.rtp.vlog[b.getF F.RTP_VLOG_SEL_entry]? with
  | none => [0, 0, 0, 0]
  | some e => [e.timeNs % 2 ^ 64, e.tenant % 2 ^ 16 + e.kind % 2 ^ 8 * 2 ^ 16 + e.place % 2 ^ 32 * 2 ^ 32, e.detail % 2 ^ 64,
               e.repeats % 2 ^ 32]

/-- A caller may see an image (R242, R263). -/
def maySee (who : Caller) (shared : Bool) (owner : Nat) : Bool :=
  match who.tenant? with
  | none => true
  | some t => shared || decide (owner = t)

/-- Digest that TXU_DG shows (R263, Table 10.20). -/
def shownDigest (who : Caller) (b : Block) : Bytes :=
  if b.txu.dgList then
    match listOf b (b.getF F.TXU_LIST_SEL_list) with
    | some l => if l.state ≠ slEmpty ∧ maySee who l.shared l.owner = true then l.digest else []
    | none => []
  else match cogOf b (b.getF F.TXU_COG_SEL_cog) with
    | some g => if g.state ≠ slEmpty ∧ maySee who g.shared g.owner = true then g.digest else []
    | none => []

/-- TXU_COG_INFO (Table 10.16). -/
def cogInfo (who : Caller) (b : Block) (w : Nat) : Nat :=
  let n := b.getF F.TXU_COG_SEL_cog
  match cogOf b n with
  | none => w
  | some g => if maySee who g.shared g.owner then
      satFld F.TXU_COG_INFO_users (cogUsers b n) (putFld F.TXU_COG_INFO_v g.entries.length (putFld F.TXU_COG_INFO_owner g.owner
        (putFld F.TXU_COG_INFO_shared (bit g.shared) (putFld F.TXU_COG_INFO_state g.state w))))
    else w

/-- TXU_COG_TOK (Table 10.17). -/
def cogTok (who : Caller) (b : Block) (w : Nat) : Nat :=
  match cogOf b (b.getF F.TXU_COG_SEL_cog) with
  | none => w
  | some g => if maySee who g.shared g.owner then
      putFld F.TXU_COG_TOK_marker_valid (bit g.marker.isSome) (putFld F.TXU_COG_TOK_marker (g.marker.getD 0)
        (putFld F.TXU_COG_TOK_fb_base g.fbBase w))
    else w

/-- TXU_LIST_INFO (Table 10.19). -/
def listInfo (who : Caller) (b : Block) (w : Nat) : Nat :=
  let n := b.getF F.TXU_LIST_SEL_list
  if n = emptyList then
    satFld F.TXU_LIST_INFO_attach (listUsers b n) (putFld F.TXU_LIST_INFO_shared 1 (putFld F.TXU_LIST_INFO_state 1 w))
  else match listOf b n with
    | none => w
    | some l => if maySee who l.shared l.owner then
        satFld F.TXU_LIST_INFO_attach (listUsers b n) (putFld F.TXU_LIST_INFO_states l.states
          (putFld F.TXU_LIST_INFO_owner l.owner (putFld F.TXU_LIST_INFO_escape_mode (bit l.escapeMode)
            (putFld F.TXU_LIST_INFO_shared (bit l.shared) (putFld F.TXU_LIST_INFO_state l.state w)))))
      else w

/-- A caller may see an index (R285). -/
def seesIndex (who : Caller) (b : Block) (n : Nat) : Bool :=
  match who.tenant? with
  | none => true
  | some t => decide (indexTenant b n = t)

/-- NMS_IDX_STAT and NMS_IDX_VER (Tables 11.17, 11.18). -/
def indexStat (b : Block) (n w : Nat) : Nat :=
  match indexOf b n with
  | none => w
  | some x => putFld F.NMS_IDX_STAT_slots x.slots.length (putFld F.NMS_IDX_STAT_side_records x.side.length
      (putFld F.NMS_IDX_STAT_damaged (bit x.damaged) (putFld F.NMS_IDX_STAT_merging (bit x.merge.isSome)
        (putFld F.NMS_IDX_STAT_state x.state w))))
def indexVer (b : Block) (n w : Nat) : Nat :=
  match indexOf b n with
  | none => w
  | some x => putFld F.NMS_IDX_VER_extents (runsOfSlots (itemsPerExtent b n) x.slots)
      (putFld F.NMS_IDX_VER_version x.version w)

/-- STE_PEL_INFO (Table 6.14). -/
def pelInfo (b : Block) (w : Nat) : Nat :=
  match tget b.ste.pelotons (b.getF F.STE_PEL_SEL_peloton) with
  | none => w
  | some p => putFld F.STE_PEL_INFO_seqs p.seqs.length (putFld F.STE_PEL_INFO_in_flight (bit p.holdsPlace)
      (putFld F.STE_PEL_INFO_valid 1 (putFld F.STE_PEL_INFO_model_slot p.slot (putFld F.STE_PEL_INFO_tenant p.tenant w))))

/-- STE_SLOT_INFO (Table 14.14). -/
def slotInfo (b : Block) (w : Nat) : Nat :=
  let n := b.getF F.STE_SLOT_SEL_slot
  match modelSlot b n with
  | none => w
  | some m =>
    let w := satFld F.STE_SLOT_INFO_sessions (slotSessions b n) (putFld F.STE_SLOT_INFO_versions m.adapters.length w)
    let w := putFld F.STE_SLOT_INFO_geom_class (if m.draft then 0 else m.cls) (putFld F.STE_SLOT_INFO_owner m.owner w)
    let w := putFld F.STE_SLOT_INFO_shared (bit m.shared) (putFld F.STE_SLOT_INFO_tuning (bit m.tuning) w)
    putFld F.STE_SLOT_INFO_draft (bit m.draft) (putFld F.STE_SLOT_INFO_state m.state w)

/-- STL_PEER (Table 13.17), from the peer's capability block (Table 13.4). -/
def peerInfo (b : Block) (p w : Nat) : Nat :=
  match (portOf b p).peer with
  | [] => w
  | k =>
    let w := putFld F.STL_PEER_module (bytesAt k 6 1) (putFld F.STL_PEER_valid 1 w)
    let w := putFld F.STL_PEER_homing (bytesAt k 7 1) (putFld F.STL_PEER_pannier (bytesAt k 9 1) w)
    let w := putFld F.STL_PEER_chain_isa (bytesAt k 8 1) (putFld F.STL_PEER_spoke_isa (bytesAt k 10 1) w)
    putFld F.STL_PEER_overlay (bytesAt k 11 1) (putFld F.STL_PEER_ucode (bytesAt k 12 2) w)

/-- MEM_NBR_INFO (Table 12.19). -/
def nbrInfo (b : Block) (w : Nat) : Nat :=
  let t := if b.isSet F.MEM_NBR_SEL_dir then b.mem.lent else b.mem.borrowed
  match tget t (b.getF F.MEM_NBR_SEL_range) with
  | none => w
  | some r => putFld F.MEM_NBR_INFO_size_2m r.size (putFld F.MEM_NBR_INFO_state r.state (putFld F.MEM_NBR_INFO_module r.module w))

/-- MEM_KEY_STAT (Table 12.12). -/
def keyStat (b : Block) (t w : Nat) : Nat :=
  match tget b.mem.keys t with
  | none => w
  | some k => satFld F.MEM_KEY_STAT_units_left k.unitsLeft (putFld F.MEM_KEY_STAT_rotating (bit (decide (k.retiring ≠ 0)))
      (putFld F.MEM_KEY_STAT_retiring k.retiring (putFld F.MEM_KEY_STAT_current k.current w)))

/-- INT_TGT_STAT (Table 17.11). -/
def targetStat (b : Block) (t w : Nat) : Nat :=
  let w := putFld F.INT_TGT_STAT_depth (intStack b t).length (putFld F.INT_TGT_STAT_running (runningPrio b t) w)
  match presented b t with
  | none => w
  | some (n, _) => putFld F.INT_TGT_STAT_pres_valid 1 (putFld F.INT_TGT_STAT_presented n w)

/-- INT_SRC_CFG and INT_SRC_STAT (Tables 17.16, 17.17). -/
def sourceCfg (b : Block) (n w : Nat) : Nat :=
  let x := intSrc b n
  putFld F.INT_SRC_CFG_prio x.prio (putFld F.INT_SRC_CFG_target x.target (putFld F.INT_SRC_CFG_level (bit (isLevelSrc n))
    (putFld F.INT_SRC_CFG_enable (bit x.enable) w)))
def sourceStat (b : Block) (n w : Nat) : Nat :=
  let x := intSrc b n
  let w := putFld F.INT_SRC_STAT_storm_run x.stormRun (putFld F.INT_SRC_STAT_overflow x.overflow w)
  putFld F.INT_SRC_STAT_storm (bit x.storm) (putFld F.INT_SRC_STAT_active (bit x.active)
    (putFld F.INT_SRC_STAT_pending (bit x.pending) w))

/-- INT_SYNC_OWN (Table 17.19). -/
def ownerWord (b : Block) (j w : Nat) : Nat :=
  let o := fun (i : Nat) => tgetD b.intr.owners (4 * j + i) (4 * j + i)
  putFld F.INT_SYNC_OWN_owner0 (o 0) (putFld F.INT_SYNC_OWN_owner1 (o 1) (putFld F.INT_SYNC_OWN_owner2 (o 2)
    (putFld F.INT_SYNC_OWN_owner3 (o 3) w)))

/-- Site code of a sensor (Table 18.13). -/
def siteCode (i : Nat) : Nat := if i < 8 then 0 else if i < 40 then 1 else if i < 48 then 2 else if i < 56 then 3 else 4

/-- PMC_THERM (Table 18.13). -/
def sensorWord (b : Block) (i w : Nat) : Nat :=
  let x := sensor b i
  let w := putFld F.PMC_THERM_temp x.temp (putFld F.PMC_THERM_site (siteCode i) w)
  let w := putFld F.PMC_THERM_throttle_c x.throttleC (putFld F.PMC_THERM_trip_c x.tripC w)
  putFld F.PMC_THERM_throttling (bit x.throttling) (putFld F.PMC_THERM_tripped (bit x.tripped) w)

/-- PMC_STAT's pins and clock (Table 18.8). -/
def pmcStat (b : Block) (w : Nat) : Nat :=
  let w := putFld F.PMC_STAT_coolant (bit b.pmc.coolantOk) (putFld F.PMC_STAT_trip (bit (tripIsLow b)) w)
  satFld F.PMC_STAT_ok_ms (b.pmc.okUs / 1000) (putFld F.PMC_STAT_trip_drive (bit (tripDriven b)) w)

/-- An energy counter as a caller sees it (R425, Table 15.5). -/
def energyShown (who : Caller) (b : Block) (own : Bool) (w : Nat) : Nat :=
  if b.rtp.conf then (if own && who.isMgmt then 0 else w / 1000000 * 1000000) else w

/-- A counter that reads 0 in confidential mode (Table 15.5). -/
def profiling (b : Block) (w : Nat) : Nat := if b.rtp.conf then 0 else w

/-- RTP_STAT (Table 15.13). -/
def rtpStat (b : Block) (w : Nat) : Nat :=
  let r := b.rtp
  let w := putFld F.RTP_STAT_ready (bit r.ready) (putFld F.RTP_STAT_conf (bit r.conf) w)
  let w := putFld F.RTP_STAT_owned (bit r.ownerKey.isSome) (putFld F.RTP_STAT_fallback (bit r.fallback) w)
  let w := putFld F.RTP_STAT_slot_b (slotsB b) (putFld F.RTP_STAT_debug_open (bit r.debugOpen) w)
  satFld F.RTP_STAT_queue r.queue.length (putFld F.RTP_STAT_boots r.boots w)

/-- Stripes and quanta of the staging pool (Table 5.15). -/
def stageStat (b : Block) (w : Nat) : Nat :=
  let total := (b.ses.classes.map fun e =>
    (stripesWith b fun x => decide (x.cls = e.1)).length * quantaPerStripe e.2).sum
  let used := (b.ses.classes.map fun e => classQuanta b e.1).sum
  putFld F.PGM_STAGE_STAT_stripes_free (stripesFree b) (putFld F.PGM_STAGE_STAT_quanta_used used
    (putFld F.PGM_STAGE_STAT_quanta_total total w))

/-- PGM_CLASS_INFO (Table 5.17). -/
def classInfo (b : Block) (w : Nat) : Nat :=
  let c := b.getF F.PGM_CLASS_SEL_class
  let g := geomClass b c
  let active := b.ten.models.any fun e => decide (e.2.state ≠ slEmpty) && !e.2.draft && decide (e.2.cls = c)
  putFld F.PGM_CLASS_INFO_superblocks (classSupers b c).length (putFld F.PGM_CLASS_INFO_active (bit active)
    (putFld F.PGM_CLASS_INFO_row_bytes g.rowBytes (putFld F.PGM_CLASS_INFO_layers g.layers w)))

/-- A word of the descriptor window or the prefix window as a caller sees it: zeros from management space in confidential
mode (Table 15.5), and from an aperture for a record of another tenant (R43, R134). -/
def windowWord (who : Caller) (b : Block) (owner : Nat) (ws : List (BitVec 64)) (i : Nat) : Nat :=
  let hidden := match who.tenant? with
    | none => b.rtp.conf
    | some t => decide (owner ≠ t)
  if hidden then 0 else (ws.getD i 0).toNat

/-- Fields that a read computes, by register, chapters 2 to 9: the word that the access codes give, completed. -/
def readRulesA : List (Reg × (Caller → Block → Nat → Nat → Nat)) :=
  [(R.SES_DESC_WIN, fun who b i _ => windowWord who b (hTenant (b.getF F.SES_DESC_SEL_handle)) b.ses.descWin i),
   (R.PGM_PFX_WIN, fun who b i _ => windowWord who b ((b.ses.pfxWin.getD 2 0).toNat % 4096) b.ses.pfxWin i),
   (R.SES_TQ_COUNT, fun _ b t w => satFld F.SES_TQ_COUNT_quarantined (quarantinedSessions b t)
     (putFld F.SES_TQ_COUNT_hot (hotSessions b t) (putFld F.SES_TQ_COUNT_sessions (tenantSessions b t) w))),
   (R.SES_TQ_USED, fun _ b t w =>
     satFld F.SES_TQ_USED_warm_nbr_64m (unitsUp (warmBytes b t 2) (2 ^ 26)) (satFld F.SES_TQ_USED_warm_host_64m
       (unitsUp (warmBytes b t 1) (2 ^ 26)) (satFld F.SES_TQ_USED_warm_hbm_16m (unitsUp (warmBytes b t 0) (2 ^ 24))
         (satFld F.SES_TQ_USED_hot_16m (unitsUp (hotBytes b t) (2 ^ 24)) w)))),
   (R.CFE_RING_CFG, fun _ b r w => putFld F.CFE_RING_CFG_tenant (ringTenant b r) w),
   (R.CFE_RING_STAT, fun _ b r w => satFld F.CFE_RING_STAT_inflight (ringInflight b r) w),
   (R.CFE_POOL, fun _ b _ w => satFld F.CFE_POOL_in_use (poolInflight b) w),
   (R.CFE_TQ_INFLIGHT, fun _ b t w => satFld F.CFE_TQ_INFLIGHT_inflight (tenantInflight b t) w),
   (R.PNE_STAT, fun _ b _ w => satFld F.PNE_STAT_shadows ((b.ses.slots.filter fun e => e.2.shadow.isSome).length)
     (satFld F.PNE_STAT_queued (motionsQueued b) (satFld F.PNE_STAT_active (motionsActive b) w))),
   (R.PNE_CNT_SPEC, fun _ b _ w => profiling b w),
   (R.PGM_STAGE_STAT, fun _ b _ w => stageStat b w),
   (R.PGM_CLASS_INFO, fun _ b _ w => classInfo b w),
   (R.PGM_CLASS_FREE, fun _ b _ w =>
     putFld F.PGM_CLASS_FREE_used_units (classUsed b (b.getF F.PGM_CLASS_SEL_class))
       (putFld F.PGM_CLASS_FREE_free_units (classFree b (b.getF F.PGM_CLASS_SEL_class)) w)),
   (R.PGM_SERIAL, fun _ b _ w => putFld F.PGM_SERIAL_next_serial b.ses.nextSerial w),
   (R.PGM_PFX_TEN, fun who b _ w => match who.tenant? with
     | none => if b.rtp.conf then putFld F.PGM_PFX_TEN_valid 0 w else w
     | some t => putFld F.PGM_PFX_TEN_tenant t w),
   (R.PGM_TQ_PAGE, fun _ b t w => putFld F.PGM_TQ_PAGE_prefixes (tenantPrefixes b t) w),
   (R.SES_DESC_SEL, fun who b _ w => if who.isMgmt ∧ b.rtp.conf then 0 else w),
   (R.STE_STAT, fun _ b _ w =>
     satFld F.STE_STAT_waiting b.ste.waiting.length (satFld F.STE_STAT_enrolled (b.ste.pelotons.map (·.2.seqs.length)).sum
       (putFld F.STE_STAT_in_flight (inFlight b) (putFld F.STE_STAT_resident b.ste.pelotons.length w)))),
   (R.STE_STEPS, fun _ b _ w => profiling b w),
   (R.STE_PEL_INFO, fun _ b _ w => profiling b (pelInfo b w)),
   (R.STE_DRAFT_PROP, fun _ b _ w => profiling b w),
   (R.STE_DRAFT_ACC, fun _ b _ w => profiling b w),
   (R.SPK_MOD, fun _ b _ w => putFld F.SPK_MOD_failed (spokesIn b spFailed) (putFld F.SPK_MOD_healthy
     (numSpokes - spokesIn b spFailed) (putFld F.SPK_MOD_in_service (spokesIn b spService) w))),
   (R.SPK_STATE, fun _ _ i w => putFld F.SPK_STATE_place (i % 68) (putFld F.SPK_STATE_wheel (i / 68) w)),
   (R.SPK_ERR, fun _ b _ w => if b.rtp.conf then putFld F.SPK_ERR_stretch 0 w else w),
   (R.SPK_CTX, fun _ b _ w => putFld F.SPK_CTX_stripes b.ses.saveStripes (putFld F.SPK_CTX_slots_used b.spk.saved.length w))]

/-- The same, chapters 10 to 14. -/
def readRulesB : List (Reg × (Caller → Block → Nat → Nat → Nat)) :=
  [(R.TXU_MEM, fun _ b _ w => putFld F.TXU_MEM_hbm_mib ((b.ses.extents.map fun e => match e.2.use with
     | .cog _ => 2 * e.2.count
     | .clist _ => 2 * e.2.count
     | _ => 0).sum) w),
   (R.TXU_COG_INFO, fun who b _ w => cogInfo who b w),
   (R.TXU_COG_TOK, fun who b _ w => cogTok who b w),
   (R.TXU_LIST_INFO, fun who b _ w => listInfo who b w),
   (R.TXU_DG, fun who b i _ => bytesAt (shownDigest who b) (8 * i) 8),
   (R.NMS_IDX_CFG, fun who b n w => if seesIndex who b n then w else 0),
   (R.NMS_IDX_STAT, fun who b n w => if seesIndex who b n then indexStat b n w else 0),
   (R.NMS_IDX_VER, fun who b n w => if seesIndex who b n then indexVer b n w else 0),
   (R.NMS_IDX_SHARD, fun who b n w => if seesIndex who b (n / 4) then w else 0),
   (R.MEM_STAT, fun _ b _ w => putFld F.MEM_STAT_rekey_active (bit (b.mem.keys.any fun e => decide (e.2.retiring ≠ 0))) w),
   (R.MEM_CNT_ECC, fun _ b _ w => satFld F.MEM_CNT_ECC_patrol_passes (b.mem.patrols.foldl min (2 ^ 16)) w),
   (R.MEM_KEY_STAT, fun _ b t w => keyStat b t w),
   (R.MEM_HWIN_CFG, fun _ b n w => putFld F.MEM_HWIN_CFG_in_use (windowInUse b n) w),
   (R.MEM_NBR_INFO, fun _ b _ w => nbrInfo b w),
   (R.STL_PEER, fun _ b p w => peerInfo b p w),
   (R.TDM_STAT, fun _ b _ w => satFld F.TDM_STAT_lag_mib (unitsUp (lagBytes b) (2 ^ 20)) w),
   (R.CMP_EPOCH, fun _ b _ w => if b.cmp.serving then
     putFld F.CMP_EPOCH_serving 1 (putFld F.CMP_EPOCH_served (b.cmp.range.getD 0 / 2 ^ 19) w) else w),
   (R.CMP_STAT, fun _ b _ w => putFld F.CMP_STAT_drain (drainCount b) (putFld F.CMP_STAT_change (changeState b) w)),
   (R.CMP_ENT_WIN, fun _ b i _ => entWindow b i),
   (R.MOD_OVL_DG, fun _ b i _ => bytesAt (overlayDigest b) (8 * i) 8),
   (R.STE_SLOT_INFO, fun _ b _ w => slotInfo b w),
   (R.STE_TQ_SCHED, fun _ b t w => satFld F.STE_TQ_SCHED_model_used_gib (unitsUp (tenantModelBytes b t) (2 ^ 30)) w)]

/-- The same, chapters 15 to 19. -/
def readRulesC : List (Reg × (Caller → Block → Nat → Nat → Nat)) :=
  [(R.RTP_STAT, fun _ b _ w => rtpStat b w),
   (R.RTP_CFG, fun _ b _ w => putFld F.RTP_CFG_conf_next (bit b.rtp.confNext)
     (if b.rtp.conf then putFld F.RTP_CFG_trace_en 0 w else w)),
   (R.RTP_RATCHET, fun _ b _ _ => leVal (ratchetBytes b)),
   (R.RTP_NONCE, fun _ b _ _ => b.rtp.nonce.toNat),
   (R.RTP_VLOG_WIN, fun _ b i _ => (vlogWords b).getD i 0),
   (R.BRP_STAT, fun _ b _ w =>
     putFld F.BRP_STAT_overdue (bit (!b.brp.overdue.isEmpty)) (putFld F.BRP_STAT_spoke_low
       (bit (decide (spokesIn b spService < 256))) (putFld F.BRP_STAT_hub_degraded (bit (!b.brp.hubOut.isEmpty))
         (putFld F.BRP_STAT_fuse_low (bit (fuseLow b)) w)))),
   (R.BRP_FUSE, fun _ b _ w => satFld F.BRP_FUSE_spoke_left (fusesLeft b 0) (satFld F.BRP_FUSE_hbm_left (fusesLeft b 1)
     (satFld F.BRP_FUSE_sram_left (fusesLeft b 2) w))),
   (R.INT_TGT_STAT, fun _ b t w => targetStat b t w),
   (R.INT_SRC_CFG, fun _ b n w => sourceCfg b n w),
   (R.INT_SRC_STAT, fun _ b n w => sourceStat b n w),
   (R.INT_SYNC_OWN, fun _ b j w => ownerWord b j w),
   (R.SYNC_CNT, fun _ b c _ => counterValue b c),
   (R.PMC_STAT, fun _ b _ w => pmcStat b w),
   (R.PMC_THERM, fun _ b i w => sensorWord b i w),
   (R.PMC_E_MOD, fun who b _ w => energyShown who b false w),
   (R.PMC_TEN_SEL, fun who _ _ w => match who.tenant? with
     | none => w
     | some t => putFld F.PMC_TEN_SEL_tenant t w),
   (R.PMC_E_TEN, fun who b _ w => energyShown who b true w),
   (R.PMC_E_RING, fun who b _ w => energyShown who b true w),
   (R.MOD_ALERT, fun _ b _ w => putFld F.MOD_ALERT_asserted (bit (alertLow b)) w),
   (R.MOD_RAIL, fun _ b i w => putFld F.MOD_RAIL_state (railState b i) w)]

/-- Fields that a read computes, by register. -/
def readRules : List (Reg × (Caller → Block → Nat → Nat → Nat)) := readRulesA ++ readRulesB ++ readRulesC

/-! ### Reads -/

/-- A word as a caller reads it. -/
def wordOf (who : Caller) (b : Block) (r : Reg) (i : Nat) : Nat :=
  match ruleFor r readRules with
  | some f => f who b i (readFields r i b)
  | none => readFields r i b

/-- Rail readings: VIN as applied; a voltage that RAIL_WARN has not told, and every current, are free values (log entry 3). -/
def railReading (i w : Nat) (b : Block) : Nat × Block :=
  let (n, b) := b.takeFresh
  let mv := if i = 15 then b.mod.vinMv else if F.MOD_RAIL_mv.of w ≠ 0 then F.MOD_RAIL_mv.of w else Config.railMv i n
  (putFld F.MOD_RAIL_mv mv (putFld F.MOD_RAIL_i_10ma (Config.railCurrent i n) w), b)

/-- A read of a register by a caller that may read it: the value, and the effect that a read has (R404). -/
def readAt (who : Caller) (r : Reg) (k : Nat) (b : Block) : BitVec 64 × Block :=
  match instOf who b r k with
  | none => (0, b)
  | some i =>
    if r.addr = R.INT_TGT_CLAIM.addr then ((claimTarget i b).rdata, claimTarget i b)
    else if r.addr = R.MOD_RAIL.addr then
      let (w, b) := railReading i (wordOf who b r i) b
      (BitVec.ofNat 64 w, b)
    else (BitVec.ofNat 64 (wordOf who b r i), b)

/-! ### Writes with an effect of their own -/

/-- CFE_RING_CFG (Table 3.15): `tenant` takes effect only while the ring is disabled (R74). -/
def ringCfgWrite (r v : Nat) (b : Block) : Block :=
  let b := if b.getFi F.CFE_RING_STAT_state r = rsDisabled then setRingTenant r (F.CFE_RING_CFG_tenant.of v) b else b
  (b.setFi F.CFE_RING_CFG_mgmt r (F.CFE_RING_CFG_mgmt.of v)).setFi F.CFE_RING_CFG_models r (F.CFE_RING_CFG_models.of v)

/-- A fault record cleared as a whole by its `valid` bit (Tables 9.12, 12.20). -/
def clearRecord (r : Reg) (i v : Nat) (b : Block) : Block :=
  if v.testBit 63 then r.fields.foldl (fun b f => b.setFi f i 0) b else b

/-- CMP_ID (Table 13.22): `module_id` outside a domain only. -/
def cmpIdWrite (v : Nat) (b : Block) : Block :=
  let b := if b.isSet F.CMP_ID_in_domain then b else b.setF F.CMP_ID_module_id (F.CMP_ID_module_id.of v)
  b.setF F.CMP_ID_auto_remove (F.CMP_ID_auto_remove.of v)

/-- CMP_ENT_WIN (Table 13.29): word n of the staged entry or record; the module writes the complements, and `departing` and
`since`, which a change sets, itself. -/
def entWrite (who : Caller) (n v : Nat) (b : Block) : Block :=
  let k := b.getF F.CMP_ENT_SEL_entry
  if mayCommandKeys who = false ∨ b.isSet F.CMP_ENT_SEL_staged = false then b
  else if b.isSet F.CMP_ENT_SEL_member then
    if n ≠ 0 then b
    else
      let m : MemberRec := ⟨bitsOf v 0 2, bitsOf v 2 3, v.testBit 5, bitsOf v 8 8⟩
      { b with cmp := { b.cmp with stagedMembers := tset b.cmp.stagedMembers (k % 256) m } }
  else
    let e := tgetD b.cmp.staged k ⟨0, 0, 0, 0, false, 0, 0⟩
    if n = 0 then
      let e := { e with base2m := bitsOf v 0 43, kind := bitsOf v 43 2, owner := bitsOf v 45 8, user := bitsOf v 53 8 }
      { b with cmp := { b.cmp with staged := tset b.cmp.staged k e } }
    else if n = 2 then { b with cmp := { b.cmp with staged := tset b.cmp.staged k { e with len2m := bitsOf v 0 32 } } }
    else b

/-- RTP_CFG (R361): `conf_next` can be set to 1 only while an owner is claimed, and not cleared here. -/
def rtpCfgWrite (v : Nat) (b : Block) : Block :=
  let b := if v.testBit 0 ∧ b.rtp.ownerKey.isSome then updRtp (fun r => { r with confNext := true }) b else b
  b.setF F.RTP_CFG_trace_en (F.RTP_CFG_trace_en.of v)

/-- TDM_CFG (Table 16.10): `keep_gib` while nothing is kept. -/
def tdmCfgWrite (v : Nat) (b : Block) : Block :=
  let b := if b.tdm.kept.isNone then b.setF F.TDM_CFG_keep_gib (F.TDM_CFG_keep_gib.of v) else b
  (b.setF F.TDM_CFG_auto_mask (F.TDM_CFG_auto_mask.of v)).setF F.TDM_CFG_ckpt_min_s (F.TDM_CFG_ckpt_min_s.of v)

/-- INT_SRC_STAT (Table 17.17): 1s clear bits of `storm` and `overflow`. -/
def sourceStatWrite (n v : Nat) (b : Block) : Block :=
  let x := intSrc b n
  setIntSrc n { x with storm := x.storm && !v.testBit 2, overflow := x.overflow - (x.overflow &&& bitsOf v 8 8) } b

/-- PMC_CFG (Table 18.7): the order fields only together, when they name each domain once. -/
def pmcCfgWrite (v : Nat) (b : Block) : Block :=
  let o := [F.PMC_CFG_order0.of v, F.PMC_CFG_order1.of v, F.PMC_CFG_order2.of v]
  let old := (b.getF F.PMC_CFG_order0, b.getF F.PMC_CFG_order1, b.getF F.PMC_CFG_order2)
  let b := writeFields R.PMC_CFG 0 v b
  let b := if [0, 1, 2].all fun d => o.contains d then b else
    ((b.setF F.PMC_CFG_order0 old.1).setF F.PMC_CFG_order1 old.2.1).setF F.PMC_CFG_order2 old.2.2
  settlePower b

/-- PMC_THERM (Table 18.13): the thresholds of a sensor, compared at once with its temperature. -/
def sensorWrite (i v : Nat) (b : Block) : Block :=
  let x := sensor b i
  senseTemp i x.temp (setSensor i { x with throttleC := F.PMC_THERM_throttle_c.of v, tripC := F.PMC_THERM_trip_c.of v } b)

/-- PMC_CMD (Table 18.10). -/
def pmcCommand (who : Caller) (v : Nat) (b : Block) : Block :=
  match bitsOf v 0 3 with
  | 1 => unbrake b
  | 2 => standby b
  | 3 => wake (.command who) b
  | _ => b

/-- MEM_KEY_CMD (Table 12.13, R309). -/
def keyCommand (who : Caller) (v : Nat) (b : Block) : Block :=
  if mayCommandKeys who = false then b
  else match bitsOf v 0 2 with
    | 1 => rotateKey (b.getF F.MEM_KEY_SEL_tenant) b
    | 2 => reserialise b
    | _ => b

/-- CMP_CMD (Table 13.27, R332). -/
def cmpCommand (who : Caller) (v : Nat) (b : Block) : Block :=
  if mayCommandKeys who = false then b
  else match bitsOf v 0 2 with
    | 1 => mapForm b
    | 2 => mapPropose b
    | 3 => { b with cmp := { b.cmp with staged := [], stagedMembers := [] } }
    | _ => b

/-- MOD_TEN_CMD (Table 14.10). -/
def tenantCommand (v : Nat) (b : Block) : Block :=
  match bitsOf v 0 2 with
  | 1 => activateTenant (selTenant b) b
  | 2 => restartTenant (selTenant b) b
  | 3 => resetTenant (selTenant b) b
  | _ => b

/-- BRP_CMD (Table 16.22). -/
def brpCommand (v : Nat) (b : Block) : Block :=
  match bitsOf v 0 2 with
  | 1 => fuseCommit b
  | 2 => testNow b
  | _ => b

/-- Writes that do more, or less, than their access codes say (R6): caller, instance, value. -/
def writeRules : List (Reg × (Caller → Nat → Nat → Block → Block)) :=
  [(R.MOD_TIMELINE_ADDR, fun _ _ v => timelineWrite v),
   (R.MOD_TIMELINE_STAT, fun _ i v b =>
     let b := writeFields R.MOD_TIMELINE_STAT i v b
     if v.testBit 2 then b.setF F.MOD_TIMELINE_STAT_regress_count 0 else b),
   (R.SES_DESC_SEL, fun who _ v => descSelect who v),
   (R.CFE_RING_CTRL, fun who _ v => ringCtrlWrite who v),
   (R.CFE_RING_CFG, fun who i v b => ringAccess who 0x20 i (if who.isMgmt then ringCfgWrite i v else id) b),
   (R.CFE_RING_STAT, fun who i v b => ringAccess who 0x28 i (writeFields R.CFE_RING_STAT i v) b),
   (R.CFE_CANCEL_GO, fun who _ v b => if working b then cancelWrite who v b else b),
   (R.PNE_CFG, fun _ _ v => pneCfgWrite v),
   (R.PGM_PFX_TEN, fun who i v b => if who.isMgmt then writeFields R.PGM_PFX_TEN i v b else b),
   (R.PGM_PFX_SEL, fun who _ v => pfxSelect who v),
   (R.SPK_FAULT, fun _ i v => clearRecord R.SPK_FAULT i v),
   (R.TXU_COG_SEL, fun _ i v b =>
     let b := writeFields R.TXU_COG_SEL i v b
     { b with txu := { b.txu with dgList := false } }),
   (R.TXU_LIST_SEL, fun _ i v b =>
     let b := writeFields R.TXU_LIST_SEL i v b
     { b with txu := { b.txu with dgList := true } }),
   (R.NMS_IDX_CFG, fun _ i v b => if (indexOf b i).isNone then writeFields R.NMS_IDX_CFG i v b else b),
   (R.NMS_IDX_SHARD, fun _ i v b => if (indexOf b (i / 4)).isNone then writeFields R.NMS_IDX_SHARD i v b else b),
   (R.NMS_IDX_CMD, fun _ _ v => indexCommand (bitsOf v 0 2)),
   (R.MEM_KEY_CMD, fun who _ v => keyCommand who v),
   (R.MEM_HWIN_ADDR, fun _ i v b => if b.getFi F.MEM_HWIN_CFG_enable i = 1 then b else writeFields R.MEM_HWIN_ADDR i v b),
   (R.MEM_HWIN_CFG, fun _ i v => windowWrite i v),
   (R.MEM_HWIN_TAG, fun _ i v b => if b.getFi F.MEM_HWIN_CFG_enable i = 1 then b else writeFields R.MEM_HWIN_TAG i v b),
   (R.MEM_FAULT, fun _ i v => clearRecord R.MEM_FAULT i v),
   (R.FLL_PORT_CTRL, fun _ _ v => portCtrlWrite false v),
   (R.STL_PORT_CTRL, fun _ _ v => portCtrlWrite true v),
   (R.TSH_CFG, fun _ _ v => shaperWrite v),
   (R.CMP_ID, fun _ _ v => cmpIdWrite v),
   (R.CMP_CMD, fun who _ v => cmpCommand who v),
   (R.CMP_ENT_WIN, fun who i v => entWrite who i v),
   (R.MOD_TEN_CMD, fun _ _ v => tenantCommand v),
   (R.RTP_CFG, fun _ _ v => rtpCfgWrite v),
   (R.RTP_CMD, fun who _ v => rtpCommand who v),
   (R.RTP_APER, fun _ i v b => if b.isSet F.RTP_APER_enable then b else writeFields R.RTP_APER i v b),
   (R.RTP_REQ_CMD, fun who _ v => rtpRequest who v),
   (R.TDM_CFG, fun _ _ v => tdmCfgWrite v),
   (R.TDM_CMD, fun who _ v b => if working b then tdmCommand who v none [] b else b),
   (R.BRP_CMD, fun _ _ v => brpCommand v),
   (R.INT_SOFT, fun _ _ v => fire (Src.soft (bitsOf v 0 8))),
   (R.INT_TGT_EOI, fun _ t v => eoiTarget t (bitsOf v 0 11)),
   (R.INT_TGT_STAT, fun _ t v b => signalTargets (writeFields R.INT_TGT_STAT t v b)),
   (R.INT_WATCH_CFG, fun _ w v => watchWrite w v),
   (R.INT_WATCH_VAL, fun _ w v b => judgeWatch w (writeFields R.INT_WATCH_VAL w v b)),
   (R.INT_SRC_CFG, fun _ n v => srcConfig n v),
   (R.INT_SRC_STAT, fun _ n v => sourceStatWrite n v),
   (R.INT_SYNC_OWN, fun _ j v => ownWrite j v),
   (R.SYNC_CNT, fun _ c v => setCounter c v),
   (R.PMC_CFG, fun _ _ v => pmcCfgWrite v),
   (R.PMC_CMD, fun who _ v => pmcCommand who v),
   (R.PMC_THERM, fun _ i v => sensorWrite i v),
   (R.PMC_TEN_SEL, fun who i v b => if who.isMgmt then writeFields R.PMC_TEN_SEL i v b else b)]

/-- A write of a register by a caller that may write it. -/
def writeAt (who : Caller) (r : Reg) (k v : Nat) (b : Block) : Block :=
  match instOf who b r k with
  | none => b
  | some i => match ruleFor r writeRules with
    | some f => f who i v b
    | none => writeFields r i v b

/-! ### Apertures (R367, R368) -/

/-- Bases of the blocks that pages 0 to 6 of an aperture show. -/
def pageBases : List Nat := [0x100000, 0x200000, 0x300000, 0x600000, 0x700000, 0x20000, 0x10000]

/-- Registers that an aperture shows below 0x800 (R44, R73, R134, R263, R285, R372, R432). -/
def shownRegs : List Reg :=
  [R.CFE_RING_SEL, R.CFE_RING_CTRL, R.CFE_RING_CFG, R.CFE_RING_STAT, R.CFE_CANCEL_ID, R.CFE_CANCEL_GO,
   R.SES_DESC_SEL, R.SES_DESC_WIN, R.PGM_PFX_TEN, R.PGM_PFX_SEL, R.PGM_PFX_WIN,
   R.TXU_CAPS, R.TXU_COG_SEL, R.TXU_COG_INFO, R.TXU_COG_TOK, R.TXU_LIST_SEL, R.TXU_LIST_INFO, R.TXU_DG,
   R.NMS_IDX_SEL, R.NMS_IDX_CFG, R.NMS_IDX_STAT, R.NMS_IDX_VER, R.NMS_IDX_SHARD,
   R.PMC_TEN_SEL, R.PMC_E_TEN, R.PMC_RING_SEL, R.PMC_E_RING, R.RTP_REQ_ADDR, R.RTP_REQ_CMD]

/-- Registers that an aperture may write. -/
def openRegs : List Reg :=
  [R.CFE_RING_SEL, R.CFE_RING_CTRL, R.CFE_RING_CFG, R.CFE_RING_STAT, R.CFE_CANCEL_ID, R.CFE_CANCEL_GO, R.SES_DESC_SEL,
   R.PGM_PFX_TEN, R.PGM_PFX_SEL, R.TXU_COG_SEL, R.TXU_LIST_SEL, R.NMS_IDX_SEL, R.PMC_TEN_SEL, R.PMC_RING_SEL,
   R.RTP_REQ_ADDR, R.RTP_REQ_CMD]

/-- A tenant's own registers, from 0x800 of a page: the per-tenant block's base and its bytes. -/
def ownBlock (page t : Nat) : Option (Nat × Nat) :=
  match page with
  | 0 => some (0x110000 + 16 * t, 16)
  | 1 => some (0x210000 + 64 * t, 64)
  | 2 => some (0x310000 + 16 * t, 16)
  | _ => none

/-- The register that an offset of tenant t's aperture shows. -/
def apertureReg (t off : Nat) : Option (Reg × Nat) :=
  let page := off / 0x1000
  let x := off % 0x1000
  if x < 0x800 then
    match (pageBases[page]?).bind fun base => regAt (base + x) with
    | some (r, i) => if shownRegs.any fun s => decide (s.addr = r.addr) then some (r, i) else none
    | none => none
  else match ownBlock page t with
    | none => none
    | some (base, n) => if x - 0x800 < n then regAt (base + (x - 0x800)) else none

/-- Apertures are decoded (Table 15.19). -/
def apertureOn (b : Block) (off : Nat) : Bool := b.isSet F.RTP_APER_enable && decide (off < 0x10000)

/-- A register of a ring is read while another tenant's ring is selected (R73, R432). -/
def foreignRing (t : Nat) (r : Reg) (b : Block) : Option Nat :=
  let ring := if r.addr = R.PMC_E_RING.addr then b.getF F.PMC_RING_SEL_ring else b.getF F.CFE_RING_SEL_ring
  if [R.CFE_RING_CTRL.addr, R.CFE_RING_CFG.addr, R.CFE_RING_STAT.addr, R.PMC_E_RING.addr].contains r.addr
      ∧ ringTenant b ring ≠ t then some ring else none

/-- A read by a caller: an address of management space, or an offset of a tenant's aperture. -/
def readReg (who : Caller) (a : Nat) (b : Block) : BitVec 64 × Block :=
  match who.tenant? with
  | none => match regAt a with
    | none => (0, b)
    | some (r, i) => readAt who r i b
  | some t =>
    if apertureOn b a = false then (0, b)
    else match apertureReg t a with
      | none => (0, violation 9 t a 0 b)
      | some (r, i) => match foreignRing t r b with
        | some ring => (0, violation 4 t a ring b)
        | none => readAt who r i b

/-- A write by a caller. -/
def writeReg (who : Caller) (a v : Nat) (b : Block) : Block :=
  match who.tenant? with
  | none => match regAt a with
    | none => b
    | some (r, i) => writeAt who r i v b
  | some t =>
    if apertureOn b a = false then b
    else match apertureReg t a with
      | none => violation 9 t a v b
      | some (r, i) => if openRegs.any fun s => decide (s.addr = r.addr) then writeAt who r i v b else b

/-- REG_WRITE (R6): by its access codes, and with the effects that the field's Meaning adds. -/
def execRegWrite (who : Caller) (addr : BitVec 32) (val : BitVec 64) (s : State) : Host.Outcome State Fault Refusal :=
  actR .none (writeReg who addr.toNat val.toNat) s

/-! ### READ and WRITE of the management bus (R445) -/

/-- Status of an access through the bus: 3 before the boot is complete, 2 for an address that is unaligned or unmapped. -/
def busStatusOf (b : Block) (a : Nat) : Nat :=
  if b.rtp.ready = false then 3 else if a % 8 ≠ 0 ∨ (regAt a).isNone = true then 2 else 0

/-- READ: an access from management space. -/
def busReadOp (a : Nat) (b : Block) : Block :=
  if b.mod.released = false then b
  else match busStatusOf b a with
    | 0 =>
      let (v, b) := readReg .mgmt a b
      busAnswer 0 { b with rdata := v }
    | e => busAnswer e b

/-- READ (R445). -/
def execBusRead (addr : BitVec 32) (s : State) : Host.Outcome State Fault Refusal := actB .none (busReadOp addr.toNat) s

/-- WRITE: an access from management space. -/
def busWriteOp (a v : Nat) (b : Block) : Block :=
  if b.mod.released = false then b
  else match busStatusOf b a with
    | 0 => rest (busAnswer 0 (writeReg .mgmt a v b))
    | e => busAnswer e b

/-- WRITE (R445). -/
def execBusWrite (addr : BitVec 32) (val : BitVec 64) (s : State) : Host.Outcome State Fault Refusal :=
  actB .none (busWriteOp addr.toNat val.toNat) s

end Sys2Proof.Machine
end

