-- ==== Sys2Proof/Machine/Flags.lean ====
section
/-! DEFINITION. Error and fault flags of the Spokes (R189, R230 to R234): ECC counters, the fault record, and what a tile
fault does to its step. -/

namespace Sys2Proof.Machine

/-! ### Fault codes (Table 9.8) -/

def Ft.illegal : Nat := 0x01
def Ft.lsRange : Nat := 0x02
def Ft.align : Nat := 0x03
def Ft.pcRange : Nat := 0x04
def Ft.overrun : Nat := 0x05
def Ft.liveLimit : Nat := 0x06
def Ft.lsUncorr : Nat := 0x10
def Ft.accUncorr : Nat := 0x11
def Ft.copyTimeout : Nat := 0x12
def Ft.copyErr : Nat := 0x13

/-! ### ECC (R189) -/

/-- The errors met counted, and the machine fault of the first that cannot be corrected. -/
def meetUpsets (spk : Nat) (us : List (Nat × Bool)) (b : Block) : Option Nat × Block :=
  ((us.find? (·.2)).map fun u => if u.1 < 2 ^ 20 then Ft.lsUncorr else Ft.accUncorr,
   us.foldl (fun b u => countUpset spk u b) b)

/-! ### Tile faults (R231, R233, R234) -/

/-- The step that a Spoke's tile belongs to. -/
def stepOfSpoke (b : Block) (k : Spoke) : Option (Nat × Peloton) :=
  match k.ctx with
  | none => none
  | some (t, slot, place) =>
    match tget b.ste.pelotons place with
    | none => none
    | some p => if p.tenant = t ∧ p.slot = slot then some (place, p) else none

/-- A tile of a step no longer runs: with a fault or a teardown, only the tiles that run are still to end (R231, R336). The
last one opens the boundary; in a fenced module no boundary follows (R379). A tenant reset that waited for it goes on. -/
def tileOver (place : Nat) (p : Peloton) (b : Block) : Block :=
  let out := p.tilesOut - 1
  let left := if p.fault.isSome ∨ p.torn = true ∨ p.abandon = true then out else p.tilesLeft - 1
  let b := setPel place (some { p with tilesOut := out, tilesLeft := left }) b
  if left = 0 ∧ (p.abandon = true ∨ b.isSet F.CMP_ID_isolated = false) then settleResets (endStepTiles place b) else b

/-- A tile fault (R231): the Spoke stops, its fault is recorded, and its step is told; copies already issued still complete. A
fault during a swap belongs to the step of the outgoing chain, which may have no other tile running (R234). -/
def tileFault (spk code : Nat) (b : Block) : Block :=
  let k := spoke b spk
  let b := b.setFi F.SPK_FAULT_code spk code
  let b := b.setFi F.SPK_FAULT_tenant spk (spokeTenant k)
  let b := b.setFi F.SPK_FAULT_pc spk k.pc
  let b := fire Src.spokeFault (b.setFi F.SPK_FAULT_valid spk 1)
  let b := setSpoke spk { k with halted := true, fault := code, running := false } b
  match stepOfSpoke b k with
  | none => b
  | some (place, p) =>
    let first := p.fault = none
    let p := { p with
      fault := p.fault.or (some (code, spk)), prog := p.prog || !machineCode code
      faults := if first ∧ machineCode code = true then p.faults + 1 else p.faults }
    if k.running then tileOver place p b
    else if p.tilesOut = 0 then settleResets (endStepTiles place (setPel place (some p) b))
    else setPel place (some p) b

end Sys2Proof.Machine
end

