-- ==== Sys2Proof/Machine/SpokeExec.lean ====
section
/-! DEFINITION. How a Spoke runs an instruction of its tile (R210, R212, R221, R224, R231): the command names the Spoke and the
word at its program counter. -/

namespace Sys2Proof.Machine

/-- What an instruction does: the local-store ranges and accumulator rows it reads, the ranges it writes, and the Spoke and
program counter after it. -/
structure SpkOp where
  reads : List Range := []
  writes : List Range := []
  rows : List Nat := []
  next : Spoke
  pc : Int

/-- What an instruction's body answers: a fault code, or its effect. -/
inductive SpkAns where
  | fault (code : Nat)
  | run (o : SpkOp)

/-- An effect on registers alone; the next instruction follows. -/
def SpkAns.go (k : Spoke) : SpkAns := .run { next := k, pc := k.pc + 1 }

/-- A branch (R213). -/
def SpkAns.jump (k : Spoke) (taken : Bool) (off : Int) : SpkAns := .run { next := k, pc := k.pc + if taken then off else 1 }

/-- The Spokes run instructions in RUN, and in a fenced module until their TEND (R379, R429, R431). -/
def spokesRun (b : Block) : Bool := decide (b.getF F.PMC_STAT_pstate = 0)

/-- A Spoke is to issue this word: it runs a tile, and the word stands at its program counter. -/
def issues (b : Block) (k : Spoke) (w : BitVec 64) : Bool :=
  spokesRun b && k.running && !k.halted && decide (k.code[k.pc]? = some w)

/-- A TBEGIN, and a TEND. -/
def isTbegin (w : BitVec 64) : Bool := decide (clsOf w.toNat = 5) && decide (opOf w.toNat = 1)
def isTend (w : BitVec 64) : Bool := decide (clsOf w.toNat = 5) && decide (opOf w.toNat = 2)

/-- The place of an instruction in its tile's code is illegal (R224): the first is not a TBEGIN, a TBEGIN is not the first,
or a TEND stands before it. -/
def placeBad (k : Spoke) (w : BitVec 64) : Bool :=
  (isTbegin w != decide (k.pc = 0)) || (k.code.take k.pc).any isTend

/-- A bit that its class reserves is set (R212, R213, R216, R219, R224, R225). -/
def reservedSet (w : Nat) : Bool :=
  let c := clsOf w
  if c = 0 then decide (bitsOf w 27 5 ≠ 0)
  else if c = 2 then decide (bitsOf w 55 9 ≠ 0)
  else if c = 3 then decide (bitsOf w 49 15 ≠ 0)
  else if c = 5 then (if opOf w = 1 then decide (bitsOf w 30 2 ≠ 0) else decide (bitsOf w 23 9 ≠ 0))
  else false

/-- An instruction's body run: it waits for the copies it conflicts with (R221), meets the errors in what it reads (R189),
and takes its effect; a program counter that leaves the code is a fault (R224). -/
def runBody (spk : Nat) (k : Spoke) (a : SpkAns) (b : Block) : Block :=
  match a with
  | .fault c => tileFault spk c b
  | .run o =>
    if conflicts k o.reads o.writes then b
    else match meetUpsets spk (upsetsIn k o.reads o.rows) b with
      | (some c, b) => tileFault spk c b
      | (none, b) =>
        if o.pc < 0 ∨ 8191 < o.pc ∨ (k.code.length : Int) ≤ o.pc then
          tileFault spk Ft.pcRange (setSpoke spk { o.next with pc := k.pc } b)
        else setSpoke spk { o.next with pc := o.pc.toNat } b

/-- A word issued by its row: another row's word, or a word that the Spoke is not to issue, changes nothing. -/
def runWord (cls op : Nat) (body : Nat → Spoke → Block → Block) (spk : Nat) (w : BitVec 64) (b : Block) : Block :=
  let k := spoke b spk
  if issues b k w = false ∨ clsOf w.toNat ≠ cls ∨ opOf w.toNat ≠ op then b
  else if placeBad k w || reservedSet w.toNat then tileFault spk Ft.illegal b
  else body w.toNat k b

/-- A row whose body answers an effect. -/
def runSpoke (cls op : Nat) (body : Nat → Spoke → SpkAns) (spk : Nat) (w : BitVec 64) (b : Block) : Block :=
  runWord cls op (fun w k b => runBody spk k (body w k) b) spk w b

/-- A meaning of a Spoke row: the module is brought to rest after it, for a fault may end the step. -/
def actK (spk : Nat) (f : Block → Block) (s : State) : Host.Outcome State Fault Refusal := actR (.spoke spk) f s

end Sys2Proof.Machine
end

