-- ==== Sys2Proof/Machine/SpokeVector.lean ====
section
/-! DEFINITION. Vector instructions of the Spokes (R205, R206, R214, R215, Table 9.4). -/

namespace Sys2Proof.Machine

/-- d := f a, lane by lane. -/
def vec1 (f : BitVec 32 → BitVec 32) (w : Nat) (k : Spoke) : SpkAns :=
  .go (setVreg k (fldD w) ((vreg k (fldA w)).map f))

/-- d := f a b, lane by lane. -/
def vec2 (f : BitVec 32 → BitVec 32 → BitVec 32) (w : Nat) (k : Spoke) : SpkAns :=
  .go (setVreg k (fldD w) (List.zipWith f (vreg k (fldA w)) (vreg k (fldB w))))

/-- d := f a b c, lane by lane. -/
def vec3 (f : BitVec 32 → BitVec 32 → BitVec 32 → BitVec 32) (w : Nat) (k : Spoke) : SpkAns :=
  .go (setVreg k (fldD w)
    (List.zipWith (fun g c => g c) (List.zipWith f (vreg k (fldA w)) (vreg k (fldB w))) (vreg k (fldC w))))

/-- A row of class 1. -/
def execVector (op : Nat) (body : Nat → Spoke → SpkAns) (spk : Nat) (w : BitVec 64) (s : State) :
    Host.Outcome State Fault Refusal :=
  actK spk (runSpoke 1 op body spk w) s

/-- VADD. -/
def execVadd (spk : Nat) (w : BitVec 64) (s : State) : Host.Outcome State Fault Refusal := execVector 0x01 (vec2 fAdd) spk w s

/-- VSUB. -/
def execVsub (spk : Nat) (w : BitVec 64) (s : State) : Host.Outcome State Fault Refusal := execVector 0x02 (vec2 fSub) spk w s

/-- VMUL. -/
def execVmul (spk : Nat) (w : BitVec 64) (s : State) : Host.Outcome State Fault Refusal := execVector 0x03 (vec2 fMul) spk w s

/-- VDIV. -/
def execVdiv (spk : Nat) (w : BitVec 64) (s : State) : Host.Outcome State Fault Refusal := execVector 0x04 (vec2 fDiv) spk w s

/-- VSQRT. -/
def execVsqrt (spk : Nat) (w : BitVec 64) (s : State) : Host.Outcome State Fault Refusal := execVector 0x05 (vec1 fSqrt) spk w s

/-- VFMA: one rounding. -/
def execVfma (spk : Nat) (w : BitVec 64) (s : State) : Host.Outcome State Fault Refusal := execVector 0x06 (vec3 fFma) spk w s

/-- VRCP. -/
def execVrcp (spk : Nat) (w : BitVec 64) (s : State) : Host.Outcome State Fault Refusal := execVector 0x07 (vec1 fRcp) spk w s

/-- VRSQ. -/
def execVrsq (spk : Nat) (w : BitVec 64) (s : State) : Host.Outcome State Fault Refusal := execVector 0x08 (vec1 fRsq) spk w s

/-- VEXP2. -/
def execVexp2 (spk : Nat) (w : BitVec 64) (s : State) : Host.Outcome State Fault Refusal := execVector 0x09 (vec1 fExp2) spk w s

/-- VLOG2. -/
def execVlog2 (spk : Nat) (w : BitVec 64) (s : State) : Host.Outcome State Fault Refusal := execVector 0x0A (vec1 fLog2) spk w s

/-- VEXP. -/
def execVexp (spk : Nat) (w : BitVec 64) (s : State) : Host.Outcome State Fault Refusal := execVector 0x0B (vec1 fExp) spk w s

/-- VMIN. -/
def execVmin (spk : Nat) (w : BitVec 64) (s : State) : Host.Outcome State Fault Refusal := execVector 0x0C (vec2 fMin) spk w s

/-- VMAX. -/
def execVmax (spk : Nat) (w : BitVec 64) (s : State) : Host.Outcome State Fault Refusal := execVector 0x0D (vec2 fMax) spk w s

/-- d := 1 or 0 by the comparison that `mode` names; another mode is illegal. -/
def vecCmp (w : Nat) (k : Spoke) : SpkAns :=
  if 5 < fldMode w then .fault Ft.illegal
  else vec2 (fun a c => if (fCompare (fldMode w) a c).getD false then 1 else 0) w k

/-- VCMP. -/
def execVcmp (spk : Nat) (w : BitVec 64) (s : State) : Host.Outcome State Fault Refusal := execVector 0x0E vecCmp spk w s

/-- VSEL: d := a where c is not 0, else b. -/
def execVsel (spk : Nat) (w : BitVec 64) (s : State) : Host.Outcome State Fault Refusal :=
  execVector 0x0F (vec3 fun a b c => if c ≠ 0 then a else b) spk w s

/-- VIADD. -/
def execViadd (spk : Nat) (w : BitVec 64) (s : State) : Host.Outcome State Fault Refusal := execVector 0x10 (vec2 (· + ·)) spk w s

/-- VISUB. -/
def execVisub (spk : Nat) (w : BitVec 64) (s : State) : Host.Outcome State Fault Refusal := execVector 0x11 (vec2 (· - ·)) spk w s

/-- VIMUL: the low 32 bits. -/
def execVimul (spk : Nat) (w : BitVec 64) (s : State) : Host.Outcome State Fault Refusal := execVector 0x12 (vec2 (· * ·)) spk w s

/-- VAND. -/
def execVand (spk : Nat) (w : BitVec 64) (s : State) : Host.Outcome State Fault Refusal := execVector 0x13 (vec2 (· &&& ·)) spk w s

/-- VOR. -/
def execVor (spk : Nat) (w : BitVec 64) (s : State) : Host.Outcome State Fault Refusal := execVector 0x14 (vec2 (· ||| ·)) spk w s

/-- VXOR. -/
def execVxor (spk : Nat) (w : BitVec 64) (s : State) : Host.Outcome State Fault Refusal := execVector 0x15 (vec2 (· ^^^ ·)) spk w s

/-- VSHL: the exact shift modulo 2^32. -/
def execVshl (spk : Nat) (w : BitVec 64) (s : State) : Host.Outcome State Fault Refusal :=
  execVector 0x16 (vec2 fun a b => a <<< b.toNat) spk w s

/-- VSHR: the exact shift, zero fill. -/
def execVshr (spk : Nat) (w : BitVec 64) (s : State) : Host.Outcome State Fault Refusal :=
  execVector 0x17 (vec2 fun a b => a >>> b.toNat) spk w s

/-- Bits of a lane that are 1. -/
def popcount32 (a : BitVec 32) : BitVec 32 := BitVec.ofNat 32 ((List.range 32).filter fun i => a.toNat.testBit i).length

/-- VPOP. -/
def execVpop (spk : Nat) (w : BitVec 64) (s : State) : Host.Outcome State Fault Refusal := execVector 0x18 (vec1 popcount32) spk w s

/-- One level of the pairwise tree (R206). -/
def reducePairs (f : BitVec 32 → BitVec 32 → BitVec 32) : List (BitVec 32) → List (BitVec 32)
  | x :: y :: rest => f x y :: reducePairs f rest
  | xs => xs

/-- The pairwise tree over lane index; the first argument is the number of levels (R206). -/
def reduceTree (f : BitVec 32 → BitVec 32 → BitVec 32) : Nat → List (BitVec 32) → BitVec 32
  | 0, xs => (xs.head?).getD 0
  | n + 1, xs => reduceTree f n (reducePairs f xs)

/-- The operation of a reduction's `mode` (Table 9.4). -/
def reduceOp (mode : Nat) : Option (BitVec 32 → BitVec 32 → BitVec 32) :=
  match mode with
  | 0 => some fAdd
  | 1 => some fMin
  | 2 => some fMax
  | _ => none

/-- Lane 0 of d := the reduction of a; the other lanes +0. A `mode` the table does not list is illegal. -/
def vecRed (w : Nat) (k : Spoke) : SpkAns :=
  match reduceOp (fldMode w) with
  | none => .fault Ft.illegal
  | some f => .go (setVreg k (fldD w) (reduceTree f 9 (vreg k (fldA w)) :: List.replicate (lanes - 1) 0))

/-- VRED. -/
def execVred (spk : Nat) (w : BitVec 64) (s : State) : Host.Outcome State Fault Refusal := execVector 0x20 vecRed spk w s

/-- A format code with its block-scaling attribute that a kernel of a Spoke ISA version may name (R190, R195, R237). -/
def codeLegal (isa code : Nat) (mx : Bool) : Bool :=
  fmtOk code && (!mx || mxOk code) && !(decide (isa = 0x10) && (decide (code = 5) || decide (code = 6)))

/-- Address of the lanes of a VLD or VST. -/
def lanesAddr (w : Nat) (k : Spoke) : Nat := addrOf (sreg k (fldS w)) (fldOff w)

/-- Address of the 16 scale bytes of a VLD or VST (R215). -/
def scaleAddr (w : Nat) (k : Spoke) : Nat := (sreg k (fldC w)).toNat

/-- Scale bytes of a vector register. -/
def scaleCount (mx : Bool) : Nat := if mx then 16 else 0

/-- d := 512 elements of the local store, widened to FP32 (R198, R215). -/
def vecLd (w : Nat) (k : Spoke) : SpkAns :=
  let code := fldFmt w
  let mx := fldMx w
  let a := lanesAddr w k
  let sa := scaleAddr w k
  let n := elemBytes code lanes
  if codeLegal k.isa code mx = false then .fault Ft.illegal
  else if lsBytes < a + n ∨ (mx = true ∧ lsBytes < sa + 16) then .fault Ft.lsRange
  else
    let xs := readElems code lanes mx (lsRead k a n) (lsRead k sa (scaleCount mx))
    .run { reads := [(a, n), (sa, scaleCount mx)], pc := k.pc + 1,
           next := setVreg k (fldD w) (xs.map fun x => BitVec.ofNat 32 (fp32.encode (fldSat w) x)) }

/-- VLD. -/
def execVld (spk : Nat) (w : BitVec 64) (s : State) : Host.Outcome State Fault Refusal := execVector 0x28 vecLd spk w s

/-- 512 elements of the local store := the lanes of a converted (R198, R199, R215). -/
def vecSt (w : Nat) (k : Spoke) : SpkAns :=
  let code := fldFmt w
  let mx := fldMx w
  let a := lanesAddr w k
  let sa := scaleAddr w k
  let n := elemBytes code lanes
  if codeLegal k.isa code mx = false then .fault Ft.illegal
  else if lsBytes < a + n ∨ (mx = true ∧ lsBytes < sa + 16) then .fault Ft.lsRange
  else
    let (es, scales) := writeElems code mx (fldSat w) ((vreg k (fldA w)).map num32)
    .run { writes := [(a, n), (sa, scaleCount mx)], pc := k.pc + 1, next := lsWrite sa scales (lsWrite a es k) }

/-- VST. -/
def execVst (spk : Nat) (w : BitVec 64) (s : State) : Host.Outcome State Fault Refusal := execVector 0x29 vecSt spk w s

/-- d := the lanes of a rounded to a format and widened again; block-scaled, the scale bytes go to [s] (R198, R199, R215). -/
def vecCvt (w : Nat) (k : Spoke) : SpkAns :=
  let code := fldFmt w
  let mx := fldMx w
  let sa := (sreg k (fldS w)).toNat
  if codeLegal k.isa code mx = false then .fault Ft.illegal
  else if mx = true ∧ lsBytes < sa + 16 then .fault Ft.lsRange
  else
    let (es, scales) := writeElems code mx (fldSat w) ((vreg k (fldA w)).map num32)
    let xs := readElems code lanes mx es scales
    .run { writes := [(sa, scaleCount mx)], pc := k.pc + 1,
           next := setVreg (lsWrite sa scales k) (fldD w) (xs.map fun x => BitVec.ofNat 32 (fp32.encode (fldSat w) x)) }

/-- VCVT. -/
def execVcvt (spk : Nat) (w : BitVec 64) (s : State) : Host.Outcome State Fault Refusal := execVector 0x2A vecCvt spk w s

/-- First accumulator row of a VACR or VACW; none where R215 is broken. -/
def accFirst (w : Nat) (k : Spoke) : Option Nat :=
  let r := (sreg k (fldS w)).toNat
  if r % 4 = 0 ∧ r ≤ 124 then some r else none

/-- d := rows r0 to r0 + 3 of a tile. -/
def vecAcr (w : Nat) (k : Spoke) : SpkAns :=
  match accFirst w k with
  | none => .fault Ft.illegal
  | some r =>
    let t := fldMode w % 4
    .run { rows := [0, 1, 2, 3].map fun i => 128 * t + r + i, pc := k.pc + 1,
           next := setVreg k (fldD w) ([0, 1, 2, 3].flatMap fun i => accRow k t (r + i)) }

/-- VACR. -/
def execVacr (spk : Nat) (w : BitVec 64) (s : State) : Host.Outcome State Fault Refusal := execVector 0x30 vecAcr spk w s

/-- Accumulator rows written hold no error any more. -/
def clearRows (rows : List Nat) (k : Spoke) : Spoke :=
  { k with upsets := k.upsets.filter fun u => decide (u.1 < 2 ^ 20) || !rows.contains ((u.1 - 2 ^ 20) / 64) }

/-- Rows r0 to r0 + 3 of a tile := a. -/
def vecAcw (w : Nat) (k : Spoke) : SpkAns :=
  match accFirst w k with
  | none => .fault Ft.illegal
  | some r =>
    let t := fldMode w % 4
    let v := vreg k (fldA w)
    let k' := [0, 1, 2, 3].foldl (fun k i => setAccRow t (r + i) ((v.drop (128 * i)).take 128) k) k
    .go (clearRows ([0, 1, 2, 3].map fun i => 128 * t + r + i) k')

/-- VACW. -/
def execVacw (spk : Nat) (w : BitVec 64) (s : State) : Host.Outcome State Fault Refusal := execVector 0x31 vecAcw spk w s

/-- d := bits [31:0] of s in every lane. -/
def vecBcast (w : Nat) (k : Spoke) : SpkAns :=
  .go (setVreg k (fldD w) (List.replicate lanes ((sreg k (fldS w)).truncate 32)))

/-- VBCAST. -/
def execVbcast (spk : Nat) (w : BitVec 64) (s : State) : Host.Outcome State Fault Refusal := execVector 0x32 vecBcast spk w s

/-- d := the lane index. -/
def vecIdx (w : Nat) (k : Spoke) : SpkAns := .go (setVreg k (fldD w) ((List.range lanes).map (BitVec.ofNat 32)))

/-- VIDX. -/
def execVidx (spk : Nat) (w : BitVec 64) (s : State) : Host.Outcome State Fault Refusal := execVector 0x33 vecIdx spk w s

end Sys2Proof.Machine
end

