-- ==== Sys2Proof/Machine/SpokeCopy.lean ====
section
/-! DEFINITION. Copies and sync instructions of the Spokes (R207, R218 to R223, R226, R230). -/

namespace Sys2Proof.Machine

/-! ### Issue (R219) -/

/-- The copy that an instruction names, with its number. -/
def copyOf (w : Nat) (k : Spoke) : CopyOp :=
  let len := (sreg k (fldB w)).toNat
  let cvt := w.testBit 43
  let fsrc := bitsOf w 32 4
  let fdst := bitsOf w 37 4
  { num := k.nextCopy, op := opOf w, ls := (sreg k (fldD w)).toNat, off := (sreg k (fldA w)).toNat, len := len,
    seg := fldC w, cvt := cvt, fsrc := fsrc, mxs := w.testBit 36, fdst := fdst, mxd := w.testBit 41, sat := w.testBit 42,
    scale := bitsOf (sreg k (bitsOf w 44 5)).toNat 0 21,
    outLen := if cvt then elemBytes fdst (len * 8 / elemBits fsrc) else len }

/-- A copy that R219 makes illegal. -/
def copyIllegal (isa : Nat) (c : CopyOp) : Bool :=
  decide (2 ^ 21 < c.len) || (c.cvt && (!codeLegal isa c.fsrc c.mxs || !codeLegal isa c.fdst c.mxd))

/-- An address, offset, length or block count off its multiple (R219). -/
def copyMisaligned (c : CopyOp) : Bool :=
  decide (c.ls % 64 ≠ 0) || decide (c.off % 64 ≠ 0) || decide (c.len % 64 ≠ 0) ||
  (c.cvt && (c.mxs || c.mxd) && (decide (c.scale % 64 ≠ 0) || decide (c.len * 8 / elemBits c.fsrc % 32 ≠ 0)))

/-- A copy issued: it moves its bytes when it completes, and waits for the copies it conflicts with (R219, R221). -/
def issueCopy (w : Nat) (k : Spoke) : SpkAns :=
  let c := copyOf w k
  if copyIllegal k.isa c then .fault Ft.illegal
  else if copyMisaligned c then .fault Ft.align
  else if (c.reads ++ c.writes).any fun r => decide (lsBytes < r.1 + r.2) then .fault Ft.lsRange
  else .run { reads := c.reads, writes := c.writes, pc := k.pc + 1,
              next := { k with copies := k.copies ++ [c], nextCopy := k.nextCopy + 1 } }

/-- CPIN: segment to local store. -/
def execCpin (spk : Nat) (w : BitVec 64) (s : State) : Host.Outcome State Fault Refusal :=
  actK spk (runSpoke 3 0x01 issueCopy spk w) s

/-- CPOUT: local store to segment. -/
def execCpout (spk : Nat) (w : BitVec 64) (s : State) : Host.Outcome State Fault Refusal :=
  actK spk (runSpoke 3 0x02 issueCopy spk w) s

/-- CPLS: local store to local store of the same Spoke. -/
def execCpls (spk : Nat) (w : BitVec 64) (s : State) : Host.Outcome State Fault Refusal :=
  actK spk (runSpoke 3 0x03 issueCopy spk w) s

/-- CPPEER: local store to a kind 6 segment. -/
def execCppeer (spk : Nat) (w : BitVec 64) (s : State) : Host.Outcome State Fault Refusal :=
  actK spk (runSpoke 3 0x04 issueCopy spk w) s

/-! ### Completion (R189, R221, R226) -/

/-- COPY_COMPLETE: an outstanding copy moves its bytes; an error in what it read that cannot be corrected is a machine fault
of the tile (R189, R221). -/
def copyDone (spk num : Nat) (b : Block) : Block :=
  match outstanding b spk num with
  | none => b
  | some c =>
    let k := spoke b spk
    let (bad, b) := meetUpsets spk (upsetsIn k c.reads []) b
    let b := moveCopy spk c b
    match bad with
    | some code => if k.running then tileFault spk code b else b
    | none => b

/-- COPY_COMPLETE (R221). -/
def execCopyComplete (spk copy : Nat) (s : State) : Host.Outcome State Fault Refusal :=
  actK spk (fun b => if spokesRun b then copyDone spk copy b else b) s

/-- A copy from outside the Spoke outlives `copy_timeout_us` (R226). -/
def copyLate (spk num : Nat) (b : Block) : Block :=
  match outstanding b spk num with
  | none => b
  | some c => if c.op ≠ 3 ∧ (spoke b spk).running = true then tileFault spk Ft.copyTimeout b else b

/-- COPY_TIMEOUT (R226). -/
def execCopyTimeout (spk copy : Nat) (s : State) : Host.Outcome State Fault Refusal :=
  actK spk (fun b => if spokesRun b then copyLate spk copy b else b) s

/-- A copy path reports a transfer error (Table 9.8): the copy moves nothing. -/
def copyFails (spk num : Nat) (b : Block) : Block :=
  match outstanding b spk num with
  | none => b
  | some _ =>
    let k := spoke b spk
    let b := setSpoke spk { k with copies := k.copies.filter fun x => decide (x.num ≠ num) } b
    if k.running then tileFault spk Ft.copyErr b else b

/-- COPY_ERR (R230). -/
def execCopyErr (spk copy : Nat) (s : State) : Host.Outcome State Fault Refusal :=
  actK spk (fun b => if spokesRun b then copyFails spk copy b else b) s

/-! ### Sync (R223) -/

/-- SCSIG: once the tile has no outstanding copy, the counter takes the value; another tenant's counter is left alone and the
attempt is logged (R223, R412). -/
def spokeSignal (spk w : Nat) (k : Spoke) (b : Block) : Block :=
  if k.copies ≠ [] then b
  else
    let n := bitsOf (sreg k (fldD w)).toNat 0 16
    let t := spokeTenant k
    let b := if counterOwner b n = t then signalCounter n (w.testBit 22) (sreg k (fldA w)).toNat b else violation 8 t spk n b
    runBody spk (spoke b spk) (.go (spoke b spk)) b

/-- SCSIG (R223). -/
def execScsig (spk : Nat) (w : BitVec 64) (s : State) : Host.Outcome State Fault Refusal :=
  actK spk (runWord 4 0x01 (spokeSignal spk) spk w) s

/-- CFENCE: it waits until the tile has no outstanding copy. -/
def spokeFence (spk _w : Nat) (k : Spoke) (b : Block) : Block := if k.copies ≠ [] then b else runBody spk k (.go k) b

/-- CFENCE (R223). -/
def execCfence (spk : Nat) (w : BitVec 64) (s : State) : Host.Outcome State Fault Refusal :=
  actK spk (runWord 4 0x02 (spokeFence spk) spk w) s

end Sys2Proof.Machine
end

