-- ==== Sys2Proof/Machine/SpokeMatrix.lean ====
section
/-! DEFINITION. The matrix unit (R195, R200 to R203, R216, R217, Tables 8.8 and 9.5). -/

namespace Sys2Proof.Machine

/-- The fields of an MMA with the values of its registers (Table 9.5). -/
structure MmaArgs where
  acc : Nat
  zero : Bool
  b1dot : Bool
  fa : Nat
  mxa : Bool
  fb : Nat
  mxb : Bool
  addrA : Nat
  scaleA : Nat
  addrB : Nat
  scaleB : Nat
  kDim : Nat
  strideA : Nat
  strideB : Nat
  rows : Nat
  cols : Nat
  deriving DecidableEq, Repr

/-- The operands of an MMA. -/
def mmaArgs (w : Nat) (k : Spoke) : MmaArgs :=
  let sa := (sreg k (bitsOf w 26 5)).toNat
  let sb := (sreg k (bitsOf w 31 5)).toNat
  let sk := (sreg k (bitsOf w 36 5)).toNat
  { acc := bitsOf w 12 2, zero := w.testBit 14, b1dot := w.testBit 15, fa := bitsOf w 16 4, mxa := w.testBit 20,
    fb := bitsOf w 21 4, mxb := w.testBit 25, addrA := bitsOf sa 0 21, scaleA := bitsOf sa 32 21,
    addrB := bitsOf sb 0 21, scaleB := bitsOf sb 32 21, kDim := bitsOf sk 0 21, strideA := bitsOf sk 21 21,
    strideB := bitsOf sk 42 21, rows := bitsOf w 41 7 + 1, cols := bitsOf w 48 7 + 1 }

/-- Group g of an operand pair (Table 8.8); none: the pair is not listed. -/
def groupOf (fa fb : Nat) : Option Nat :=
  if 3 ≤ fa ∧ fa ≤ 7 ∧ 3 ≤ fb ∧ fb ≤ 7 then some 32
  else if (fa = 8 ∨ fa = 9) ∧ (fb = 8 ∨ fb = 9) then some 32
  else if fa = 1 ∧ fb = 1 then some 8
  else if fa = 2 ∧ fb = 2 then some 8
  else if fa = 0 ∧ fb = 0 then some 1
  else if fa = 10 ∧ fb = 10 then some 256
  else none

/-- The instruction is illegal (R190, R195, R200, R217, R237). -/
def mmaIllegal (isa : Nat) (m : MmaArgs) : Bool :=
  !codeLegal isa m.fa m.mxa || !codeLegal isa m.fb m.mxb || (groupOf m.fa m.fb).isNone || decide (m.kDim = 0)
    || decide (m.kDim % (if m.fa = 10 then 256 else 32) ≠ 0) || (m.b1dot && (decide (m.fa ≠ 10) || decide (isa = 0x10)))

/-- Rows of packed elements as ranges of the local store. -/
def rowRanges (addr stride n bytes : Nat) : List Range := (List.range n).map fun i => (addr + i * stride, bytes)

/-- The scale bytes of the rows or columns of an operand (R217). -/
def scaleRange (mx : Bool) (addr n kDim : Nat) : List Range := if mx then [(addr, n * (kDim / 32))] else []

/-- Local-store ranges that an MMA reads. -/
def mmaReads (m : MmaArgs) : List Range :=
  rowRanges m.addrA m.strideA m.rows (elemBytes m.fa m.kDim) ++ scaleRange m.mxa m.scaleA m.rows m.kDim ++
  rowRanges m.addrB m.strideB m.cols (elemBytes m.fb m.kDim) ++ scaleRange m.mxb m.scaleB m.cols m.kDim

/-- Elements of one row of A, or one column of B. -/
def mmaVector (k : Spoke) (code kDim addr : Nat) (mx : Bool) (scale : Nat) : List Num :=
  readElems code kDim mx (lsRead k addr (elemBytes code kDim)) (if mx then lsRead k scale (kDim / 32) else [])

/-- Row r of the tile after an MMA; columns that N leaves unused keep their value, or start from +0. -/
def mmaRow (m : MmaArgs) (g : Nat) (x : List Num) (ys : List (List Num)) (old : List (BitVec 32)) : List (BitVec 32) :=
  (old.zipIdx).map fun e =>
    let start := if m.zero then 0 else e.1
    match ys[e.2]? with
    | none => start
    | some y => mmaElement start (groupSums (decide (m.fa = 10)) m.b1dot g m.kDim x y)

/-- The accumulator tile after an MMA. -/
def mmaTile (m : MmaArgs) (g : Nat) (k : Spoke) : Spoke :=
  let ys := (List.range m.cols).map fun c =>
    mmaVector k m.fb m.kDim (m.addrB + c * m.strideB) m.mxb (m.scaleB + c * (m.kDim / 32))
  (List.range 128).foldl (fun (acc : Spoke) r =>
    if r < m.rows then
      let x := mmaVector k m.fa m.kDim (m.addrA + r * m.strideA) m.mxa (m.scaleA + r * (m.kDim / 32))
      setAccRow m.acc r (mmaRow m g x ys (accRow k m.acc r)) acc
    else if m.zero then setAccRow m.acc r (List.replicate 128 0) acc
    else acc) k

/-- MMA: C := C + A × B, or A × B from +0 (R200, R201, R217). -/
def matrixMma (w : Nat) (k : Spoke) : SpkAns :=
  let m := mmaArgs w k
  if mmaIllegal k.isa m then .fault Ft.illegal
  else if m.addrA % 8 ≠ 0 ∨ m.addrB % 8 ≠ 0 ∨ m.strideA % 8 ≠ 0 ∨ m.strideB % 8 ≠ 0 then .fault Ft.align
  else if (mmaReads m).any fun r => decide (lsBytes < r.1 + r.2) then .fault Ft.lsRange
  else
    let rows := (List.range 128).map fun r => 128 * m.acc + r
    let next := mmaTile m ((groupOf m.fa m.fb).getD 1) k
    .run { reads := mmaReads m, rows := if m.zero then [] else rows, pc := k.pc + 1,
           next := if m.zero then clearRows rows next else next }

/-- MMA (R201). -/
def execMma (spk : Nat) (w : BitVec 64) (s : State) : Host.Outcome State Fault Refusal :=
  actK spk (runSpoke 2 0x01 matrixMma spk w) s

end Sys2Proof.Machine
end

