-- ==== Sys2Proof/Machine/SpokeScalar.lean ====
section
/-! DEFINITION. Scalar instructions of the Spokes (R211, R213, Table 9.3). -/

namespace Sys2Proof.Machine

/-- d := f a b. -/
def scalar2 (f : BitVec 64 → BitVec 64 → BitVec 64) (w : Nat) (k : Spoke) : SpkAns :=
  .go (setSreg k (fldD w) (f (sreg k (fldA w)) (sreg k (fldB w))))

/-- d := f a imm. -/
def scalarImm (f : BitVec 64 → BitVec 64 → BitVec 64) (w : Nat) (k : Spoke) : SpkAns :=
  .go (setSreg k (fldD w) (f (sreg k (fldA w)) (BitVec.ofInt 64 (fldImm w))))

/-- A branch taken where f a b holds. -/
def scalarBranch (f : BitVec 64 → BitVec 64 → Bool) (w : Nat) (k : Spoke) : SpkAns :=
  .jump k (f (sreg k (fldA w)) (sreg k (fldB w))) (fldImm w)

/-- Shift amounts are taken modulo 64. -/
def shamt (b : BitVec 64) : Nat := b.toNat % 64

/-- ADD. -/
def execAdd (spk : Nat) (w : BitVec 64) (s : State) : Host.Outcome State Fault Refusal :=
  actK spk (runSpoke 0 0x01 (scalar2 (· + ·)) spk w) s

/-- ADDI. -/
def execAddi (spk : Nat) (w : BitVec 64) (s : State) : Host.Outcome State Fault Refusal :=
  actK spk (runSpoke 0 0x02 (scalarImm (· + ·)) spk w) s

/-- SUB. -/
def execSub (spk : Nat) (w : BitVec 64) (s : State) : Host.Outcome State Fault Refusal :=
  actK spk (runSpoke 0 0x03 (scalar2 (· - ·)) spk w) s

/-- MUL: the low 64 bits. -/
def execMul (spk : Nat) (w : BitVec 64) (s : State) : Host.Outcome State Fault Refusal :=
  actK spk (runSpoke 0 0x04 (scalar2 (· * ·)) spk w) s

/-- AND. -/
def execSand (spk : Nat) (w : BitVec 64) (s : State) : Host.Outcome State Fault Refusal :=
  actK spk (runSpoke 0 0x05 (scalar2 (· &&& ·)) spk w) s

/-- OR. -/
def execSor (spk : Nat) (w : BitVec 64) (s : State) : Host.Outcome State Fault Refusal :=
  actK spk (runSpoke 0 0x06 (scalar2 (· ||| ·)) spk w) s

/-- XOR. -/
def execSxor (spk : Nat) (w : BitVec 64) (s : State) : Host.Outcome State Fault Refusal :=
  actK spk (runSpoke 0 0x07 (scalar2 (· ^^^ ·)) spk w) s

/-- SHL. -/
def execShl (spk : Nat) (w : BitVec 64) (s : State) : Host.Outcome State Fault Refusal :=
  actK spk (runSpoke 0 0x08 (scalar2 fun a b => a <<< shamt b) spk w) s

/-- SHR: zero fill. -/
def execShr (spk : Nat) (w : BitVec 64) (s : State) : Host.Outcome State Fault Refusal :=
  actK spk (runSpoke 0 0x09 (scalar2 fun a b => a >>> shamt b) spk w) s

/-- SAR: sign fill. -/
def execSar (spk : Nat) (w : BitVec 64) (s : State) : Host.Outcome State Fault Refusal :=
  actK spk (runSpoke 0 0x0A (scalar2 fun a b => a.sshiftRight (shamt b)) spk w) s

/-- LUI: the low half of a under the immediate. -/
def execLui (spk : Nat) (w : BitVec 64) (s : State) : Host.Outcome State Fault Refusal :=
  actK spk (runSpoke 0 0x0C (scalarImm fun a i => (a &&& 0xFFFFFFFF) ||| (i <<< 32)) spk w) s

/-- An 8-byte access at a + imm: its address, or the fault it takes (R213, Table 9.8). -/
def access8 (k : Spoke) (w : Nat) : Nat ⊕ Nat :=
  let a := addrOf (sreg k (fldA w)) (fldImm w)
  if a % 8 ≠ 0 then .inr Ft.align else if lsBytes < a + 8 then .inr Ft.lsRange else .inl a

/-- d := the 8 bytes of the local store at a + imm. -/
def scalarLd (w : Nat) (k : Spoke) : SpkAns :=
  match access8 k w with
  | .inr c => .fault c
  | .inl a => .run { reads := [(a, 8)], pc := k.pc + 1,
                     next := setSreg k (fldD w) (BitVec.ofNat 64 (leVal (lsRead k a 8))) }

/-- LD. -/
def execLd (spk : Nat) (w : BitVec 64) (s : State) : Host.Outcome State Fault Refusal :=
  actK spk (runSpoke 0 0x10 scalarLd spk w) s

/-- The 8 bytes of the local store at a + imm := b. -/
def scalarSt (w : Nat) (k : Spoke) : SpkAns :=
  match access8 k w with
  | .inr c => .fault c
  | .inl a => .run { writes := [(a, 8)], pc := k.pc + 1, next := lsWrite a (leBytes 8 (sreg k (fldB w)).toNat) k }

/-- ST. -/
def execSt (spk : Nat) (w : BitVec 64) (s : State) : Host.Outcome State Fault Refusal :=
  actK spk (runSpoke 0 0x11 scalarSt spk w) s

/-- BEQ. -/
def execBeq (spk : Nat) (w : BitVec 64) (s : State) : Host.Outcome State Fault Refusal :=
  actK spk (runSpoke 0 0x18 (scalarBranch fun a b => decide (a = b)) spk w) s

/-- BNE. -/
def execBne (spk : Nat) (w : BitVec 64) (s : State) : Host.Outcome State Fault Refusal :=
  actK spk (runSpoke 0 0x19 (scalarBranch fun a b => decide (a ≠ b)) spk w) s

/-- BLT: signed. -/
def execBlt (spk : Nat) (w : BitVec 64) (s : State) : Host.Outcome State Fault Refusal :=
  actK spk (runSpoke 0 0x1A (scalarBranch fun a b => a.slt b) spk w) s

/-- BGE: signed. -/
def execBge (spk : Nat) (w : BitVec 64) (s : State) : Host.Outcome State Fault Refusal :=
  actK spk (runSpoke 0 0x1B (scalarBranch fun a b => !a.slt b) spk w) s

/-- JMP. -/
def execJmp (spk : Nat) (w : BitVec 64) (s : State) : Host.Outcome State Fault Refusal :=
  actK spk (runSpoke 0 0x1C (scalarBranch fun _ _ => true) spk w) s

/-- d := a special register (R211): 0 to 15 the arguments, 16 `resumed`; another number is illegal. -/
def scalarMfs (w : Nat) (k : Spoke) : SpkAns :=
  let n := bitsOf w 32 32
  if n < 16 then .go (setSreg k (fldD w) ((k.targs[n]?).getD 0))
  else if n = 16 then .go (setSreg k (fldD w) (if k.resumed then 1 else 0))
  else .fault Ft.illegal

/-- MFS. -/
def execMfs (spk : Nat) (w : BitVec 64) (s : State) : Host.Outcome State Fault Refusal :=
  actK spk (runSpoke 0 0x20 scalarMfs spk w) s

end Sys2Proof.Machine
end

