-- ==== Sys2Proof/Machine/Tile.lean ====
section
/-! DEFINITION. Tiles and chains: dispatch, TBEGIN, TEND, swaps and overruns (R149, R222, R224 to R229). -/

namespace Sys2Proof.Machine

/-! ### Live state and save slots (R225, R227, R229) -/

/-- Fields of a TEND (R225). -/
def accLive (w : Nat) : Nat := bitsOf w 12 4
def vecLive (w : Nat) : Nat := bitsOf w 16 6
def tendLast (w : Nat) : Bool := w.testBit 22
def liveRanges (w : Nat) : List (Nat × Nat) := [(bitsOf w 32 8, bitsOf w 40 8), (bitsOf w 48 8, bitsOf w 56 8)]

/-- Live bytes that a TEND declares (R225). -/
def liveBytes (w : Nat) : Nat :=
  256 + 65536 * ((List.range 4).filter fun i => (accLive w).testBit i).length + 2048 * vecLive w
    + 8192 * ((liveRanges w).map (·.2)).sum

/-- A TEND that R225 makes illegal. -/
def tendBad (w : Nat) : Bool :=
  (tendLast w && (decide (accLive w ≠ 0) || decide (vecLive w ≠ 0) || (liveRanges w).any fun r => decide (r.1 ≠ 0 ∨ r.2 ≠ 0)))
    || (liveRanges w).any (fun r => decide (256 < r.1 + r.2)) || decide (32 < vecLive w) || decide (344064 < liveBytes w)

/-- An address lies in a live range. -/
def liveAt_ (w a : Nat) : Bool := (liveRanges w).any fun r => decide (8192 * r.1 ≤ a) && decide (a < 8192 * (r.1 + r.2))

/-- The state that a chain's last TEND declared live, as a save slot holds it (R227). -/
def saveOf (k : Spoke) (t slot place chain serial : Nat) : SavedChain where
  tenant := t
  slot := slot
  place := place
  chain := chain
  serial := serial
  sregs := k.sregs
  vregs := k.vregs.filter fun v => decide (v.1 < vecLive k.live)
  acc := k.acc.filter fun r => (accLive k.live).testBit (r.1 / 128)
  ls := k.ls.filter fun c => liveAt_ k.live c.1

/-! ### Dispatch (R149, R224, R227, R228) -/

/-- The condition of a tile's TBEGIN holds (R224, R412, R414). -/
def mayBegin (b : Block) (tenant : Nat) (code : List (BitVec 64)) : Bool :=
  match code with
  | [] => false
  | w :: _ =>
    let w := w.toNat
    if clsOf w = 5 ∧ opOf w = 1 ∧ w.testBit 28 = true then
      let n := bitsOf w 12 16
      let v := if counterOwner b n = tenant then counterValue b n else 0
      syncHolds (w.testBit 29) (bitsOf w 32 32) v
    else true

/-- A TBEGIN that names another tenant's counter is logged (R412). -/
def logBegin (spk tenant : Nat) (code : List (BitVec 64)) (b : Block) : Block :=
  match code with
  | [] => b
  | w :: _ =>
    let w := w.toNat
    let n := bitsOf w 12 16
    if clsOf w = 5 ∧ opOf w = 1 ∧ w.testBit 28 = true ∧ counterOwner b n ≠ tenant then violation 8 tenant spk n b else b

/-- Copies into a Spoke's local store have still to land, or may still be issued: a tile bound to it runs, or has some
outstanding (R218). -/
def peerCopyPending (b : Block) (spk : Nat) : Bool :=
  b.spk.spokes.any fun e => (e.2.running || decide (e.2.copies ≠ [])) &&
    e.2.segs.any fun s => decide (s.kind = 6) && decide (s.peer = spk)

/-- A chain on this Spoke is to leave it at its TEND: its peloton is preempted, or the Spoke drains (R10, R346, Table 16.6). -/
def leaves (b : Block) (p : Peloton) (spk : Nat) : Bool := p.preempting || decide (spkState b spk = spDraining)

/-- The Spoke may take the tile: it is idle; it holds the chain, which is not to leave or found no save slot (R229); or it is in
service, or reserved for a tile of this context, and no other Spoke holds the chain (R10, R225, R227). -/
def spokeTakes (b : Block) (place : Nat) (p : Peloton) (spk : Nat) (tile : TileDesc) : Bool :=
  let k := spoke b spk
  let ours := decide (k.ctx = some (p.tenant, p.slot, place))
  !k.running && !k.halted && !k.swapping &&
    (if ours && decide (k.chain = some tile.chain) then !leaves b p spk || k.deferred
     else !p.preempting && decide (k.chain = none) && (if k.reserved then ours else decide (spkState b spk = spService))
       && !(b.spk.spokes.any fun e => decide (e.2.ctx = some (p.tenant, p.slot, place)) && decide (e.2.chain = some tile.chain)))

/-- The Spokes of the tiles that will consume a tile's copies can be reserved: the context holds them already, or they are in
service and idle (R218). -/
def peersFit (b : Block) (ctx : Nat × Nat × Nat) (tile : TileDesc) : Bool :=
  (tile.segs.take 32).all fun s => decide (s.kind ≠ 6) || (decide (s.peer < numSpokes) &&
    let k := spoke b s.peer
    !k.halted && (decide (k.ctx = some ctx) || (decide (k.chain = none) && !k.running && !k.swapping && !k.reserved
      && decide (spkState b s.peer = spService))))

/-- A Spoke reserved for a consumer tile of a context; what another context left in it is cleared (R218, R228). -/
def reserveSpoke (ctx : Nat × Nat × Nat) (n : Nat) (b : Block) : Block :=
  let k := spoke b n
  setSpoke n { (if k.ctx = some ctx then k else Spoke.reset) with ctx := some ctx, reserved := true } b

/-! #### Draft tiles and target tiles (R177) -/

/-- Draft slot of a sequence that drafts in the step in flight. -/
def draftingSlot (s : Seqn) : Option Nat :=
  if s.drafts = [] then none
  else match s.work with
    | .step r => r.draft
    | _ => s.fused.bind (·.1.draft)

/-- The tile is one that the step runs: of the target's program, or of the program of a draft that its sequences draft with. -/
def tileListed (p : Peloton) (tile : TileDesc) : Bool :=
  tile.seqs.all (fun n => p.seqs.any fun s => decide (s.sid = n)
    && (decide (tile.slot = p.slot) || decide (draftingSlot s = some tile.slot)))
    && (decide (tile.slot = p.slot) || decide (tile.seqs ≠ []))

/-- A sequence's draft tiles run before its target tiles (R177). -/
def tileInTurn (b : Block) (place : Nat) (p : Peloton) (tile : TileDesc) : Bool :=
  tile.seqs.all fun n =>
    if tile.slot = p.slot then
      !(b.spk.spokes.any fun e => decide (e.2.ctx = some (p.tenant, p.slot, place)) && e.2.running && e.2.draftOf.contains n)
    else !p.targeted.contains n

/-- Spoke ISA version that the program of a model slot declares (R237). -/
def isaOfSlot (b : Block) (slot : Nat) : Nat := ((modelSlot b slot).map (·.isa)).getD 0x10

/-- The Spoke as the dispatch leaves it: cleared where it held another context, or restored from the chain's save slot, what a
peer's copies have landed there for the tile lying over it (R222, R227, R228). ECC errors may have arisen in it since (R189). -/
def loadTile (b : Block) (place : Nat) (p : Peloton) (spk : Nat) (tile : TileDesc) : Spoke :=
  let k := spoke b spk
  let ctx := (p.tenant, p.slot, place)
  let base := if k.ctx = some ctx then k else Spoke.reset
  let saved := b.spk.saved.find? fun c => decide ((c.tenant, c.slot, c.place, c.chain) = (p.tenant, p.slot, place, tile.chain))
  let base := match saved with
    | none => base
    | some c =>
      { base with
        sregs := c.sregs, vregs := c.vregs, acc := c.acc,
        ls := base.peerIn.foldl (fun m (r : Nat × Nat) => cellWrite m r.1 (cellRead base.ls r.1 r.2)) c.ls }
  { base with ctx := some ctx, chain := some tile.chain, running := true, reserved := false,
              resumed := saved.isSome, pc := 0, peerIn := [],
              draftOf := if tile.slot = p.slot then [] else tile.seqs, upsets := base.upsets ++ Config.upsets spk b.fresh,
              code := tile.code, isa := isaOfSlot b tile.slot, segs := tile.segs.take 32, targs := tile.targs.take 16, copies := [] }

/-- TILE_START: the step engine dispatches a tile of the step in flight at a place to a Spoke, once its TBEGIN's condition
holds, and reserves the Spokes of its consumers; a fault, a teardown or a preemption stops dispatch (R149, R177, R218, R224, R227, R231, R336, R346). -/
def startTile (place spk : Nat) (tile : TileDesc) (b : Block) : Block :=
  match tget b.ste.pelotons place with
  | none => b
  | some p =>
    if p.phase ≠ .flight ∨ p.fault.isSome = true ∨ p.torn = true ∨ p.abandon = true ∨ p.tilesLeft ≤ p.tilesOut
        ∨ 8192 < tile.code.length ∨ spokeTakes b place p spk tile = false ∨ peerCopyPending b spk = true
        ∨ peersFit b (p.tenant, p.slot, place) tile = false
        ∨ tileListed p tile = false ∨ tileInTurn b place p tile = false then b
    else
      let b := logBegin spk p.tenant tile.code b
      if mayBegin b p.tenant tile.code = false then b
      else
        let k := loadTile b place p spk tile
        let b := setSaved (b.spk.saved.filter fun c =>
          decide ((c.tenant, c.slot, c.place, c.chain) ≠ (p.tenant, p.slot, place, tile.chain))) b
        let b := ((tile.segs.take 32).filter fun s => decide (s.kind = 6)).foldl
          (fun b s => reserveSpoke (p.tenant, p.slot, place) s.peer b) (setSpoke spk k b.takeFresh.2)
        setPel place (some { p with
          tilesOut := p.tilesOut + 1
          targeted := if tile.slot = p.slot then p.targeted ++ tile.seqs.filter fun n => !p.targeted.contains n else p.targeted }) b

/-- TILE_START (R149). -/
def execTileStart (place spk : Nat) (tile : TileDesc) (s : State) : Host.Outcome State Fault Refusal :=
  actC (.placeSpoke place spk) (startTile place spk tile) s

/-- TBEGIN: the first instruction of a tile (R224); its condition held when the tile was dispatched. -/
def tileBegin (_w : Nat) (k : Spoke) : SpkAns := .go k

/-- TBEGIN (R224). -/
def execTbegin (spk : Nat) (w : BitVec 64) (s : State) : Host.Outcome State Fault Refusal :=
  actK spk (runSpoke 5 0x01 tileBegin spk w) s

/-! ### TEND (R225, R227) -/

/-- A tile's chain goes on after its TEND: it stays on its Spoke, or leaves it where its peloton is preempted or the Spoke
drains (R227, R229, R346, Table 16.6). -/
def afterTend (spk : Nat) (p : Peloton) (b : Block) : Block :=
  if leaves b p spk = true ∧ p.torn = false ∧ p.abandon = false ∧ p.fault = none then settleSpoke spk (chainLeaves spk b)
  else settleSpoke spk b

/-- TEND: once the tile has no outstanding copy it ends (R225). -/
def tileEnd (spk w : Nat) (k : Spoke) (b : Block) : Block :=
  if tendBad w then tileFault spk Ft.liveLimit b
  else if k.copies ≠ [] then b
  else
    let k := { k with
      running := false, resumed := false, live := w, draftOf := []
      chain := if tendLast w then none else k.chain, deferred := k.deferred && !tendLast w }
    let b := setSpoke spk k b
    match stepOfSpoke b k with
    | none => settleSpoke spk b
    | some (place, p) => tileOver place p (afterTend spk p b)

/-- The rows of the Spoke ISA (Tables 9.3 and 9.4, R216, R219, R223 to R225). -/
def rowListed (w : Nat) : Bool :=
  let c := clsOf w
  let o := opOf w
  if c = 0 then [0x01, 0x02, 0x03, 0x04, 0x05, 0x06, 0x07, 0x08, 0x09, 0x0A, 0x0C, 0x10, 0x11, 0x18, 0x19, 0x1A, 0x1B, 0x1C,
                 0x20].contains o
  else if c = 1 then (decide (1 ≤ o) && decide (o ≤ 0x18) && decide (o ≠ 0x19)) || [0x20, 0x28, 0x29, 0x2A, 0x30, 0x31, 0x32, 0x33].contains o
  else if c = 2 then decide (o = 1)
  else if c = 3 then decide (1 ≤ o) && decide (o ≤ 4)
  else if c = 4 then decide (o = 1) || decide (o = 2)
  else if c = 5 then decide (o = 1) || decide (o = 2)
  else false

/-- A word that spells no instruction is illegal where it is issued (R212; log entry 24). -/
def strayWord (spk : Nat) (w : BitVec 64) (b : Block) : Block :=
  if issues b (spoke b spk) w && !rowListed w.toNat then tileFault spk Ft.illegal b else b

/-- TEND (R225). A word that spells no row takes its fault under this row. -/
def execTend (spk : Nat) (w : BitVec 64) (s : State) : Host.Outcome State Fault Refusal :=
  actK spk (fun b => if rowListed w.toNat then runWord 5 0x02 (tileEnd spk) spk w b else strayWord spk w b) s

/-- TILE_OVERRUN: a running tile reaches the 8,192-cycle bound (R226). -/
def tileOverrun (spk : Nat) (b : Block) : Block :=
  if spokesRun b && (spoke b spk).running then tileFault spk Ft.overrun b else b

/-- TILE_OVERRUN (R226). -/
def execTileOverrun (spk : Nat) (s : State) : Host.Outcome State Fault Refusal := actK spk (tileOverrun spk) s

/-! ### The swap (R227, R228) -/

/-- Local-store ranges that a save reads, and the accumulator rows (R225, R227). -/
def saveReads (w : Nat) : List Range := (liveRanges w).map fun r => (8192 * r.1, 8192 * r.2)
def saveRows (w : Nat) : List Nat :=
  ((List.range 4).filter fun i => (accLive w).testBit i).flatMap fun i => (List.range 128).map fun r => 128 * i + r

/-- CONTEXT_SWAP_DONE: the outgoing live state stands in a save slot, under a fresh page serial, and everything on the Spoke is
clear (R227, R228, R288). An error in the live state that cannot be corrected is a machine fault of the outgoing chain's step (R189,
R234). With no serial left no slot can be had (R229). -/
def swapDone (spk : Nat) (b : Block) : Block :=
  let k := spoke b spk
  match k.ctx, k.chain with
  | some (t, slot, place), some chain =>
    if k.swapping = true then
      match meetUpsets spk (upsetsIn k (saveReads k.live) (saveRows k.live)) b with
      | (some code, b) => tileFault spk code (setSpoke spk { k with swapping := false } b)
      | (none, b) =>
        match takeSerials 1 b with
        | none => (setSpoke spk { k with swapping := false, deferred := true } b).bump F.SPK_CNT_save_wait
        | some (serial, b) =>
          let b := setSaved (b.spk.saved ++ [saveOf k t slot place chain serial]) (setSpoke spk Spoke.reset b)
          settleSpoke spk (b.bump F.SPK_CNT_preempt)
    else b
  | _, _ => b

/-- CONTEXT_SWAP_DONE (R227). -/
def execContextSwapDone (spk : Nat) (s : State) : Host.Outcome State Fault Refusal :=
  actK spk (fun b => if spokesRun b then swapDone spk b else b) s

end Sys2Proof.Machine
end

