-- ==== Sys2Proof/Machine/Dispatch.lean ====
section
/-! DEFINITION. Which meaning each command has: one arm per constructor. -/

namespace Sys2Proof.Machine

/-- The effect of a command on everything but the queue. -/
def exec (i : Instr) (s : State) : Host.Outcome State Fault Refusal :=
  match i with
  | .sopen rid => Sys2Proof.Machine.execSopen rid s
  | .sclose rid => Sys2Proof.Machine.execSclose rid s
  | .park rid => Sys2Proof.Machine.execPark rid s
  | .revive rid => Sys2Proof.Machine.execRevive rid s
  | .move rid => Sys2Proof.Machine.execMove rid s
  | .depth rid => Sys2Proof.Machine.execDepth rid s
  | .depthHint rid => Sys2Proof.Machine.execDepthHint rid s
  | .pfxpin rid => Sys2Proof.Machine.execPfxpin rid s
  | .pfxfork rid => Sys2Proof.Machine.execPfxfork rid s
  | .pfxdrop rid => Sys2Proof.Machine.execPfxdrop rid s
  | .mloadModel rid => Sys2Proof.Machine.execMloadModel rid s
  | .mloadCog rid => Sys2Proof.Machine.execMloadCog rid s
  | .mloadList rid => Sys2Proof.Machine.execMloadList rid s
  | .munloadModel rid => Sys2Proof.Machine.execMunloadModel rid s
  | .munloadCog rid => Sys2Proof.Machine.execMunloadCog rid s
  | .munloadList rid => Sys2Proof.Machine.execMunloadList rid s
  | .tokinNative rid => Sys2Proof.Machine.execTokinNative rid s
  | .tokinByte rid => Sys2Proof.Machine.execTokinByte rid s
  | .tokinIds rid => Sys2Proof.Machine.execTokinIds rid s
  | .tokout rid => Sys2Proof.Machine.execTokout rid s
  | .constrain rid => Sys2Proof.Machine.execConstrain rid s
  | .step rid => Sys2Proof.Machine.execStep rid s
  | .draft rid => Sys2Proof.Machine.execDraft rid s
  | .accept ring lo hi => Sys2Proof.Machine.execAccept ring lo hi s
  | .prefill rid => Sys2Proof.Machine.execPrefill rid s
  | .searchFlat rid => Sys2Proof.Machine.execSearchFlat rid s
  | .searchGraph rid => Sys2Proof.Machine.execSearchGraph rid s
  | .searchSharded rid => Sys2Proof.Machine.execSearchSharded rid s
  | .vinsert rid => Sys2Proof.Machine.execVinsert rid s
  | .vdelete rid => Sys2Proof.Machine.execVdelete rid s
  | .vmerge rid => Sys2Proof.Machine.execVmerge rid s
  | .swait rid => Sys2Proof.Machine.execSwait rid s
  | .ssignal rid => Sys2Proof.Machine.execSsignal rid s
  | .fence rid => Sys2Proof.Machine.execFence rid s
  | .cadence rid => Sys2Proof.Machine.execCadence rid s
  | .overlay rid => Sys2Proof.Machine.execOverlay rid s
  | .ckpt rid => Sys2Proof.Machine.execCkpt rid s
  | .tandem rid => Sys2Proof.Machine.execTandem rid s
  | .tandemRelease rid => Sys2Proof.Machine.execTandemRelease rid s
  | .complete rid => Sys2Proof.Machine.execComplete rid s
  | .add spk w => Sys2Proof.Machine.execAdd spk w s
  | .addi spk w => Sys2Proof.Machine.execAddi spk w s
  | .sub spk w => Sys2Proof.Machine.execSub spk w s
  | .mul spk w => Sys2Proof.Machine.execMul spk w s
  | .sand spk w => Sys2Proof.Machine.execSand spk w s
  | .sor spk w => Sys2Proof.Machine.execSor spk w s
  | .sxor spk w => Sys2Proof.Machine.execSxor spk w s
  | .shl spk w => Sys2Proof.Machine.execShl spk w s
  | .shr spk w => Sys2Proof.Machine.execShr spk w s
  | .sar spk w => Sys2Proof.Machine.execSar spk w s
  | .lui spk w => Sys2Proof.Machine.execLui spk w s
  | .ld spk w => Sys2Proof.Machine.execLd spk w s
  | .st spk w => Sys2Proof.Machine.execSt spk w s
  | .beq spk w => Sys2Proof.Machine.execBeq spk w s
  | .bne spk w => Sys2Proof.Machine.execBne spk w s
  | .blt spk w => Sys2Proof.Machine.execBlt spk w s
  | .bge spk w => Sys2Proof.Machine.execBge spk w s
  | .jmp spk w => Sys2Proof.Machine.execJmp spk w s
  | .mfs spk w => Sys2Proof.Machine.execMfs spk w s
  | .vadd spk w => Sys2Proof.Machine.execVadd spk w s
  | .vsub spk w => Sys2Proof.Machine.execVsub spk w s
  | .vmul spk w => Sys2Proof.Machine.execVmul spk w s
  | .vdiv spk w => Sys2Proof.Machine.execVdiv spk w s
  | .vsqrt spk w => Sys2Proof.Machine.execVsqrt spk w s
  | .vfma spk w => Sys2Proof.Machine.execVfma spk w s
  | .vrcp spk w => Sys2Proof.Machine.execVrcp spk w s
  | .vrsq spk w => Sys2Proof.Machine.execVrsq spk w s
  | .vexp2 spk w => Sys2Proof.Machine.execVexp2 spk w s
  | .vlog2 spk w => Sys2Proof.Machine.execVlog2 spk w s
  | .vexp spk w => Sys2Proof.Machine.execVexp spk w s
  | .vmin spk w => Sys2Proof.Machine.execVmin spk w s
  | .vmax spk w => Sys2Proof.Machine.execVmax spk w s
  | .vcmp spk w => Sys2Proof.Machine.execVcmp spk w s
  | .vsel spk w => Sys2Proof.Machine.execVsel spk w s
  | .viadd spk w => Sys2Proof.Machine.execViadd spk w s
  | .visub spk w => Sys2Proof.Machine.execVisub spk w s
  | .vimul spk w => Sys2Proof.Machine.execVimul spk w s
  | .vand spk w => Sys2Proof.Machine.execVand spk w s
  | .vor spk w => Sys2Proof.Machine.execVor spk w s
  | .vxor spk w => Sys2Proof.Machine.execVxor spk w s
  | .vshl spk w => Sys2Proof.Machine.execVshl spk w s
  | .vshr spk w => Sys2Proof.Machine.execVshr spk w s
  | .vpop spk w => Sys2Proof.Machine.execVpop spk w s
  | .vred spk w => Sys2Proof.Machine.execVred spk w s
  | .vld spk w => Sys2Proof.Machine.execVld spk w s
  | .vst spk w => Sys2Proof.Machine.execVst spk w s
  | .vcvt spk w => Sys2Proof.Machine.execVcvt spk w s
  | .vacr spk w => Sys2Proof.Machine.execVacr spk w s
  | .vacw spk w => Sys2Proof.Machine.execVacw spk w s
  | .vbcast spk w => Sys2Proof.Machine.execVbcast spk w s
  | .vidx spk w => Sys2Proof.Machine.execVidx spk w s
  | .mma spk w => Sys2Proof.Machine.execMma spk w s
  | .cpin spk w => Sys2Proof.Machine.execCpin spk w s
  | .cpout spk w => Sys2Proof.Machine.execCpout spk w s
  | .cpls spk w => Sys2Proof.Machine.execCpls spk w s
  | .cppeer spk w => Sys2Proof.Machine.execCppeer spk w s
  | .copyComplete spk copy => Sys2Proof.Machine.execCopyComplete spk copy s
  | .copyTimeout spk copy => Sys2Proof.Machine.execCopyTimeout spk copy s
  | .copyErr spk copy => Sys2Proof.Machine.execCopyErr spk copy s
  | .scsig spk w => Sys2Proof.Machine.execScsig spk w s
  | .cfence spk w => Sys2Proof.Machine.execCfence spk w s
  | .tbegin spk w => Sys2Proof.Machine.execTbegin spk w s
  | .tend spk w => Sys2Proof.Machine.execTend spk w s
  | .tileOverrun spk => Sys2Proof.Machine.execTileOverrun spk s
  | .contextSwapDone spk => Sys2Proof.Machine.execContextSwapDone spk s
  | .tileStart place spk tile => Sys2Proof.Machine.execTileStart place spk tile s
  | .acceptWaitEnd place tiles => Sys2Proof.Machine.execAcceptWaitEnd place tiles s
  | .pelotonPlaceGrant place tiles => Sys2Proof.Machine.execPelotonPlaceGrant place tiles s
  | .preemptComplete place => Sys2Proof.Machine.execPreemptComplete place s
  | .ringEnable who val => Sys2Proof.Machine.execRingEnable who val s
  | .ringDisable who val => Sys2Proof.Machine.execRingDisable who val s
  | .ringDrained ring => Sys2Proof.Machine.execRingDrained ring s
  | .cancelGo who val => Sys2Proof.Machine.execCancelGo who val s
  | .tailLineInvalidate ring => Sys2Proof.Machine.execTailLineInvalidate ring s
  | .ringService ring => Sys2Proof.Machine.execRingService ring s
  | .duplicateReplay rid => Sys2Proof.Machine.execDuplicateReplay rid s
  | .cqSpaceReread rid => Sys2Proof.Machine.execCqSpaceReread rid s
  | .trailer rid => Sys2Proof.Machine.execTrailer rid s
  | .timeLineUpdate => Sys2Proof.Machine.execTimeLineUpdate s
  | .timelineStaleCount => Sys2Proof.Machine.execTimelineStaleCount s
  | .timelineEnable who val => Sys2Proof.Machine.execTimelineEnable who val s
  | .timelineDisable who val => Sys2Proof.Machine.execTimelineDisable who val s
  | .descSelect who val => Sys2Proof.Machine.execDescSelect who val s
  | .pfxSelect who val => Sys2Proof.Machine.execPfxSelect who val s
  | .hotIdleExpiry sid => Sys2Proof.Machine.execHotIdleExpiry sid s
  | .warmIdleExpiry sid => Sys2Proof.Machine.execWarmIdleExpiry sid s
  | .specReviveStart sid => Sys2Proof.Machine.execSpecReviveStart sid s
  | .shadowHoldExpiry sid => Sys2Proof.Machine.execShadowHoldExpiry sid s
  | .motionComplete sid => Sys2Proof.Machine.execMotionComplete sid s
  | .tierLate sid => Sys2Proof.Machine.execTierLate sid s
  | .tierTimeout sid read => Sys2Proof.Machine.execTierTimeout sid read s
  | .tierError sid read => Sys2Proof.Machine.execTierError sid read s
  | .moveOffer src hdr => Sys2Proof.Machine.execMoveOffer src hdr s
  | .moveSection moveId bytes => Sys2Proof.Machine.execMoveSection moveId bytes s
  | .moveTrailer moveId bytes wrapOk => Sys2Proof.Machine.execMoveTrailer moveId bytes wrapOk s
  | .moveReady sid handle dstTandem => Sys2Proof.Machine.execMoveReady sid handle dstTandem s
  | .moveCommit moveId => Sys2Proof.Machine.execMoveCommit moveId s
  | .moveDone sid => Sys2Proof.Machine.execMoveDone sid s
  | .poolTimeout sid => Sys2Proof.Machine.execPoolTimeout sid s
  | .regWrite who addr val => Sys2Proof.Machine.execRegWrite who addr val s
  | .homingWrite who val => Sys2Proof.Machine.execHomingWrite who val s
  | .shaperConfig who val => Sys2Proof.Machine.execShaperConfig who val s
  | .shaperAdmit kind index refill => Sys2Proof.Machine.execShaperAdmit kind index refill s
  | .hwinConfig who val => Sys2Proof.Machine.execHwinConfig who val s
  | .keyRotate who => Sys2Proof.Machine.execKeyRotate who s
  | .rotatePassEnd tenant => Sys2Proof.Machine.execRotatePassEnd tenant s
  | .reserial who => Sys2Proof.Machine.execReserial who s
  | .patrol addr finding => Sys2Proof.Machine.execPatrol addr finding s
  | .ceHourWindow => Sys2Proof.Machine.execCeHourWindow s
  | .indexCreate who => Sys2Proof.Machine.execIndexCreate who s
  | .indexDestroy who => Sys2Proof.Machine.execIndexDestroy who s
  | .mergeComplete index => Sys2Proof.Machine.execMergeComplete index s
  | .shardQuery src q => Sys2Proof.Machine.execShardQuery src q s
  | .shardAnswer rid src ans => Sys2Proof.Machine.execShardAnswer rid src ans s
  | .shardTimeout rid => Sys2Proof.Machine.execShardTimeout rid s
  | .nbrTierAccess src acc => Sys2Proof.Machine.execNbrTierAccess src acc s
  | .lendStream range blocks => Sys2Proof.Machine.execLendStream range blocks s
  | .donorScrub src ranges => Sys2Proof.Machine.execDonorScrub src ranges s
  | .mapForm who => Sys2Proof.Machine.execMapForm who s
  | .mapPropose who => Sys2Proof.Machine.execMapPropose who s
  | .mapClear who => Sys2Proof.Machine.execMapClear who s
  | .mapPrepare src p => Sys2Proof.Machine.execMapPrepare src p s
  | .mapAck src epoch ack => Sys2Proof.Machine.execMapAck src epoch ack s
  | .mapPrepTimeout => Sys2Proof.Machine.execMapPrepTimeout s
  | .mapCommit src epoch => Sys2Proof.Machine.execMapCommit src epoch s
  | .mapAbort src epoch => Sys2Proof.Machine.execMapAbort src epoch s
  | .rangeDrained => Sys2Proof.Machine.execRangeDrained s
  | .mapHandover src base2m => Sys2Proof.Machine.execMapHandover src base2m s
  | .heartbeat => Sys2Proof.Machine.execHeartbeat s
  | .peerUnreachable peer => Sys2Proof.Machine.execPeerUnreachable peer s
  | .portEnable who stoty val => Sys2Proof.Machine.execPortEnable who stoty val s
  | .portRetrain who stoty val => Sys2Proof.Machine.execPortRetrain who stoty val s
  | .trainingStageDone port lanesLocked => Sys2Proof.Machine.execTrainingStageDone port lanesLocked s
  | .capabilityBlock port block => Sys2Proof.Machine.execCapabilityBlock port block s
  | .linkHandshake port peer => Sys2Proof.Machine.execLinkHandshake port peer s
  | .linkUp port => Sys2Proof.Machine.execLinkUp port s
  | .trainingRetry port => Sys2Proof.Machine.execTrainingRetry port s
  | .flitReceive port flit => Sys2Proof.Machine.execFlitReceive port flit s
  | .laneSwapDone port => Sys2Proof.Machine.execLaneSwapDone port s
  | .faloloSnoop lineAddr bytes => Sys2Proof.Machine.execFaloloSnoop lineAddr bytes s
  | .stotyMessage src cls stream seq payload => Sys2Proof.Machine.execStotyMessage src cls stream seq payload s
  | .tandemDelta src number delta => Sys2Proof.Machine.execTandemDelta src number delta s
  | .tandemAck src number copyValid => Sys2Proof.Machine.execTandemAck src number copyValid s
  | .ckptComplete ok shards => Sys2Proof.Machine.execCkptComplete ok shards s
  | .tdmRestore who val found => Sys2Proof.Machine.execTdmRestore who val found s
  | .tdmFollow who val => Sys2Proof.Machine.execTdmFollow who val s
  | .tdmCkRestore who val slots => Sys2Proof.Machine.execTdmCkRestore who val slots s
  | .tdmRestoreOne who val slots => Sys2Proof.Machine.execTdmRestoreOne who val slots s
  | .tdmCkpt who val => Sys2Proof.Machine.execTdmCkpt who val s
  | .tdmRelease who val => Sys2Proof.Machine.execTdmRelease who val s
  | .restoreComplete badUnits => Sys2Proof.Machine.execRestoreComplete badUnits s
  | .spokeTestRotate wheel => Sys2Proof.Machine.execSpokeTestRotate wheel s
  | .laneTestRotate port lane => Sys2Proof.Machine.execLaneTestRotate port lane s
  | .hubTestRotate partition => Sys2Proof.Machine.execHubTestRotate partition s
  | .channelTestRotate channel => Sys2Proof.Machine.execChannelTestRotate channel s
  | .bistComplete slice pass patched => Sys2Proof.Machine.execBistComplete slice pass patched s
  | .bistOverdue spk => Sys2Proof.Machine.execBistOverdue spk s
  | .fuseCommit who => Sys2Proof.Machine.execFuseCommit who s
  | .testNow who => Sys2Proof.Machine.execTestNow who s
  | .tenantActivate who => Sys2Proof.Machine.execTenantActivate who s
  | .tenantRestart who => Sys2Proof.Machine.execTenantRestart who s
  | .tenantAutoRestart tenant => Sys2Proof.Machine.execTenantAutoRestart tenant s
  | .tenantReset who => Sys2Proof.Machine.execTenantReset who s
  | .scrubComplete tenant => Sys2Proof.Machine.execScrubComplete tenant s
  | .overlayApply => Sys2Proof.Machine.execOverlayApply s
  | .rtpStage who val => Sys2Proof.Machine.execRtpStage who val s
  | .rtpActivate who val => Sys2Proof.Machine.execRtpActivate who val s
  | .rtpRatchet who val => Sys2Proof.Machine.execRtpRatchet who val s
  | .claim who val => Sys2Proof.Machine.execClaim who val s
  | .setOvlKey who val => Sys2Proof.Machine.execSetOvlKey who val s
  | .confOpen who val => Sys2Proof.Machine.execConfOpen who val s
  | .ownerRelease who val => Sys2Proof.Machine.execOwnerRelease who val s
  | .debugUnlock who val => Sys2Proof.Machine.execDebugUnlock who val s
  | .dkExport who val => Sys2Proof.Machine.execDkExport who val s
  | .dkImport who val => Sys2Proof.Machine.execDkImport who val s
  | .tenantKey who val => Sys2Proof.Machine.execTenantKey who val s
  | .dkRotate who val => Sys2Proof.Machine.execDkRotate who val s
  | .reportRequest who val => Sys2Proof.Machine.execReportRequest who val s
  | .sealBatch who val => Sys2Proof.Machine.execSeal who val s
  | .rtpOpComplete => Sys2Proof.Machine.execRtpOpComplete s
  | .fwSwapSwitch => Sys2Proof.Machine.execFwSwapSwitch s
  | .fwSwapAccept => Sys2Proof.Machine.execFwSwapAccept s
  | .fwSwapTimeout => Sys2Proof.Machine.execFwSwapTimeout s
  | .intClaim target => Sys2Proof.Machine.execIntClaim target s
  | .intEoi target val => Sys2Proof.Machine.execIntEoi target val s
  | .intSrcConfig source val => Sys2Proof.Machine.execIntSrcConfig source val s
  | .intSoft val => Sys2Proof.Machine.execIntSoft val s
  | .watchArm slot val => Sys2Proof.Machine.execWatchArm slot val s
  | .syncCntWrite counter val => Sys2Proof.Machine.execSyncCntWrite counter val s
  | .syncOwnWrite word val => Sys2Proof.Machine.execSyncOwnWrite word val s
  | .pmcSample m => Sys2Proof.Machine.execPmcSample m s
  | .energyUpdate e => Sys2Proof.Machine.execEnergyUpdate e s
  | .cadenceWindowStart hint => Sys2Proof.Machine.execCadenceWindowStart hint s
  | .cadenceWindowEnd hint => Sys2Proof.Machine.execCadenceWindowEnd hint s
  | .throttleSet sensor temp => Sys2Proof.Machine.execThrottleSet sensor temp s
  | .throttleStepDown site => Sys2Proof.Machine.execThrottleStepDown site s
  | .throttleStepUp site => Sys2Proof.Machine.execThrottleStepUp site s
  | .sensorTrip sensor temp => Sys2Proof.Machine.execSensorTrip sensor temp s
  | .thermTripNLow => Sys2Proof.Machine.execThermTripNLow s
  | .coolantOkFall => Sys2Proof.Machine.execCoolantOkFall s
  | .brakedEnter => Sys2Proof.Machine.execBrakedEnter s
  | .unbrake who => Sys2Proof.Machine.execUnbrake who s
  | .leaveComplete => Sys2Proof.Machine.execLeaveComplete s
  | .standby who => Sys2Proof.Machine.execStandby who s
  | .wake src => Sys2Proof.Machine.execWake src s
  | .vinApply mv => Sys2Proof.Machine.execVinApply mv s
  | .pwrEnRise => Sys2Proof.Machine.execPwrEnRise s
  | .railStageDone => Sys2Proof.Machine.execRailStageDone s
  | .pwrEnFall => Sys2Proof.Machine.execPwrEnFall s
  | .powerLoss cause => Sys2Proof.Machine.execPowerLoss cause s
  | .modResetNFall => Sys2Proof.Machine.execModResetNFall s
  | .resetRelease straps => Sys2Proof.Machine.execResetRelease straps s
  | .bootComplete b => Sys2Proof.Machine.execBootComplete b s
  | .refclkChange group ok => Sys2Proof.Machine.execRefclkChange group ok s
  | .i3cAddressAssign addr => Sys2Proof.Machine.execI3cAddressAssign addr s
  | .busRead addr => Sys2Proof.Machine.execBusRead addr s
  | .busWrite addr val => Sys2Proof.Machine.execBusWrite addr val s
  | .recData offset bytes => Sys2Proof.Machine.execRecData offset bytes s
  | .recCommit length => Sys2Proof.Machine.execRecCommit length s
  | .jtagInstruction ir => Sys2Proof.Machine.execJtagInstruction ir s
  | .sessionScrubDone sid => Sys2Proof.Machine.execSessionScrubDone sid s
  | .indexDestroyDone index => Sys2Proof.Machine.execIndexDestroyDone index s
  | .coolantOkRise => Sys2Proof.Machine.execCoolantOkRise s
  | .thermTripNRise => Sys2Proof.Machine.execThermTripNRise s
  | .sensorBelowThrottle sensor temp => Sys2Proof.Machine.execSensorBelowThrottle sensor temp s
  | .lossOfWidth port lanesGood => Sys2Proof.Machine.execLossOfWidth port lanesGood s
  | .fwSwapLoadDone => Sys2Proof.Machine.execFwSwapLoadDone s
  | .railWarn rail warn mv => Sys2Proof.Machine.execRailWarn rail warn mv s
  | .supplyDroop spk => Sys2Proof.Machine.execSupplyDroop spk s
  | .overvoltageRestart mv => Sys2Proof.Machine.execOvervoltageRestart mv s
  | .testLogicReset => Sys2Proof.Machine.execTestLogicReset s

end Sys2Proof.Machine
end

