-- ==== Sys2Proof/Safety.lean ====
section
/-! DEFINITION. What counts as a safe run, and the conditions under which the claims say that a command carries out its
effect. -/

namespace Sys2Proof.Machine

/-- `s` with the module `b`; the queue is as it was. -/
def State.put (s : State) (b : Block) : State := { s with toBlock := b }

/-- Every command that waits names a unit the module has. -/
def State.safe (s : State) : Prop := ∀ c ∈ s.pending, c.wf = true

/-- A run of `n` steps answers a next state at every step. -/
def safeRun : (n : Nat) → State → Prop
  | 0, _ => True
  | n + 1, s => ∃ t, step s = .next t ∧ safeRun n t

/-- The module has booted, is in RUN and is not fenced: the blocks work. -/
abbrev State.works (s : State) : Prop := s.toBlock.up = true ∧ working s.toBlock = true

/-- The chain ISA version of a ring as it was enabled (R48). -/
def ringIsa (b : Block) (ring : Nat) : Nat := ((ringOf b ring).map (·.isa)).getD 0x31

/-- The current instruction of request `q`, entry `e`, is of a row and is due: the request has started, is not cut short and
in time, waits for nothing and owes no chunk; the entry is well encoded (R48, R51, R54, R55) and its ring may use the
opcode (R56). -/
abbrev Due (b : Block) (rid : Nat) (row : CRow) (q : Req) (e : Entry) : Prop :=
  req b rid = some q ∧ q.kind = .normal ∧ q.phase = .body ∧ q.instrs[q.pc]? = some e ∧
  rowOf (ringIsa b q.ring) e = some row ∧ q.wait = .none ∧ q.started = true ∧ q.owed = none ∧ q.carry = none ∧
  b.passed q.deadline = false ∧ encodingBad b (ringIsa b q.ring) (reqTenant b q) e = false ∧
  rightsBad b (ringIsa b q.ring) q.ring e.opcode = false

/-- The module as that instruction finds it: the session it names is noted for the provenance record (R72). -/
def dueBlock (b : Block) (rid : Nat) (q : Req) (e : Entry) : Block :=
  match entryHandle b (reqTenant b q) e with
  | some h => noteNamed rid h b
  | none => b

/-- What that instruction is given. -/
def dueCtx (b : Block) (rid : Nat) (q : Req) (e : Entry) : Ctx :=
  let d := dueBlock b rid q e
  ⟨rid, (req d rid).getD q, e, reqTenant b q, q.ring, entryB d e, e.hi, false⟩

/-- The current instruction of a request is of a row and is due, in a module that works: `c` is what it is given, `b` the
module as it finds it. -/
abbrev Runs (s : State) (rid : Nat) (row : CRow) (c : Ctx) (b : Block) : Prop :=
  s.works ∧ ∃ q e, Due s.toBlock rid row q e ∧ c = dueCtx s.toBlock rid q e ∧ b = dueBlock s.toBlock rid q e

/-- The state after the current instruction of a request has ended with a status and a result, leaving module `b`. -/
def State.ended (s : State) (rid status : Nat) (result : Option Bytes) (b : Block) : State :=
  s.put (rest (instrDone rid status result b))

/-- The state after the current instruction of a request has begun a wait, leaving module `b`. -/
def State.waiting (s : State) (rid : Nat) (w : Wait) (b : Block) : State := s.put (rest (instrWait rid w b))

/-- The handle in operand B names session `x` in slot `sid`, which a request of its own tenant may use (R25, R29, R34). -/
abbrev OnSession (c : Ctx) (b : Block) (sid : Nat) (x : Session) : Prop :=
  let h := c.opB % 2 ^ 48
  hTenant h = c.tenant ∧ hGen h ≠ 0 ∧ hSlot h = sid ∧ session b sid = some x ∧ x.tenant = c.tenant ∧ x.gen = hGen h ∧
  x.state ≠ ssScrubbing ∧ x.state ≠ ssQuarantine ∧ x.badPairs = [] ∧ x.closing = false

/-- The session meets the need of the instruction, and none decoded earlier waits for it (R33, R59). -/
abbrev Admitted (c : Ctx) (b : Block) (sid : Nat) (x : Session) (n : Need) : Prop :=
  meets n x = true ∧ earlierWaiter b c.rid c.e.order (handleOf sid x) x = false

end Sys2Proof.Machine
end

