-- ==== Sys2Proof/Certificates/Slice0/Obligations.lean ====
section
/-! DEFINITION. The obligations of this model: what its commands do, stated from the rules of the spec for every state and operand,
and the conditions they share. Every instruction of the chain is due (`Runs`, Safety.lean) where its request stands at it, its operands and
block are read, and nothing of R57, R17 or R66 ends it first; `rest` brings the module to rest after a command. -/

namespace Sys2Proof.Machine

/-- What the three statements on TOKIN share: a whole input in one chunk, with a cog that is held and sound, on a settled
session whose log lies in HBM and on which no STEP or PREFILL runs, within R54, R248 and R253. -/
abbrev TokinReady (c : Ctx) (b : Block) (sid : Nat) (x : Session) (g : Cog) : Prop :=
  OnSession c b sid x ∧ Admitted c b sid x .settled ∧ x.state ≠ ssMotion ∧ stepsInProgress b sid = false ∧
  (x.logPlace = none ∨ unitTier b x.logPlace = 0) ∧ c.req.carry = none ∧ c.req.wait = .none ∧ c.e.a.testBit 24 = false ∧
  cogHeld b c x (if c.e.a.testBit 4 then x.cog else bitsOf c.e.a 0 4) = true ∧
  cogOf b (if c.e.a.testBit 4 then x.cog else bitsOf c.e.a 0 4) = some g ∧ g.damaged = false ∧
  c.arg b 40 4 ≤ 16777216 ∧ c.reads b (c.arg b 32 8) (c.arg b 40 4) = true

/-- Tokens an input may add to a session (R253): `limit`, `max_context` where it is 0, and the room that is left. -/
def inputRoom (c : Ctx) (b : Block) (x : Session) : Nat :=
  min (if c.arg b 44 4 = 0 then x.maxContext else c.arg b 44 4) (x.maxContext - tokensOf x)

/-- The truncation policy of a TOKIN is one that R253 admits. -/
abbrev PolicyGood (c : Ctx) (b : Block) (x : Session) (g : Cog) : Prop :=
  bitsOf c.e.a 5 2 ≠ 3 ∧ (bitsOf c.e.a 5 2 = 2 →
    bitsOf c.e.a 8 16 < (if c.arg b 44 4 = 0 then x.maxContext else c.arg b 44 4) ∧ g.marker.isSome = true)

/-- The entries that an input of `toks` adds, and the status and result of its TOKIN with `invalid` bytes (R252 to R254). -/
def keptTokens (c : Ctx) (b : Block) (x : Session) (g : Cog) (toks : List (BitVec 32)) : List (BitVec 32) :=
  keepTokens (bitsOf c.e.a 5 2) (bitsOf c.e.a 8 16) (inputRoom c b x) (g.marker.getD 0) toks
def tokinStatus (c : Ctx) (b : Block) (x : Session) (toks : List (BitVec 32)) : Nat :=
  if inputRoom c b x < logTokens toks then St.truncated else St.ok
def tokinResult (c : Ctx) (b : Block) (x : Session) (g : Cog) (toks : List (BitVec 32)) (invalid : Nat) : Bytes :=
  let kept := (keptTokens c b x g toks).length
  let marker := if inputRoom c b x < logTokens toks ∧ bitsOf c.e.a 5 2 = 2 ∧ bitsOf c.e.a 8 16 ≤ inputRoom c b x - 1 then 1 else 0
  leBytes 4 kept ++ leBytes 4 invalid ++ leBytes 4 (logTokens toks - (kept - marker))

/-- What the SEARCH rows share: operand B names a ready, sound index of the ring's tenant, and `a` is what the block asks. -/
abbrev SearchReady (c : Ctx) (b : Block) (x : Index) (a : SearchArgs) : Prop :=
  indexOf b c.opB = some x ∧ indexTenant b c.opB = c.tenant ∧ x.state = ixReady ∧ x.damaged = false ∧ indexBad x a.walk = none ∧
  readSearch c c.opB b = some a

/-- Spoke `spk` is to issue the word `w` of a class and operation, in a place that R224 allows, with no reserved bit set. -/
abbrev Issues (s : State) (spk : Nat) (w : BitVec 64) (cls op : Nat) : Prop :=
  let k := spoke s.toBlock spk
  spk < numSpokes ∧ s.toBlock.up = true ∧ issues s.toBlock k w = true ∧ clsOf w.toNat = cls ∧ opOf w.toNat = op ∧
  placeBad k w = false ∧ reservedSet w.toNat = false

/-- The word after the one a Spoke issues stands in its code. -/
abbrev Follows (k : Spoke) : Prop := k.pc < 8191 ∧ k.pc + 1 < k.code.length

/-- The state after an instruction that leaves the Spoke `k` at the word `pc`. -/
def State.spokeAt (s : State) (spk : Nat) (k : Spoke) (pc : Nat) : State :=
  s.put (rest (setSpoke spk { k with pc := pc } s.toBlock))

/-- An instruction reads and writes these ranges and rows of the Spoke: no copy holds it up (R221), no error lies there
(R189). -/
abbrev Clear (k : Spoke) (reads writes : List Range) (rows : List Nat) : Prop :=
  conflicts k reads writes = false ∧ upsetsIn k reads rows = []

/-- A write of TDM_CMD by management space notes the command and module, met by no command that runs, and no copy
followed. -/
abbrev TdmReady (s : State) (v : BitVec 64) (cmd : Nat) : Prop :=
  s.works ∧ bitsOf v.toNat 0 3 = cmd ∧ s.getF F.TDM_CMD_state ≠ 1 ∧ (s.tdm.kept.map (·.follow)).getD false = false

/-- The module once TDM_CMD has noted a command. -/
def tdmNoted (s : State) (v : BitVec 64) : Block :=
  (s.toBlock.setF F.TDM_CMD_cmd (bitsOf v.toNat 0 3)).setF F.TDM_CMD_module (bitsOf v.toNat 8 8)

/-- A write of RTP_CMD by management space that spells command `cmd` for component `comp`. -/
abbrev RtpReady (s : State) (v : BitVec 64) (cmd comp : Nat) : Prop :=
  s.toBlock.up = true ∧ bitsOf v.toNat 0 3 = cmd ∧ bitsOf v.toNat 3 2 = comp

/-- An owner command stands in the buffer: its block names `op`, and passes the checks of R360 with the owner's signature. -/
abbrev OwnerReady (s : State) (v : BitVec 64) (op : Nat) (owner arg : Bytes) : Prop :=
  let blk := s.peek (cmdAddr s.toBlock) (64 * bitsOf v.toNat 32 24)
  s.toBlock.up = true ∧ bitsOf v.toNat 0 3 = 5 ∧ cmdReach s.toBlock 0 (64 * bitsOf v.toNat 32 24) = true ∧
  s.rtp.ownerKey = some owner ∧ bytesAt blk 4 1 = op ∧ arg = (blk.drop 64).take (bytesAt blk 48 4)

/-- The state after an owner command, whose nonce is used up: with the checks of R360 met it leaves module `b`; with one
that is not met its error, logged as kind 10. -/
def ownerOutcome (s : State) (v : BitVec 64) (owner : Bytes) (op : Nat) (b : Block) : State :=
  let err := ownerErr s.toBlock owner (s.peek (cmdAddr s.toBlock) (64 * bitsOf v.toNat 32 24))
  s.put (rest (drawNonce (if err = 0 then cmdEnds 0 b else cmdEnds err (violation 10 mgmtTenant 0 op s.toBlock))))

/-- A write of RTP_REQ_CMD by a caller whose request slot is not busy, with `op`. -/
abbrev RtpIdle (s : State) (who : Caller) (v : BitVec 64) (op : Nat) : Prop :=
  s.toBlock.up = true ∧ s.getFi F.RTP_REQ_CMD_state who.inst ≠ 1 ∧ bitsOf v.toNat 0 2 = op

/-- The tenant a report is limited to: an aperture's own, or the one that management names with bit 2 (R363). -/
def reportScope (who : Caller) (v : Nat) : Option Nat :=
  match who.tenant? with
  | some t => some t
  | none => if v.testBit 2 then some (bitsOf v 4 12) else none

/-- A target's stack falls strictly from 64, its top the lowest priority number. -/
def stackFalls (st : List (Nat × Nat)) : Prop := (st.map Prod.snd ++ [64]).Pairwise (· < ·)

/-- The commands that act before the boot is complete: pins and events of the board, the temperature sensors, the
management bus, and the debug port. -/
def onBoard : Instr → Bool
  | .throttleSet _ _ | .sensorTrip _ _ | .sensorBelowThrottle _ _ | .thermTripNLow | .thermTripNRise | .coolantOkFall
  | .coolantOkRise | .vinApply _ | .pwrEnRise | .railStageDone | .pwrEnFall | .powerLoss _ | .modResetNFall
  | .resetRelease _ | .bootComplete _ | .refclkChange _ _ | .i3cAddressAssign _ | .busRead _ | .busWrite _ _
  | .recData _ _ | .recCommit _ | .jtagInstruction _ | .railWarn _ _ _ | .overvoltageRestart _ | .testLogicReset => true
  | _ => false

/-- The commands that are work of the blocks: the instructions of requests, motions and moves of sessions, steps, merges
and shards, tier accesses, and the tandem engine's copies. -/
def isWork : Instr → Bool
  | .sopen _ | .sclose _ | .park _ | .revive _ | .move _ | .depth _ | .depthHint _ | .pfxpin _ | .pfxfork _ | .pfxdrop _
  | .mloadModel _ | .mloadCog _ | .mloadList _ | .munloadModel _ | .munloadCog _ | .munloadList _ | .tokinNative _
  | .tokinByte _ | .tokinIds _ | .tokout _ | .constrain _ | .step _ | .draft _ | .accept _ _ _ | .prefill _
  | .searchFlat _ | .searchGraph _ | .searchSharded _ | .vinsert _ | .vdelete _ | .vmerge _ | .swait _ | .ssignal _
  | .fence _ | .cadence _ | .overlay _ | .ckpt _ | .tandem _ | .tandemRelease _ | .complete _ | .trailer _
  | .duplicateReplay _ | .cqSpaceReread _ | .tileStart _ _ _ | .acceptWaitEnd _ _ | .pelotonPlaceGrant _ _
  | .preemptComplete _ | .hotIdleExpiry _ | .warmIdleExpiry _ | .specReviveStart _ | .shadowHoldExpiry _
  | .motionComplete _ | .tierLate _ | .tierTimeout _ _ | .tierError _ _ | .moveOffer _ _ | .moveSection _ _
  | .moveTrailer _ _ _ | .moveReady _ _ _ | .moveCommit _ | .moveDone _ | .poolTimeout _ | .rotatePassEnd _
  | .mergeComplete _ | .shardQuery _ _ | .shardAnswer _ _ _ | .shardTimeout _ | .nbrTierAccess _ _ | .donorScrub _ _
  | .rangeDrained | .tandemDelta _ _ _ | .ckptComplete _ _ | .restoreComplete _ | .overlayApply
  | .indexDestroyDone _ => true
  | _ => false

end Sys2Proof.Machine

open Sys2Proof Sys2Proof.Machine

/-- SOPEN (R24, row 1 of Table 2.5, Table 2.2): with a usable model and cog, room in the tenant's limit and a slot that no
move has reserved, the slot that has been FREE longest becomes a HOT session with the next generation; the result is
its handle. -/
def Obligations.SopenOpensHotSession : Prop :=
  ∀ (s : State) (rid : Nat) (c : Ctx) (b : Block) (m : ModelSlot) (sid g : Nat),
    Runs s rid .sopen c b → modelSlot b (bitsOf c.e.a 0 8) = some m → m.state = slReady → m.draft = false →
    m.damaged = false → (m.shared = true ∨ m.owner = c.tenant) → cogUsable b c.tenant (bitsOf c.e.a 8 4) = true →
    tenantPlaces b c.tenant < b.getFi F.SES_TQ_LIMITS_max_sessions c.tenant →
    reservedSlots b (fun _ => true) < freeSlots b → oldestFree b = some (sid, g) →
    ∃ b', exec (.sopen rid) s = .next (s.ended rid St.ok (some (leBytes 6 (mkHandle c.tenant sid (nextGen g)))) b') ∧
      session b' sid = some (newSession (nextGen g) c.tenant (bitsOf c.e.a 0 8) m.cls (bitsOf c.e.a 8 4) (c.arg b 32 4)
        b.now (b.peek (c.blk + 40) 16)) ∧
      (∀ n, n ≠ sid → session b' n = session b n) ∧ b'.cmem = b.cmem ∧ b'.flds = b.flds ∧ b'.ste = b.ste ∧ b'.spk = b.spk

/-- SCLOSE (R33, rows 16 and 18): on a settled session it sets `closing`, drops the shadow slot and cancels the other
requests that name the session. An SCLOSE of a session in QUARANTINE scrubs it (row 18), and a handle of another
tenant is stale and logged (R25). -/
def Obligations.ScloseEndsSessions : Prop :=
  (∀ (s : State) (rid : Nat) (c : Ctx) (b : Block) (sid : Nat) (x : Session),
     Runs s rid .sclose c b → OnSession c b sid x → Admitted c b sid x .settled →
     exec (.sclose rid) s = .next (s.ended rid St.ok none (cancelNaming rid c.e.order (handleOf sid x)
       (dropShadow sid (updSession sid (fun x => { x with closing := true, closeOrder := c.e.order }) b))))) ∧
  ((∀ (s : State) (rid : Nat) (c : Ctx) (b : Block) (x : Session),
     Runs s rid .sclose c b → hTenant (c.opB % 2 ^ 48) = c.tenant → hGen (c.opB % 2 ^ 48) ≠ 0 →
     session b (hSlot (c.opB % 2 ^ 48)) = some x → x.tenant = c.tenant → x.gen = hGen (c.opB % 2 ^ 48) →
     x.state = ssQuarantine → x.closing = false →
     exec (.sclose rid) s = .next (s.ended rid St.ok none (enterScrubbing (hSlot (c.opB % 2 ^ 48)) b))) ∧
   (∀ (s : State) (rid : Nat) (c : Ctx) (b : Block),
     Runs s rid .sclose c b → hTenant (c.opB % 2 ^ 48) ≠ c.tenant →
     exec (.sclose rid) s = .next (s.ended rid St.staleHandle none
       (violation 1 c.tenant c.ring (c.opB % 2 ^ 48) b))))

/-- DEPTH with its hint bit (R76): the hints and the expected-resume time are set, the shadow slot goes, no motion is
ordered, and the result is the depth held. PARK, and DEPTH to a lower depth, of a HOT session that is not enrolled
(R41, R75, R76): the shadow slot goes, the expected-resume time is taken, the motion to the depth and tier that R41
chooses is ordered in class 3, and the instruction waits for it. -/
def Obligations.DepthRowsOrderMotions : Prop :=
  (∀ (s : State) (rid : Nat) (c : Ctx) (b : Block) (sid : Nat) (x : Session),
     Runs s rid .depthHint c b → OnSession c b sid x → earlierWaiter b rid c.e.order (handleOf sid x) x = false →
     ∃ b', exec (.depthHint rid) s = .next (s.ended rid St.ok (some [BitVec.ofNat 8 x.depth]) b') ∧
       session b' sid = some { x with
         hintDepth := bitsOf c.e.a 0 2, hintTier := bitsOf c.e.a 2 2
         resumeHintNs := if c.e.ptr then c.arg b 32 8 else x.resumeHintNs
         hintSpent := if c.e.ptr then false else x.hintSpent
         shadow := none, liftWait := none } ∧
       (∀ n, n ≠ sid → session b' n = session b n) ∧ b'.cmem = b.cmem ∧ (x.shadow = none → b'.flds = b.flds)) ∧
  ((∀ (s : State) (rid : Nat) (c : Ctx) (b : Block) (sid : Nat) (x : Session) (d t : Nat) (f : Bool),
     Runs s rid .park c b → bitsOf c.e.a 0 2 ≠ 0 → OnSession c b sid x → Admitted c b sid x .idle → x.depth = dHot →
     chooseTarget b x (bitsOf c.e.a 0 2) (bitsOf c.e.a 2 2) true = .go d t f → d ≠ dHot →
     let b' := orderMotion sid .park 3 d t (some rid) (admitDepth c sid (countFallback f b))
     exec (.park rid) s = .next (s.waiting rid (.motion (waitsOnLower b' sid)) b')) ∧
   (∀ (s : State) (rid : Nat) (c : Ctx) (b : Block) (sid : Nat) (x : Session) (d t : Nat) (f : Bool),
     Runs s rid .depth c b → OnSession c b sid x → Admitted c b sid x .idle → x.depth = dHot →
     chooseTarget b x (bitsOf c.e.a 0 2) (bitsOf c.e.a 2 2) false = .go d t f → d ≠ dHot →
     let b' := orderMotion sid .park 3 d t (some rid) (admitDepth c sid (countFallback f b))
     exec (.depth rid) s = .next (s.waiting rid (.motion (waitsOnLower b' sid)) b')))

/-- REVIVE (R42, R75, R96): a session below HOT whose HOT bytes fit the tenant's limit gets a revival of class 1, counted
as a hit where a speculative lift was made, and the instruction waits for it; a lift already complete ends the revival
at once. On a HOT session it moves nothing and gives depth 0. MOVE (R85, R86, R75): with a live destination that is
another module, and a depth the session may take, the shadow slot goes, the move gets the next number, its motion
waits in class 2, and the instruction waits for it. -/
def Obligations.ReviveAndMoveOrderMotions : Prop :=
  ((∀ (s : State) (rid : Nat) (c : Ctx) (b : Block) (sid : Nat) (x : Session),
     Runs s rid .revive c b → OnSession c b sid x → Admitted c b sid x .settled → x.state ≠ ssHot →
     (x.depth = dCold → 0 < privatePositions x → modelReady b x = true) → hotBytes b x.tenant + reviveNeed b x ≤ hotLimit b x.tenant →
     let ordered := orderMotion sid .revive 1 dHot 0 (some rid) (if x.shadow.isSome then b.bump F.PNE_CNT_SPEC_spec_hit else b)
     let b' := instrWait rid (.motion (waitsOnLower ordered sid)) ordered
     exec (.revive rid) s = .next (s.put (rest
       (if liftComplete x = true ∧ motionsActive b' < maxMotions b' then finishRevive sid (beginMotion sid b') else b')))) ∧
   (∀ (s : State) (rid : Nat) (c : Ctx) (b : Block) (sid : Nat) (x : Session),
     Runs s rid .revive c b → OnSession c b sid x → Admitted c b sid x .settled → x.state = ssHot →
     exec (.revive rid) s = .next (s.ended rid St.ok (some [0]) b))) ∧
  (∀ (s : State) (rid : Nat) (c : Ctx) (b : Block) (sid : Nat) (x : Session),
     let dest := bitsOf c.e.a 0 8
     let depth := bitsOf c.e.a 8 2
     Runs s rid .move c b → depth ≠ 3 → OnSession c b sid x →
     Admitted c b sid x (if depth = dHot then .settled else .idle) → x.moveOut = none →
     dest ≠ ownModule b → liveMember b dest = true →
     (x.log.contains depthMark = false ∨ reads10Only b dest = false) → (x.depth = dCold → depth ≠ dWarm) →
     (depth = dCold → coldAllowed b x.tenant = true) →
     ∃ b1 mo, mo.dest = dest ∧ mo.depth = depth ∧ mo.stage = .streaming ∧ mo.rid = some rid ∧
       mo.moveId = ownModule b * 2 ^ 56 + b.ses.moveSeq % 2 ^ 56 ∧
       b1 = updSession sid (fun x => { x with moveOut := some mo })
         (let d := dropShadow sid b; { d with ses := { d.ses with moveSeq := d.ses.moveSeq + 1 } }) ∧
       exec (.move rid) s = .next (s.waiting rid (.motion (readsLower b1 x)) (orderMotion sid .moveOut 2
         (if singleHome b1 then depth else x.depth) (if singleHome b1 then moveTier b1 x (bitsOf c.e.a 10 2) else x.warmTier) (some rid) b1)))

/-- PFXPIN (R128): a HOT session whose first `count` rows stand in its table, and end a group, gives the tenant a prefix
record under the name; the result is its digest. PFXFORK (R129): an empty session of the same weights, whose context
holds the prefix, is attached to it: the record counts one more attachment, and the session takes its name and its
tokens; its table starts with the prefix's last frame where that is not full. A session that holds a damaged prefix of
the same digest leaves it and is attached to this one. PFXDROP (R130): the name is released at once; a record with
attachments stays DROPPED, one without is released. -/
def Obligations.PrefixRowsPinForkDrop : Prop :=
  (∀ (s : State) (rid : Nat) (c : Ctx) (b : Block) (sid : Nat) (x : Session) (t : PageTable),
     Runs s rid .pfxpin c b → OnSession c b sid x → Admitted c b sid x .hot →
     c.arg b 32 8 ≠ 0 → c.arg b 40 4 = 0 → c.arg b 44 4 ≠ 0 → boundPrefix b c.tenant (c.arg b 32 8) = none →
     x.prefixHandle = 0 → c.arg b 44 4 ≤ privatePositions x → endsGroup 0 (c.arg b 44 4) x.log = true →
     ((modelSlot b x.modelSlot).map (·.state)) = some slReady → prefixRoom b c.tenant = true →
     unitRead sid [2] b = none → kvRead sid b = none → x.table = some t → c.arg b 44 4 ≤ t.rows →
     exec (.pfxpin rid) s = .next (s.ended rid St.ok
       (some (sha256 (weightsOf b x ++ logBytes (logPrefix (c.arg b 44 4) x.log))))
       (pinPrefix sid x t (c.arg b 32 8) (c.arg b 44 4) b).2)) ∧
  (∀ (s : State) (rid : Nat) (c : Ctx) (b : Block) (sid key : Nat) (x : Session) (p : Prefix),
     Runs s rid .pfxfork c b → OnSession c b sid x → earlierWaiter b rid c.e.order (handleOf sid x) x = false →
     boundPrefix b c.tenant (c.arg b 32 8) = some (key, p) → p.pstate = 1 → p.damaged = false → p.badPair = false →
     p.badTable = false →
     (mayReattach b x p = true →
       exec (.pfxfork rid) s = .next (s.ended rid St.ok none (attachPrefix sid key p (detachPrefix sid b)))) ∧
     (mayReattach b x p = false → x.log = [] → x.prefixHandle = 0 → weightsOf b x = p.weights → p.tokens ≤ x.maxContext →
       let b1 := attachPrefix sid key p b
       let x1 := { x with prefixHandle := p.handle, prefixTokens := p.tokens }
       exec (.pfxfork rid) s = .next (s.ended rid St.ok none (if (pageOf p.tokens p.table.cap).2 = 0 then b1
         else updSession sid (fun x => { x with table := some (startTable b1 x1).1 }) (startTable b1 x1).2)) ∧
       tget b1.ses.prefixes key = some { p with attach := p.attach + 1 } ∧ session b1 sid = some x1 ∧
       (∀ n, n ≠ sid → session b1 n = session b n) ∧ b1.cmem = b.cmem ∧ b1.flds = b.flds)) ∧
  (∀ (s : State) (rid : Nat) (c : Ctx) (b : Block) (key : Nat) (p : Prefix),
     Runs s rid .pfxdrop c b → boundPrefix b c.tenant c.opB = some (key, p) → p.pstate = 1 →
     exec (.pfxdrop rid) s = .next (s.ended rid St.ok none
       (let b' : Block := { b with ses := { b.ses with prefixes := tset b.ses.prefixes key { p with pstate := 2 } } }
        if p.attach = 0 then releasePrefix key b' else b')))

/-- MLOAD of a model (R340): images that R54 reaches, a program header that Table 14.5 admits, an empty slot (named by no
session, or by sessions opened with the same weights and geometry, R342), room under its owner's `model_gib`, a
geometry class and extents: the slot becomes ready with what the images say, and the sessions that name it take its
class; the result is the weights' digest. -/
def Obligations.MloadModelFillsSlot : Prop :=
  ∀ (s : State) (rid : Nat) (c : Ctx) (b b1 b2 : Block) (h : ProgramHeader) (w cls run owner : Nat),
    let n := bitsOf c.e.a 0 8
    let weights := b.peek (c.arg b 32 8) (c.arg b 40 8)
    let program := b.peek (c.arg b 48 8) (c.arg b 56 8)
    Runs s rid .mloadModel c b → c.arg b 32 8 % 64 = 0 → c.arg b 48 8 % 64 = 0 →
    c.reads b (c.arg b 32 8) (c.arg b 40 8) = true → c.reads b (c.arg b 48 8) (c.arg b 56 8) = true →
    ((modelSlot b n = none ∧ owner = c.tenant) ∨
      ∃ m, modelSlot b n = some m ∧ owner = m.owner ∧ refillOk m h w (sha256 weights) = true) → programHeader program = some h → h.draft = c.e.a.testBit 8 →
    (leVal h.targetDg = 0 ↔ h.draft = false) →
    (if h.draft then w = 0 else rowWidth h.kvFormat h.layers h.elems = some w) →
    tenantModelBytes b owner + (weights.length + program.length) ≤ b.getFi F.STE_TQ_SCHED_model_gib owner * 2 ^ 30 →
    (if h.draft then some (0, b) else takeClass h.layers w h.elems b) = some (cls, b1) →
    takeExtents 0 (extentsFor weights.length + extentsFor program.length) owner (.model n) b1 = some (run, b2) →
    exec (.mloadModel rid) s = .next (s.ended rid St.ok (some (sha256 weights)) (putClass n cls (setModel n (some
      { state := slReady, draft := h.draft, tuning := h.tuning, shared := c.e.a.testBit 11, owner := owner, cls := cls,
        kvFormat := h.kvFormat, layers := h.layers, elems := h.elems, vocab := h.vocab, isa := h.isa,
        targetDg := h.targetDg, weightsDg := sha256 weights, programDg := sha256 program,
        bytes := weights.length + program.length, adapters := [], loadNs := b2.now, adapterNs := b2.now, damaged := false }) b2)))

/-- MLOAD of a cog and of a constraint list (R240, R241, R257): a well-formed image in an empty slot makes it ready; the
result is the image's digest. MUNLOAD (R243, R342): a ready image, unloaded from a ring of the tenant that loaded it,
becomes draining. -/
def Obligations.TextImagesLoadAndUnload : Prop :=
  ((∀ (s : State) (rid : Nat) (c : Ctx) (b b' : Block) (img : Bytes) (g : Cog) (run : Nat),
     Runs s rid .mloadCog c b → textFormBad c true 16 b = false → cogOf b (textSlot c.e) = none → loadImage c b = some img →
     parseCog img c.tenant (c.e.a.testBit 11) b.now = some g →
     takeExtents 0 (extentsFor img.length) c.tenant (.cog (textSlot c.e)) b = some (run, b') →
     exec (.mloadCog rid) s = .next (s.ended rid St.ok (some g.digest) (setCog (textSlot c.e) (some g) b'))) ∧
   (∀ (s : State) (rid : Nat) (c : Ctx) (b : Block) (img : Bytes) (l : CList),
     Runs s rid .mloadList c b → textFormBad c true emptyList b = false → listOf b (textSlot c.e) = none →
     loadImage c b = some img → parseList img c.tenant (c.e.a.testBit 11) b.now = some l →
     exec (.mloadList rid) s = .next (match takeExtents 0 (extentsFor (img.length + Config.automatonBytes l.states)) c.tenant
         (.clist (textSlot c.e)) b with
       | none => s.ended rid St.quota none b
       | some (_, b') => s.ended rid St.ok (some l.digest) (setList (textSlot c.e) (some l) b')))) ∧
  ((∀ (s : State) (rid : Nat) (c : Ctx) (b : Block) (m : ModelSlot),
     Runs s rid .munloadModel c b → modelSlot b (bitsOf c.e.a 0 8) = some m → m.state = slReady → m.owner = c.tenant →
     exec (.munloadModel rid) s = .next (s.ended rid St.ok none
       (setModel (bitsOf c.e.a 0 8) (some { m with state := slDraining }) b))) ∧
   (∀ (s : State) (rid : Nat) (c : Ctx) (b : Block) (g : Cog),
     Runs s rid .munloadCog c b → textFormBad c false 16 b = false → cogOf b (textSlot c.e) = some g → g.state = slReady →
     g.owner = c.tenant →
     exec (.munloadCog rid) s = .next (s.ended rid St.ok none (setCog (textSlot c.e) (some { g with state := slDraining }) b))) ∧
   (∀ (s : State) (rid : Nat) (c : Ctx) (b : Block) (l : CList),
     Runs s rid .munloadList c b → textFormBad c false emptyList b = false → listOf b (textSlot c.e) = some l →
     l.state = slReady → l.owner = c.tenant →
     exec (.munloadList rid) s = .next (s.ended rid St.ok none (setList (textSlot c.e) (some { l with state := slDraining }) b))))

/-- TOKIN (R246 to R250, R252, R253): the tokens that the chunk's bytes give, by longest match, byte by byte or as IDs,
cut as the policy says to the room there is, join the session's log as pending positions; the result counts them.
TOKOUT (R255): the output bytes of the run, within the capacity, are written to the buffer; the result gives the bytes
and tokens written and the tokens left; a token at or above V makes it MALFORMED. No other byte of companion memory is
written before the completion. -/
def Obligations.TextGoesInAndOut : Prop :=
  ((∀ (s : State) (rid : Nat) (c : Ctx) (b : Block) (sid : Nat) (x : Session) (g : Cog),
     let data := b.peek (c.arg b 32 8) (c.arg b 40 4)
     let r := tokenise g.fbBase g.entries true data.length data
     Runs s rid .tokinNative c b → TokinReady c b sid x g → PolicyGood c b x g → inputRoom c b x ≠ 0 →
     ∃ b', exec (.tokinNative rid) s =
         .next (s.ended rid (tokinStatus c b x r.toks) (some (tokinResult c b x g r.toks r.invalid)) b') ∧
       (session b' sid).map (·.log) = some (x.log ++ keptTokens c b x g r.toks) ∧ (∀ n, n ≠ sid → session b' n = session b n)) ∧
   (∀ (s : State) (rid : Nat) (c : Ctx) (b : Block) (sid : Nat) (x : Session) (g : Cog),
     let toks := (b.peek (c.arg b 32 8) (c.arg b 40 4)).map (byteToken g.fbBase)
     Runs s rid .tokinByte c b → TokinReady c b sid x g → PolicyGood c b x g → inputRoom c b x ≠ 0 →
     ∃ b', exec (.tokinByte rid) s = .next (s.ended rid (tokinStatus c b x toks) (some (tokinResult c b x g toks 0)) b') ∧
       (session b' sid).map (·.log) = some (x.log ++ keptTokens c b x g toks) ∧ (∀ n, n ≠ sid → session b' n = session b n)) ∧
   (∀ (s : State) (rid : Nat) (c : Ctx) (b : Block) (sid : Nat) (x : Session) (g : Cog),
     let data := b.peek (c.arg b 32 8) (c.arg b 40 4)
     Runs s rid .tokinIds c b → TokinReady c b sid x g → ringIsa b c.ring = 0x31 → bitsOf c.e.a 5 3 = 0 → bitsOf c.e.a 8 16 = 0 →
     data.length % 4 = 0 → idsOk g.entries.length (hasWarmForm (sessionFormat b x)) none (idsEntries data) = true →
     inputRoom c b x ≠ 0 → logTokens (idsEntries data) ≤ inputRoom c b x →
     ((idsEntries data).head? = some depthMark → x.log.getLast? ≠ some depthMark) →
     ∃ b', exec (.tokinIds rid) s = .next (s.ended rid St.ok (some (leBytes 4 (logTokens (idsEntries data)))) b') ∧
       (session b' sid).map (·.log) = some (x.log ++ idsEntries data) ∧ (∀ n, n ≠ sid → session b' n = session b n))) ∧
  (∀ (s : State) (rid : Nat) (c : Ctx) (b : Block) (sid : Nat) (x : Session) (g : Cog),
     let addr := c.arg b 32 8
     let cap := c.arg b 40 4
     let p0 := c.arg b 44 4
     let run := tokoutRun b c sid x p0
     let out := detokenise g.entries cap run
     Runs s rid .tokout c b → OnSession c b sid x → c.reach b addr cap = true → Admitted c b sid x .settled →
     x.state ≠ ssMotion → cogOf b (requestCog c.req x) = some g → foreignCog b c.tenant (requestCog c.req x) = false →
     (p0 = 0xFFFFFFFF ∨ p0 ≤ tokensOf x) → g.damaged = false → unitRead sid [2] b = none → (x.prefixTokens ≤ p0 ∨ prefixRead x b = none) →
     ∃ b', exec (.tokout rid) s = .next (s.ended rid (if out.2.2 then St.malformed else St.ok)
         (some (leBytes 4 out.1.length ++ leBytes 4 out.2.1 ++ leBytes 4 (run.length - out.2.1))) b') ∧
       b'.cmem = cellWrite b.cmem addr out.1 ∧ b'.ses = b.ses)

/-- CONSTRAIN (R256, R258): it writes the session's `clist`, for the empty list as for a ready list of the request's cog,
which is read. DRAFT (R173): it sets the session's draft slot, 0xFF for none or a slot that holds a draft bound to the
session's model, and the request's draft depth. ACCEPT (R64, R162): one that names an awaiting list of its ring and
gives it 1 to 1 + its drafts' number of allowed tokens, each but the last equal to its draft, is taken; one that names
no awaiting list counts as stray. -/
def Obligations.SessionTextSettings : Prop :=
  (∀ (s : State) (rid : Nat) (c : Ctx) (b : Block) (sid : Nat) (x : Session),
     Runs s rid .constrain c b → OnSession c b sid x → earlierWaiter b rid c.e.order (handleOf sid x) x = false →
     (bitsOf c.e.a 0 12 = emptyList ∨ ∃ l, listOf b (bitsOf c.e.a 0 12) = some l ∧
       foreignList b c.tenant (bitsOf c.e.a 0 12) = false ∧ (l.state = slReady ∨ x.clist = bitsOf c.e.a 0 12) ∧ l.damaged = false ∧
       (cogOf b (requestCog c.req x)).map (·.digest) = some l.cogDg) →
     exec (.constrain rid) s = .next (s.ended rid St.ok none (updSession sid (fun x => { x with clist := bitsOf c.e.a 0 12 })
       (if bitsOf c.e.a 0 12 = emptyList then b else imageRead b)))) ∧
  (∀ (s : State) (rid : Nat) (c : Ctx) (b : Block) (sid : Nat) (x : Session),
     Runs s rid .draft c b → OnSession c b sid x → earlierWaiter b rid c.e.order (handleOf sid x) x = false →
     bitsOf c.e.a 8 4 ≤ 8 → (bitsOf c.e.a 0 8 = 0xFF ∨ draftHeld b x (bitsOf c.e.a 0 8) = true) →
     exec (.draft rid) s = .next (s.ended rid St.ok none (updReq rid (fun q => { q with draftDepth := some (bitsOf c.e.a 8 4) })
       (updSession sid (fun x => { x with draftSlot := bitsOf c.e.a 0 8 }) b)))) ∧
  ((∀ (s : State) (ring : BitVec 16) (lo hi : BitVec 64) (k : Ring) (rid : Nat) (q : Seqn) (r : StepRun) (w : Await) (x : Session),
     let e : Entry := ⟨lo.toNat, hi.toNat, 0⟩
     let a := acceptArgs s.toBlock e
     let b := readPairs (hSlot a.handle) s.toBlock
     let toks := tokenWords a.count (b.peek a.addr (4 * a.count))
     s.works → ringOf s.toBlock ring.toNat = some k → e.ptr = true → blockOk s.toBlock k.tenant e = true →
     hTenant a.handle = k.tenant → awaiting b ring.toNat a = some (rid, q, r, w) → session b q.sid = some x →
     1 ≤ a.count → a.count ≤ w.drafts.length + 1 → a.addr % 4 = 0 → ioRead b (some k.tenant) a.addr (4 * a.count) = true →
     tokensOk (runList b r) (runVocab b r) r.h r.force w.drafts toks = true →
     exec (.accept ring lo hi) s = .next (s.put (rest (takeAccept rid q r w x a toks b)))) ∧
   (∀ (s : State) (ring : BitVec 16) (lo hi : BitVec 64) (k : Ring),
     let e : Entry := ⟨lo.toNat, hi.toNat, 0⟩
     let b := readPairs (hSlot (acceptArgs s.toBlock e).handle) s.toBlock
     s.works → ringOf s.toBlock ring.toNat = some k → e.ptr = true → blockOk s.toBlock k.tenant e = true →
     hTenant (acceptArgs s.toBlock e).handle = k.tenant → awaiting b ring.toNat (acceptArgs s.toBlock e) = none →
     exec (.accept ring lo hi) s = .next (s.put (rest (b.bump F.CFE_STAT_stray_count)))))

/-- STEP and PREFILL (R138, R144): on a HOT session that no other work holds, with its starting checks met, the sequence
is handed to the step engine, which ends it; a PREFILL of a session with nothing pending ends at once with 0
positions. -/
def Obligations.StepAndPrefillStart : Prop :=
  (∀ (s : State) (rid : Nat) (c : Ctx) (b : Block) (sid : Nat) (x : Session) (run : StepRun) (off : Bool),
    Runs s rid .step c b → OnSession c b sid x → Admitted c b sid x .hot →
    ((allSeqs b).any fun y => decide (y.rid = some rid)) = false → otherStepRuns b rid sid = false →
    closingFlies b sid = false → startStep b c.req c.tenant c.blk x = .ok run off →
    exec (.step rid) s = .next (s.put (rest (startSeq c sid x (.step (c.req.redo.getD run)) (imageRead (updReq rid (fun q => { q with
      clistDg := some (((runList b run).map (·.digest)).getD []), redo := none })
      (if off then b.bump F.STE_DRAFT_CNT_draft_off else b))))))) ∧
  (∀ (s : State) (rid : Nat) (c : Ctx) (b : Block) (sid : Nat) (x : Session) (m : ModelSlot),
    Runs s rid .prefill c b → OnSession c b sid x → Admitted c b sid x .hot →
    ((allSeqs b).any fun y => decide (y.rid = some rid)) = false → otherStepRuns b rid sid = false →
    closingFlies b sid = false → modelSlot b x.modelSlot = some m → m.state = slReady → m.damaged = false →
    exec (.prefill rid) s = .next (if pendingPositions x = 0 then s.ended rid St.ok (some (leBytes 4 0)) b
      else s.put (rest (startSeq c sid x
        (.prefill (if bitsOf c.e.a 0 16 = 0 then defaultChunk b else bitsOf c.e.a 0 16) 0) b))))

/-- SEARCH without the sharded flag (R275 to R278): the entries found are written to the result buffer with the version
searched; the status is OK with k entries and PARTIAL with fewer. SEARCH with the sharded flag (R282, R283): with no
other member in the shard set this module's shard alone answers; with others the instruction asks each live one and
waits. SHARD_QUERY, SHARD_ANSWER and SHARD_TIMEOUT (R282, R283): a query of a stamp that the map admits, for an index
that is not there, is refused, and for a ready one is answered with this shard's list; an answer of a module asked
joins its entries to the k best, and one that comes after its timeout counts as late; at the timeout the shards asked
are missing. -/
def Obligations.SearchAnswers : Prop :=
  (∀ (s : State) (rid : Nat) (c : Ctx) (b : Block) (x : Index) (a : SearchArgs),
     let found := searchIndex b c.opB x a
     let b' := writeHits (c.arg b 56 8) x.version x.side.length [] found.1 (b.bumpN F.NMS_CNT_gen_skip found.2)
     let answer := if found.1.length < a.k then s.ended rid St.partial_ (some (leBytes 4 found.1.length ++ leBytes 4 0 ++ leBytes 4 0))
         (b'.bump F.NMS_CNT_partial)
       else s.ended rid St.ok (some (leBytes 4 found.1.length ++ leBytes 4 0 ++ leBytes 4 0)) b'
     SearchReady c b x a →
     (Runs s rid .searchFlat c b → exec (.searchFlat rid) s = .next answer) ∧
     (Runs s rid .searchGraph c b → exec (.searchGraph rid) s = .next answer)) ∧
  ((∀ (s : State) (rid : Nat) (c : Ctx) (b : Block) (x : Index) (a : SearchArgs),
     let found := searchIndex b c.opB x a
     Runs s rid .searchSharded c b → SearchReady c b x a → shardMembers b c.opB = [ownModule b] → a.k ≤ found.1.length →
     exec (.searchSharded rid) s = .next (s.ended rid St.ok
       (some (leBytes 4 found.1.length ++ leBytes 4 1 ++ leBytes 4 0))
       (writeHits (c.arg b 56 8) x.version x.side.length [] found.1 (b.bumpN F.NMS_CNT_gen_skip found.2)))) ∧
   (∀ (s : State) (rid : Nat) (c : Ctx) (b : Block) (x : Index) (a : SearchArgs) (m : Nat),
     Runs s rid .searchSharded c b → SearchReady c b x a → shardMembers b c.opB = [m] → m ≠ ownModule b →
     liveMember b m = true →
     let q : ShardQuery := ⟨c.opB, c.tenant, a.k, a.walk, b.getF F.CMP_EPOCH_epoch, a.query, a.filter, a.bitsets⟩
     ∃ b', exec (.searchSharded rid) s = .next (s.waiting rid .shards (updReq rid (fun r => { r with
         shards := some ⟨c.opB, a.k, c.arg b 56 8, x.version, x.side.length, q, [(m, m, false)], [], 0, []⟩ }) b')) ∧
       b'.ses = b.ses ∧ b'.cmem = b.cmem)) ∧
  ((∀ (s : State) (src : BitVec 8) (q : ShardQuery), s.works → searchIngress s.toBlock src.toNat q.index = none →
     q.epoch = 0 → indexOf s.toBlock q.index = none →
     exec (.shardQuery src q) s =
       .next (s.put (rest (sendMsg src.toNat clsSearch q.index (.answer q.index .refused) s.toBlock)))) ∧
   (∀ (s : State) (src : BitVec 8) (q : ShardQuery) (x : Index), s.works → searchIngress s.toBlock src.toNat q.index = none →
     q.epoch = 0 → indexOf s.toBlock q.index = some x → x.state = ixReady → x.damaged = false → indexBad x q.walk = none →
     indexTenant s.toBlock q.index = q.tenant → q.query.length = codeBits s.toBlock q.index / 8 →
     (q.walk = true → hasGraph s.toBlock q.index = true) →
     let found := searchIndex s.toBlock q.index x ⟨q.k, q.walk, q.query, q.filter, q.bitsets⟩
     exec (.shardQuery src q) s = .next (s.put (rest (sendMsg src.toNat clsSearch q.index (.answer q.index (.list found.1))
       (s.toBlock.bumpN F.NMS_CNT_gen_skip found.2))))) ∧
   (∀ (s : State) (rid : Nat) (src : BitVec 8) (hs : List Hit) (w : ShardWait) (e : Nat × Nat × Bool), s.works →
     shardWait s.toBlock rid = some w → (w.waitFor.find? fun e => decide (e.2.1 = src.toNat)) = some e →
     exec (.shardAnswer rid src (.list hs)) s = .next (s.put (rest (stepShards rid { w with
       waitFor := w.waitFor.erase e, answered := w.answered + 1, hits := hs.foldl (fun acc h => insertHit w.k h acc) w.hits }
       s.toBlock)))) ∧
   (∀ (s : State) (rid : Nat) (src : BitVec 8) (a : ShardAnswer), s.works → shardWait s.toBlock rid = none →
     s.nms.late.contains (rid, src.toNat) = true →
     exec (.shardAnswer rid src a) s = .next (s.put (rest (Block.bump { s.toBlock with
       nms := { s.nms with late := s.nms.late.erase (rid, src.toNat) } } F.NMS_CNT_shard_late)))) ∧
   (∀ (s : State) (rid : Nat) (w : ShardWait) (a c : Nat), s.works → shardWait s.toBlock rid = some w →
     w.waitFor = [(a, c, false)] →
     let b := { s.toBlock with nms := { s.nms with late := s.nms.late ++ [(rid, c)] } }
     let m := missShard a { w with waitFor := [] } b
     exec (.shardTimeout rid) s = .next (s.put (rest (stepShards rid m.1 m.2)))))

/-- VINSERT (R267) with room in the side list and in the slots, VDELETE (R268) of an ID that no item has, and VMERGE
(R280) of an index that runs no merge. INDEX_CREATE, INDEX_DESTROY and INDEX_DESTROY_DONE (R264, R285): management
space makes the selected empty index ready, with version 0 and nothing in it; a ready one becomes DESTROYING; with no
merge and no search on it, its extents return and it is empty. An aperture's command does nothing. MERGE_COMPLETE
(R272, R281): a merge whose extents find room publishes the merged slots as the next version, laid into its extents,
keeps what came into the side list after its snapshot, and ends the VMERGEs that wait for it; one that finds no room
ends with QUOTA and leaves the index as it was; one that read a bad block ends with INTEGRITY and marks the index. -/
def Obligations.IndexesFollowTheirCommands : Prop :=
  ((∀ (s : State) (rid : Nat) (c : Ctx) (b : Block) (x : Index),
     Runs s rid .vinsert c b → indexOf b c.opB = some x → indexTenant b c.opB = c.tenant → x.state = ixReady →
     c.arg b 32 8 % 2 ^ 48 = 0 → c.arg b 40 8 % 64 = 0 → c.arg b 56 8 ≠ noId →
     c.reads b (c.arg b 40 8) (codeBits b c.opB / 8) = true → x.side.length < sideMax →
     slotsInUse x.slots + waitingInserts x + 1 ≤ slotLimit b c.opB →
     exec (.vinsert rid) s = .next (s.ended rid St.ok none
       (insertItem c.opB x ⟨b.peek (c.arg b 40 8) (codeBits b c.opB / 8), c.arg b 48 8, c.arg b 56 8, 0⟩ b))) ∧
   (∀ (s : State) (rid : Nat) (c : Ctx) (b : Block) (x : Index),
     Runs s rid .vdelete c b → indexOf b c.e.a = some x → indexTenant b c.e.a = c.tenant → x.state = ixReady →
     exec (.vdelete rid) s = .next (match findItem x c.opB with
       | none => s.ended rid St.ok none (b.bump F.NMS_CNT2_del_miss)
       | some e => if x.side.length < sideMax then s.ended rid St.ok none (deleteItem c.e.a x e b)
                   else s.waiting rid .retry b)) ∧
   (∀ (s : State) (rid : Nat) (c : Ctx) (b : Block) (x : Index),
     Runs s rid .vmerge c b → indexOf b c.e.a = some x → indexTenant b c.e.a = c.tenant → x.state = ixReady →
     x.damaged = false → x.merge = none →
     exec (.vmerge rid) s = .next (s.waiting rid (.merge c.e.a (x.started + 1))
       (setIndex c.e.a (some { x with merge := some x.side.length, started := x.started + 1 }) b)))) ∧
  ((∀ (s : State), s.toBlock.up = true → indexOf s.toBlock (s.getF F.NMS_IDX_SEL_index) = none →
     exec (.indexCreate .mgmt) s = .next (s.put (rest
       (setIndex (s.getF F.NMS_IDX_SEL_index) (some ⟨ixReady, false, 0, [], [], [], 0, none, 0, false, none, none⟩) s.toBlock)))) ∧
   (∀ (s : State) (x : Index), s.toBlock.up = true → indexOf s.toBlock (s.getF F.NMS_IDX_SEL_index) = some x → x.state = ixReady →
     exec (.indexDestroy .mgmt) s = .next (s.put (rest
       (setIndex (s.getF F.NMS_IDX_SEL_index) (some { x with state := ixDestroying }) s.toBlock)))) ∧
   (∀ (s : State) (t : BitVec 12), s.toBlock.up = true →
     exec (.indexCreate (.aperture t)) s = .next (s.put (rest s.toBlock)) ∧
     exec (.indexDestroy (.aperture t)) s = .next (s.put (rest s.toBlock))) ∧
   (∀ (s : State) (n : BitVec 10) (x : Index), s.works → indexOf s.toBlock n.toNat = some x → x.state = ixDestroying →
     x.merge = none → searching s.toBlock n.toNat = false →
     exec (.indexDestroyDone n) s = .next (s.put (rest (emptyIndex n.toNat x s.toBlock)))) ∧
   (∀ (s : State) (n : BitVec 10) (x : Index), s.works → indexOf s.toBlock n.toNat = some x →
     (x.merge ≠ none ∨ searching s.toBlock n.toNat = true) →
     exec (.indexDestroyDone n) s = .next (s.put (rest s.toBlock)))) ∧
  (∀ (s : State) (n : BitVec 10) (x : Index) (m : Nat), s.works → indexOf s.toBlock n.toNat = some x → x.merge = some m →
     let b := s.toBlock
     let t := indexTenant b n.toNat
     (∀ (skips : Nat) (slots : List VSlot) (entries : List Nat) (placed : List (Nat × Nat)),
       let b1 := b.bumpN F.NMS_CNT_gen_skip skips
       let needs := mergeNeeds b n.toNat x.slots slots
       let noRoom := kvFree b1 < needs ∨ hotLimit b1 t < hotBytes b1 t + needs * extentBytes
       indexBad x (hasGraph b n.toNat) = none →
       mergedVersion (hasGraph b n.toNat) (graphBeam b n.toNat) (graphDegree b n.toNat) x m = (slots, entries, placed, skips) →
       (∀ b2 : Block, ¬noRoom → growIndex n.toNat x.slots slots b1 = some b2 →
         exec (.mergeComplete n) s = .next (s.put (rest (nextMerge n.toNat true (endMerges n.toNat x.started St.ok
           ((layIndex n.toNat slots (setIndex n.toNat (some { x with
             version := (x.version + 1) % 2 ^ 32, slots := slots, entrySlots := entries, merge := none,
             side := (x.side.drop m).map (translateLoc placed) }) b2)).bump F.NMS_CNT2_merges)))))) ∧
       (noRoom ∨ growIndex n.toNat x.slots slots b1 = none →
         exec (.mergeComplete n) s = .next (s.put (rest (nextMerge n.toNat false (endMerges n.toNat x.started St.quota
           (setIndex n.toNat (some { x with merge := none }) b1))))))) ∧
     (∀ poisoned : Bool, indexBad x (hasGraph b n.toNat) = some poisoned →
       exec (.mergeComplete n) s = .next (s.put (rest (endMerges n.toNat (x.started + 1) St.integrity
         (damageIndex n.toNat { x with merge := none, again := false } poisoned b))))))

/-- SWAIT (R412, R414): on a counter of its tenant it ends at once with the value where the condition holds, and registers
a wait where it does not; a counter of another tenant reads as 0, is logged as kind 8, and no wait is registered on
it. SSIGNAL (R412, R413): it adds operand B to the counter modulo 2^64, or sets it, and releases the waits; an update
of another tenant's counter is ignored and logged as kind 8. FENCE (R60) ends where it is not ring-wide, or every
earlier request of its ring has completed, and waits else. -/
def Obligations.SyncInstructionsActOnCounters : Prop :=
  (∀ (s : State) (rid : Nat) (c : Ctx) (b : Block), Runs s rid .swait c b →
     let n := bitsOf c.e.a 0 16
     let eq := c.e.a.testBit 16
     let v := counterValue b n
     (counterOwner b n = c.tenant → (if eq then v = c.opB else c.opB ≤ v) →
       exec (.swait rid) s = .next (s.ended rid St.ok (some (leBytes 8 v)) b)) ∧
     (counterOwner b n = c.tenant → ¬(if eq then v = c.opB else c.opB ≤ v) →
       exec (.swait rid) s = .next (s.waiting rid (.sync n eq c.opB true) b)) ∧
     (counterOwner b n ≠ c.tenant → c.opB = 0 →
       exec (.swait rid) s = .next (s.ended rid St.ok (some (leBytes 8 0)) (violation 8 c.tenant c.ring n b))) ∧
     (counterOwner b n ≠ c.tenant → c.opB ≠ 0 →
       exec (.swait rid) s = .next (s.waiting rid (.sync n eq c.opB false) (violation 8 c.tenant c.ring n b)))) ∧
  ((∀ (s : State) (rid : Nat) (c : Ctx) (b : Block), Runs s rid .ssignal c b →
     let n := bitsOf c.e.a 0 16
     exec (.ssignal rid) s = .next (s.ended rid St.ok none
       (if counterOwner b n = c.tenant then setCounter n (if c.e.a.testBit 16 then c.opB else counterValue b n + c.opB) b
        else violation 8 c.tenant c.ring n b))) ∧
   (∀ (s : State) (rid : Nat) (c : Ctx) (b : Block), Runs s rid .fence c b →
     (c.e.a.testBit 0 = false ∨ earlierDone b rid c.req = true) →
     exec (.fence rid) s = .next (s.ended rid St.ok none b)) ∧
   (∀ (s : State) (rid : Nat) (c : Ctx) (b : Block), Runs s rid .fence c b → c.e.a.testBit 0 = true → earlierDone b rid c.req = false →
     exec (.fence rid) s = .next (s.waiting rid .retry b)))

/-- CADENCE, CADENCE_WINDOW_START and CADENCE_WINDOW_END (R422, R423): a hint of no duration, of share 0 or above 100 is
MALFORMED; any other ends with OK, and is held unless its window is over or the limits of 16 per tenant and 1,024 are
reached: then it is dropped and counted. A held hint's window opens at its lead time, and the hint is discarded when
its window has ended. -/
def Obligations.CadenceHoldsHint : Prop :=
  (∀ (s : State) (rid : Nat) (c : Ctx) (b : Block), Runs s rid .cadence c b →
    let duration := bitsOf c.e.a 0 16 * 10000
    let share := bitsOf c.e.a 16 8
    (duration = 0 ∨ share = 0 ∨ 100 < share → exec (.cadence rid) s = .next (s.ended rid St.malformed none b)) ∧
    (0 < duration → 1 ≤ share → share ≤ 100 →
      exec (.cadence rid) s = .next (s.ended rid St.ok none
        (if c.opB + duration ≤ b.now ∨ 16 ≤ (b.pmc.hints.filter fun e => decide (e.2.tenant = c.tenant)).length
            ∨ 1024 ≤ b.pmc.hints.length then b.bump F.PMC_CNT_cadence_drop
         else { b with pmc := { b.pmc with
          hints := tset b.pmc.hints (freshKey b.pmc.hints) ⟨c.tenant, c.opB, duration, share, false⟩ } })))) ∧
  (∀ (s : State) (n : Nat) (h : Hint), s.toBlock.up = true → tget s.pmc.hints n = some h →
    exec (.cadenceWindowStart n) s = .next (s.put
      (if s.toBlock.stale = true ∨ s.toBlock.now + s.getF F.PMC_CFG_cad_lead_us * 1000 < h.start then s.toBlock
       else { s.toBlock with pmc := { s.pmc with hints := tset s.pmc.hints n { h with active := true } } })) ∧
    exec (.cadenceWindowEnd n) s = .next (s.put
      (if h.start + h.duration ≤ s.toBlock.now then
        { s.toBlock with pmc := { s.pmc with hints := tdel s.pmc.hints n } } else s.toBlock)))

/-- OVERLAY (R148, R349, R350): an image that R54 reaches, that Table 14.7 admits and that the overlay key signed stops
dispatch, and the instruction waits until it is applied; one that fails a check, and any image on a module without the
key, is MALFORMED; behind an overlay that is not yet applied, or an OVERLAY decoded earlier, the instruction waits its
turn. OVERLAY_APPLY (R148, R350): with no peloton between dispatch and boundary the admitted overlay's settings are in
force, its role, limits, shapers, lending and division of the hub SRAM, dispatch goes on, its digest is the module's,
and the OVERLAY that waits for it ends with OK and the digest; with a peloton in flight, or no overlay, nothing
changes. -/
def Obligations.OverlaysAreAdmittedAndApplied : Prop :=
  (∀ (s : State) (rid : Nat) (c : Ctx) (b : Block),
     Runs s rid .overlay c b →
     (b.ten.overlay.isSome = true ∨ earlierOverlay b c = true → exec (.overlay rid) s = .next (s.waiting rid .retry b)) ∧
     (b.ten.overlay = none → earlierOverlay b c = false →
       (∀ key o, c.opB % 64 = 0 → c.reads b c.opB (c.arg b 32 4) = true → b.rtp.overlayKey = some key →
         parseOverlay (b.peek c.opB (c.arg b 32 4)) key rid = some o →
         exec (.overlay rid) s = .next (s.waiting rid .overlay { b with
           ten := { b.ten with overlay := some o }
           ste := { b.ste with stopped := true } })) ∧
       (∀ key, b.rtp.overlayKey = some key → parseOverlay (b.peek c.opB (c.arg b 32 4)) key rid = none →
         exec (.overlay rid) s = .next (s.ended rid St.malformed none b)) ∧
       (c.opB % 64 ≠ 0 ∨ c.reads b c.opB (c.arg b 32 4) = false ∨ b.rtp.overlayKey = none →
         exec (.overlay rid) s = .next (s.ended rid St.malformed none b)))) ∧
  ((∀ (s : State) (o : Overlay), s.works → s.ten.overlay = some o →
     (s.ste.pelotons.any fun e => decide (e.2.phase ≠ .ready)) = false →
     let b := putOverlay o s.toBlock
     (o.rid = none → exec .overlayApply s = .next (s.put (rest b))) ∧
     (∀ r, o.rid = some r → ((req b r).any fun q => decide (q.wait = .overlay)) = true →
       exec .overlayApply s = .next (s.put (rest (instrDone r St.ok (some o.digest) b)))) ∧
     (∀ r, o.rid = some r → ((req b r).any fun q => decide (q.wait = .overlay)) = false →
       exec .overlayApply s = .next (s.put (rest b))) ∧
     b.ten.overlay = none ∧ b.ten.overlayDg = some o.digest ∧ b.ten.lendGib = o.lendGib ∧ b.ten.sram = sramDivision o.role ∧
     b.ste.stopped = false ∧ b.ses = s.ses ∧ b.cmem = s.cmem ∧
     b.getF F.STE_STAT_role = o.role % 2 ^ F.STE_STAT_role.width ∧
     b.getF F.STE_CFG_max_seq = o.maxSeq % 2 ^ F.STE_CFG_max_seq.width ∧
     b.getF F.STE_CFG_prefill_chunk = o.prefillChunk % 2 ^ F.STE_CFG_prefill_chunk.width ∧
     b.getF F.STE_CFG_mixed_budget = o.mixedBudget % 2 ^ F.STE_CFG_mixed_budget.width ∧
     b.getF F.STE_CFG_catchup_max = o.catchupMax % 2 ^ F.STE_CFG_catchup_max.width ∧
     b.getF F.STE_CFG_accept_wait_10us = o.acceptWait % 2 ^ F.STE_CFG_accept_wait_10us.width ∧
     (∀ pre e i, o.shapers = pre ++ [e] → shaperOfSel e.1 = some i →
       b.getFi F.TSH_CFG_rate_mbs i = bitsOf e.2 0 24 ∧ b.getFi F.TSH_CFG_burst_kib i = bitsOf e.2 24 16 ∧
       b.getFi F.TSH_CFG_overhead i = bitsOf e.2 40 8 ∧ b.getFi F.TSH_CFG_mode i = bitsOf e.2 48 1)) ∧
   (∀ (s : State), s.works → (s.ten.overlay = none ∨ (s.ste.pelotons.any fun e => decide (e.2.phase ≠ .ready)) = true) →
     exec .overlayApply s = .next (s.put (rest s.toBlock))))

/-- CKPT (R386, R387): with a good pool descriptor, and none being written, the checkpoint begins and the instruction
waits; where the slot is too small for it, the instruction ends with QUOTA. CKPT_COMPLETE (R388, R389): once every
session that was to be captured is, the capture's holds end; where the pool's writes succeeded and the shards fit the
slot, the shards stand at their places, then the manifest that lists them, the checkpoint's number and shards stand in
TDM_CKPT, and CKPT_DONE is raised. A pool write that fails leaves the shards before it and no manifest: the state is 3
and the failure is counted, as for shards that do not fit. Until the last session is captured a success changes
nothing, and with no checkpoint being written the command does nothing. TANDEM (R373): in a domain, with a live
partner that is another module and no pair yet, seeding starts and the instruction waits for the copy; with bit 8
clear the pair is released and the instruction ends with OK. TANDEM_DELTA (R373, R374, R376): a partner that keeps
nothing takes the first delta of a seeding of its own homing and key as the copy, where its room holds it, and refuses
one that is too large or of another homing; the delta after the last applied one is applied and acknowledged; one
already applied is acknowledged again; one out of order is dropped. TANDEM_ACK (R373, R374, R376, R377): an
acknowledgement of a valid pair raises `acked` and lets what waits for it go on; the one of every delta sent makes a
seeding copy valid; a refusal ends the pair with its error. -/
def Obligations.CheckpointsAndPairs : Prop :=
  (∀ (s : State) (rid : Nat) (c : Ctx) (b : Block) (d : PoolDesc),
     Runs s rid .ckpt c b → b.tdm.ckpt = none → c.reads b c.opB 64 = true → readPool b c.opB = some d →
     exec (.ckpt rid) s = .next (match beginCkpt d (some rid) b with
       | none => s.ended rid St.quota none b
       | some b' => s.waiting rid .ckpt b')) ∧
  (∀ (s : State) (ok : Bool) (n : Nat), s.works →
     let b := captureReady s.toBlock
     (b.tdm.ckpt = none → exec (.ckptComplete ok n) s = .next (s.put (rest b))) ∧
     (∀ r, b.tdm.ckpt = some r →
       let e := endCapture r { b with tdm := { b.tdm with ckpt := none } }
       let fits := ((shardContents e r.panniers).map fun x => wrappedLength x.2).sum + 2 ^ 20 ≤ r.slotBytes
       let shards := shardsOf e r.seq r.panniers
       let written := fun (l : List (ShardEntry × Bytes)) =>
         (l.foldl (fun b x => poolWrite r x.1.offset x.2 b) e).setF F.TDM_CKPT_shards l.length
       (ok = true → r.toCapture ≠ [] → exec (.ckptComplete ok n) s = .next (s.put (rest b))) ∧
       (ok = true → r.toCapture = [] → fits → r.rid = none → e.getF F.TDM_CMD_state ≠ 1 →
         exec (.ckptComplete ok n) s = .next (s.put (rest (fire Src.ckptDone
           (((poolWrite r 0 (manifest (written shards) r (shards.map (·.1))) (written shards)).setF F.TDM_CKPT_seq r.seq).setF
             F.TDM_CKPT_state 2))))) ∧
       (ok = false → fits → r.rid = none → e.getF F.TDM_CMD_state ≠ 1 →
         exec (.ckptComplete ok n) s =
           .next (s.put (rest (((written (shards.take n)).bump F.TDM_CNT_ckpt_fail).setF F.TDM_CKPT_state 3)))) ∧
       ((ok = false ∨ r.toCapture = []) → ¬fits → r.rid = none → e.getF F.TDM_CMD_state ≠ 1 →
         exec (.ckptComplete ok n) s = .next (s.put (rest ((e.bump F.TDM_CNT_ckpt_fail).setF F.TDM_CKPT_state 3)))))) ∧
  ((∀ (s : State) (rid : Nat) (c : Ctx) (b : Block),
     Runs s rid .tandem c b → bitsOf c.e.a 0 8 ≠ ownModule b → b.isSet F.CMP_ID_in_domain = true → tandemOn b = false →
     liveMember b (bitsOf c.e.a 0 8) = true →
     exec (.tandem rid) s = .next (s.waiting rid .seed (startSeeding (bitsOf c.e.a 0 8) b))) ∧
   (∀ (s : State) (rid : Nat) (c : Ctx) (b : Block), Runs s rid .tandemRelease c b →
     exec (.tandemRelease rid) s = .next (s.ended rid St.ok none (releasePartner b)))) ∧
  ((∀ (s : State) (src : BitVec 8) (n : BitVec 32) (d : TandemDelta) (home : Bool) (dk : Nat), s.works → d.start = some (home, dk) →
     s.tdm.kept = none →
     let c := applyDelta TandemCopy.empty d
     (home = singleHome s.toBlock → holdsDk s.toBlock dk = true →
       exec (.tandemDelta src n d) s = .next (s.put (rest
         (if keepBytes s.toBlock < coreBytes c then sendMsg src.toNat clsTandem 0 (.deltaAck 0 true) s.toBlock
          else sendMsg src.toNat clsTandem 0 (.deltaAck n.toNat true)
            (setKept (some ⟨src.toNat, fitCopy s.toBlock c, n.toNat, true, false, false, d.final, false⟩) s.toBlock))))) ∧
     (home ≠ singleHome s.toBlock →
       exec (.tandemDelta src n d) s = .next (s.put (rest (sendMsg src.toNat clsTandem 0 (.deltaAck 0 false) s.toBlock))))) ∧
   (∀ (s : State) (src : BitVec 8) (n : BitVec 32) (d : TandemDelta) (k : KeptCopy), s.works → d.start = none →
     s.tdm.kept = some k → k.source = src.toNat → k.frozen = false → n.toNat ≠ 0 →
     let k' := { k with copy := fitCopy s.toBlock (applyDelta k.copy d), applied := n.toNat, final := k.final || d.final }
     (n.toNat = k.applied + 1 → (k.follow && k'.final && k.handover) = false → exec (.tandemDelta src n d) s =
       .next (s.put (rest (sendMsg src.toNat clsTandem 0 (.deltaAck n.toNat k.valid) (setKept (some k') s.toBlock))))) ∧
     (n.toNat ≤ k.applied → exec (.tandemDelta src n d) s =
       .next (s.put (rest (sendMsg src.toNat clsTandem 0 (.deltaAck k.applied k.valid) s.toBlock)))) ∧
     (k.applied + 1 < n.toNat → exec (.tandemDelta src n d) s = .next (s.put (rest s.toBlock))))) ∧
  (∀ (s : State) (src : BitVec 8) (n : BitVec 32) (v : Bool),
     let b := s.toBlock
     let raised := if b.getF F.TDM_DELTA_acked < n.toNat then b.setF F.TDM_DELTA_acked n.toNat else b
     s.works → tandemOn b = true → src.toNat = b.getF F.TDM_STAT_partner → n.toNat ≤ b.getF F.TDM_DELTA_sent →
     (n.toNat ≠ 0 → b.getF F.TDM_STAT_tstate = tdValid →
       exec (.tandemAck src n v) s = .next (s.put (rest (releaseAcked raised)))) ∧
     (n.toNat ≠ 0 → b.getF F.TDM_STAT_tstate = tdSeeding → n.toNat = b.getF F.TDM_DELTA_sent →
       working (endSeeding St.ok (raised.setF F.TDM_STAT_tstate tdValid)) = true →
       exec (.tandemAck src n true) s =
         .next (s.put (rest (releaseAcked (endSeeding St.ok (raised.setF F.TDM_STAT_tstate tdValid)))))) ∧
     (n.toNat = 0 → b.getF F.TDM_STAT_tstate = tdSeeding →
       exec (.tandemAck src n v) s = .next (s.put (rest (endSeeding St.quota
         (((b.setF F.TDM_STAT_tstate tdNone).setF F.TDM_STAT_partner 0).setF F.TDM_STAT_err (if v then 2 else 1)))))))

/-- The scalar instructions on registers (Table 9.3): the destination takes the value, the Spoke goes on to the next word,
and nothing else of it changes; s0 reads as 0 and discards what is written (R211). -/
def Obligations.ScalarRegisterInstructions : Prop :=
  ∀ (s : State) (spk : Nat) (w : BitVec 64),
    let k := spoke s.toBlock spk
    let a := if fldA w.toNat = 0 then 0 else tgetD k.sregs (fldA w.toNat) 0
    let b := if fldB w.toNat = 0 then 0 else tgetD k.sregs (fldB w.toNat) 0
    let imm := BitVec.ofInt 64 (fldImm w.toNat)
    let n := bitsOf w.toNat 32 32
    let puts := fun v => Host.Outcome.next (φ := Fault) (ρ := Refusal) (s.spokeAt spk
      (if fldD w.toNat = 0 then k else { k with sregs := tset k.sregs (fldD w.toNat) v }) (k.pc + 1))
    Follows k →
    (Issues s spk w 0 0x01 → exec (.add spk w) s = puts (a + b)) ∧
    (Issues s spk w 0 0x02 → exec (.addi spk w) s = puts (a + imm)) ∧
    (Issues s spk w 0 0x03 → exec (.sub spk w) s = puts (a - b)) ∧
    (Issues s spk w 0 0x04 → exec (.mul spk w) s = puts (a * b)) ∧
    (Issues s spk w 0 0x05 → exec (.sand spk w) s = puts (a &&& b)) ∧
    (Issues s spk w 0 0x06 → exec (.sor spk w) s = puts (a ||| b)) ∧
    (Issues s spk w 0 0x07 → exec (.sxor spk w) s = puts (a ^^^ b)) ∧
    (Issues s spk w 0 0x08 → exec (.shl spk w) s = puts (a <<< (b.toNat % 64))) ∧
    (Issues s spk w 0 0x09 → exec (.shr spk w) s = puts (a >>> (b.toNat % 64))) ∧
    (Issues s spk w 0 0x0A → exec (.sar spk w) s = puts (a.sshiftRight (b.toNat % 64))) ∧
    (Issues s spk w 0 0x0C → exec (.lui spk w) s = puts ((a &&& 0xFFFFFFFF) ||| (imm <<< 32))) ∧
    (Issues s spk w 0 0x20 → n < 16 → exec (.mfs spk w) s = puts ((k.targs[n]?).getD 0)) ∧
    (Issues s spk w 0 0x20 → n = 16 → exec (.mfs spk w) s = puts (if k.resumed then 1 else 0)) ∧
    (Issues s spk w 0 0x20 → 16 < n → exec (.mfs spk w) s = .next (s.put (rest (tileFault spk 0x01 s.toBlock))))

/-- LD and ST (R213): 8 bytes of the local store at a + imm are read or written; an address off its multiple of 8 or past
the store is a tile fault of its own. The branches (R213): the program counter moves by the immediate where the
condition holds and by one where it does not; nothing else of the Spoke changes. One that leaves the code is the fault
PC_RANGE (R224). -/
def Obligations.ScalarMemoryAndBranches : Prop :=
  (∀ (s : State) (spk : Nat) (w : BitVec 64),
     let k := spoke s.toBlock spk
     let a := (((sreg k (fldA w.toNat)).toNat + fldImm w.toNat) % 2 ^ 64).toNat
     (Issues s spk w 0 0x10 → Follows k → a % 8 = 0 → a + 8 ≤ 2 ^ 21 → Clear k [(a, 8)] [] [] →
       exec (.ld spk w) s = .next (s.spokeAt spk (setSreg k (fldD w.toNat) (BitVec.ofNat 64 (leVal (cellRead k.ls a 8)))) (k.pc + 1))) ∧
     (Issues s spk w 0 0x11 → Follows k → a % 8 = 0 → a + 8 ≤ 2 ^ 21 → Clear k [] [(a, 8)] [] →
       ∃ k', exec (.st spk w) s = .next (s.spokeAt spk k' (k.pc + 1)) ∧
         k'.ls = cellWrite k.ls a (leBytes 8 (sreg k (fldB w.toNat)).toNat) ∧
         k'.sregs = k.sregs ∧ k'.vregs = k.vregs ∧ k'.acc = k.acc ∧ k'.copies = k.copies) ∧
     (Issues s spk w 0 0x10 → (a % 8 ≠ 0 ∨ 2 ^ 21 < a + 8) → exec (.ld spk w) s =
       .next (s.put (rest (tileFault spk (if a % 8 ≠ 0 then 0x03 else 0x02) s.toBlock)))) ∧
     (Issues s spk w 0 0x11 → (a % 8 ≠ 0 ∨ 2 ^ 21 < a + 8) → exec (.st spk w) s =
       .next (s.put (rest (tileFault spk (if a % 8 ≠ 0 then 0x03 else 0x02) s.toBlock))))) ∧
  (∀ (s : State) (spk : Nat) (w : BitVec 64),
     let k := spoke s.toBlock spk
     let a := sreg k (fldA w.toNat)
     let b := sreg k (fldB w.toNat)
     let goes := fun (taken : Bool) =>
       let t : Int := k.pc + (if taken then fldImm w.toNat else 1)
       if t < 0 ∨ 8191 < t ∨ (k.code.length : Int) ≤ t then
         Host.Outcome.next (φ := Fault) (ρ := Refusal) (s.put (rest (tileFault spk 0x04 (setSpoke spk k s.toBlock))))
       else .next (s.spokeAt spk k t.toNat)
     (Issues s spk w 0 0x18 → exec (.beq spk w) s = goes (decide (a = b))) ∧
     (Issues s spk w 0 0x19 → exec (.bne spk w) s = goes (decide (a ≠ b))) ∧
     (Issues s spk w 0 0x1A → exec (.blt spk w) s = goes (decide (a.toInt < b.toInt))) ∧
     (Issues s spk w 0 0x1B → exec (.bge spk w) s = goes (decide (b.toInt ≤ a.toInt))) ∧
     (Issues s spk w 0 0x1C → exec (.jmp spk w) s = goes true))

/-- The vector instructions on registers (R214, Table 9.4): each of the 512 lanes of the destination takes the operation's
value on the same lanes of the operands; nothing else of the Spoke but its program counter changes. -/
def Obligations.VectorRegisterInstructions : Prop :=
  ∀ (s : State) (spk : Nat) (w : BitVec 64),
    let k := spoke s.toBlock spk
    let a := vreg k (fldA w.toNat)
    let b := vreg k (fldB w.toNat)
    let c := vreg k (fldC w.toNat)
    let puts := fun v => Host.Outcome.next (φ := Fault) (ρ := Refusal)
      (s.spokeAt spk { k with vregs := tset k.vregs (fldD w.toNat) v } (k.pc + 1))
    let v1 := fun f => puts (a.map f)
    let v2 := fun f => puts (List.zipWith f a b)
    let v3 := fun (f : BitVec 32 → BitVec 32 → BitVec 32 → BitVec 32) =>
      puts (List.zipWith (fun g z => g z) (List.zipWith f a b) c)
    Follows k →
    (Issues s spk w 1 0x01 → exec (.vadd spk w) s = v2 fAdd) ∧
    (Issues s spk w 1 0x02 → exec (.vsub spk w) s = v2 fSub) ∧
    (Issues s spk w 1 0x03 → exec (.vmul spk w) s = v2 fMul) ∧
    (Issues s spk w 1 0x04 → exec (.vdiv spk w) s = v2 fDiv) ∧
    (Issues s spk w 1 0x05 → exec (.vsqrt spk w) s = v1 fSqrt) ∧
    (Issues s spk w 1 0x06 → exec (.vfma spk w) s = v3 fFma) ∧
    (Issues s spk w 1 0x07 → exec (.vrcp spk w) s = v1 fRcp) ∧
    (Issues s spk w 1 0x08 → exec (.vrsq spk w) s = v1 fRsq) ∧
    (Issues s spk w 1 0x09 → exec (.vexp2 spk w) s = v1 fExp2) ∧
    (Issues s spk w 1 0x0A → exec (.vlog2 spk w) s = v1 fLog2) ∧
    (Issues s spk w 1 0x0B → exec (.vexp spk w) s = v1 fExp) ∧
    (Issues s spk w 1 0x0C → exec (.vmin spk w) s = v2 fMin) ∧
    (Issues s spk w 1 0x0D → exec (.vmax spk w) s = v2 fMax) ∧
    (Issues s spk w 1 0x0E → fldMode w.toNat ≤ 5 →
      exec (.vcmp spk w) s = v2 fun x y => if (fCompare (fldMode w.toNat) x y).getD false then 1 else 0) ∧
    (Issues s spk w 1 0x0F → exec (.vsel spk w) s = v3 fun x y z => if z ≠ 0 then x else y) ∧
    (Issues s spk w 1 0x10 → exec (.viadd spk w) s = v2 (· + ·)) ∧
    (Issues s spk w 1 0x11 → exec (.visub spk w) s = v2 (· - ·)) ∧
    (Issues s spk w 1 0x12 → exec (.vimul spk w) s = v2 (· * ·)) ∧
    (Issues s spk w 1 0x13 → exec (.vand spk w) s = v2 (· &&& ·)) ∧
    (Issues s spk w 1 0x14 → exec (.vor spk w) s = v2 (· ||| ·)) ∧
    (Issues s spk w 1 0x15 → exec (.vxor spk w) s = v2 (· ^^^ ·)) ∧
    (Issues s spk w 1 0x16 → exec (.vshl spk w) s = v2 fun x y => x <<< y.toNat) ∧
    (Issues s spk w 1 0x17 → exec (.vshr spk w) s = v2 fun x y => x >>> y.toNat) ∧
    (Issues s spk w 1 0x18 → exec (.vpop spk w) s = v1 popcount32) ∧
    (Issues s spk w 1 0x32 →
      exec (.vbcast spk w) s = puts (List.replicate 512 ((sreg k (fldS w.toNat)).truncate 32))) ∧
    (Issues s spk w 1 0x33 → exec (.vidx spk w) s = puts ((List.range 512).map (BitVec.ofNat 32)))

/-- VRED, VACR and VACW (R206, R215): a reduction goes up the pairwise tree into lane 0 and leaves +0 in the others; four
accumulator rows and a vector register exchange their lanes. VLD, VST and VCVT (R198, R199, R215): 512 elements of a
listed format are widened to FP32, or the lanes are rounded to it; block-scaled, the 16 scale bytes go with them. -/
def Obligations.VectorRowsAndMemory : Prop :=
  (∀ (s : State) (spk : Nat) (w : BitVec 64),
     let k := spoke s.toBlock spk
     let a := vreg k (fldA w.toNat)
     let t := fldMode w.toNat % 4
     let r := (sreg k (fldS w.toNat)).toNat
     let puts := fun v => Host.Outcome.next (φ := Fault) (ρ := Refusal)
       (s.spokeAt spk { k with vregs := tset k.vregs (fldD w.toNat) v } (k.pc + 1))
     Follows k →
     (Issues s spk w 1 0x20 → fldMode w.toNat = 0 → exec (.vred spk w) s = puts (reduceTree fAdd 9 a :: List.replicate 511 0)) ∧
     (Issues s spk w 1 0x20 → fldMode w.toNat = 1 → exec (.vred spk w) s = puts (reduceTree fMin 9 a :: List.replicate 511 0)) ∧
     (Issues s spk w 1 0x20 → fldMode w.toNat = 2 → exec (.vred spk w) s = puts (reduceTree fMax 9 a :: List.replicate 511 0)) ∧
     (Issues s spk w 1 0x30 → r % 4 = 0 → r ≤ 124 → upsetsIn k [] ([0, 1, 2, 3].map fun i => 128 * t + r + i) = [] →
       exec (.vacr spk w) s = puts (accRow k t r ++ (accRow k t (r + 1) ++ (accRow k t (r + 2) ++ accRow k t (r + 3))))) ∧
     (Issues s spk w 1 0x31 → r % 4 = 0 → r ≤ 124 →
       ∃ k', exec (.vacw spk w) s = .next (s.spokeAt spk k' (k.pc + 1)) ∧
         (∀ i, i < 4 → accRow k' t (r + i) = (a.drop (128 * i)).take 128) ∧
         (∀ n, n < 128 * t + r ∨ 128 * t + r + 4 ≤ n → tget k'.acc n = tget k.acc n) ∧
         k'.sregs = k.sregs ∧ k'.vregs = k.vregs ∧ k'.ls = k.ls ∧ k'.copies = k.copies)) ∧
  (∀ (s : State) (spk : Nat) (w : BitVec 64),
     let k := spoke s.toBlock spk
     let code := fldFmt w.toNat
     let mx := fldMx w.toNat
     let n := elemBytes code 512
     let a := (((sreg k (fldS w.toNat)).toNat + fldOff w.toNat) % 2 ^ 64).toNat
     let sa := (sreg k (fldC w.toNat)).toNat
     let sc := if mx then 16 else 0
     let widen := fun (xs : List Sys2Proof.Machine.Num) => xs.map fun x => BitVec.ofNat 32 (fp32.encode (fldSat w.toNat) x)
     let packed := writeElems code mx (fldSat w.toNat) ((vreg k (fldA w.toNat)).map num32)
     Follows k → codeLegal k.isa code mx = true → a + n ≤ 2 ^ 21 → (mx = true → sa + 16 ≤ 2 ^ 21) →
     (Issues s spk w 1 0x28 → Clear k [(a, n), (sa, sc)] [] [] →
       exec (.vld spk w) s = .next (s.spokeAt spk
         (setVreg k (fldD w.toNat) (widen (readElems code 512 mx (lsRead k a n) (lsRead k sa sc)))) (k.pc + 1))) ∧
     (Issues s spk w 1 0x29 → Clear k [] [(a, n), (sa, sc)] [] →
       exec (.vst spk w) s = .next (s.spokeAt spk (lsWrite sa packed.2 (lsWrite a packed.1 k)) (k.pc + 1))) ∧
     (Issues s spk w 1 0x2A → (mx = true → (sreg k (fldS w.toNat)).toNat + 16 ≤ 2 ^ 21) →
       Clear k [] [((sreg k (fldS w.toNat)).toNat, sc)] [] →
       exec (.vcvt spk w) s = .next (s.spokeAt spk (setVreg (lsWrite (sreg k (fldS w.toNat)).toNat packed.2 k) (fldD w.toNat)
         (widen (readElems code 512 mx packed.1 packed.2))) (k.pc + 1))))

/-- MMA (R200, R201, R217): with operands that the formats of Table 8.8 admit, aligned and inside the local store, the
elements of the first M rows and N columns of the tile take the group sums, added in ascending order with one rounding
each. -/
def Obligations.MatrixMultiplyAccumulates : Prop :=
  ∀ (s : State) (spk : Nat) (w : BitVec 64) (g : Nat),
    let k := spoke s.toBlock spk
    let m := mmaArgs w.toNat k
    let rows := if m.zero then [] else (List.range 128).map fun r => 128 * m.acc + r
    let vecA := fun r => mmaVector k m.fa m.kDim (m.addrA + r * m.strideA) m.mxa (m.scaleA + r * (m.kDim / 32))
    let vecB := fun c => mmaVector k m.fb m.kDim (m.addrB + c * m.strideB) m.mxb (m.scaleB + c * (m.kDim / 32))
    Issues s spk w 2 0x01 → Follows k → mmaIllegal k.isa m = false → groupOf m.fa m.fb = some g →
    m.addrA % 8 = 0 → m.addrB % 8 = 0 → m.strideA % 8 = 0 → m.strideB % 8 = 0 →
    (∀ r ∈ mmaReads m, r.1 + r.2 ≤ 2 ^ 21) → Clear k (mmaReads m) [] rows → (∀ r, r < 128 → (accRow k m.acc r).length = 128) →
    ∃ k', exec (.mma spk w) s = .next (s.spokeAt spk k' (k.pc + 1)) ∧
      (∀ r c, r < 128 → c < 128 → (accRow k' m.acc r)[c]? =
        let start := if m.zero then some 0 else (accRow k m.acc r)[c]?
        if r < m.rows ∧ c < m.cols then
          start.map fun x => mmaElement x (groupSums (decide (m.fa = 10)) m.b1dot g m.kDim (vecA r) (vecB c))
        else start) ∧
      (∀ n, n < 128 * m.acc ∨ 128 * m.acc + 128 ≤ n → tget k'.acc n = tget k.acc n) ∧
      k'.sregs = k.sregs ∧ k'.vregs = k.vregs ∧ k'.ls = k.ls

/-- The copies (R219, R221): a legal copy joins the outstanding ones under the next number, and nothing moves before its
COPY_COMPLETE. COPY_COMPLETE, COPY_TIMEOUT and COPY_ERR (R220, R221, R226, R230): the copy of local-store bytes, and
the copy into the local store of bytes that lie in its segment, move them and are no longer outstanding; a timeout and
a transfer error are tile faults. -/
def Obligations.CopiesAreIssuedAndEnd : Prop :=
  (∀ (s : State) (spk : Nat) (w : BitVec 64),
     let k := spoke s.toBlock spk
     let c := copyOf w.toNat k
     let issued := Host.Outcome.next (φ := Fault) (ρ := Refusal)
       (s.spokeAt spk { k with copies := k.copies ++ [c], nextCopy := k.nextCopy + 1 } (k.pc + 1))
     Follows k → copyIllegal k.isa c = false → copyMisaligned c = false → (∀ r ∈ c.reads ++ c.writes, r.1 + r.2 ≤ 2 ^ 21) →
     Clear k c.reads c.writes [] →
     (Issues s spk w 3 0x01 → exec (.cpin spk w) s = issued) ∧
     (Issues s spk w 3 0x02 → exec (.cpout spk w) s = issued) ∧
     (Issues s spk w 3 0x03 → exec (.cpls spk w) s = issued) ∧
     (Issues s spk w 3 0x04 → exec (.cppeer spk w) s = issued)) ∧
  (∀ (s : State) (spk num : Nat) (c : CopyOp),
     let k := spoke s.toBlock spk
     let gone := { k with copies := k.copies.filter fun x => decide (x.num ≠ num) }
     let seg := segmentOf k c.seg
     spk < numSpokes → s.toBlock.up = true → spokesRun s.toBlock = true → outstanding s.toBlock spk num = some c →
     (c.op = 3 → c.cvt = false → c.mxs = false → upsetsIn k c.reads [] = [] →
       exec (.copyComplete spk num) s = .next (s.put (rest (setSpoke spk (lsWrite c.off (lsRead k c.ls c.len) gone) s.toBlock)))) ∧
     (c.op = 1 → c.cvt = false → c.mxs = false → upsetsIn k c.reads [] = [] → segReads seg.kind = true → c.off + c.len ≤ seg.size →
       s.toBlock.mem.poisoned = [] →
       exec (.copyComplete spk num) s =
         .next (s.put (rest (setSpoke spk (lsWrite c.ls (cellRead s.toBlock.hbm (seg.base + c.off) c.len) gone) s.toBlock)))) ∧
     (c.op = 2 → c.cvt = false → c.mxs = false → upsetsIn k c.reads [] = [] → (seg.kind = 3 ∨ seg.kind = 4 ∨ seg.kind = 5) →
       c.off + c.len ≤ seg.size →
       exec (.copyComplete spk num) s = .next (s.put (rest (hbmWrite (seg.base + c.off) (lsRead k c.ls c.len)
         (setSpoke spk gone s.toBlock))))) ∧
     (c.op ≠ 3 → k.running = true → exec (.copyTimeout spk num) s = .next (s.put (rest (tileFault spk 0x12 s.toBlock)))) ∧
     (k.running = true → exec (.copyErr spk num) s = .next (s.put (rest (tileFault spk 0x13 (setSpoke spk gone s.toBlock))))))

/-- SCSIG and CFENCE (R223): with no copy outstanding a counter of the tile's tenant takes the value; another tenant's is
left alone and logged as kind 8; with a copy outstanding both wait. TBEGIN and TEND (R224, R225): a TBEGIN at the
start of the code lets the tile go on; a TEND with no copy outstanding frees the Spoke's tile, keeps the chain unless
it is the last, leaves the Spoke where its peloton is preempted or the Spoke drains, and takes a tile from its step. -/
def Obligations.TilesBeginAndEnd : Prop :=
  (∀ (s : State) (spk : Nat) (w : BitVec 64),
     let k := spoke s.toBlock spk
     let n := bitsOf (sreg k (fldD w.toNat)).toNat 0 16
     let t := spokeTenant k
     Follows k →
     (Issues s spk w 4 0x02 → k.copies = [] → exec (.cfence spk w) s = .next (s.spokeAt spk k (k.pc + 1))) ∧
     (Issues s spk w 4 0x02 → k.copies ≠ [] → exec (.cfence spk w) s = .next (s.put (rest s.toBlock))) ∧
     (Issues s spk w 4 0x01 → k.copies ≠ [] → exec (.scsig spk w) s = .next (s.put (rest s.toBlock))) ∧
     (Issues s spk w 4 0x01 → k.copies = [] → counterOwner s.toBlock n ≠ t → ∃ b', exec (.scsig spk w) s =
       .next (s.put (rest (setSpoke spk { k with pc := k.pc + 1 } b'))) ∧ b' = violation 8 t spk n s.toBlock) ∧
     (Issues s spk w 4 0x01 → k.copies = [] → counterOwner s.toBlock n = t →
       let b' := signalCounter n (w.toNat.testBit 22) (sreg k (fldA w.toNat)).toNat s.toBlock
       (spoke b' spk).upsets = [] → (spoke b' spk).pc < 8191 ∧ (spoke b' spk).pc + 1 < (spoke b' spk).code.length →
       exec (.scsig spk w) s =
         .next (s.put (rest (setSpoke spk { spoke b' spk with pc := (spoke b' spk).pc + 1 } b'))))) ∧
  (∀ (s : State) (spk : Nat) (w : BitVec 64),
     let k := spoke s.toBlock spk
     let ended := { k with running := false, resumed := false, live := w.toNat, draftOf := [], chain := if w.toNat.testBit 22 then none else k.chain,
                            deferred := k.deferred && !w.toNat.testBit 22 }
     (Issues s spk w 5 0x01 → k.pc = 0 → 1 < k.code.length → exec (.tbegin spk w) s = .next (s.spokeAt spk k 1)) ∧
     (∀ place p, Issues s spk w 5 0x02 → tendBad w.toNat = false → k.copies = [] → stepOfSpoke s.toBlock k = some (place, p) →
       exec (.tend spk w) s = .next (s.put (rest (tileOver place p (afterTend spk p (setSpoke spk ended s.toBlock)))))) ∧
     (Issues s spk w 5 0x02 → tendBad w.toNat = false → k.copies = [] → stepOfSpoke s.toBlock k = none →
       exec (.tend spk w) s = .next (s.put (rest (settleSpoke spk (setSpoke spk ended s.toBlock))))) ∧
     (∀ place p, Issues s spk w 5 0x02 → tendBad w.toNat = false → k.copies = [] → stepOfSpoke s.toBlock k = some (place, p) →
       p.preempting = false → p.fault = none → p.torn = false → p.abandon = false → 2 ≤ p.tilesLeft →
       spkState s.toBlock spk ≠ spDraining →
       exec (.tend spk w) s = .next (s.put (rest (setPel place
         (some { p with tilesOut := p.tilesOut - 1, tilesLeft := p.tilesLeft - 1 }) (setSpoke spk ended s.toBlock))))) ∧
     (Issues s spk w 5 0x02 → tendBad w.toNat = false → k.copies ≠ [] → exec (.tend spk w) s = .next (s.put (rest s.toBlock))) ∧
     (Issues s spk w 5 0x02 → tendBad w.toNat = true →
       exec (.tend spk w) s = .next (s.put (rest (tileFault spk 0x06 s.toBlock)))))

/-- TILE_OVERRUN (R149, R231) of a running tile is its fault 0x05: its Spoke stops, and the record gives the code, the
tenant and the program counter; a tile of no step changes no other Spoke, no session, no peloton and no byte of
companion memory; the step of a tile that has others out keeps its fault as a program fault, and takes back one tile.
A Spoke that runs no tile is left as it is. TILE_START (R149, R177, R218, R224, R228): a tile that the step in flight
lists, in its turn, and whose TBEGIN holds goes to a Spoke that takes it: the Spoke runs from word 0 with the tile's
code, segments and arguments at its program's ISA version, the Spokes of its consumers are reserved, and the step
counts one more tile out; its sequences have their target tiles begun, where it is one. A step that has a fault, is
torn down or has no tile left, and a Spoke that does not take the tile, are left as they are. CONTEXT_SWAP_DONE (R227
to R229, R234): the live state of the outgoing chain stands in a save slot, under a fresh serial, and the Spoke is
clear; errors met in it are counted, and the first that cannot be corrected is a machine fault instead; with no serial
left the chain keeps its Spoke and its save is deferred. A Spoke that swaps nothing is left as it is. -/
def Obligations.TilesAreDispatchedAndStopped : Prop :=
  (∀ (s : State) (spk : Nat),
     let k := spoke s.toBlock spk
     let b' := tileFault spk 0x05 s.toBlock
     spk < numSpokes → s.toBlock.up = true → spokesRun s.toBlock = true →
     (k.running = false → exec (.tileOverrun spk) s = .next (s.put (rest s.toBlock))) ∧
     (k.running = true → exec (.tileOverrun spk) s = .next (s.put (rest b')) ∧
       (stepOfSpoke s.toBlock k = none →
         spoke b' spk = { k with halted := true, fault := 0x05, running := false } ∧
         b'.getFi F.SPK_FAULT_code spk = 0x05 ∧ b'.getFi F.SPK_FAULT_valid spk = 1 ∧
         b'.getFi F.SPK_FAULT_pc spk = k.pc % 2 ^ F.SPK_FAULT_pc.width ∧
         b'.getFi F.SPK_FAULT_tenant spk = spokeTenant k % 2 ^ F.SPK_FAULT_tenant.width ∧
         (∀ n, n ≠ spk → spoke b' n = spoke s.toBlock n) ∧ b'.ses = s.toBlock.ses ∧ b'.ste = s.toBlock.ste ∧ b'.cmem = s.toBlock.cmem) ∧
       (∀ place p, stepOfSpoke s.toBlock k = some (place, p) → 2 ≤ p.tilesOut → tget b'.ste.pelotons place = some { p with
         fault := p.fault.or (some (0x05, spk)), prog := true, tilesOut := p.tilesOut - 1, tilesLeft := p.tilesOut - 1 }))) ∧
  (∀ (s : State) (place spk : Nat) (tile : TileDesc) (p : Peloton),
     s.works → place < numPlaces → spk < numSpokes → tget s.toBlock.ste.pelotons place = some p →
     (p.phase = .flight → p.fault = none → p.torn = false → p.abandon = false → p.tilesOut < p.tilesLeft → tile.code.length ≤ 8192 →
       spokeTakes s.toBlock place p spk tile = true → peerCopyPending s.toBlock spk = false →
       peersFit s.toBlock (p.tenant, p.slot, place) tile = true → tileListed p tile = true → tileInTurn s.toBlock place p tile = true →
       mayBegin (logBegin spk p.tenant tile.code s.toBlock) p.tenant tile.code = true →
       ∃ b' k', exec (.tileStart place spk tile) s = .next (s.put (rest b')) ∧
         spoke b' spk = k' ∧ k'.running = true ∧ k'.pc = 0 ∧ k'.code = tile.code ∧ k'.isa = isaOfSlot s.toBlock tile.slot ∧
         k'.segs = tile.segs.take 32 ∧ k'.targs = tile.targs.take 16 ∧ k'.copies = [] ∧
         k'.ctx = some (p.tenant, p.slot, place) ∧ k'.chain = some tile.chain ∧
         (∀ g ∈ tile.segs.take 32, g.kind = 6 → (spoke b' g.peer).reserved = true ∧
           (spoke b' g.peer).ctx = some (p.tenant, p.slot, place)) ∧
         tget b'.ste.pelotons place = some { p with
           tilesOut := p.tilesOut + 1
           targeted := if tile.slot = p.slot then p.targeted ++ tile.seqs.filter fun n => !p.targeted.contains n else p.targeted }) ∧
     (p.phase ≠ .flight ∨ p.fault.isSome = true ∨ p.torn = true ∨ p.abandon = true ∨ p.tilesLeft ≤ p.tilesOut
         ∨ spokeTakes s.toBlock place p spk tile = false →
       exec (.tileStart place spk tile) s = .next (s.put (rest s.toBlock)))) ∧
  (∀ (s : State) (spk t slot place chain : Nat),
     let k := spoke s.toBlock spk
     let met := upsetsIn k (saveReads k.live) (saveRows k.live)
     spk < numSpokes → s.toBlock.up = true → spokesRun s.toBlock = true → k.ctx = some (t, slot, place) → k.chain = some chain →
     (k.swapping = false → exec (.contextSwapDone spk) s = .next (s.put (rest s.toBlock))) ∧
     (k.swapping = true → ∀ b1, meetUpsets spk met s.toBlock = (none, b1) → s.ses.nextSerial + 1 ≤ serialEnd →
       ∃ b', exec (.contextSwapDone spk) s = .next (s.put (rest b')) ∧ spoke b' spk = Spoke.reset ∧
         b'.spk.saved = s.toBlock.spk.saved ++ [saveOf k t slot place chain s.ses.nextSerial] ∧
         b'.ses.nextSerial = s.ses.nextSerial + 1 ∧ (∀ n, n ≠ spk → spoke b' n = spoke s.toBlock n)) ∧
     (k.swapping = true → ∀ b1, meetUpsets spk met s.toBlock = (none, b1) → serialEnd < s.ses.nextSerial + 1 →
       exec (.contextSwapDone spk) s = .next (s.put (rest
         ((setSpoke spk { k with swapping := false, deferred := true } b1).bump F.SPK_CNT_save_wait)))) ∧
     (k.swapping = true → ∀ b1 code, meetUpsets spk met s.toBlock = (some code, b1) →
       exec (.contextSwapDone spk) s = .next (s.put (rest (tileFault spk code (setSpoke spk { k with swapping := false } b1))))))

/-- PELOTON_PLACE_GRANT, ACCEPT_WAIT_END and PREEMPT_COMPLETE (R136, R161, R346): the peloton whose turn it is has its
step dispatched with its tiles to end, or its interrupted step goes on; the gather of a boundary ends and the boundary
goes on; a peloton whose last chain has left its Spoke gives its place up. -/
def Obligations.PelotonsTakePlaces : Prop :=
  (∀ (s : State) (place tiles : Nat) (p : Peloton), s.works → place < numPlaces → nextForPlace s.toBlock = some (place, p) →
    inFlight s.toBlock < 4 → tenantState s.toBlock p.tenant = tsActive → tget s.toBlock.ten.tearing p.tenant = none →
    p.phase = .preempted →
    exec (.pelotonPlaceGrant place tiles) s =
      .next (s.put (rest (setPel place (some { p with phase := .flight, regained := true }) s.toBlock)))) ∧
  (∀ (s : State) (place tiles : Nat) (p : Peloton), s.works → place < numPlaces → nextForPlace s.toBlock = some (place, p) →
    tget s.toBlock.ste.pelotons place = some p →
    inFlight s.toBlock < 4 → tenantState s.toBlock p.tenant = tsActive → tget s.toBlock.ten.tearing p.tenant = none →
    p.phase = .ready →
    ∃ b', exec (.pelotonPlaceGrant place tiles) s = .next (s.put (rest b')) ∧
      (tget b'.ste.pelotons place = none ∨ ∃ p', tget b'.ste.pelotons place = some p' ∧ p'.phase = .flight ∧
        p'.tenant = p.tenant ∧ p'.slot = p.slot ∧ p'.tiles = max 1 tiles ∧ p'.tilesLeft = max 1 tiles ∧ p'.tilesOut = 0 ∧
        p'.fault = none)) ∧
  (∀ (s : State) (place tiles : Nat) (p : Peloton), s.works → place < numPlaces →
    tget s.toBlock.ste.pelotons place = some p → p.phase = .gather →
    exec (.acceptWaitEnd place tiles) s = .next (s.put (rest (grantPlace place tiles (finishBoundary place s.toBlock))))) ∧
  (∀ (s : State) (place : Nat) (p : Peloton), s.works → place < numPlaces → tget s.toBlock.ste.pelotons place = some p →
    p.phase = .flight → p.preempting = true → p.tilesOut = 0 →
    (s.toBlock.spk.spokes.any fun e => decide (e.2.ctx = some (p.tenant, p.slot, place)) &&
      (e.2.running || e.2.swapping || e.2.chain.isSome)) = false →
    exec (.preemptComplete place) s = .next (s.put (rest
      ((setPel place (some { p with phase := .preempted, preempting := false }) s.toBlock).bump F.STE_SCHED_preempt_pel))))

/-- RING_ENABLE (R47): a management write that sets `enable` of a disabled ring whose line 0 passes the checks, without
`resume`, makes it a running ring with its indices at 0 and what line 0 says; one whose line 0 fails a check puts the
ring into the error state with the check's code. A `tail` line more than the ring's slots ahead is then an overrun
(R49). RING_DISABLE and RING_DRAINED (R74): clearing `enable` of a running ring lets it drain, its tail line unwatched
and its open request closed; once none of its requests is in flight it is disabled, and enabled again where `enable`
has been set meanwhile. -/
def Obligations.RingsStartAndDrain : Prop :=
  (∀ (s : State) (v : BitVec 64) (t cb : Nat),
     let b := s.toBlock
     let ring := b.getF F.CFE_RING_SEL_ring
     let set := (b.setFi F.CFE_RING_CTRL_cb_addr ring (bitsOf v.toNat 8 44)).setFi F.CFE_RING_CTRL_enable ring 1
     b.up = true → b.getFi F.CFE_RING_STAT_state ring = rsDisabled → v.toNat % 2 = 1 → t = ringTenant set ring →
     cb = 256 * set.getFi F.CFE_RING_CTRL_cb_addr ring →
     (enableError set t cb ≠ 0 →
       exec (.ringEnable .mgmt v) s = .next (s.put (rest (ringError ring (enableError set t cb) set)))) ∧
     (enableError set t cb = 0 → b.peekLe (cb + 7) 1 % 2 = 0 → b.getF F.PMC_STAT_pstate ≠ pstateStandby →
       ∃ b' r, exec (.ringEnable .mgmt v) s = .next (s.put (rest b')) ∧ ringOf b' ring = some r ∧
         r.head = 0 ∧ r.cqTail = 0 ∧ r.hwm = 0 ∧ r.acceptSeq = 0 ∧ r.resTail = 0 ∧ r.intake = .none ∧ r.tenant = t ∧ r.cb = cb ∧
         r.isa = bytesAt (b.peek cb 64) 4 1 ∧ r.cmdLog2 = bytesAt (b.peek cb 64) 5 1 ∧ r.cqLog2 = bytesAt (b.peek cb 64) 6 1 ∧
         r.cmdBase = bytesAt (b.peek cb 64) 8 8 ∧ r.cqBase = bytesAt (b.peek cb 64) 16 8 ∧
         r.replayBase = bytesAt (b.peek cb 64) 24 8 ∧ r.resultBase = bytesAt (b.peek cb 64) 32 8 ∧
         b'.getFi F.CFE_RING_STAT_state ring = if 2 ^ r.cmdLog2 < b'.peekLe (cb + 64) 8 then rsError else rsRunning)) ∧
  ((∀ (s : State) (v : BitVec 64),
     let b := s.toBlock
     let ring := b.getF F.CFE_RING_SEL_ring
     b.up = true → b.getFi F.CFE_RING_STAT_state ring = rsRunning → b.getFi F.CFE_RING_CTRL_enable ring = 1 → v.toNat % 2 = 0 →
     exec (.ringDisable .mgmt v) s = .next (s.put (rest (closeOpen ring (watchLine ring false
       ((b.setFi F.CFE_RING_CTRL_enable ring 0).setFi F.CFE_RING_STAT_state ring rsDraining)))))) ∧
   (∀ (s : State) (ring : BitVec 16), s.toBlock.up = true → s.toBlock.getFi F.CFE_RING_STAT_state ring.toNat = rsDraining →
     ringInflight s.toBlock ring.toNat = 0 →
     let b := s.toBlock.setFi F.CFE_RING_STAT_state ring.toNat rsDisabled
     (s.toBlock.getFi F.CFE_RING_CTRL_enable ring.toNat ≠ 1 → exec (.ringDrained ring) s = .next (s.put (rest b))) ∧
     (s.toBlock.getFi F.CFE_RING_CTRL_enable ring.toNat = 1 →
       exec (.ringDrained ring) s = .next (s.put (rest (enableRing ring.toNat (updRing ring.toNat (fun r => { r with reEnable := false }) b)))))))

/-- TAIL_LINE_INVALIDATE (R19, R49): a tail from the one known up to the ring's slots past `head` is taken; a lower one
counts as stray; one farther ahead is an overrun. RING_SERVICE (R50, R52, R65, R67): the head instruction of a new
request, with an ID above `hwm` and room under R68, is accepted: `hwm` takes the ID, `accept_seq` counts one more, the
request waits for its start, `head` is past the entry, and the next turn is another ring's; a ring whose turn it is
not is left as it is. -/
def Obligations.RingsAreReadAndServed : Prop :=
  (∀ (s : State) (ring : BitVec 16) (r : Ring),
     let b := s.toBlock
     let n := ring.toNat
     let t := b.peekLe (r.cb + 64) 8
     b.up = true → ringOf b n = some r → b.getFi F.CFE_RING_STAT_state n = rsRunning → b.getF F.PMC_STAT_pstate ≠ pstateStandby →
     (r.tail ≤ t → t ≤ r.head + 2 ^ r.cmdLog2 →
       exec (.tailLineInvalidate ring) s = .next (s.put (rest (updRing n (fun r => { r with tail := t }) (watchLine n true b))))) ∧
     (t < r.tail → exec (.tailLineInvalidate ring) s = .next (s.put (rest ((watchLine n true b).bump F.CFE_STAT_stray_count)))) ∧
     (r.tail ≤ t → r.head + 2 ^ r.cmdLog2 < t →
       exec (.tailLineInvalidate ring) s = .next (s.put (rest (closeOpen n (ringError n 3 (watchLine n true b))))))) ∧
  (∀ (s : State) (ring : BitVec 16) (r : Ring) (h : Header),
     let b := s.toBlock
     let n := ring.toNat
     let e := entryAt b r r.head
     s.works → ringOf b n = some r → mayFetch b n r = true →
     (nextTurn b ≠ some n → exec (.ringService ring) s = .next (s.put (rest b))) ∧
     (nextTurn b = some n → r.tail = r.head + 1 → r.admitted = 2 → r.intake = .none → r.copied ≤ r.head → r.heads = [] → tandemValid b = false →
       e.opcode ≠ Op.accept → e.isHead = true → readHeader b r.tenant e = some h → h.id ≠ 0 → h.id ≠ 2 ^ 64 - 1 →
       r.hwm < h.id → poolFull b r.tenant = false → r.isa = 0x31 → req b b.fe.order = none →
       ∃ b' r', exec (.ringService ring) s = .next (s.put (rest b')) ∧
         req b' b.fe.order = some (newReq n .normal e h r.acceptSeq b.now) ∧
         ringOf b' n = some r' ∧ r'.hwm = h.id ∧ r'.acceptSeq = r.acceptSeq + 1 ∧ r'.head = r.head + 1 ∧
         r'.intake = .join b.fe.order (decide (e.opcode = Op.complete)) ∧ b'.fe.turn = n ∧ b'.fe.order = b.fe.order + 1 ∧ b'.ses = b.ses))

/-- CANCEL_GO (R63): a request that runs is to end with CANCELLED at its next boundary, one whose first instruction has
not started ends at once; a tenant may not cancel on another's ring, and the attempt is logged (R73). COMPLETE (R57,
R62): in time, the request's record is due: with no status before it the completion carries OK and the index, opcode
and tag of the COMPLETE. DUPLICATE_REPLAY, CQ_SPACE_REREAD and TRAILER (R58, R66, R71): a duplicate whose original has
completed has its record posted; the records that wait for completion slots are written while there is room; a trailer
instruction that a trailer admits takes its effect, and none on a session that the request itself has closed; any
other fails the trailer, and a request whose trailer has run is gone. -/
def Obligations.RecordsAnswerRequests : Prop :=
  ((∀ (s : State) (v : BitVec 64) (rid : Nat) (q : Req),
     let b := s.toBlock
     let ring := bitsOf v.toNat 0 16
     s.works → (b.fe.reqs.find? fun e => inflight e.2 && decide (e.2.ring = ring) &&
       decide (e.2.reqId = b.getF F.CFE_CANCEL_ID_req_id)) = some (rid, q) → req b rid = some q → q.kind = .normal →
     q.isTrailerFail = false → q.phase = .body →
     exec (.cancelGo .mgmt v) s = .next (s.put (rest
       (if q.started = false ∨ waitEndsAtOnce q.wait = true then
          endRequest rid St.cancelled (min q.pc (q.instrs.length - 1))
            (noteOwnResult rid (setReq rid { q with owed := some St.cancelled } b))
        else if q.owed.isSome then b else setReq rid { q with owed := some St.cancelled } b)))) ∧
   (∀ (s : State) (t : BitVec 12) (v : BitVec 64), s.works → ringTenant s.toBlock (bitsOf v.toNat 0 16) ≠ t.toNat →
     exec (.cancelGo (.aperture t) v) s = .next (s.put (rest (violation 4 t.toNat 0x38 (bitsOf v.toNat 0 16) s.toBlock))))) ∧
  (∀ (s : State) (rid : Nat) (c : Ctx) (b : Block),
     Runs s rid .complete c b → req b rid = some c.req →
     exec (.complete rid) s = .next (s.put (rest (postRecord rid (setReq rid
       (if c.req.status = St.ok then { c.req with tag := c.e.tag, index := c.req.pc, opcode := c.e.opcode, pc := c.req.pc + 1 }
        else { c.req with pc := c.req.pc + 1 }) b))))) ∧
  ((∀ (s : State) (rid idx : Nat) (q : Req), s.works → req s.toBlock rid = some q → q.kind = .replay idx → q.phase = .body →
     originalFlies s.toBlock q.ring q.reqId = false →
     exec (.duplicateReplay rid) s = .next (s.put (rest (postRecord rid s.toBlock)))) ∧
   (∀ (s : State) (rid : Nat) (q : Req) (r : Ring) (more : List Nat), s.works → req s.toBlock rid = some q →
     ringOf s.toBlock q.ring = some r → r.cqQueue = rid :: more →
     exec (.cqSpaceReread rid) s = .next (s.put (rest
       (if (recordBytes s.toBlock q).length / 64 ≤ cqFree s.toBlock r then
          drainQueue q.ring (more.length + 1) (writeRecord rid q { r with cqQueue := more }
            (updRing q.ring (fun _ => { r with cqQueue := more }) s.toBlock))
        else s.toBlock)))) ∧
   (∀ (s : State) (rid ca : Nat) (q : Req), s.works → req s.toBlock rid = some q → q.kind = .normal → q.phase = .trailer →
     q.wait = .none → q.completeAt = some ca → q.instrs[max q.pc (ca + 1)]? = none → q.closed = true →
     exec (.trailer rid) s = .next (s.put (rest (delReq rid s.toBlock)))) ∧
   (∀ (s : State) (rid ca : Nat) (q : Req) (e : Entry) (row : CRow), s.works → req s.toBlock rid = some q → q.kind = .normal →
     q.phase = .trailer → (q.wait = .none ∨ q.wait = .retry) → q.completeAt = some ca → q.instrs[max q.pc (ca + 1)]? = some e →
     max q.pc (ca + 1) < 256 → rowOf (ringIsa s.toBlock q.ring) e = some row →
     let q' := { q with pc := max q.pc (ca + 1), owed := none }
     let b := setReq rid q' s.toBlock
     let t := reqTenant b q'
     exec (.trailer rid) s = .next (s.put (rest
       (if opInTrailer e.opcode = false ∨ encodingBad b (ringIsa s.toBlock q.ring) t e = true then instrDone rid St.malformed none b
        else if trailerIdle q' e b = true then instrDone rid St.ok none b
        else applyAns rid (trailerBody row ⟨rid, q', e, t, q.ring, entryB b e, e.hi, true⟩ b))))))

/-- TIME_LINE_UPDATE (R15, R17): while the line is watched, a value above the one accepted becomes host time, clears
`stale`, and passes the deadlines it has reached; a lower one is discarded and reported as a regression.
TIMELINE_STALE_COUNT, TIMELINE_ENABLE and TIMELINE_DISABLE (R16): a fresh line that has given nothing new for the
bound becomes stale and raises TIME_STALE; a management write of 1 to `enable` starts a period with nothing accepted,
and of 0 stops the watch and makes the line stale; a tenant's write does nothing. -/
def Obligations.TimeLineGivesTime : Prop :=
  (∀ (s : State),
     let b := s.toBlock
     let v := b.peekLe (64 * b.getF F.MOD_TIMELINE_ADDR_line_addr) 8
     let seen := watchLine timeLine true b
     b.up = true → b.isSet F.MOD_TIMELINE_ADDR_enable = true → b.getF F.PMC_STAT_pstate ≠ pstateStandby →
     (b.now < v → ∃ b', exec .timeLineUpdate s = .next (s.put (rest (if working b then deadlineSweep b' else b'))) ∧
       b'.now = v ∧ b'.stale = false ∧ b'.fe.tlAccepted = true ∧ b'.fe.reqs = b.fe.reqs ∧ b'.ses = b.ses) ∧
     (v = b.now → exec .timeLineUpdate s = .next (s.put (rest seen))) ∧
     (v < b.now → (v ≠ 0 ∨ b.fe.tlAccepted = true) → exec .timeLineUpdate s = .next (s.put (rest
       ((seen.setF F.MOD_TIMELINE_STAT_regress_seen 1).bump F.MOD_TIMELINE_STAT_regress_count))))) ∧
  ((∀ (s : State), s.toBlock.up = true → s.toBlock.isSet F.MOD_TIMELINE_ADDR_enable = true → s.toBlock.stale = false →
     exec .timelineStaleCount s = .next (s.put (setLevel Src.timeStale true
       ((s.toBlock.setF F.MOD_TIMELINE_STAT_stale 1).setF F.MOD_TIMELINE_STAT_stale_seen 1)))) ∧
   (∀ (s : State) (v : BitVec 64), s.toBlock.up = true → s.toBlock.isSet F.MOD_TIMELINE_ADDR_enable = false → v.toNat.testBit 63 = true →
     exec (.timelineEnable .mgmt v) s = .next (s.put (watchLine timeLine true
       { ((s.toBlock.setF F.MOD_TIMELINE_ADDR_line_addr (bitsOf v.toNat 6 46)).setF F.MOD_TIMELINE_ADDR_enable 1) with
         fe := { s.toBlock.fe with tlAccepted := false } }))) ∧
   (∀ (s : State) (v : BitVec 64), s.toBlock.up = true → s.toBlock.isSet F.MOD_TIMELINE_ADDR_enable = true → v.toNat.testBit 63 = false →
     exec (.timelineDisable .mgmt v) s = .next (s.put (watchLine timeLine false
       ((s.toBlock.setF F.MOD_TIMELINE_ADDR_enable 0).setF F.MOD_TIMELINE_STAT_stale 1)))) ∧
   (∀ (s : State) (t : BitVec 12) (v : BitVec 64), exec (.timelineEnable (.aperture t) v) s = .next s ∧
     exec (.timelineDisable (.aperture t) v) s = .next s))

/-- HOT_IDLE_EXPIRY, WARM_IDLE_EXPIRY, SPEC_REVIVE_START and SHADOW_HOLD_EXPIRY (R29, R35, R95, R96), the descriptor's
pairs compared as it is read: a session idle for its interval is demoted in class 4 to the target of R41; a resume
hint whose lead is reached is acted on once, and where no lift can start it counts as skipped; a shadow slot held too
long is dropped. -/
def Obligations.TimersDemoteAndLift : Prop :=
  (∀ (s : State) (sid : Nat) (x : Session) (d : Nat × Nat × Bool),
    let b := readPairs sid s.toBlock
    s.works → sid < numSlots → session b sid = some x →
    x.state = ssHot → idleFor b sid x (b.getFi F.SES_TQ_POLICY_hot_idle_ms x.tenant * 1000000) = true →
    demotionTarget b x = some d →
    exec (.hotIdleExpiry sid) s = .next (s.put (rest (orderDemotion 4 (sid, x) (dropShadow sid b))))) ∧
  (∀ (s : State) (sid d t : Nat) (x : Session) (f : Bool),
    let b := readPairs sid s.toBlock
    s.works → sid < numSlots → session b sid = some x →
    x.state = ssWarm → coldAllowed b x.tenant = true →
    idleFor b sid x (b.getFi F.SES_TQ_POLICY_warm_idle_s x.tenant * 1000000000) = true →
    chooseTarget b x dCold 3 true = .go d t f →
    exec (.warmIdleExpiry sid) s =
      .next (s.put (rest (orderMotion sid .demote 4 d t none (countFallback f (dropShadow sid b)))))) ∧
  (∀ (s : State) (sid : Nat) (x : Session),
    let b := readPairs sid s.toBlock
    s.works → sid < numSlots → session b sid = some x → x.resumeHintNs ≠ 0 →
    x.hintSpent = false → b.getFi F.SES_TQ_POLICY_spec_revive x.tenant ≠ 0 → x.motion = none → x.shadow = none →
    x.liftWait = none → x.closing = false → (x.state = ssWarm ∨ x.state = ssCold) → x.resumeHintNs ≤ b.now + specLead b x →
    let spent := updSession sid (fun x => { x with hintSpent := true }) b
    exec (.specReviveStart sid) s = .next (s.put (rest
      (if spent.stale = true ∨ x.state = ssCold ∨ hotLimit spent x.tenant < hotBytes spent x.tenant + reviveNeed spent x then
        spent.bump F.PNE_CNT_SPEC_spec_skip else orderLift sid spent)))) ∧
  (∀ (s : State) (sid : Nat) (x : Session) (h : Shadow), s.works → sid < numSlots → session s.toBlock sid = some x →
    x.shadow = some h → s.toBlock.stale = false →
    h.hint + s.toBlock.getF F.PNE_SPEC_CFG_shadow_hold_ms * 1000000 < s.toBlock.now →
    exec (.shadowHoldExpiry sid) s = .next (s.put (rest (dropShadow sid s.toBlock))))

/-- MOTION_COMPLETE (R29, R75, R92, R94, rows 12 and 13): with blocks that the motion reads still to come, nothing ends; a
motion whose units lie in a range no longer borrowed fails; a demotion in mirror mode that no instruction ordered
leaves the session COLD with its image released; a motion of another kind ends as its kind does. TIER_LATE,
TIER_TIMEOUT and TIER_ERROR (R92, R94, Table 4.5): a motion late on a lower tier is counted once; in mirror mode a
failed read of a motion that no instruction ordered leaves the session COLD, with nothing computed and its image
released. -/
def Obligations.MotionsEnd : Prop :=
  ((∀ (s : State) (sid : Nat), s.works → sid < numSlots → readsOut s.toBlock sid = true →
     exec (.motionComplete sid) s = .next (s.put (rest s.toBlock))) ∧
   (∀ (s : State) (sid : Nat) (x : Session) (m : Motion),
     let b := readPairs sid s.toBlock
     s.works → sid < numSlots → readsOut s.toBlock sid = false → session b sid = some x → x.motion = some m → m.running = true →
     (readsLost b sid x (motionReads b x) = true → exec (.motionComplete sid) s = .next (s.put (rest (tierFailure sid true b)))) ∧
     (readsLost b sid x (motionReads b x) = false → m.kind = .demote → m.rid = none → x.moveOut = none → singleHome b = false →
       unitRead sid (motionReads b x) b = none →
       ∃ b', exec (.motionComplete sid) s = .next (s.put (rest b')) ∧
         session b' sid = some { x with motion := none, state := ssCold, depth := dCold, warmTier := 0, computed := 0 } ∧
         (∀ n, n ≠ sid → session b' n = session b n) ∧ b'.ses.frames = b.ses.frames) ∧
     (readsLost b sid x (motionReads b x) = false → exec (.motionComplete sid) s = .next (s.put (rest (match m.kind with
       | .park => finishPark sid m b
       | .demote => finishDemote sid m b
       | .retier => finishRetier sid m b
       | .revive => finishRevive sid b
       | .moveOut => finishMoveOut sid b
       | .moveIn => settleInbound sid (finishMoveIn sid m b)
       | .restore => b)))))) ∧
  ((∀ (s : State) (sid : Nat) (x : Session) (m : Motion), s.works → sid < numSlots → session s.toBlock sid = some x →
     x.motion = some m → m.running = true → m.late = false → waitsOnLower s.toBlock sid = true →
     exec (.tierLate sid) s = .next (s.put (rest
       ((updSession sid (fun x => { x with motion := some { m with late := true } }) s.toBlock).bump F.PNE_CNT_FAULT_tier_late)))) ∧
   (∀ (s : State) (sid : Nat) (x : Session) (m : Motion), s.works → sid < numSlots → session s.toBlock sid = some x →
     x.motion = some m → m.running = true → m.rid = none → m.kind = .revive → waitsOnLower s.toBlock sid = true →
     x.moveOut = none → singleHome s.toBlock = false →
     ∃ b', exec (.tierTimeout sid true) s = .next (s.put (rest b')) ∧ exec (.tierError sid true) s = .next (s.put (rest b')) ∧
       session b' sid = some { x with motion := none, state := ssCold, depth := dCold, warmTier := 0, computed := 0 } ∧
       b'.getF F.PNE_CNT_FAULT_tier_fault = min (s.toBlock.getF F.PNE_CNT_FAULT_tier_fault + 1) (2 ^ 32 - 1) ∧
       (∀ n, n ≠ sid → session b' n = session s.toBlock n)))

/-- The destination of a MOVE (R86, R87): MOVE_OFFER reserves for a header that passes the checks and refuses any other;
MOVE_SECTION adds to the body; MOVE_TRAILER refuses a digest that does not match, and otherwise takes the slot that
has been FREE longest and answers READY; MOVE_COMMIT makes the session. The source of a MOVE (R86, R88): in mirror
mode READY ends the motion, and the session is again in the state of its depth; DONE of a committed move passes the
ownership, and the source slot is scrubbed; with no path left a move not committed ends with POOL_LOST and the session
stays. -/
def Obligations.MovesHandSessionsOver : Prop :=
  ((∀ (s : State) (src : BitVec 8) (h : Bytes), s.works →
     ((tget s.toBlock.ses.inbound (hdrMoveId h)).bind (·.ready)) = none →
     exec (.moveOffer src h) s = .next (s.put (rest (match arriveCheck s.toBlock src.toNat h with
       | some st => refuseMove src.toNat (hdrMoveId h) st s.toBlock
       | none => { s.toBlock with ses := { s.toBlock.ses with
           inbound := tset s.toBlock.ses.inbound (hdrMoveId h) ⟨src.toNat, h, [], none, none, none⟩ } })))) ∧
   (∀ (s : State) (id : BitVec 64) (bs : Bytes) (e : InboundMove), s.works → tget s.toBlock.ses.inbound id.toNat = some e →
     e.ready = none → exec (.moveSection id bs) s = .next (s.put (rest { s.toBlock with ses := { s.toBlock.ses with
       inbound := tset s.toBlock.ses.inbound id.toNat { e with body := e.body ++ bs } } }))) ∧
   (∀ (s : State) (id : BitVec 64) (bs : Bytes) (ok : Bool) (e : InboundMove), s.works →
     tget s.toBlock.ses.inbound id.toNat = some e → e.ready = none →
     (ok = false ∨ bs.take 32 ≠ sha256 (e.header ++ e.body)) →
     exec (.moveTrailer id bs ok) s = .next (s.put (rest (refuseMove e.src id.toNat St.integrity s.toBlock)))) ∧
   (∀ (s : State) (id : BitVec 64) (bs : Bytes) (e : InboundMove) (slot sid g : Nat) (m : ModelSlot), s.works →
     tget s.toBlock.ses.inbound id.toNat = some e → e.ready = none → bs.take 32 = sha256 (e.header ++ e.body) →
     arriveCheck s.toBlock e.src e.header = none → headerModel s.toBlock e.header = some (slot, m) →
     oldestFree s.toBlock = some (sid, g) → tandemValid s.toBlock = false → tandemOn s.toBlock = false →
     let x := arriveSession s.toBlock (nextGen g) slot m.cls e.header e.body
     let b := takeFree s.toBlock
     exec (.moveTrailer id bs true) s = .next (s.put (rest (sendReady id.toNat (noteDelta { b with ses := { b.ses with
       inbound := tset b.ses.inbound id.toNat { e with
         ready := some (sid, nextGen g), held := some (copySession s.toBlock { x with state := ssCold }) } } }))))) ∧
   (∀ (s : State) (id : BitVec 64) (e : InboundMove), s.works → tget s.toBlock.ses.inbound id.toNat = some e →
     e.waitDelta = none → exec (.moveCommit id) s = .next (s.put (rest (activateInbound id.toNat s.toBlock))))) ∧
  ((∀ (s : State) (sid : Nat) (x : Session) (mo : MoveOut) (m : Motion) (handle : BitVec 48) (dt : Bool), s.works → sid < numSlots →
     session s.toBlock sid = some x → x.moveOut = some mo → x.motion = some m → m.kind = .moveOut → mo.stage = .sent →
     singleHome s.toBlock = false →
     exec (.moveReady sid handle dt) s = .next (s.put (rest (updSession sid (fun x => { x with
       moveOut := some { mo with dstHandle := handle.toNat, dstTandem := dt }, motion := none, state := stateOfDepth x.depth })
       s.toBlock)))) ∧
   (∀ (s : State) (sid : Nat) (x : Session) (mo : MoveOut), s.works → sid < numSlots → session s.toBlock sid = some x →
     x.moveOut = some mo → mo.dstHandle ≠ 0 → mo.commitDelta = none → s.toBlock.tdm.restored = [] → mo.rid = none →
     let b := s.toBlock.bump F.PNE_CNT_MOTION_moves
     exec (.moveDone sid) s = .next (s.put (rest (if mo.stage = .committed then
         enterScrubbing sid (updSession sid (fun x => { x with moveOut := none, motion := none }) b)
       else updSession sid (fun x => { x with moveOut := none }) b)))) ∧
   (∀ (s : State) (sid : Nat) (x : Session) (mo : MoveOut), s.works → sid < numSlots → session s.toBlock sid = some x →
     x.moveOut = some mo → mo.stage ≠ .committed → x.motion = none → mo.rid = none →
     exec (.poolTimeout sid) s = .next (s.put (rest (updSession sid (fun x => { x with moveOut := none }) s.toBlock)))))

/-- DESC_SELECT and PFX_SELECT (R43, R134): a management write that names a session shows its 32 words, and a name with a
pinned prefix its 16 words, with `valid` set; a tenant sees no session of another tenant. HOMING_WRITE (R81): `homing`
changes only while no motion runs or waits and no session stands WARM or COLD outside HBM; the other fields are taken
as written. -/
def Obligations.WindowsAndHoming : Prop :=
  ((∀ (s : State) (v : BitVec 64) (x : Session),
     let h := bitsOf v.toNat 0 48
     let b := s.toBlock.setF F.SES_DESC_SEL_handle h
     s.toBlock.up = true → s.toBlock.rtp.conf = false → checkHandle (hTenant h) 0 0 h true b = .ok (hSlot h) x →
     exec (.descSelect .mgmt v) s = .next (s.put (Block.setF
       { b with ses := { b.ses with descWin := descriptorWords b (hSlot h) x } } F.SES_DESC_SEL_valid 1))) ∧
   (∀ (s : State) (t : BitVec 12) (v : BitVec 64), s.toBlock.up = true → hTenant (bitsOf v.toNat 0 48) ≠ t.toNat →
     let b := s.toBlock.setF F.SES_DESC_SEL_handle (bitsOf v.toNat 0 48)
     exec (.descSelect (.aperture t) v) s = .next (s.put (Block.setF
       { b with ses := { b.ses with descWin := List.replicate 32 0 } } F.SES_DESC_SEL_valid 0))) ∧
   (∀ (s : State) (v : BitVec 64), s.toBlock.up = true → s.toBlock.rtp.conf = false →
     exec (.pfxSelect .mgmt v) s = .next (s.put (match boundPrefix s.toBlock (s.toBlock.getF F.PGM_PFX_TEN_tenant) v.toNat with
       | none => Block.setF { s.toBlock with ses := { s.toBlock.ses with pfxWin := List.replicate 16 0 } } F.PGM_PFX_TEN_valid 0
       | some (key, p) => Block.setF { s.toBlock with ses := { s.toBlock.ses with pfxWin := prefixWords s.toBlock key p } }
           F.PGM_PFX_TEN_valid 1)))) ∧
  (∀ (s : State) (v : BitVec 64), s.toBlock.up = true →
     let b := s.toBlock
     let free := motionsActive b = 0 ∧ motionsQueued b = 0 ∧ (b.ses.slots.any fun e => outsideHbm b e.2) = false
     ∃ b', exec (.homingWrite .mgmt v) s = .next (s.put (rest b')) ∧
       (free → b'.getF F.PNE_CFG_homing = v.toNat % 2) ∧ (¬free → b'.getF F.PNE_CFG_homing = b.getF F.PNE_CFG_homing) ∧
       b'.getF F.PNE_CFG_max_motions = bitsOf v.toNat 16 9 ∧ b'.getF F.PNE_CFG_pool_timeout_ms = bitsOf v.toNat 32 16 ∧
       b'.ses = b.ses)

/-- REG_WRITE, WRITE and READ (R6, R445): management space writes a register that has no effect of its own by its access
codes: RW, RWL and WO fields take the written bits, a 1 clears a bit of a RW1C field, a RO field keeps its value; an
unmapped address changes nothing; the bus answers 2 for an address that is unaligned or unmapped, and a read changes
nothing but its answer. -/
def Obligations.RegisterWritesFollowAccessCodes : Prop :=
  (∀ (s : State) (a : BitVec 32) (v : BitVec 64) (r : Reg) (n i : Nat), s.toBlock.up = true → regAt a.toNat = some (r, n) →
    instOf .mgmt s.toBlock r n = some i → ruleFor r writeRules = none → (∀ f ∈ r.fields, s.getFi f i < 2 ^ f.width) →
    ∃ b', exec (.regWrite .mgmt a v) s = .next (s.put (rest b')) ∧
      (a.toNat % 8 = 0 → exec (.busWrite a v) s = .next (s.put (rest (busAnswer 0 b')))) ∧
      (∀ f ∈ r.fields, b'.getFi f i = match f.acc with
        | .ro => s.getFi f i
        | .rw1c => s.getFi f i - (s.getFi f i &&& bitsOf v.toNat f.lo f.width)
        | _ => bitsOf v.toNat f.lo f.width) ∧
      b'.cmem = s.cmem ∧ b'.ses = s.ses ∧ b'.rtp = s.rtp) ∧
  (∀ (s : State) (a : BitVec 32) (v : BitVec 64), s.toBlock.up = true → regAt a.toNat = none →
    exec (.regWrite .mgmt a v) s = .next (s.put (rest s.toBlock))) ∧
  (∀ (s : State) (t : BitVec 12) (a : BitVec 32) (v : BitVec 64), s.toBlock.up = true → apertureOn s.toBlock a.toNat = true →
    apertureReg t.toNat a.toNat = none →
    exec (.regWrite (.aperture t) a v) s = .next (s.put (rest (violation 9 t.toNat a.toNat v.toNat s.toBlock)))) ∧
  (∀ (s : State) (a : BitVec 32) (r : Reg) (n i : Nat), s.toBlock.up = true → a.toNat % 8 = 0 → regAt a.toNat = some (r, n) →
    instOf .mgmt s.toBlock r n = some i → r.addr ≠ R.INT_TGT_CLAIM.addr → r.addr ≠ R.MOD_RAIL.addr →
    exec (.busRead a) s = .next (s.put (busAnswer 0 { s.toBlock with
      rdata := BitVec.ofNat 64 (wordOf .mgmt s.toBlock r i) }))) ∧
  (∀ (s : State) (a : BitVec 32), s.toBlock.up = true → (a.toNat % 8 ≠ 0 ∨ regAt a.toNat = none) →
    exec (.busRead a) s = .next (s.put (busAnswer 2 s.toBlock)))

/-- SHAPER_CONFIG and SHAPER_ADMIT (R328, R331): a write gives the selected shaper its settings and a bucket that is full
or empty; a refill raises the bucket to at most its size. HWIN_CONFIG (R298): the selected window, while it is
disabled, takes the written settings, with no more than 2^21 units to the tier windows; an enabled one can only be
disabled, and only while it holds nothing. -/
def Obligations.ShapersAndHostWindows : Prop :=
  ((∀ (s : State) (v : BitVec 64) (i : Nat), s.toBlock.up = true →
     shaperInst (s.getF F.TSH_SEL_kind) (s.getF F.TSH_SEL_index) = some i →
     ∃ b', exec (.shaperConfig .mgmt v) s = .next (s.put b') ∧ b'.getFi F.TSH_CFG_rate_mbs i = bitsOf v.toNat 0 24 ∧
       b'.getFi F.TSH_CFG_burst_kib i = bitsOf v.toNat 24 16 ∧ b'.getFi F.TSH_CFG_overhead i = bitsOf v.toNat 40 8 ∧
       b'.getFi F.TSH_CFG_mode i = bitsOf v.toNat 48 1 ∧
       tokens b' i = (if bitsOf v.toNat 49 1 = 1 then max 1 (bitsOf v.toNat 24 16 : Int) * 1024 else 0) ∧ b'.ses = s.ses) ∧
   (∀ (s : State) (index : BitVec 16) (n : Nat) (r : Ring), s.toBlock.up = true → ringOf s.toBlock index.toNat = some r →
     r.admitted ≠ 1 → exec (.shaperAdmit 0 index n) s = .next (s.put (rest (setTokens index.toNat
       (min (bucketSize s.toBlock index.toNat) (tokens s.toBlock index.toNat + n)) s.toBlock))))) ∧
  (∀ (s : State) (v : BitVec 64),
     let b := s.toBlock
     let w := b.getF F.MEM_HWIN_SEL_window
     let on := v.toNat % 2 = 1
     let tier := bitsOf v.toNat 1 1 = 1
     let size := min (bitsOf v.toNat 16 22) 0x200000
     b.up = true →
     (b.getFi F.MEM_HWIN_CFG_enable w = 1 → exec (.hwinConfig .mgmt v) s =
       .next (s.put (rest (if ¬on ∧ windowInUse b w = 0 then b.setFi F.MEM_HWIN_CFG_enable w 0 else b)))) ∧
     (b.getFi F.MEM_HWIN_CFG_enable w ≠ 1 → on → tier → 0x200000 < tierWindowUnits b w + bitsOf v.toNat 16 22 →
       exec (.hwinConfig .mgmt v) s = .next (s.put (rest b))) ∧
     (b.getFi F.MEM_HWIN_CFG_enable w ≠ 1 → ¬(on ∧ tier ∧ 0x200000 < tierWindowUnits b w + bitsOf v.toNat 16 22) →
       ∃ b', exec (.hwinConfig .mgmt v) s = .next (s.put (rest b')) ∧ b'.getFi F.MEM_HWIN_CFG_enable w = v.toNat % 2 ∧
         b'.getFi F.MEM_HWIN_CFG_tier w = bitsOf v.toNat 1 1 ∧ b'.getFi F.MEM_HWIN_CFG_all_tenants w = bitsOf v.toNat 2 1 ∧
         b'.getFi F.MEM_HWIN_CFG_tenant w = bitsOf v.toNat 4 12 ∧ b'.getFi F.MEM_HWIN_CFG_size_2m w = size ∧ b'.ses = b.ses))

/-- KEY_ROTATE, ROTATE_PASS_END and RESERIAL (R304, R306, R309), commanded by the root of trust or a management ring: a
tenant's key takes its next version, 255 being followed by 1, with fresh data keys, and the version before it retires
over the tenant's units; a rotation under way, or a tenant without a key, is left as it is. The pass reads the
tenant's units and writes back under the new version each one that passes its tags; once nothing stands under the old
version, that version is gone, else the pass goes on. With no tenant data held, every tenant's key takes a new version
and the serials start at 1; with data held, nothing is done. From any other caller the commands do nothing. -/
def Obligations.KeysRotate : Prop :=
  (∀ (s : State) (who : Caller), mayCommandKeys who = false → exec (.keyRotate who) s = .next s ∧ exec (.reserial who) s = .next s) ∧
  (∀ (s : State) (who : Caller) (k : KeyEntry), mayCommandKeys who = true → s.toBlock.up = true →
    tget s.mem.keys (s.getF F.MEM_KEY_SEL_tenant) = some k →
    (k.current ≠ 0 → k.retiring = 0 → exec (.keyRotate who) s = .next (s.put { s.toBlock with
      fresh := s.fresh + 1
      mem := { s.mem with
        keys := tset s.mem.keys (s.getF F.MEM_KEY_SEL_tenant)
          ⟨if k.current = 255 then 1 else k.current + 1, k.current, tenantUnits s.toBlock (s.getF F.MEM_KEY_SEL_tenant), s.fresh, k.keyNo⟩ } })) ∧
    (k.current = 0 ∨ k.retiring ≠ 0 → exec (.keyRotate who) s = .next s)) ∧
  (∀ (s : State) (t : BitVec 12) (k : KeyEntry), s.works → tget s.mem.keys t.toNat = some k →
    let read := s.ses.slots.foldl (fun b e =>
      if e.2.tenant = t.toNat ∧ e.2.state ≠ ssQuarantine ∧ e.2.state ≠ ssScrubbing then passReads e.1 b else b) s.toBlock
    let b := rewriteUnits t.toNat k read
    (k.retiring = 0 → exec (.rotatePassEnd t) s = .next (s.put (rest s.toBlock))) ∧
    (k.retiring ≠ 0 → standsUnder b t.toNat k.retiring = true → exec (.rotatePassEnd t) s = .next (s.put (rest b))) ∧
    (k.retiring ≠ 0 → standsUnder b t.toNat k.retiring = false → exec (.rotatePassEnd t) s = .next (s.put (rest { b with
      mem := { b.mem with keys := tset b.mem.keys t.toNat { k with retiring := 0, unitsLeft := 0, oldNo := 0 } } })))) ∧
  (∀ (s : State) (who : Caller), mayCommandKeys who = true → s.toBlock.up = true →
    let b := s.mem.keys.foldl (fun b e => if e.2.current = 0 then b
      else installKey e.1 (if e.2.current = 255 then 1 else e.2.current + 1) 0 0 b) s.toBlock
    (holdsData s.toBlock = false → exec (.reserial who) s = .next (s.put (settle { b with ses := { b.ses with nextSerial := 1 } }))) ∧
    (holdsData s.toBlock = true → exec (.reserial who) s = .next s))

/-- PATROL and CE_HOUR_WINDOW (R293 to R296): a block with no bad byte reads clean; up to 3 bad bytes are corrected and
counted on their channel; 4 or 5, and more where the code does not miscorrect them, are detected: the block of 64
bytes is poisoned, MEM_UE raised, and the unit it belongs to spoilt; a miscorrected block counts as corrected, and
spoils its unit all the same; metadata whose pair disagrees counts as compared, and its owner's rule applies. While
the time line is stale nothing is patrolled. The hour's counts start again at 0 when host time passes an hour.
NBR_TIER_ACCESS, DONOR_SCRUB and LEND_STREAM (R302, R303, R327, R370): a block that the borrower stores in its lent
range stands as it came, with its tag word, and no other block changes; a fetch answers with the block; a scrub clears
the ranges of its sender alone; the stream to a new donor goes on by the blocks given, and the range's place with it. -/
def Obligations.MemoryIsPatrolledAndLent : Prop :=
  ((∀ (s : State) (a : BitVec 39) (f : EccFinding), s.toBlock.up = true → s.toBlock.stale = true →
     exec (.patrol a f) s = .next (s.put (rest (loseReplica s.toBlock)))) ∧
   (∀ (s : State) (a : BitVec 39) (n : Nat), s.toBlock.up = true → s.toBlock.stale = false → s.cmp.badReplica = false →
     a.toNat / 64 % 2 ^ 30 ≠ 2 ^ 30 - 1 →
     let b := { s.toBlock with fresh := s.fresh + 1 }
     let ch := 32 * (a.toNat / 2 ^ 36) + a.toNat / 256 % 32
     (n = 0 → exec (.patrol a (.errors n)) s = .next (s.put (rest b))) ∧
     (1 ≤ n → n ≤ 3 → s.getF F.MEM_CFG_ce_warn = 0 → ∃ b', exec (.patrol a (.errors n)) s = .next (s.put (rest b')) ∧
       b'.getFi F.MEM_CH_STAT_ce_hour ch = min (s.getFi F.MEM_CH_STAT_ce_hour ch + 1) (2 ^ F.MEM_CH_STAT_ce_hour.width - 1) ∧
       b'.getFi F.MEM_CH_STAT_ce_total ch = min (s.getFi F.MEM_CH_STAT_ce_total ch + 1) (2 ^ F.MEM_CH_STAT_ce_total.width - 1) ∧
       b'.ses = s.ses ∧ b'.mem = s.mem) ∧
     (6 ≤ n → Config.miscorrects s.fresh = true → exec (.patrol a (.errors n)) s =
       .next (s.put (rest (loseReplica (spoilUnit (Config.hbmUnit a.toNat s.fresh) false (correctedErrors (channelOf a.toNat) 1 b)))))) ∧
     (4 ≤ n → (n ≤ 5 ∨ Config.miscorrects s.fresh = false) → exec (.patrol a (.errors n)) s =
       .next (s.put (rest (loseReplica (spoilUnit (Config.hbmUnit a.toNat s.fresh) true (uncorrectable a.toNat b)))))) ∧
     exec (.patrol a .pairMismatch) s =
       .next (s.put (rest (loseReplica (spoilUnit.pairFails (Config.hbmUnit a.toNat s.fresh) (b.bump F.MEM_STAT_patrol_cmp))))) ∧
     (uncorrectable a.toNat s.toBlock).mem.poisoned.contains (a.toNat / 64 * 64) = true) ∧
   (∀ (s : State), s.toBlock.up = true →
     ∃ b', exec .ceHourWindow s = .next (s.put b') ∧ (s.toBlock.stale = true → b' = s.toBlock) ∧
       (s.toBlock.stale = false → ∀ c, c < 256 → b'.getFi F.MEM_CH_STAT_ce_hour c = 0) ∧
       (∀ c, b'.getFi F.MEM_CH_STAT_ce_total c = s.getFi F.MEM_CH_STAT_ce_total c))) ∧
  ((∀ (s : State) (src : BitVec 8) (r n : Nat) (data : Bytes) (tag : BitVec 64) (x : NbrRange), s.works →
     lentRange s.toBlock r = some x → n < x.size * 32768 → x.heir = none → x.state = 1 → x.source = none → x.module = src.toNat →
     exec (.nbrTierAccess src (.store r n data tag)) s = .next (s.put (rest { s.toBlock with
       mem := { s.mem with lentBlocks := tset s.mem.lentBlocks (2 ^ 40 * r + n) (padTo 64 data, tag) } }))) ∧
   (∀ (s : State) (src : BitVec 8) (r n : Nat) (x : NbrRange), s.works → lentRange s.toBlock r = some x → n < x.size * 32768 →
     x.heir = none → x.state = 1 → x.source = none → x.gap = false → x.module = src.toNat →
     let v := (tget s.mem.lentBlocks (2 ^ 40 * r + n)).getD (List.replicate 64 0, 0)
     exec (.nbrTierAccess src (.fetch r n)) s = .next (s.put (rest (sendMsg x.module 3 r (.block r n v.1 v.2) s.toBlock)))) ∧
   (∀ (s : State) (src : BitVec 8) (r : Nat) (x : NbrRange), s.works → lentRange s.toBlock r = some x →
     exec (.donorScrub src [r]) s = .next (s.put (rest (if x.module = src.toNat then { s.toBlock with
       mem := { s.mem with lentBlocks := s.mem.lentBlocks.filter fun e => decide (e.1 / 2 ^ 40 ≠ r) } } else s.toBlock)))) ∧
   (∀ (s : State) (r : BitVec 6) (n heir : Nat) (x : NbrRange), s.works → lentRange s.toBlock r.toNat = some x → x.heir = some heir →
     x.pos + n < x.size * 32768 →
     exec (.lendStream r n) s = .next (s.put (rest (updLent r.toNat (fun x => { x with pos := x.pos + n })
       (streamBlocks r.toNat heir n x.pos s.toBlock))))))

/-- MAP_FORM, MAP_PROPOSE and MAP_CLEAR (R319, R322, R332): outside a domain the lowest staged live member commits the
staged map as epoch 1; inside one `form` gives error 2; a proposal that R322 refuses leaves its code and changes
nothing else, any other begins a change; `clear` empties what is staged. From an aperture none of them does anything.
MAP_PREPARE, MAP_ACK, MAP_PREP_TIMEOUT, MAP_COMMIT and MAP_ABORT (R322, Table 13.9): a member of the domain holds a
live member's proposal of a later epoch that it agrees to, and acknowledges it; a refusal or the timeout ends the
change at its coordinator, and a reply counts towards its COMMIT; a held proposal is switched to at its COMMIT and
discarded at its ABORT; a COMMIT never prepared makes the module fetch the map. -/
def Obligations.MapIsFormedAndAgreed : Prop :=
  ((∀ (s : State), s.toBlock.up = true → s.toBlock.isSet F.CMP_ID_in_domain = true →
     exec (.mapForm .rtp) s = .next (s.put (rest (s.toBlock.setF F.CMP_STAT_err 2)))) ∧
   (∀ (s : State), s.toBlock.up = true → s.toBlock.isSet F.CMP_ID_in_domain = false →
     (liveIn s.cmp.stagedMembers).head? ≠ some (ownModule s.toBlock) →
     exec (.mapForm .rtp) s = .next (s.put (rest (s.toBlock.setF F.CMP_STAT_err 1)))) ∧
   (∀ (s : State), s.toBlock.up = true → s.toBlock.isSet F.CMP_ID_in_domain = false →
     (liveIn s.cmp.stagedMembers).head? = some (ownModule s.toBlock) →
     let live := liveIn s.cmp.stagedMembers
     let entries := formEntries s.cmp.staged live
     let empty : Block := { s.toBlock with cmp := { s.cmp with entries := [], members := [] } }
     let p : Proposal := ⟨1, entries, s.cmp.stagedMembers.filter fun e => decide (e.2.mstate = 1), dkVersion s.toBlock + 1⟩
     changeErr empty entries s.cmp.stagedMembers = 0 →
     exec (.mapForm .rtp) s = .next (s.put (rest (switchMap p (broadcast live (.mapCommit 1) (broadcast live (.prepare p) empty)))))) ∧
   (∀ (s : State), s.toBlock.up = true → exec (.mapPropose .rtp) s = .next (s.put (rest
     (if proposeErr s.toBlock = 0 then supersede s.cmp.staged s.cmp.stagedMembers s.toBlock
      else s.toBlock.setF F.CMP_STAT_err (proposeErr s.toBlock))))) ∧
   (∀ (s : State), s.toBlock.up = true → exec (.mapClear .rtp) s =
     .next (s.put { s.toBlock with cmp := { s.cmp with staged := [], stagedMembers := [] } })) ∧
   (∀ (s : State) (t : BitVec 12), s.toBlock.up = true → exec (.mapForm (.aperture t)) s = .next (s.put (rest s.toBlock)) ∧
     exec (.mapPropose (.aperture t)) s = .next (s.put (rest s.toBlock)) ∧ exec (.mapClear (.aperture t)) s = .next s)) ∧
  ((∀ (s : State) (src : BitVec 8) (p : Proposal), s.toBlock.up = true → s.toBlock.isSet F.CMP_ID_in_domain = true →
     s.cmp.badReplica = false →
     exec (.mapPrepare src p) s = .next (s.put (rest
       (if s.getF F.CMP_EPOCH_epoch < p.epoch ∧ liveMember s.toBlock src.toNat = true ∧ donorAgrees s.toBlock p = true then
         sendCtrl src.toNat (.ack p.epoch true) { s.toBlock with cmp := { s.cmp with held := some (src.toNat, p) } }
        else sendCtrl src.toNat (.ack p.epoch false) s.toBlock)))) ∧
   (∀ (s : State) (src : BitVec 8) (e : BitVec 32) (c : MapChange), s.toBlock.up = true → s.cmp.change = some c →
     c.committed = false → c.proposal.epoch = e.toNat →
     exec (.mapAck src e true) s = .next (s.put (rest (judgeChange (setChange (some { c with
       acks := if c.acks.contains src.toNat then c.acks else c.acks ++ [src.toNat] }) s.toBlock)))) ∧
     exec (.mapAck src e false) s = .next (s.put (rest (abortChange s.toBlock)))) ∧
   (∀ (s : State) (c : MapChange), s.toBlock.up = true → s.cmp.change = some c → c.committed = false →
     exec .mapPrepTimeout s = .next (s.put (rest (fire Src.cmpEvent ((setChange (if c.handovers = [] then none
       else some { c with committed := true })
       (broadcast (changeTargets s.toBlock c.proposal) (.mapAbort c.proposal.epoch) s.toBlock)).bump F.CMP_CNT_aborts))))) ∧
   (∀ (s : State) (src : BitVec 8) (e : BitVec 32) (m : Nat) (p : Proposal), s.toBlock.up = true → s.cmp.held = some (m, p) →
     p.epoch = e.toNat →
     exec (.mapCommit src e) s = .next (s.put (rest (switchMap p s.toBlock))) ∧
     exec (.mapAbort src e) s = .next (s.put (rest (fire Src.cmpEvent
       (Block.bump { s.toBlock with cmp := { s.cmp with held := none } } F.CMP_CNT_aborts))))) ∧
   (∀ (s : State) (src : BitVec 8) (e : BitVec 32), s.toBlock.up = true → s.cmp.held = none → s.getF F.CMP_EPOCH_epoch < e.toNat →
     exec (.mapCommit src e) s = .next (s.put (rest (sendCtrl src.toNat .fetchMap s.toBlock)))))

/-- RANGE_DRAINED and MAP_HANDOVER (R326): when the last request accepted before COMMIT has completed the old owner sends
HANDOVER, its sessions are scrubbed, and it serves no more; the new owner that awaits the range serves it from its
HANDOVER on. HEARTBEAT and PEER_UNREACHABLE (R318, R323): a heartbeat goes out on every Stoty port that is up and
joins a module; a module that no longer reaches more than half of the live members fences itself. -/
def Obligations.RangesAndPeers : Prop :=
  ((∀ (s : State) (e : RangeEntry), s.works → departingRange s.toBlock = true → drainCount s.toBlock = 0 →
     servedEntry s.toBlock = some e → tandemOn s.toBlock = false →
     let base := s.cmp.range.getD 0
     let told := tellCoordinator base ((sendCtrl e.owner (.handover base) s.toBlock).bump F.CMP_CNT_handovers)
     let clean := told.ses.slots.foldl (fun b e => if e.2.state = ssScrubbing then b else enterScrubbing e.1 b) told
     exec .rangeDrained s = .next (s.put (rest (takeRange (fun _ => 0) { clean with cmp := { clean.cmp with serving := false } })))) ∧
   (∀ (s : State) (src : BitVec 8) (base : BitVec 43), s.toBlock.up = true → s.toBlock.isSet F.CMP_ID_coordinator = false →
     s.mem.lent = [] → s.cmp.awaiting = true → s.cmp.range = some base.toNat → s.tdm.kept = none →
     ((entryAtBase s.cmp.entries 1 base.toNat).any fun e => decide (e.owner = ownModule s.toBlock)) = true →
     exec (.mapHandover src base) s = .next (s.put (rest (startServing (clearDeparting base.toNat
       (s.toBlock.bump F.CMP_CNT_handovers))))))) ∧
  ((∀ (s : State), s.toBlock.up = true → ∃ b', exec .heartbeat s = .next (s.put b') ∧
      b'.link.sent = s.link.sent ++ stotyPorts.filterMap (fun p => if portUp s.toBlock p then
        (peerModule s.toBlock p).map fun m =>
          ⟨m, clsCtrl, .heartbeat, p, (portOf s.toBlock p).linkKey, (portOf s.toBlock p).next⟩ else none) ∧
      b'.flds = s.flds ∧ b'.ses = s.ses ∧ b'.cmp = s.cmp ∧
      (∀ p ∈ stotyPorts, portUp s.toBlock p = true → (peerModule s.toBlock p).isSome = true →
        (portOf b' p).next = (portOf s.toBlock p).next + 1)) ∧
   (∀ (s : State) (m : BitVec 8), s.toBlock.up = true → s.cmp.unreachable.contains m.toNat = false →
     let b := tandemMemberLost m.toNat { s.toBlock with cmp := { s.cmp with unreachable := s.cmp.unreachable ++ [m.toNat] } }
     (liveMember b m.toNat = false → exec (.peerUnreachable m) s = .next (s.put (rest b))) ∧
     (liveMember b m.toNat = true → b.isSet F.CMP_ID_isolated = false →
       2 * ((liveMembers b).filter fun n => !b.cmp.unreachable.contains n).length ≤ (liveMembers b).length →
       exec (.peerUnreachable m) s = .next (s.put (rest (isolate b))))) ∧
   (∀ (s : State) (m : BitVec 8), s.toBlock.up = true → s.cmp.unreachable.contains m.toNat = true →
     exec (.peerUnreachable m) s = .next (s.put (rest s.toBlock))))

/-- PORT_ENABLE, PORT_RETRAIN and TRAINING_RETRY (R313, R453): an enabled port whose reference clock is good starts its
training, one without it stays down; a retrain counts and trains again; a port that is disabled goes down.
TRAINING_STAGE_DONE, CAPABILITY_BLOCK, LINK_HANDSHAKE and LINK_UP (R312 to R314, R362, Table 13.3): the stages follow
each other; with three good lanes or fewer the port goes down with error 2; blocks that mark no common version stop it
with error 3; a peer that the RTP, once it is ready, refuses stops it with error 4; after order 8 it is up, or
degraded with fewer than eight good lanes. -/
def Obligations.PortsTrain : Prop :=
  ((∀ (s : State) (v : BitVec 64) (p : Nat), s.toBlock.up = true → p = s.getF F.FLL_PORT_SEL_port → p < 4 →
     s.getFi F.FLL_PORT_CTRL_enable p = 0 → v.toNat.testBit 0 = true → clockOk s.toBlock p = true →
     ∃ b', exec (.portEnable .mgmt false v) s = .next (s.put (rest b')) ∧ b'.getFi F.FLL_PORT_STAT_state p = psTraining ∧
       b'.getFi F.FLL_PORT_CTRL_enable p = 1 ∧ (portOf b' p).stage = 2 ∧ (portOf b' p).spare = 8 ∧ b'.ses = s.ses) ∧
   (∀ (s : State) (v : BitVec 64) (p : Nat), s.toBlock.up = true → p = s.getF F.FLL_PORT_SEL_port → p < 4 →
     s.getFi F.FLL_PORT_CTRL_enable p = 1 → v.toNat.testBit 0 = true → v.toNat.testBit 1 = true →
     s.getFi F.FLL_PORT_STAT_state p ≠ psError → clockOk s.toBlock p = true →
     ∃ b', exec (.portRetrain .mgmt false v) s = .next (s.put (rest b')) ∧ b'.getFi F.FLL_PORT_STAT_state p = psTraining ∧
       (portOf b' p).stage = 2 ∧
       b'.getFi F.FLL_PORT_CNT_retrains p = min (s.getFi F.FLL_PORT_CNT_retrains p + 1) (2 ^ F.FLL_PORT_CNT_retrains.width - 1)) ∧
   (∀ (s : State) (v : BitVec 64) (p : Nat), s.toBlock.up = true → p = s.getF F.FLL_PORT_SEL_port → p < 4 →
     s.getFi F.FLL_PORT_CTRL_enable p = 1 → v.toNat.testBit 0 = false →
     ∃ b', exec (.portEnable .mgmt false v) s = .next (s.put (rest b')) ∧ b'.getFi F.FLL_PORT_STAT_state p = psDown ∧
       b'.getFi F.FLL_PORT_CTRL_enable p = 0) ∧
   (∀ (s : State) (p : Nat), s.toBlock.up = true → p < numPorts → s.getFi F.FLL_PORT_CTRL_enable p = 1 →
     s.getFi F.FLL_PORT_STAT_state p = psDown →
     exec (.trainingRetry p) s = .next (s.put (rest (startTraining p s.toBlock))))) ∧
  ((∀ (s : State) (p : Nat) (l : BitVec 9), s.toBlock.up = true → p < numPorts →
     let x := portOf s.toBlock p
     (x.stage = 2 → exec (.trainingStageDone p l) s = .next (s.put (rest (setPort p { x with stage := 3 }
       (s.toBlock.setFi F.FLL_PORT_STAT_lanes_bad p (511 - l.toNat)))))) ∧
     (x.stage = 3 → exec (.trainingStageDone p l) s = .next (s.put (rest (setPort p { x with stage := 4 } s.toBlock)))) ∧
     (x.stage = 4 → exec (.trainingStageDone p l) s = .next (s.put (rest
       (if (goodLanes s.toBlock p).length ≤ 3 then portStops p psDown 2 s.toBlock
        else setPort p { x with stage := 5 } (fixLanes p s.toBlock))))) ∧
     (x.stage = 5 → exec (.trainingStageDone p l) s = .next (s.put (rest (showPort p (.caps (capBlock s.toBlock p))
        (setPort p { x with stage := 6 } s.toBlock)))))) ∧
   (∀ (s : State) (p : Nat) (blk : Bytes), s.toBlock.up = true → p < numPorts → (portOf s.toBlock p).stage = 6 →
     let k := padTo 64 blk
     let own := s.getF (if 4 ≤ p then F.STL_CAPS_proto else F.FLL_CAPS_proto)
     let b := setPort p { portOf s.toBlock p with peer := k } s.toBlock
     exec (.capabilityBlock p blk) s = .next (s.put (rest (match (if bytesAt k 0 4 = 0x5041434C ∧
         bytesAt k 4 1 = (if 4 ≤ p then 1 else 0) then commonVersion (isStoty p) own (bytesAt k 5 1) else none) with
       | none => portStops p psError 3 b
       | some v => if 4 ≤ p then sayHello p (setPort p { portOf b p with stage := 7 } (b.setFi F.FLL_PORT_STAT_version p v))
          else setPort p { portOf b p with stage := 8 } (b.setFi F.FLL_PORT_STAT_version p v))))) ∧
   (∀ (s : State) (p : Nat) (c : PeerCert), s.toBlock.up = true → 4 ≤ p → p < numPorts → (portOf s.toBlock p).stage = 7 →
     exec (.linkHandshake p c) s = .next (s.put (rest
       (if s.rtp.ready = false then s.toBlock
        else if c.chainOk = false ∨ c.ownerDg ≠ keyDigest s.rtp.ownerKey ∨ c.conf ≠ s.rtp.conf then portStops p psError 4 s.toBlock
        else { s.toBlock with rtp := { s.rtp with queue := s.rtp.queue ++ [.handshake p c] } })))) ∧
   (∀ (s : State) (p : Nat), s.toBlock.up = true → p < numPorts → (portOf s.toBlock p).stage = 8 →
     let b := setPortState p (if 8 ≤ (goodLanes s.toBlock p).length then psUp else psDegraded)
       (setPort p { portOf s.toBlock p with stage := 0 } (s.toBlock.setFi F.FLL_PORT_STAT_up_s p (s.toBlock.now / 1000000000)))
     exec (.linkUp p) s = .next (s.put (rest (if 4 ≤ p then b else rereadLines b)))))

/-- FLIT_RECEIVE, LANE_SWAP_DONE and LOSS_OF_WIDTH (R311, R312): a clean flit changes nothing but its sender's sign of
life; one that fails is counted and replayed, and its sixteenth failure retrains the port; the spare takes the swapped
lane's traffic; a loss of width marks the lanes and retrains. FALOLO_SNOOP and STOTY_MESSAGE (R315 to R317): a snoop
brings the companion's write of the line (log entry 140), takes a line that is watched out of the shared state, and
changes nothing else; the next message of its pair and class is delivered, one that comes before its turn waits, one
delivered before is dropped. -/
def Obligations.PortsCarryTraffic : Prop :=
  ((∀ (s : State) (p : Nat) (f : FlitInfo), s.toBlock.up = true → p < numPorts → portUp s.toBlock p = true →
     peerModule s.toBlock p = none → f.corrPerBillion ≤ s.getFi F.FLL_PORT_CTRL_swap_thresh p →
     (f.fecOk = true → f.crcOk = true → exec (.flitReceive p f) s = .next (s.put (rest s.toBlock))) ∧
     (f.fecOk = true → f.crcOk = false → f.sixteenth = false →
       exec (.flitReceive p f) s = .next (s.put (rest (s.toBlock.bumpFi F.FLL_PORT_CNT_replays p 1)))) ∧
     (f.fecOk = false → f.sixteenth = true → exec (.flitReceive p f) s = .next (s.put (rest (retrain p
       ((s.toBlock.bumpFi F.FLL_PORT_CNT_fec_uncorr p 1).bumpFi F.FLL_PORT_CNT_replays p 1)))))) ∧
   (∀ (s : State) (p l : Nat), s.toBlock.up = true → p < numPorts → (portOf s.toBlock p).swapping = some l →
     exec (.laneSwapDone p) s = .next (s.put (rest ((setPort p { portOf s.toBlock p with swapping := none }
       (s.toBlock.setFi F.FLL_PORT_STAT_spare_for p l)).bumpFi F.FLL_PORT_CNT_lane_swaps p 1)))) ∧
   (∀ (s : State) (p : Nat) (good : BitVec 9), s.toBlock.up = true → p < numPorts → portUp s.toBlock p = true →
     exec (.lossOfWidth p good) s = .next (s.put (rest (retrain p
       ((List.range 9).foldl (fun b l => if good.toNat.testBit l then b else markLane p l b) s.toBlock)))))) ∧
  ((∀ (s : State) (a : BitVec 52) (bytes : Bytes), s.toBlock.up = true →
     exec (.faloloSnoop a bytes) s = .next (s.put { s.toBlock with
       cmem := cellWrite s.cmem a.toNat (bytes.take (64 - a.toNat % 64)),
       link := { s.link with
         shared := s.link.shared.filter fun n => decide (watchedLine s.toBlock n ≠ some (a.toNat / 64)) } })) ∧
   (∀ (s : State) (a : BitVec 52) (bytes : Bytes), s.toBlock.up = false →
     exec (.faloloSnoop a bytes) s = .next (s.put { s.toBlock with
       cmem := cellWrite s.cmem a.toNat (bytes.take (64 - a.toNat % 64)) })) ∧
   (∀ (s : State) (src : BitVec 8) (cls : BitVec 3) (stream seq : Nat) (pl : Bytes), s.toBlock.up = true → cls.toNat < 5 →
     portsTo s.toBlock src.toNat ≠ [] →
     let key := 8 * src.toNat + cls.toNat
     let next := tgetD s.link.expect key 0
     (seq = next → s.link.early = [] → exec (.stotyMessage src cls stream seq pl) s = .next (s.put (rest
       (deliverEarly src.toNat cls.toNat 1 (deliver ⟨src.toNat, cls.toNat, seq, pl⟩
         { s.toBlock with link := { s.link with expect := tset s.link.expect key (seq + 1) } }))))) ∧
     (next < seq → s.link.early = [] → exec (.stotyMessage src cls stream seq pl) s = .next (s.put (rest
       { s.toBlock with link := { s.link with early := [⟨src.toNat, cls.toNat, seq, pl⟩] } }))) ∧
     (seq < next → exec (.stotyMessage src cls stream seq pl) s = .next (s.put (rest s.toBlock)))))

/-- TDM_RESTORE, TDM_FOLLOW, TDM_CK_RESTORE and RESTORE_COMPLETE (R380, R384, R390, R391): a copy that R380 admits begins
to load; with none to be had the command ends with error 3; the load ends with the copy's sessions in the module and
the command done. TDM_RESTORE_ONE, TDM_CKPT and TDM_RELEASE (R378, R385, R386): a session in QUARANTINE that a valid
copy holds goes back to IN_MOTION with a restore of class 1, and nothing else is loaded; a checkpoint of the pool's
descriptor begins; the copy kept for a source is dropped. -/
def Obligations.CopiesAreLoaded : Prop :=
  ((∀ (s : State) (v : BitVec 64) (c : TandemCopy), TdmReady s v 1 → restoreErr (tdmNoted s v) c = 0 →
     exec (.tdmRestore .mgmt v (some c)) s =
       .next (s.put (rest (tdmState 1 { tdmNoted s v with tdm := { s.tdm with loading := some (c, none) } })))) ∧
   (∀ (s : State) (v : BitVec 64), TdmReady s v 1 → s.tdm.kept = none →
     exec (.tdmRestore .mgmt v none) s = .next (s.put (rest (tdmError 3 (tdmNoted s v))))) ∧
   (∀ (s : State) (v : BitVec 64) (k : KeptCopy), TdmReady s v 2 → s.tdm.kept = some k → k.source = bitsOf v.toNat 8 8 →
     k.valid = true → restoreErr (tdmNoted s v) k.copy = 0 →
     exec (.tdmFollow .mgmt v) s = .next (s.put (rest (tdmState 1 { tdmNoted s v with
       tdm := { s.tdm with kept := some { k with follow := true }, loading := some (k.copy, none) } })))) ∧
   (∀ (s : State) (v : BitVec 64) (slots : List CkptFound) (b : Block) (c : TandemCopy), TdmReady s v 3 →
     (tdmPool (tdmNoted s v)).isSome = true → chooseCkpt slots (tdmNoted s v) = (b, .ok c) →
     restoreErr b { c with requests := [] } = 0 →
     exec (.tdmCkRestore .mgmt v slots) s =
       .next (s.put (rest (tdmState 1 { b with tdm := { b.tdm with loading := some ({ c with requests := [] }, none) } })))) ∧
   (∀ (s : State) (c : TandemCopy), s.works → s.tdm.loading = some (c, none) → (s.tdm.kept.map (·.follow)).getD false = false →
     exec (.restoreComplete []) s = .next (s.put (rest (loadCopy c
       ((tdmState 2 { s.toBlock with tdm := { s.tdm with loading := none } }).bump F.TDM_CNT_restores)))))) ∧
  ((∀ (s : State) (v : BitVec 64) (sid : Nat) (x : Session) (y : CopySession), TdmReady s v 4 →
     sid = hSlot (s.getF F.TDM_HANDLE_handle) → session s.toBlock sid = some x → handleOf sid x = s.getF F.TDM_HANDLE_handle →
     x.state = ssQuarantine → x.motion = none → tandemValid s.toBlock = true → tget s.tdm.sent.sessions sid = some y →
     y.gen = x.gen → y.tenant = x.tenant →
     exec (.tdmRestoreOne .mgmt v []) s = .next (s.put (rest (orderMotion sid .restore 1 (restoredDepth s.tdm.sent sid y).1 0 none
       (updSession sid (fun x => { x with state := ssMotion })
         (tdmState 1 { tdmNoted s v with tdm := { s.tdm with loading := some (s.tdm.sent, some sid) } })))))) ∧
   (∀ (s : State) (v : BitVec 64), TdmReady s v 4 → session s.toBlock (hSlot (s.getF F.TDM_HANDLE_handle)) = none →
     exec (.tdmRestoreOne .mgmt v []) s = .next (s.put (rest (tdmError 3 (tdmNoted s v))))) ∧
   (∀ (s : State) (v : BitVec 64) (d : PoolDesc), TdmReady s v 5 → s.tdm.ckpt = none → tdmPool (tdmNoted s v) = some d →
     exec (.tdmCkpt .mgmt v) s = .next (s.put (rest (match beginCkpt d none (tdmNoted s v) with
       | none => tdmError 3 (tdmNoted s v)
       | some b => tdmState 1 b)))) ∧
   (∀ (s : State) (v : BitVec 64) (k : KeptCopy), TdmReady s v 6 → s.tdm.kept = some k → k.source = bitsOf v.toNat 8 8 →
     exec (.tdmRelease .mgmt v) s =
       .next (s.put (rest (tdmState 2 { tdmNoted s v with tdm := { s.tdm with kept := none } })))) ∧
   (∀ (s : State) (v : BitVec 64), s.works → 1 ≤ bitsOf v.toNat 0 3 → bitsOf v.toNat 0 3 ≤ 6 → s.getF F.TDM_CMD_state = 1 →
     exec (.tdmCkpt .mgmt v) s = .next (s.put (rest ((tdmNoted s v).setF F.TDM_CMD_err 5)))))

/-- SPOKE_TEST_ROTATE, TEST_NOW, LANE_TEST_ROTATE, HUB_TEST_ROTATE and CHANNEL_TEST_ROTATE (R10, R13, R393, R395): once
its period has run out in host time, which starts it again, the oldest-tested Spoke of a wheel with a spare drains; a
lane drains as its traffic moves to the spare; a hub partition and one channel of a stack come under test. Before
that, or while the time line is stale, nothing happens. The Spoke that `test_now` selects drains at once.
BIST_COMPLETE, BIST_OVERDUE and FUSE_COMMIT (R394 to R397): a Spoke that passes is a SPARE, or takes service on a
wheel with fewer than 64, and one that fails is FAILED; a lane that passes is the spare; a hub partition that fails
stays out; a Spoke not tested for 6 h of host time is overdue; patches are turned into fuse repairs as far as the
budget goes. -/
def Obligations.SlicesAreTested : Prop :=
  ((∀ (s : State) (w : BitVec 2) (i : Nat), s.toBlock.up = true → 64 < healthySpokes s.toBlock w.toNat →
     lowestSpare s.toBlock w.toNat ≠ none → wheelIn s.toBlock w.toNat spTest + wheelIn s.toBlock w.toNat spDraining = 0 →
     oldestTested s.toBlock w.toNat = some i →
     exec (.spokeTestRotate w) s = .next (s.put (rest
       (if periodOver s.toBlock (spokePeriod w.toNat) (min 0x13D (s.getF F.BRP_CFG_spoke_period_s)) = true then
         drainSpoke i (periodStarts (spokePeriod w.toNat) s.toBlock) else s.toBlock)))) ∧
   (∀ (s : State), s.toBlock.up = true → s.getF F.SPK_SEL_spoke < numSpokes →
     exec (.testNow .mgmt) s = .next (s.put (rest (drainSpoke (s.getF F.SPK_SEL_spoke) s.toBlock)))) ∧
   (∀ (s : State) (p l : Nat), s.toBlock.up = true → p < numPorts → l < numLanes → s.getFi F.FLL_PORT_STAT_state p = psUp →
     (portOf s.toBlock p).drained = none → (portOf s.toBlock p).swapping = none → (goodLanes s.toBlock p).contains l = true →
     l ≠ (portOf s.toBlock p).spare → spareFree s.toBlock p = true →
     exec (.laneTestRotate p l) s = .next (s.put (rest
       (if periodOver s.toBlock (lanePeriod p) (s.getF F.BRP_CFG_lane_period_s) = true then
         periodStarts (lanePeriod p) (setPort p { portOf s.toBlock p with drained := some l, swapping := some l } s.toBlock)
        else s.toBlock)))) ∧
   (∀ (s : State) (n : Nat), s.toBlock.up = true → n < numHubParts → hubTestable s.toBlock n = true →
     exec (.hubTestRotate n) s = .next (s.put (rest
       (if periodOver s.toBlock hubPeriod (s.getF F.BRP_CFG_hub_period_s) = true then
         periodStarts hubPeriod { s.toBlock with brp := { s.brp with hubTest := some n } } else s.toBlock)))) ∧
   (∀ (s : State) (c : BitVec 8), s.toBlock.up = true → (s.brp.channels.any fun d => decide (d / 32 = c.toNat / 32)) = false →
     exec (.channelTestRotate c) s = .next (s.put (rest
       (if periodOver s.toBlock (channelPeriod c.toNat) (s.getF F.BRP_CFG_chan_period_s) = true then
         periodStarts (channelPeriod c.toNat) { s.toBlock with brp := { s.brp with channels := s.brp.channels ++ [c.toNat] } }
        else s.toBlock)))) ∧
   (∀ (s : State) (key seconds : Nat), periodOver s.toBlock key seconds = true ↔
     s.toBlock.stale = false ∧ tgetD s.brp.periods key 0 + max 1 seconds * 1000000000 ≤ s.toBlock.now) ∧
   (∀ (s : State) (key : Nat), (periodStarts key s.toBlock).brp.periods = tset s.brp.periods key s.toBlock.now)) ∧
  ((∀ (s : State) (i : Nat) (patched : Bool), s.toBlock.up = true → i < numSpokes → spkState s.toBlock i = spTest →
     ∃ b', exec (.bistComplete (.spoke i) false patched) s = .next (s.put (rest (autoCkpt 2 b'))) ∧
       spkState b' i = spFailed ∧ spoke b' i = Spoke.reset ∧ tget b'.brp.tested i = some s.toBlock.now ∧ b'.ses = s.ses) ∧
   (∀ (s : State) (i : Nat), s.toBlock.up = true → i < numSpokes → spkState s.toBlock i = spTest →
     ∃ b', exec (.bistComplete (.spoke i) true false) s = .next (s.put (rest (fillWheel (i / 68) b'))) ∧
       spkState b' i = spSpare ∧ spoke b' i = Spoke.reset ∧ tget b'.brp.tested i = some s.toBlock.now ∧ b'.ses = s.ses) ∧
   (∀ (s : State) (p l : Nat), s.toBlock.up = true → p < numPorts → l < numLanes → (portOf s.toBlock p).drained = some l →
     (portOf s.toBlock p).swapping = none →
     ∃ b', exec (.bistComplete (.lane p l) true false) s = .next (s.put (rest b')) ∧ (portOf b' p).spare = l ∧
       (portOf b' p).drained = none ∧ b'.getFi F.FLL_PORT_STAT_spare_for p = 15) ∧
   (∀ (s : State) (n : Nat), s.toBlock.up = true → n < numHubParts → s.brp.hubTest = some n →
     ∃ b', exec (.bistComplete (.hub n) false false) s = .next (s.put (rest b')) ∧ b'.brp.hubOut = s.brp.hubOut ++ [n] ∧
       b'.brp.hubTest = none) ∧
   (∀ (s : State) (i : Nat), s.toBlock.up = true → i < numSpokes → s.toBlock.stale = false → spkState s.toBlock i ≠ spFailed →
     tgetD s.brp.tested i 0 + 21600000000000 < s.toBlock.now → s.brp.overdue.contains i = false →
     exec (.bistOverdue i) s = .next (s.put (rest (setLevel Src.bistOverdue true
       { s.toBlock with brp := { s.brp with overdue := s.brp.overdue ++ [i] } })))) ∧
   (∀ (s : State), s.toBlock.up = true → ∃ b', exec (.fuseCommit .mgmt) s = .next (s.put (rest
       (if fuseLow b' = true ∧ s.intr.levels.contains Src.fuseLow = false then autoCkpt 4 b' else b'))) ∧
     (∀ k, k < 3 → ∀ n u, s.brp.patches[k]? = some n → s.brp.fusesUsed[k]? = some u →
       b'.brp.patches[k]? = some (n - min n (Config.fuseBudget k - u)) ∧
       b'.brp.fusesUsed[k]? = some (u + min n (Config.fuseBudget k - u))) ∧ b'.ses = s.ses))

/-- FW_SWAP_LOAD_DONE, FW_SWAP_SWITCH, FW_SWAP_ACCEPT and FW_SWAP_TIMEOUT (R398): a swap that loads stops dispatch; with
no peloton in flight the new image starts; it runs once it accepts the state block, and with no answer the old one
resumes. RTP_STAGE, RTP_ACTIVATE and RTP_RATCHET (R357 to R359): an image that passes its checks stands in its
component's inactive slot, one that does not leaves its error; an activated image is the next boot's, or, of the step
engine's firmware, the live swap's; a ratchet takes the running image's version and never falls. -/
def Obligations.FirmwareIsManaged : Prop :=
  ((∀ (s : State), s.toBlock.up = true → s.getF F.BRP_STAT_swap = 1 →
     exec .fwSwapLoadDone s = .next (s.put (rest (s.toBlock.setF F.BRP_STAT_swap 2)))) ∧
   (∀ (s : State), s.toBlock.up = true → s.getF F.BRP_STAT_swap = 2 → (s.ste.pelotons.all fun e => decide (e.2.phase = .ready)) = true →
     exec .fwSwapSwitch s = .next (s.put (rest { s.toBlock with brp := { s.brp with switched := true } }))) ∧
   (∀ (s : State), s.toBlock.up = true → s.brp.switched = true → s.rtp.activeB.length = 3 → s.rtp.runB.length = 3 →
     s.rtp.running.length = 3 →
     ∃ b', exec .fwSwapAccept s = .next (s.put (rest b')) ∧ b'.brp.switched = false ∧ b'.getF F.BRP_STAT_swap = 0 ∧
       b'.rtp.runB[1]? = some (!activeIsB s.toBlock 1) ∧ b'.rtp.running[1]? = some (imageIn s.toBlock (!activeIsB s.toBlock 1) 1)) ∧
   (∀ (s : State), s.toBlock.up = true → s.brp.switched = true →
     exec .fwSwapTimeout s = .next (s.put (rest
       ((Block.setF { s.toBlock with brp := { s.brp with switched := false } } F.BRP_STAT_swap 3).bump F.BRP_CNT_swap_err))))) ∧
  ((∀ (s : State) (v : BitVec 64) (c : Nat), RtpReady s v 1 c → c < 3 → cmdReach s.toBlock 0 (64 * bitsOf v.toNat 32 24) = true →
     let img := s.peek (cmdAddr s.toBlock) (64 * bitsOf v.toNat 32 24)
     exec (.rtpStage .mgmt v) s = .next (s.put (rest (if imageErr s.toBlock c img = 0 then
       cmdEnds 0 (writeInactive c (slotOf img) s.toBlock) else cmdEnds (imageErr s.toBlock c img) s.toBlock)))) ∧
   (∀ (s : State) (v : BitVec 64) (c : Nat), RtpReady s v 2 c → c ≠ 1 → c < 3 → (inactiveSlot s.toBlock c).valid = true →
     exec (.rtpActivate .mgmt v) s = .next (s.put (rest (cmdEnds 0 { s.toBlock with
       rtp := { s.rtp with activeB := s.rtp.activeB.modify c (!·) } })))) ∧
   (∀ (s : State) (v : BitVec 64), RtpReady s v 2 1 → (inactiveSlot s.toBlock 1).valid = true → s.getF F.BRP_STAT_swap = 0 →
     ratchet s.toBlock 1 ≤ (inactiveSlot s.toBlock 1).svn →
     exec (.rtpActivate .mgmt v) s = .next (s.put (rest (cmdEnds 0 (s.toBlock.setF F.BRP_STAT_swap 1))))) ∧
   (∀ (s : State) (v : BitVec 64) (c : Nat), RtpReady s v 3 c → c < 3 →
     exec (.rtpRatchet .mgmt v) s = .next (s.put (rest (cmdEnds 0 { s.toBlock with rtp := { s.rtp with
       ratchets := s.rtp.ratchets.modify c fun r => max r (min 127 (runningImage s.toBlock c).svn) } })))) ∧
   (∀ (s : State) (v : BitVec 64) (cmd : Nat), RtpReady s v cmd 3 → 1 ≤ cmd → cmd ≤ 3 →
     exec (.rtpStage .mgmt v) s = .next (s.put (rest (cmdEnds 4 s.toBlock)))) ∧
   (∀ (s : State) (t : BitVec 12) (v : BitVec 64), s.toBlock.up = true →
     exec (.rtpStage (.aperture t) v) s = .next (s.put (rest s.toBlock))))

/-- TENANT_ACTIVATE, TENANT_RESTART and TENANT_AUTO_RESTART (Table 14.2, R334): the selected tenant that is ABSENT and has
a key becomes ACTIVE, a HELD one becomes ACTIVE again by command or after `restart_ms`; no aperture may command it.
TENANT_RESET, SESSION_SCRUB_DONE and SCRUB_COMPLETE (R338, R370, Table 14.4, row 22 of Table 2.5): a reset of a tenant
whose shared image another uses is refused; any other begins with the state RESETTING and ends with ABSENT; a scrubbed
slot with no owned items left is FREE, last in its order. -/
def Obligations.TenantsAreActivatedAndReset : Prop :=
  ((∀ (s : State), s.toBlock.up = true →
     let t := s.getF F.MOD_TEN_SEL_tenant
     (s.getFi F.MOD_TEN_STAT_tstate t = tsAbsent → hasKey s.toBlock t = true →
       exec (.tenantActivate .mgmt) s = .next (s.put (rest (s.toBlock.setFi F.MOD_TEN_STAT_tstate t tsActive)))) ∧
     (s.getFi F.MOD_TEN_STAT_tstate t ≠ tsAbsent ∨ hasKey s.toBlock t = false →
       exec (.tenantActivate .mgmt) s = .next (s.put (rest s.toBlock))) ∧
     (s.getFi F.MOD_TEN_STAT_tstate t = tsHeld →
       exec (.tenantRestart .mgmt) s = .next (s.put (rest (s.toBlock.setFi F.MOD_TEN_STAT_tstate t tsActive))))) ∧
   (∀ (s : State) (t : BitVec 12) (ns : Nat), s.toBlock.up = true → s.getFi F.MOD_TEN_STAT_tstate t.toNat = tsHeld →
     s.getFi F.STE_TQ_SCHED_auto_restart t.toNat = 1 → s.toBlock.stale = false → tget s.ten.teardownNs t.toNat = some ns →
     ns + s.getFi F.STE_TQ_SCHED_restart_ms t.toNat * 1000000 ≤ s.toBlock.now →
     exec (.tenantAutoRestart t) s = .next (s.put (rest (s.toBlock.setFi F.MOD_TEN_STAT_tstate t.toNat tsActive)))) ∧
   (∀ (s : State) (t : BitVec 12), s.toBlock.up = true →
     exec (.tenantActivate (.aperture t)) s = .next (s.put (rest s.toBlock)) ∧
     exec (.tenantRestart (.aperture t)) s = .next (s.put (rest s.toBlock)) ∧
     exec (.tenantReset (.aperture t)) s = .next (s.put (rest s.toBlock)))) ∧
  ((∀ (s : State), s.toBlock.up = true →
     let b := s.toBlock
     let t := b.getF F.MOD_TEN_SEL_tenant
     (tenantState b t = tsActive ∨ tenantState b t = tsHeld) →
     (resetRefused b t = true → exec (.tenantReset .mgmt) s = .next (s.put (rest (b.setFi F.MOD_TEN_STAT_reset_refused t 1)))) ∧
     (resetRefused b t = false →
       let b1 := b.setFi F.MOD_TEN_STAT_tstate t tsResetting
       let b2 := { b1 with ten := { b1.ten with tearing := tdel b1.ten.tearing t, resetting := b1.ten.resetting ++ [t] } }
       let b3 := setSaved (b2.spk.saved.filter fun c => decide (c.tenant ≠ t)) b2
       exec (.tenantReset .mgmt) s = .next (s.put (rest (settleResets (dropTenantChains t
         ([0, 1, 2, 3, 4, 5, 6, 7].foldl (fun b k => resetPeloton t k b) b3))))))) ∧
   (∀ (s : State) (sid : Nat) (x : Session), s.toBlock.up = true → sid < numSlots → session s.toBlock sid = some x →
     x.state = ssScrubbing → x.vecItems = 0 → x.moveOut = none →
     exec (.sessionScrubDone sid) s = .next (s.put (rest { s.toBlock with
       ses := { s.ses with slots := tdel s.ses.slots sid, freed := s.ses.freed ++ [(sid, x.gen)] } }))) ∧
   (∀ (s : State) (t : BitVec 12), s.toBlock.up = true → tenantState s.toBlock t.toNat = tsResetting →
     s.ten.resetting.contains t.toNat = false → (s.ses.slots.any fun e => decide (e.2.tenant = t.toNat ∧ e.2.vecItems ≠ 0)) = false →
     ∃ b', exec (.scrubComplete t) s = .next (s.put (rest b')) ∧ tenantState b' t.toNat = tsAbsent ∧
       b'.getFi F.PMC_E_TEN_energy_uj t.toNat = 0 ∧ b'.getFi F.MOD_TEN_STAT_reset_refused t.toNat = 0 ∧
       b'.getFi F.MOD_TEN_STAT_last_fault t.toNat = 0))

/-- CLAIM (R360): while no owner is set the key in the buffer becomes the owner's and ratchet 3 advances; with an owner
the command ends with error 4 and changes nothing else. The owner commands (R360, R361): each, with its checks met,
sets the overlay key, clears confidential mode for the next boot, gives the ownership up, opens debug, writes the
domain keys under the owner's key, or takes an imported one; with a check failed it is refused and logged; either way
the nonce is a new one. TENANT_KEY and DK_ROTATE (R356, R370): an ABSENT tenant without a key gets one of version 1;
the coordinator's domain key changes by a map change that carries its next version; in any other case the command ends
with error 4. -/
def Obligations.OwnerAndKeys : Prop :=
  (∀ (s : State) (v : BitVec 64) (c : Nat), RtpReady s v 4 c →
     (s.rtp.ownerKey = none → cmdReach s.toBlock 0 (64 * bitsOf v.toNat 32 24) = true →
       exec (.claim .mgmt v) s = .next (s.put (rest (cmdEnds 0 { s.toBlock with rtp := { s.rtp with
         ownerKey := some (derOf (s.peek (cmdAddr s.toBlock) (64 * bitsOf v.toNat 32 24)))
         ratchets := s.rtp.ratchets.modify 3 fun r => min 127 (r + 1) } })))) ∧
     (s.rtp.ownerKey ≠ none → exec (.claim .mgmt v) s = .next (s.put (rest (cmdEnds 4 s.toBlock))))) ∧
  (∀ (s : State) (v : BitVec 64) (owner arg : Bytes),
     let b := s.toBlock
     (OwnerReady s v 1 owner arg → exec (.setOvlKey .mgmt v) s =
       .next (ownerOutcome s v owner 1 { b with rtp := { b.rtp with overlayKey := some (derOf arg) } })) ∧
     (OwnerReady s v 2 owner arg → exec (.confOpen .mgmt v) s =
       .next (ownerOutcome s v owner 2 { b with rtp := { b.rtp with confNext := false } })) ∧
     (OwnerReady s v 3 owner arg → b.rtp.confNext = false → exec (.ownerRelease .mgmt v) s =
       .next (ownerOutcome s v owner 3 { b with rtp := { b.rtp with ownerKey := none, overlayKey := none } })) ∧
     (OwnerReady s v 4 owner arg → b.rtp.conf = false → exec (.debugUnlock .mgmt v) s =
       .next (ownerOutcome s v owner 4 { b with rtp := { b.rtp with debugOpen := true } })) ∧
     (OwnerReady s v 5 owner arg → cmdReach b 4096 (exportBytes b owner).length = true → exec (.dkExport .mgmt v) s =
       .next (ownerOutcome s v owner 5 (b.pokeBytes (cmdAddr b + 4096) (exportBytes b owner)))) ∧
     (OwnerReady s v 6 owner arg → exec (.dkImport .mgmt v) s =
       match Config.unwrap Config.identityKey ((arg.drop 4).take 384) with
       | some k => .next (ownerOutcome s v owner 6 { b with rtp := { b.rtp with dkImp := some (bytesAt arg 0 4, k) } })
       | none => .next (s.put (rest (drawNonce (if ownerErr b owner (s.peek (cmdAddr b) (64 * bitsOf v.toNat 32 24)) = 0 then
           cmdEnds 4 (violation 10 mgmtTenant 0 6 b)
         else cmdEnds (ownerErr b owner (s.peek (cmdAddr b) (64 * bitsOf v.toNat 32 24))) (violation 10 mgmtTenant 0 6 b))))))) ∧
  ((∀ (s : State) (v : BitVec 64) (c : Nat), RtpReady s v 6 c →
     let t := bitsOf v.toNat 8 12
     (tenantState s.toBlock t = tsAbsent → hasKey s.toBlock t = false →
       exec (.tenantKey .mgmt v) s = .next (s.put (rest (cmdEnds 0 { s.toBlock with
         fresh := s.fresh + 1, mem := { s.mem with keys := tset s.mem.keys t ⟨1, 0, 0, s.fresh, 0⟩ } })))) ∧
     (tenantState s.toBlock t ≠ tsAbsent ∨ hasKey s.toBlock t = true →
       exec (.tenantKey .mgmt v) s = .next (s.put (rest (cmdEnds 4 s.toBlock))))) ∧
   (∀ (s : State) (v : BitVec 64) (c : Nat), RtpReady s v 7 c →
     let b := s.toBlock
     let may := b.isSet F.CMP_ID_in_domain = true ∧ b.isSet F.CMP_ID_coordinator = true ∧ b.isSet F.CMP_ID_isolated = false ∧
       b.cmp.change = none ∧ b.getF F.CMP_EPOCH_epoch ≠ 0xFFFFFFFF
     (may → exec (.dkRotate .mgmt v) s = .next (s.put (rest (cmdEnds 0
       (startChange ⟨b.getF F.CMP_EPOCH_epoch + 1, [], [], dkVersion b + 1⟩ [] b))))) ∧
     (¬may → exec (.dkRotate .mgmt v) s = .next (s.put (rest (cmdEnds 4 b))))))

/-- REPORT_REQUEST, SEAL and RTP_OP_COMPLETE (R362 to R366): a request whose buffer the caller reaches waits in the RTP's
queue, a seal closing its ring's batch at once; a buffer outside the windows ends with error 1, a ring of another
tenant with 2, an ABSENT tenant with 3. The operation served is a handshake first, which gives its port the link key
of R362, else the oldest: a report is written 64 bytes past the nonce it answers, a statement at the buffer and
remembered as the ring's previous one. -/
def Obligations.ReportsAndSeals : Prop :=
  (∀ (s : State) (who : Caller) (v : BitVec 64), RtpIdle s who v 1 →
    exec (.reportRequest who v) s = .next (s.put
      (if inOneWindow (ioWindows s.toBlock who.tenant?) (reqAddr s.toBlock who) (64 + 2 ^ 18) = false then
        reqFails who 1 s.toBlock
      else match reportScope who v.toNat with
        | some t => if tenantState s.toBlock t = tsAbsent then reqFails who 3 s.toBlock
            else enqueueOp who (.report who (reqAddr s.toBlock who) (some t)) s.toBlock
        | none => enqueueOp who (.report who (reqAddr s.toBlock who) none) s.toBlock))) ∧
  (∀ (s : State) (who : Caller) (v : BitVec 64), RtpIdle s who v 2 →
    let ring := bitsOf v.toNat 16 16
    exec (.sealBatch who v) s = .next (s.put
      (if inOneWindow (ioWindows s.toBlock who.tenant?) (reqAddr s.toBlock who) 576 = false then reqFails who 1 s.toBlock
      else if ∃ t, who.tenant? = some t ∧ ringTenant s.toBlock ring ≠ t then reqFails who 2 s.toBlock
      else enqueueOp who
        (.statement who (reqAddr s.toBlock who) ring (statementHead s.toBlock ring (batchOf s.toBlock ring)))
        { s.toBlock with
          rtp := { s.rtp with batches := tset s.rtp.batches ring (nextBatch (batchOf s.toBlock ring)) } }))) ∧
  (∀ (s : State) (who : Caller) (v : BitVec 64), s.toBlock.up = true → s.getFi F.RTP_REQ_CMD_state who.inst = 1 →
    exec (.reportRequest who v) s = .next s ∧ exec (.sealBatch who v) s = .next s) ∧
  (∀ (s : State), s.toBlock.up = true → s.rtp.queue = [] → exec .rtpOpComplete s = .next s) ∧
  (∀ (s : State) (p : Nat) (c : PeerCert) (q1 q2 : List RtpOp), s.toBlock.up = true → s.rtp.queue = q1 ++ .handshake p c :: q2 →
    (∀ o ∈ q1, ∀ p' c', o ≠ .handshake p' c') → (portOf s.toBlock p).stage = 7 →
    let own := ownModule s.toBlock
    let peer := bytesAt (portOf s.toBlock p).peer 6 1
    let nonces := lowerFirst own peer (portOf s.toBlock p).nonce (padTo 32 c.nonce)
    ∃ b', exec .rtpOpComplete s = .next (s.put b') ∧ b'.rtp.queue = q1 ++ q2 ∧ (portOf b' p).stage = 8 ∧
      (portOf b' p).next = 0 ∧ b'.cmem = s.cmem ∧
      (own < peer → (portOf b' p).linkKey = kdf (padTo 32 (Config.keyBytes s.fresh)) "STOTY-LINK" nonces) ∧
      (¬own < peer → (portOf b' p).linkKey = kdf ((Config.unwrap (Config.akKey (akMeasurement s.toBlock)) c.secret).getD
        (padTo 32 (Config.keyBytes s.fresh))) "STOTY-LINK" nonces)) ∧
  (∀ (s : State) (who : Caller) (addr : Nat) (scope : Option Nat) (q : List RtpOp), s.toBlock.up = true →
    s.rtp.queue = .report who addr scope :: q → (∀ o ∈ q, ∀ p c, o ≠ .handshake p c) →
    let b := { s.toBlock with rtp := { s.rtp with queue := q } }
    exec .rtpOpComplete s = .next (s.put (rtpDone who (reqState who 2 0
      (b.pokeBytes (addr + 64) (reportBytes b scope (b.peek addr 32))))))) ∧
  (∀ (s : State) (who : Caller) (addr ring : Nat) (head : Bytes) (q : List RtpOp), s.toBlock.up = true →
    s.rtp.queue = .statement who addr ring head :: q → (∀ o ∈ q, ∀ p c, o ≠ .handshake p c) →
    let b := { s.toBlock with rtp := { s.rtp with queue := q } }
    exec .rtpOpComplete s = .next (s.put (rtpDone who (reqState who 2 0
      (chainStatement ring (signStatement b ring head) (b.pokeBytes addr (signStatement b ring head)))))))

/-- INT_CLAIM (R404): the running priority is that of the stack's top, or 64; a source is eligible when it is pending,
enabled, not active, routed to the target, and of a priority number below both the running priority and the threshold;
the presented source is the eligible one of lowest priority number, and among equals of lowest source number, and
there is none only where no source is eligible. A claim answers its number with `valid` 1, makes it active and stacks
it with its priority; with no eligible source it answers `valid` 0 and changes nothing. Claims keep the stack strictly
falling from 64, so that its 64 entries never overflow. -/
def Obligations.InterruptsArePresentedAndClaimed : Prop :=
  (∀ (b : Block) (t : Nat), runningPrio b t = ((intStack b t).head?.map (·.2)).getD 64) ∧
  (∀ (b : Block) (t : Nat) (x : IntSrc), eligible b t x = true ↔ x.pending = true ∧ x.active = false ∧ x.enable = true ∧
    x.target = t ∧ x.prio < runningPrio b t ∧ x.prio < b.getFi F.INT_TGT_STAT_threshold t) ∧
  (∀ (b : Block) (t : Nat), tsorted b.intr.srcs = true →
    (∀ n p, presented b t = some (n, p) → eligible b t (intSrc b n) = true ∧ (intSrc b n).prio = p ∧
      ∀ m, eligible b t (intSrc b m) = true → p < (intSrc b m).prio ∨ (p = (intSrc b m).prio ∧ n ≤ m)) ∧
    (presented b t = none → ∀ m, eligible b t (intSrc b m) = false)) ∧
  (∀ (s : State) (t : BitVec 4), s.toBlock.up = true → presented s.toBlock t.toNat = none →
    exec (.intClaim t) s = .next (s.put { s.toBlock with rdata := 0 })) ∧
  (∀ (s : State) (t : BitVec 4) (n p : Nat), s.toBlock.up = true → presented s.toBlock t.toNat = some (n, p) →
    ∃ b', exec (.intClaim t) s = .next (s.put b') ∧ b'.rdata = BitVec.ofNat 64 (n + 2 ^ 31) ∧
      intSrc b' n = { intSrc s.toBlock n with pending := false, active := true } ∧
      (∀ m, m ≠ n → intSrc b' m = intSrc s.toBlock m) ∧
      intStack b' t.toNat = (n, p) :: intStack s.toBlock t.toNat ∧
      (∀ u, u ≠ t.toNat → intStack b' u = intStack s.toBlock u) ∧
      (tsorted s.intr.srcs = true → stackFalls (intStack s.toBlock t.toNat) → stackFalls (intStack b' t.toNat)) ∧
      b'.intr.counters = s.intr.counters ∧ b'.ste = s.ste ∧ b'.ses = s.ses ∧ b'.fe = s.fe ∧ b'.mem = s.mem) ∧
  (∀ st : List (Nat × Nat), stackFalls st → st.length ≤ 64)

/-- INT_EOI (R405): an EOI of the source on top of the target's stack unstacks it and ends it, a level source whose
condition holds being pending again, and such a source is eligible at once under the new running priority; an EOI of
any other source, or with an empty stack, is ignored and counted. -/
def Obligations.InterruptsAreEnded : Prop :=
  (∀ (s : State) (t : BitVec 4) (v : BitVec 64) (n p : Nat) (st : List (Nat × Nat)), s.toBlock.up = true →
    bitsOf v.toNat 0 11 = n → intStack s.toBlock t.toNat = (n, p) :: st → isLevelSrc n = false →
    ∃ b', exec (.intEoi t v) s = .next (s.put b') ∧ intStack b' t.toNat = st ∧
      intSrc b' n = { intSrc s.toBlock n with active := false } ∧ (∀ m, m ≠ n → intSrc b' m = intSrc s.toBlock m) ∧
      (eligible b' t.toNat (intSrc b' n) = true ↔ (intSrc s.toBlock n).pending = true ∧ (intSrc s.toBlock n).enable = true ∧
        (intSrc s.toBlock n).target = t.toNat ∧ (intSrc s.toBlock n).prio < (st.head?.map (·.2)).getD 64 ∧
        (intSrc s.toBlock n).prio < s.getFi F.INT_TGT_STAT_threshold t.toNat) ∧
      b'.ste = s.ste ∧ b'.ses = s.ses ∧ b'.fe = s.fe) ∧
  (∀ (s : State) (t : BitVec 4) (v : BitVec 64) (n p : Nat) (st : List (Nat × Nat)), s.toBlock.up = true →
    bitsOf v.toNat 0 11 = n → intStack s.toBlock t.toNat = (n, p) :: st → isLevelSrc n = true →
    s.getF F.INT_CFG_storm_n = 0 →
    ∃ b', exec (.intEoi t v) s = .next (s.put b') ∧ intStack b' t.toNat = st ∧ (intSrc b' n).active = false ∧
      (intSrc b' n).pending = s.intr.levels.contains n ∧ (∀ m, m ≠ n → intSrc b' m = intSrc s.toBlock m)) ∧
  (∀ (s : State) (t : BitVec 4) (v : BitVec 64), s.toBlock.up = true →
    (intStack s.toBlock t.toNat).head?.map (·.1) ≠ some (bitsOf v.toNat 0 11) →
    exec (.intEoi t v) s = .next (s.put (s.toBlock.bump F.INT_STAT_eoi_err)))

/-- INT_SRC_CONFIG and INT_SOFT (R400, R401, R410): a configuration sets a source's enable, target and priority; a soft
write makes its source pending, or in STANDBY is latched for the wake. No other source changes. SYNC_CNT_WRITE,
SYNC_OWN_WRITE and WATCH_ARM (R412 to R414): a write sets a counter, and with no request or armed watch slot waiting
on it that is all; an owner field changes the owner of its group unless the group is waited on; a watch slot takes its
counter and comparison, fires at once if armed while its condition holds, and else stays armed as written. -/
def Obligations.SourcesAndCounters : Prop :=
  ((∀ (s : State) (n : BitVec 11) (v : BitVec 64), s.toBlock.up = true →
     ∃ b', exec (.intSrcConfig n v) s = .next (s.put b') ∧
       intSrc b' n.toNat = { intSrc s.toBlock n.toNat with
         enable := v.getLsbD 0, target := bitsOf v.toNat 4 4, prio := bitsOf v.toNat 8 6 } ∧
       (∀ m, m ≠ n.toNat → intSrc b' m = intSrc s.toBlock m)) ∧
   (∀ (s : State) (v : BitVec 64), s.toBlock.up = true → s.getF F.PMC_STAT_pstate ≠ pstateStandby →
     ∃ b', exec (.intSoft v) s = .next (s.put b') ∧ (intSrc b' (0x700 + bitsOf v.toNat 0 8)).pending = true ∧
       (∀ m, m ≠ 0x700 + bitsOf v.toNat 0 8 → intSrc b' m = intSrc s.toBlock m)) ∧
   (∀ (s : State) (v : BitVec 64), s.toBlock.up = true → s.getF F.PMC_STAT_pstate = pstateStandby →
     exec (.intSoft v) s = .next (s.put { s.toBlock with
       intr := { s.intr with latched := s.intr.latched ++ [0x700 + bitsOf v.toNat 0 8] } }))) ∧
  ((∀ (s : State) (c : BitVec 16) (v : BitVec 64), s.toBlock.up = true →
     exec (.syncCntWrite c v) s = .next (s.put (rest (setCounter c.toNat v.toNat s.toBlock)))) ∧
   (∀ (b : Block) (c v : Nat), v < 2 ^ 64 →
     (∀ e ∈ b.fe.reqs, ∀ c' eq w r, e.2.wait = .sync c' eq w r → c' ≠ c) →
     (∀ w, w < 256 → b.getFi F.INT_WATCH_CFG_armed w = 1 → b.getFi F.INT_WATCH_CFG_counter w ≠ c) →
     counterValue (setCounter c v b) c = v ∧ (∀ c', c' ≠ c → counterValue (setCounter c v b) c' = counterValue b c') ∧
       (setCounter c v b).fe = b.fe ∧ (setCounter c v b).flds = b.flds ∧ (setCounter c v b).cmem = b.cmem ∧
       (setCounter c v b).ses = b.ses) ∧
   (∀ (s : State) (j : BitVec 10) (v : BitVec 64), s.toBlock.up = true →
     ∃ b', exec (.syncOwnWrite j v) s = .next (s.put b') ∧
       (∀ i k, i < 4 → k < 16 → counterOwner b' (16 * (4 * j.toNat + i) + k) =
         if groupWaited s.toBlock (4 * j.toNat + i) then counterOwner s.toBlock (16 * (4 * j.toNat + i) + k)
         else bitsOf v.toNat (16 * i) 12) ∧
       (∀ c, c / 64 ≠ j.toNat → counterOwner b' c = counterOwner s.toBlock c) ∧ b'.fe = s.fe ∧ b'.flds = s.flds ∧ b'.cmem = s.cmem) ∧
   (∀ (s : State) (w : BitVec 8) (v : BitVec 64), s.toBlock.up = true →
     let b := s.toBlock
     let holds := syncHolds (v.getLsbD 16) (b.getFi F.INT_WATCH_VAL_value w.toNat) (counterValue b (bitsOf v.toNat 0 16))
     ∃ b', exec (.watchArm w v) s = .next (s.put b') ∧
       b'.getFi F.INT_WATCH_CFG_counter w.toNat = bitsOf v.toNat 0 16 ∧
       b'.getFi F.INT_WATCH_CFG_eq w.toNat = bitsOf v.toNat 16 1 ∧
       b'.getFi F.INT_WATCH_CFG_armed w.toNat = (if v.getLsbD 17 && !holds then 1 else 0) ∧
       b'.getFi F.INT_WATCH_CFG_fired w.toNat = (if v.getLsbD 17 && holds then 1
         else if v.getLsbD 18 then 0 else b.getFi F.INT_WATCH_CFG_fired w.toNat) ∧
       b'.intr.counters = b.intr.counters ∧ b'.fe = b.fe))

/-- PMC_SAMPLE (R417, R418, Table 18.1): with the order a permutation of the domains and room for their floors, every
domain is given at least its floor, together they and the fixed power stay within the cap, and the first of the order
has what it asks for as far as the floors of the others leave room; the compute ceiling lies between 100 and 700 MHz,
and the measured powers are shown. SUPPLY_DROOP and ENERGY_UPDATE (R419, R424): a droop counts on its Spoke; energy is
added, saturating, to the tenant, ring and module it belongs to, a step's to its rings in proportion to their tokens. -/
def Obligations.PowerIsSharedAndCounted : Prop :=
  ((∀ (b : Block) (demand : Nat → Nat) (budget : Nat),
     [b.getF F.PMC_CFG_order0, b.getF F.PMC_CFG_order1, b.getF F.PMC_CFG_order2].Perm [0, 1, 2] → 380 ≤ budget →
     let gs := shareBudget demand (domOrder b) budget
     givenTo gs 0 + givenTo gs 1 + givenTo gs 2 ≤ budget ∧
     (∀ d, d < 3 → domFloor d ≤ givenTo gs d ∧ givenTo gs d ≤ max (domFloor d) (demand d)) ∧
     (∀ d, (domOrder b).head? = some d → givenTo gs d = max (domFloor d) (min (demand d) (budget - (380 - domFloor d))))) ∧
   (∀ (s : State) (m : PowerSample), s.toBlock.up = true →
     ∃ b', exec (.pmcSample m) s = .next (s.put b') ∧ 100 ≤ b'.pmc.capMhz ∧ b'.pmc.capMhz ≤ 700 ∧
       (let gs := shareBudget (fun d => if d = 0 then m.demandLinks else if d = 1 then m.demandMem
           else max m.demandCompute (hintShare s.toBlock * capWatts s.toBlock / 100)) (domOrder s.toBlock) (capWatts s.toBlock - m.fixed)
        b'.pmc.give = (givenTo gs 0, givenTo gs 1, givenTo gs 2)) ∧
       b'.getF F.PMC_POWER_input_w = min m.input 0xFFFF ∧ b'.getF F.PMC_POWER_compute_w = min m.computeW 0xFFF ∧
       b'.getF F.PMC_POWER_mem_w = min m.memW 0xFFF ∧ b'.getF F.PMC_POWER_links_w = min m.linksW 0xFFF ∧
       b'.getF F.PMC_POWER_fixed_w = min m.fixed 0xFFF ∧ b'.ses = s.ses ∧ b'.fe = s.fe ∧ b'.ste = s.ste)) ∧
  ((∀ (s : State) (k : Nat), s.toBlock.up = true → k < numSpokes →
     exec (.supplyDroop k) s = .next (s.put (s.toBlock.bumpFi F.SPK_ERR_stretch k 1))) ∧
   (∀ (s : State) (t energy : Nat), s.toBlock.up = true → t < 4096 →
     exec (.energyUpdate (.work t none energy)) s = .next (s.put (s.toBlock.bumpFi F.PMC_E_TEN_energy_uj t energy))) ∧
   (∀ (s : State) (t r energy : Nat), s.toBlock.up = true → t < 4096 → r < 65536 →
     exec (.energyUpdate (.work t (some r) energy)) s = .next (s.put
       ((s.toBlock.bumpFi F.PMC_E_TEN_energy_uj t energy).bumpFi F.PMC_E_RING_energy_uj r energy))) ∧
   (∀ (s : State) (t energy : Nat) (rings : List (Nat × Nat)), s.toBlock.up = true → t < 4096 →
     (∀ e ∈ rings, e.1 < 65536) → (rings.map (·.1)).Nodup → 0 < (rings.map (·.2)).sum →
     ∃ b', exec (.energyUpdate (.step t energy rings)) s = .next (s.put b') ∧
       b'.getFi F.PMC_E_TEN_energy_uj t =
         min (s.getFi F.PMC_E_TEN_energy_uj t + energy) (2 ^ F.PMC_E_TEN_energy_uj.width - 1) ∧
       (∀ e ∈ rings, b'.getFi F.PMC_E_RING_energy_uj e.1 = min (s.getFi F.PMC_E_RING_energy_uj e.1 +
         energy * e.2 / (rings.map (·.2)).sum) (2 ^ F.PMC_E_RING_energy_uj.width - 1)) ∧
       (∀ r, r ∉ rings.map (·.1) → b'.getFi F.PMC_E_RING_energy_uj r = s.getFi F.PMC_E_RING_energy_uj r) ∧
       { b' with flds := s.flds } = s.toBlock) ∧
   (∀ (s : State) (energy : Nat), s.toBlock.up = true →
     exec (.energyUpdate (.unattributed energy)) s = .next (s.put (s.toBlock.bumpN F.PMC_E_MOD_energy_uj energy))))

/-- THROTTLE_SET, SENSOR_TRIP, SENSOR_BELOW_THROTTLE, THROTTLE_STEP_DOWN and THROTTLE_STEP_UP (R426, R427): a sensor's
temperature is compared with its thresholds, of which the trip is never above its reset value; a limit falls by a
tenth of its full value, to its floor, while a sensor of its site throttles, and rises by a tenth to full while all
are 3 °C below their threshold. COOLANT_OK_FALL, THERM_TRIP_N_LOW, COOLANT_OK_RISE, THERM_TRIP_N_RISE, BRAKED_ENTER
(R428): in a module that runs, a pin starts the brake with its cause, counted and signalled, and ends an `unbrake`
under way with error 4; braking ends BRAKED with the wheel rails off; a rise only notes the pin. -/
def Obligations.HeatLimitsAndBrakes : Prop :=
  ((∀ (s : State) (i : Nat) (temp : BitVec 11), i < numSensors →
     exec (.throttleSet i temp) s = .next (s.put (senseTemp i temp.toNat s.toBlock)) ∧
     exec (.sensorTrip i temp) s = .next (s.put (senseTemp i temp.toNat s.toBlock)) ∧
     exec (.sensorBelowThrottle i temp) s = .next (s.put (senseTemp i temp.toNat s.toBlock))) ∧
   (∀ (b : Block) (i : Nat) (temp : BitVec 11), tripDriven b = true ∨ b.up = false →
     let x := sensor b i
     let hot : Prop := Int.ofNat (8 * x.throttleC) ≤ temp.toInt
     let trip : Prop := Int.ofNat (8 * min x.tripC (sensorReset i).tripC) ≤ temp.toInt
     ∃ y, senseTemp i temp.toNat b = setSensor i y b ∧ y.temp = temp.toNat ∧ y.throttleC = x.throttleC ∧ y.tripC = x.tripC ∧
       (y.throttling = true ↔ hot) ∧ (y.tripped = true ↔ hot ∧ (trip ∨ x.tripped = true))) ∧
   (∀ (s : State) (site : Nat), s.toBlock.up = true → site < 22 → thermalLimit s.toBlock site ≤ fullLimit →
     ∃ b1 b2, exec (.throttleStepDown site) s = .next (s.put b1) ∧ exec (.throttleStepUp site) s = .next (s.put b2) ∧
       thermalLimit b1 site = (if ∃ i ∈ siteSensors site, (sensor s.toBlock i).throttling = true then
         max (limitFloor site) (thermalLimit s.toBlock site - 210) else thermalLimit s.toBlock site) ∧
       thermalLimit b2 site = (if ∀ i ∈ siteSensors site,
           tempOf (sensor s.toBlock i).temp < Int.ofNat (8 * (sensor s.toBlock i).throttleC) - 24 then
         min fullLimit (thermalLimit s.toBlock site + 210) else thermalLimit s.toBlock site) ∧
       (∀ n, n ≠ site → thermalLimit b1 n = thermalLimit s.toBlock n ∧ thermalLimit b2 n = thermalLimit s.toBlock n))) ∧
  ((∀ (s : State), s.toBlock.up = true → s.getF F.PMC_STAT_pstate = psRun → s.getF F.PMC_CMD_state ≠ 1 →
     exec .coolantOkFall s = .next (s.put
       ((fire Src.pmcBraked ((({ s.toBlock with pmc := { s.pmc with coolantOk := false, okUs := 0 } } : Block).setF
         F.PMC_STAT_cause 1).bump F.PMC_CNT_brakes)).setF F.PMC_STAT_pstate psBraking)) ∧
     exec .thermTripNLow s = .next (s.put
       ((fire Src.pmcBraked ((({ s.toBlock with pmc := { s.pmc with tripLow := true } } : Block).setF
         F.PMC_STAT_cause 2).bump F.PMC_CNT_brakes)).setF F.PMC_STAT_pstate psBraking))) ∧
   (∀ (b : Block) (cause : Nat), b.getF F.PMC_STAT_pstate = psLeaving → b.getF F.PMC_CMD_state = 1 → cause < 4 →
     (startBrake cause b).getF F.PMC_STAT_pstate = psBraking ∧ (startBrake cause b).getF F.PMC_STAT_cause = cause ∧
     (startBrake cause b).getF F.PMC_CMD_state = 3 ∧ (startBrake cause b).getF F.PMC_CMD_err = 4) ∧
   (∀ (s : State), exec .coolantOkRise s = .next (s.put { s.toBlock with pmc := { s.pmc with coolantOk := true, okUs := 0 } }) ∧
     exec .thermTripNRise s = .next (s.put { s.toBlock with pmc := { s.pmc with tripLow := false } })) ∧
   (∀ (s : State), s.toBlock.up = true → s.getF F.PMC_STAT_pstate = psBraking →
     ∃ b', exec .brakedEnter s = .next (s.put b') ∧ b'.getF F.PMC_STAT_pstate = psBraked ∧
       (∀ r, r ∈ wheelRails → r ∉ b'.mod.railsUp) ∧ b' = (setRails wheelRails false
         (s.ste.pelotons.foldl (fun b e => brakeStep e.1 e.2 b) (stopSpokes s.toBlock))).setF F.PMC_STAT_pstate psBraked) ∧
   (∀ (s : State), s.toBlock.up = true → s.getF F.PMC_STAT_pstate ≠ psBraking → exec .brakedEnter s = .next s))

/-- UNBRAKE, LEAVE_COMPLETE, STANDBY and WAKE (R430, R431, Table 18.10): `unbrake` of a BRAKED module whose coolant has
been good for two seconds, with no trip and no sensor throttling, goes to LEAVING, and from there the wheel rails rise
and the module is in RUN; each condition not met gives its error; `standby` needs RUN (4) and idleness (3); `wake`
returns to RUN; apertures command nothing. -/
def Obligations.BrakeAndStandbyEnd : Prop :=
  (∀ (s : State), s.toBlock.up = true → s.getF F.PMC_STAT_pstate = psBraked → s.pmc.coolantOk = true → 2000000 ≤ s.pmc.okUs →
    tripIsLow s.toBlock = false → (∀ e ∈ s.pmc.sensors, e.2.throttling = false) → s.pmc.fromStandby = false →
    exec (.unbrake .mgmt) s = .next (s.put (((s.toBlock.setF F.PMC_STAT_pstate psLeaving).setF F.PMC_CMD_state 1).setF
      F.PMC_CMD_err 0))) ∧
  (∀ (s : State), s.toBlock.up = true →
    (s.getF F.PMC_STAT_pstate ≠ psBraked → exec (.unbrake .mgmt) s = .next (s.put (pmcEnds 4 s.toBlock))) ∧
    (s.getF F.PMC_STAT_pstate = psBraked → (s.pmc.coolantOk = false ∨ s.pmc.okUs < 2000000) →
      exec (.unbrake .mgmt) s = .next (s.put (pmcEnds 1 s.toBlock))) ∧
    (s.getF F.PMC_STAT_pstate = psBraked → s.pmc.coolantOk = true → 2000000 ≤ s.pmc.okUs → tripIsLow s.toBlock = true →
      exec (.unbrake .mgmt) s = .next (s.put (pmcEnds 2 s.toBlock)))) ∧
  (∀ (s : State), s.toBlock.up = true → s.getF F.PMC_STAT_pstate = psLeaving →
    let b := pmcEnds 0 ((setRails wheelRails true s.toBlock).setF F.PMC_STAT_pstate psRun)
    exec .leaveComplete s = .next (s.put (rest (if s.isSet F.CMP_ID_isolated then b else resumeWork b)))) ∧
  (∀ (s : State), s.toBlock.up = true → s.getF F.PMC_STAT_pstate = psRun →
    (standbyIdle s.toBlock = false → exec (.standby .mgmt) s = .next (s.put (rest (pmcEnds 3 s.toBlock)))) ∧
    (standbyIdle s.toBlock = true → ∃ b', exec (.standby .mgmt) s = .next (s.put (rest b')) ∧
      b'.getF F.PMC_STAT_pstate = pstateStandby ∧ b'.spk.spokes = [] ∧ (∀ r ∈ wheelRails, r ∉ b'.mod.railsUp) ∧
      b'.getF F.PMC_CMD_state = 2 ∧ (∀ p ∈ otherPorts, b'.getFi F.FLL_PORT_STAT_state p = psDown))) ∧
  (∀ (s : State), s.toBlock.up = true → s.getF F.PMC_STAT_pstate ≠ psRun →
    exec (.standby .mgmt) s = .next (s.put (rest (pmcEnds 4 s.toBlock)))) ∧
  (∀ (s : State), s.toBlock.up = true →
    exec (.wake (.command .mgmt)) s = .next (s.put (rest (if s.getF F.PMC_STAT_pstate = pstateStandby then
      pmcEnds 0 (wakeUp s.toBlock) else pmcEnds 4 s.toBlock)))) ∧
  (∀ (s : State) (t : BitVec 12), s.toBlock.up = true → exec (.unbrake (.aperture t)) s = .next s ∧
    exec (.standby (.aperture t)) s = .next (s.put (rest s.toBlock)) ∧
    exec (.wake (.command (.aperture t))) s = .next (s.put (rest s.toBlock)))

/-- VIN_APPLY, PWR_EN_RISE, RAIL_STAGE_DONE and PWR_EN_FALL (R438 to R440, Tables 19.5, 19.6): with the input in range and
PWR_EN high the rails rise in the order of Table 19.5, the wheel rails only with COOLANT_OK, until PWR_GOOD rises;
PWR_EN falling resets every block and takes the rails down in the order of Table 19.6. POWER_LOSS and
OVERVOLTAGE_RESTART (R433, R435, Table 19.12): a loss of the input, of a rail that is up or of VIO resets every block,
takes every rail but V_AON and V_NOR down and notes its cause; a rail that is off concerns nothing; after an
overvoltage the input counts again once it has fallen to the restart threshold. -/
def Obligations.PowerIsSequenced : Prop :=
  ((∀ (s : State) (mv : BitVec 16), s.mod.overvolt = false → 38500 ≤ mv.toNat → mv.toNat < 58000 → s.mod.stage = .dead →
     exec (.vinApply mv) s = .next (s.put { s.toBlock with mod := { s.mod with
       vinMv := mv.toNat, stage := if s.mod.pwrEn then .up 2 else .input } })) ∧
   (∀ (s : State), s.mod.stage = .input →
     exec .pwrEnRise s = .next (s.put { s.toBlock with mod := { s.mod with pwrEn := true, stage := .up 2 } })) ∧
   (∀ (s : State), ∃ b', exec .railStageDone s = .next (s.put b') ∧
     (s.mod.stage = .up 2 → b' = setStage (.up 3) (setRails [0, 1] true s.toBlock)) ∧
     (s.mod.stage = .up 3 → b' = setStage (.up 4) (setRails [2, 3, 4] true s.toBlock)) ∧
     (s.mod.stage = .up 4 → b' = setStage (if s.pmc.coolantOk then .up 5 else .up 6) (setRails [5, 6, 7, 8, 9] true s.toBlock)) ∧
     (s.mod.stage = .up 5 → b' = setStage (.up 6) (setRails [10, 11, 12, 13] true s.toBlock)) ∧
     (s.mod.stage = .up 6 → b' = { s.toBlock with mod := { s.mod with stage := .good, pwrGood := true } }) ∧
     (s.mod.stage = .down 2 → b' = setStage (.down 3) (setRails [10, 11, 12, 13] false s.toBlock)) ∧
     (s.mod.stage = .down 3 → b' = setStage (.down 4) (setRails [2, 3, 4, 5, 6, 7, 8, 9] false s.toBlock)) ∧
     (s.mod.stage = .down 4 → b' = setStage (if s.mod.overvolt = true ∨ s.mod.vinMv = 0 then .dead else .input)
       (setRails [0, 1] false s.toBlock))) ∧
   (∀ (s : State), s.mod.stage = .good → ∃ b', exec .pwrEnFall s = .next (s.put b') ∧ b'.mod.stage = .down 2 ∧
     b'.mod.pwrEn = false ∧ b'.mod.pwrGood = false ∧ b'.mod.released = false ∧ b'.up = false ∧
     b'.getF F.MOD_BOARD_reset_cause = 2 ∧ b'.getF F.MOD_BOARD_fault_rail = 0 ∧ b'.cmem = s.cmem ∧
     b'.rtp.ownerKey = s.rtp.ownerKey ∧ b'.rtp.ratchets = s.rtp.ratchets ∧ b'.ses.slots = [] ∧ b'.fe.reqs = [])) ∧
  ((∀ (s : State) (cause : LossCause), s.mod.stage ≠ .dead → s.mod.stage ≠ .input →
     (∀ i, cause = .rail i → i ∈ s.mod.railsUp) → (∀ i, cause = .rail i → i < 16) →
     ∃ b', exec (.powerLoss cause) s = .next (s.put b') ∧ b'.mod.stage = .down 4 ∧ b'.mod.pwrGood = false ∧ b'.up = false ∧
       (∀ r, r ∈ b'.mod.railsUp → r ∈ s.mod.railsUp ∧ (r ≤ 1 ∨ 14 ≤ r)) ∧
       b'.getF F.MOD_BOARD_reset_cause = (match cause with | .inputLow => 3 | .overvoltage => 3 | .rail _ => 4 | .vio => 5) ∧
       b'.getF F.MOD_BOARD_fault_rail = (match cause with | .rail i => i | _ => 0) ∧
       b'.mod.overvolt = (s.mod.overvolt || decide (cause = .overvoltage)) ∧ b'.cmem = s.cmem) ∧
   (∀ (s : State) (i : Nat), i ∉ s.mod.railsUp → exec (.powerLoss (.rail i)) s = .next s) ∧
   (∀ (s : State) (mv : BitVec 16), s.mod.overvolt = true → mv.toNat ≤ 55500 → 37000 ≤ mv.toNat → s.mod.stage = .dead →
     exec (.overvoltageRestart mv) s = .next (s.put { s.toBlock with mod := { s.mod with
       overvolt := false, vinMv := mv.toNat, stage := if s.mod.pwrEn then .up 2 else .input } })) ∧
   (∀ (s : State) (mv : BitVec 16), s.mod.overvolt = false ∨ 55500 < mv.toNat → exec (.overvoltageRestart mv) s = .next s))

/-- MOD_RESET_N_FALL, RESET_RELEASE and BOOT_COMPLETE (R357, R441 to R443, Tables 15.3, 19.5): a reset with power good
clears every block and keeps fuses, store and companion memory; at its release the straps are sampled and the module
number is the tray slot; a boot whose first slots pass ends ready, with one more boot counted; one whose boot code
passes in neither slot ends in ROM recovery. RAIL_WARN, REFCLK_CHANGE, I3C_ADDRESS_ASSIGN, REC_DATA, REC_COMMIT,
JTAG_INSTRUCTION and TEST_LOGIC_RESET (R444, R446, R448, R449, R453): a rail shows its voltage and warning, kept in
`warn_seen`; a clock's bit follows it, before boot with no more effect; the bus takes an address once released; in ROM
recovery 64-byte pieces gather, and a good image goes to slot A; the debug port runs IDCODE and BYPASS in every mode,
and what the mode does not allow as BYPASS. -/
def Obligations.BoardResetsBootsAndServes : Prop :=
  ((∀ (s : State), s.mod.pwrGood = true →
     ∃ b', exec .modResetNFall s = .next (s.put b') ∧ b'.up = false ∧ b'.mod.released = false ∧ b'.mod.modResetN = false ∧
       b'.mod.stage = s.mod.stage ∧ b'.getF F.MOD_BOARD_reset_cause = 1 ∧ b'.ses.slots = [] ∧ b'.fe.reqs = [] ∧ b'.ste = Block.reset.ste ∧
       b'.spk = Block.reset.spk ∧ b'.intr = Block.reset.intr ∧ b'.rtp.ownerKey = s.rtp.ownerKey ∧ b'.rtp.ratchets = s.rtp.ratchets ∧
       b'.rtp.boots = s.rtp.boots ∧ b'.rtp.ready = false ∧ b'.brp.patches = s.brp.patches ∧ b'.cmem = s.cmem ∧
       (∀ (f : Fld) (i : Nat), (∀ g ∈ keptFields, g.key ≠ f.key) → b'.getFi f i = Block.reset.getFi f i)) ∧
   (∀ (s : State) (x : Straps), s.mod.pwrGood = true → s.mod.released = false →
     ∃ b', exec (.resetRelease x) s = .next (s.put b') ∧ b'.mod.released = true ∧ b'.mod.modResetN = true ∧
       b'.getF F.CMP_ID_module_id = x.traySlot.toNat % 2 ^ F.CMP_ID_module_id.width ∧
       b'.getF F.MOD_BOARD_tray_slot = x.traySlot.toNat % 2 ^ F.MOD_BOARD_tray_slot.width ∧
       b'.getF F.MOD_BOARD_boot_sel = (if x.bootSel then 1 else 0)) ∧
   (∀ (s : State) (x : BootOutcome) (s0 s1 s2 : Bool), s.mod.released = true → s.rtp.ready = false → s.rtp.recovery = false →
     bootSlot x s.toBlock 0 = some s0 → bootSlot x s.toBlock 1 = some s1 → bootSlot x s.toBlock 2 = some s2 →
     exec (.bootComplete x) s = .next (s.put (bootBrake (bootReady x.failedSpokes [s0, s1, s2]
       ((s0 != firstSlotB s.toBlock 0) || (s1 != firstSlotB s.toBlock 1) || (s2 != firstSlotB s.toBlock 2))
       { s.toBlock with rtp := { s.rtp with boots := (s.rtp.boots + 1) % 2 ^ 32 } })))) ∧
   (∀ (s : State) (x : BootOutcome), s.mod.released = true → s.rtp.ready = false → s.rtp.recovery = false →
     bootSlot x s.toBlock 0 = none →
     exec (.bootComplete x) s = .next (s.put { s.toBlock with
       rtp := { s.rtp with recovery := true }, mod := { s.mod with recovery := [], slotAFirst := false } })) ∧
   (∀ (b : Block) (x : BootOutcome) (n : Nat) (slot : Bool), bootSlot x b n = some slot →
     (imageIn b slot n).valid = true ∧ ratchet b n ≤ (imageIn b slot n).svn)) ∧
  ((∀ (s : State) (r : BitVec 4) (w : Bool) (mv : BitVec 16), r ≠ 14 →
     ∃ b', exec (.railWarn r w mv) s = .next (s.put b') ∧ b'.getFi F.MOD_RAIL_warn r.toNat = (if w then 1 else 0) ∧
       b'.getFi F.MOD_RAIL_mv r.toNat = mv.toNat % 2 ^ F.MOD_RAIL_mv.width ∧
       (b'.getFi F.MOD_RAIL_warn_seen r.toNat = if w = true ∧ s.getFi F.MOD_RAIL_warn r.toNat = 0 then 1
         else s.getFi F.MOD_RAIL_warn_seen r.toNat) ∧ b'.mod = s.mod ∧ b'.rtp = s.rtp) ∧
   (∀ (s : State) (w : Bool) (mv : BitVec 16), exec (.railWarn 14 w mv) s = .next s) ∧
   (∀ (s : State) (g : BitVec 2) (ok : Bool), s.toBlock.up = false →
     ∃ b', exec (.refclkChange g ok) s = .next (s.put b') ∧
       (∀ k, k < 4 → (b'.getF F.MOD_BOARD_refclk_ok).testBit k =
         if k = g.toNat then ok else (s.getF F.MOD_BOARD_refclk_ok).testBit k)) ∧
   (∀ (s : State) (a : BitVec 7), exec (.i3cAddressAssign a) s = .next (s.put (if s.mod.released = true then
     { s.toBlock with mod := { s.mod with i3cAddr := some a.toNat } } else s.toBlock))) ∧
   (∀ (s : State) (off : BitVec 32) (bs : Bytes), s.mod.released = true → s.rtp.recovery = true → off.toNat % 64 = 0 →
     off.toNat + 64 ≤ recoveryLimit s.toBlock →
     exec (.recData off bs) s = .next (s.put { s.toBlock with mod := { s.mod with
       recovery := cellWrite s.mod.recovery off.toNat (padTo 64 bs), busStatus := 0 } })) ∧
   (∀ (s : State) (n : BitVec 32), s.mod.released = true → s.rtp.recovery = true →
     let img := cellRead s.mod.recovery 0 n.toNat
     exec (.recCommit n) s = .next (s.put (if imageErr s.toBlock 0 img ≠ 0 then
         { s.toBlock with mod := { s.mod with busStatus := 3 } }
       else { s.toBlock with
         rtp := { s.rtp with slotA := s.rtp.slotA.set 0 (slotOf img), recovery := false }
         mod := { s.mod with recovery := [], slotAFirst := true, busStatus := 0 } }))) ∧
   (∀ (s : State) (n : BitVec 32) (off : BitVec 32) (bs : Bytes), s.mod.released = true → s.rtp.recovery = false →
     exec (.recCommit n) s = .next (s.put { s.toBlock with mod := { s.mod with busStatus := 3 } }) ∧
     exec (.recData off bs) s = .next (s.put { s.toBlock with mod := { s.mod with busStatus := 3 } })) ∧
   (∀ (s : State), exec (.jtagInstruction .idcode) s = .next (s.put { s.toBlock with
       mod := { s.mod with jtag := some .idcode }, rdata := 0xB074058F }) ∧
     exec (.jtagInstruction .bypass) s = .next (s.put { s.toBlock with mod := { s.mod with jtag := some .bypass } }) ∧
     exec .testLogicReset s = .next (s.put { s.toBlock with mod := { s.mod with jtag := none } })) ∧
   (∀ (s : State) (ir : JtagInstr), ir ≠ .idcode → ir ≠ .bypass →
     exec (.jtagInstruction ir) s = .next (s.put { s.toBlock with mod := { s.mod with
       jtag := some (if s.rtp.debugOpen && !s.rtp.conf then ir else .bypass) } })))

/-- One step takes the command at the front of the queue and carries it out with the queue's rest; with no command waiting
the block idles, which is the model's choice (log entry 4). -/
def Obligations.StepRunsFrontCommand : Prop :=
  (∀ (s : State) (c : Instr) (cs : List Instr), s.pending = c :: cs → step s = exec c { s with pending := cs }) ∧
  (∀ s : State, s.pending = [] → step s = .next s)

/-- Every command that names a unit the module has is carried out, whatever the state: it ends in a next state whose queue
is as it was; one that names no unit faults as such, and nothing is refused. A queue of commands that name units the
module has stays so at every step, and runs of any length neither fault nor are refused; the queue is worked off one
command a step. -/
def Obligations.EveryCommandCompletes : Prop :=
  (∀ (c : Instr) (s : State),
     (c.wf = true → ∃ b, exec c s = .next (s.put b)) ∧ (c.wf = false → exec c s = .fault .noSuchUnit)) ∧
  ((∀ s t : State, s.safe → step s = .next t → t.safe ∧ t.pending = s.pending.tail) ∧
   (∀ (s : State) (n : Nat), s.safe → safeRun n s))

/-- After reset the queue is empty and the module holds its reset values: no session, no request, no tenant active, every
ring disabled, the registers at the values their tables give, the RTP not ready. -/
def Obligations.ResetLeavesResetValues : Prop :=
  State.reset.pending = [] ∧ State.reset.safe ∧ State.reset.ses.slots = [] ∧ State.reset.fe.reqs = [] ∧
  Memory.wf State.reset.cmem = true ∧ Memory.wf State.reset.hbm = true ∧ Memory.wf State.reset.mod.recovery = true ∧
  (∀ sid, session State.reset.toBlock sid = none) ∧ (∀ t, tenantState State.reset.toBlock t = tsAbsent) ∧
  (∀ r, State.reset.getFi F.CFE_RING_STAT_state r = 0) ∧ (∀ k, runningPrio State.reset.toBlock k = 64) ∧
  State.reset.getF F.PMC_CFG_cap_w = 2000 ∧ State.reset.getF F.STE_CFG_max_seq = 4096 ∧
  State.reset.getF F.STE_CFG_prefill_chunk = 256 ∧ State.reset.getF F.PGM_CFG_pool_gib = 16 ∧
  State.reset.ses.nextSerial = 1 ∧ State.reset.rtp.ratchets = [0, 0, 0, 0] ∧ State.reset.rtp.ownerKey = none ∧
  State.reset.toBlock.up = false

/-- Until the boot is complete every block but the board is held in reset (Tables 15.3, 19.5): no other command changes
anything, but that a snoop brings the companion's own write of companion memory (log entry 140). A module that is
fenced, or in a power state other than RUN, does no work (R326, R379, R429, R431): none of these commands changes
anything. -/
def Obligations.NothingRunsWhereItMayNot : Prop :=
  ((∀ (c : Instr) (s : State), s.toBlock.up = false → onBoard c = false → (∀ a bs, c ≠ .faloloSnoop a bs) → c.wf = true →
     exec c s = .next s) ∧
   (∀ (a : BitVec 52) (bs : Bytes) (s : State), s.toBlock.up = false →
     exec (.faloloSnoop a bs) s = .next (s.put (s.toBlock.pokeBytes a.toNat (bs.take (64 - a.toNat % 64)))))) ∧
  (∀ (c : Instr) (s : State), (s.isSet F.CMP_ID_isolated = true ∨ s.getF F.PMC_STAT_pstate ≠ psRun) → isWork c = true →
     c.wf = true → exec c s = .next s)

/-- Companion memory (R3): with its canonical form, what is read after a write is what was written, every other byte is as
it was, and equal contents are equal memories. A session handle (R25): its three fields read back, and two handles are
equal only if all three are. -/
def Obligations.MemoryAndHandlesHold : Prop :=
  ((∀ (b : Block) (a n v : Nat), Memory.wf b.cmem = true → v < 2 ^ (8 * n) → (b.pokeLe a n v).peekLe a n = v) ∧
   (∀ (b : Block) (a : Nat) (bs : Bytes), Memory.wf b.cmem = true → (b.pokeBytes a bs).peek a bs.length = bs ∧
     (∀ x, x < a ∨ a + bs.length ≤ x → cellGet (b.pokeBytes a bs).cmem x = cellGet b.cmem x)) ∧
   (∀ m m' : List Host.Cell, Memory.wf m = true → Memory.wf m' = true → (∀ a, cellGet m a = cellGet m' a) → m = m')) ∧
  ((∀ t sid g, t < 2 ^ 12 → sid < 2 ^ 24 → g < 2 ^ 12 →
     hTenant (mkHandle t sid g) = t ∧ hSlot (mkHandle t sid g) = sid ∧ hGen (mkHandle t sid g) = g ∧ mkHandle t sid g < 2 ^ 48) ∧
   (∀ h, h < 2 ^ 48 → mkHandle (hTenant h) (hSlot h) (hGen h) = h) ∧
   (∀ g, g < 2 ^ 12 → nextGen g ≠ 0 ∧ nextGen g < 2 ^ 12))
end

