-- ==== Sys2Proof/Laws/Cells.lean ====
section
/-! SUPPORT. Byte memories: a write keeps the canonical form, what is read after it is what was written, and every other byte is
as it was. -/

namespace Sys2Proof.Machine

/-- The canonical form, entry by entry. -/
theorem Memory.wf_cons (a : Nat) (v : BitVec 8) (m : List Host.Cell) :
    Memory.wf ((a, v) :: m) = true ↔ v ≠ 0 ∧ (∀ c ∈ m, a < c.1) ∧ Memory.wf m = true := by
  induction m generalizing a v with
  | nil => simp [Memory.wf]
  | cons c m ih =>
    obtain ⟨a', v'⟩ := c
    rw [show Memory.wf ((a, v) :: (a', v') :: m) = (decide (v ≠ 0) && decide (a < a') && Memory.wf ((a', v') :: m)) from rfl]
    simp only [Bool.and_eq_true, decide_eq_true_eq, List.mem_cons, forall_eq_or_imp]
    rw [ih a' v']
    constructor
    · rintro ⟨⟨h0, h⟩, h1, h2, h3⟩; exact ⟨h0, ⟨h, fun c hc => Nat.lt_trans h (h2 c hc)⟩, h1, h2, h3⟩
    · rintro ⟨h0, ⟨h, _⟩, h1, h2, h3⟩; exact ⟨⟨h0, h⟩, h1, h2, h3⟩

theorem cellGet_below {m : List Host.Cell} {a : Nat} (h : ∀ c ∈ m, a < c.1) : cellGet m a = 0 := by
  induction m with
  | nil => rfl
  | cons c m ih =>
    obtain ⟨a', v'⟩ := c
    have := h (a', v') (by simp)
    rw [show cellGet ((a', v') :: m) a = if a = a' then v' else cellGet m a from rfl, if_neg (by simp at this; omega)]
    exact ih fun c hc => h c (by simp [hc])

theorem mem_cellSet {m : List Host.Cell} {a : Nat} {v : BitVec 8} {c : Host.Cell} (h : c ∈ cellSet m a v) :
    c = (a, v) ∨ c ∈ m := by
  induction m with
  | nil => simp only [cellSet] at h; split at h <;> simp_all
  | cons x m ih =>
    obtain ⟨k, w⟩ := x
    simp only [cellSet] at h
    split at h
    · split at h
      · simp_all
      · rcases List.mem_cons.1 h with h | h <;> simp_all
    · split at h
      · split at h
        · simp_all
        · rcases List.mem_cons.1 h with h | h <;> simp_all
      · rcases List.mem_cons.1 h with h | h
        · simp_all
        · rcases ih h with h | h <;> simp_all

/-- A byte written keeps the canonical form. -/
theorem wf_cellSet {m : List Host.Cell} (h : Memory.wf m = true) (a : Nat) (v : BitVec 8) :
    Memory.wf (cellSet m a v) = true := by
  induction m with
  | nil => simp only [cellSet]; split <;> simp_all [Memory.wf]
  | cons x m ih =>
    obtain ⟨k, w⟩ := x
    have hw := h
    rw [Memory.wf_cons] at hw
    simp only [cellSet]
    split
    · subst_vars
      split
      · exact hw.2.2
      · rw [Memory.wf_cons]; exact ⟨by assumption, hw.2⟩
    · split
      · split
        · exact h
        · rw [Memory.wf_cons]
          refine ⟨by assumption, fun c hc => ?_, h⟩
          rcases List.mem_cons.1 hc with rfl | hc
          · assumption
          · have := hw.2.1 c hc; omega
      · rw [Memory.wf_cons]
        refine ⟨hw.1, fun c hc => ?_, ih hw.2.2⟩
        rcases mem_cellSet hc with rfl | hc
        · simp only; omega
        · exact hw.2.1 c hc

/-- Bytes written keep the canonical form. -/
theorem wf_cellWrite {m : List Host.Cell} (h : Memory.wf m = true) (a : Nat) (bs : Bytes) :
    Memory.wf (cellWrite m a bs) = true := by
  induction bs generalizing m a with
  | nil => exact h
  | cons v vs ih => exact ih (wf_cellSet h a v) (a + 1)

/-- A byte read after a byte was written. -/
theorem cellGet_cellSet {m : List Host.Cell} (h : Memory.wf m = true) (a x : Nat) (v : BitVec 8) :
    cellGet (cellSet m a v) x = if x = a then v else cellGet m x := by
  induction m with
  | nil => simp only [cellSet]; split <;> simp_all [cellGet]
  | cons c m ih =>
    obtain ⟨k, w⟩ := c
    rw [Memory.wf_cons] at h
    have below := @cellGet_below m
    simp only [cellSet]
    split
    · subst_vars
      split
      · simp only [cellGet]
        by_cases hx : x = k
        · subst hx; rw [if_pos rfl, below fun c hc => h.2.1 c hc]; simp_all
        · simp [hx]
      · simp only [cellGet]; split <;> simp_all
    · split
      · split
        · simp only [cellGet]
          by_cases hx : x = a
          · subst hx
            rw [if_neg (by assumption), below fun c hc => by have := h.2.1 c hc; omega]; simp_all
          · simp [hx]
        · simp only [cellGet]
      · simp only [cellGet, ih h.2.2]; split <;> grind

/-- A byte read after bytes were written at other addresses. -/
theorem cellGet_cellWrite_out {m : List Host.Cell} (h : Memory.wf m = true) {a x : Nat} (bs : Bytes)
    (hx : x < a ∨ a + bs.length ≤ x) : cellGet (cellWrite m a bs) x = cellGet m x := by
  induction bs generalizing m a with
  | nil => rfl
  | cons v vs ih =>
    simp only [List.length_cons] at hx
    rw [cellWrite, ih (wf_cellSet h a v) (by omega), cellGet_cellSet h, if_neg (by omega)]

/-- What was written is read back. -/
theorem cellRead_cellWrite {m : List Host.Cell} (h : Memory.wf m = true) (a : Nat) (bs : Bytes) :
    cellRead (cellWrite m a bs) a bs.length = bs := by
  induction bs generalizing m a with
  | nil => rfl
  | cons v vs ih =>
    simp only [cellWrite, List.length_cons, cellRead]
    rw [cellGet_cellWrite_out (wf_cellSet h a v) vs (by omega), cellGet_cellSet h, if_pos rfl, ih (wf_cellSet h a v)]

@[simp] theorem leBytes_length (n v : Nat) : (leBytes n v).length = n := by
  induction n generalizing v with
  | zero => rfl
  | succ n ih => simp [leBytes, ih]

/-- Little-endian bytes give their value back (R3). -/
theorem leVal_leBytes (n v : Nat) (h : v < 2 ^ (8 * n)) : leVal (leBytes n v) = v := by
  induction n generalizing v with
  | zero => simp [leBytes, leVal] at *; omega
  | succ n ih =>
    have : 2 ^ (8 * (n + 1)) = 256 * 2 ^ (8 * n) := by rw [Nat.mul_add, Nat.pow_add]; omega
    simp only [leBytes, leVal, BitVec.toNat_ofNat]
    rw [ih (v / 256) (by omega)]
    omega

end Sys2Proof.Machine
end

