-- ==== Sys2Proof/Laws/State.lean ====
section
/-! SUPPORT. What each update of the state leaves as it was, field by field, so that no proof unfolds a record update. -/

namespace Sys2Proof.Machine

variable (b : Block)

@[simp] theorem State.put_toBlock (s : State) : (s.put b).toBlock = b := rfl
@[simp] theorem State.put_pending (s : State) : (s.put b).pending = s.pending := rfl
@[simp] theorem State.put_put (s : State) (b' : Block) : (s.put b).put b' = s.put b' := rfl
@[simp] theorem State.put_self (s : State) : s.put s.toBlock = s := rfl

@[simp] theorem setFi_cmem (f : Fld) (i v : Nat) : (b.setFi f i v).cmem = b.cmem := rfl
@[simp] theorem setFi_hbm (f : Fld) (i v : Nat) : (b.setFi f i v).hbm = b.hbm := rfl
@[simp] theorem setFi_fresh (f : Fld) (i v : Nat) : (b.setFi f i v).fresh = b.fresh := rfl
@[simp] theorem setFi_intr (f : Fld) (i v : Nat) : (b.setFi f i v).intr = b.intr := rfl
@[simp] theorem setFi_rdata (f : Fld) (i v : Nat) : (b.setFi f i v).rdata = b.rdata := rfl
@[simp] theorem setFi_rtp (f : Fld) (i v : Nat) : (b.setFi f i v).rtp = b.rtp := rfl
@[simp] theorem setFi_ses (f : Fld) (i v : Nat) : (b.setFi f i v).ses = b.ses := rfl
@[simp] theorem setFi_fe (f : Fld) (i v : Nat) : (b.setFi f i v).fe = b.fe := rfl
@[simp] theorem setFi_ten (f : Fld) (i v : Nat) : (b.setFi f i v).ten = b.ten := rfl
@[simp] theorem setFi_ste (f : Fld) (i v : Nat) : (b.setFi f i v).ste = b.ste := rfl
@[simp] theorem setFi_spk (f : Fld) (i v : Nat) : (b.setFi f i v).spk = b.spk := rfl
@[simp] theorem setFi_txu (f : Fld) (i v : Nat) : (b.setFi f i v).txu = b.txu := rfl
@[simp] theorem setFi_nms (f : Fld) (i v : Nat) : (b.setFi f i v).nms = b.nms := rfl
@[simp] theorem setFi_mem (f : Fld) (i v : Nat) : (b.setFi f i v).mem = b.mem := rfl
@[simp] theorem setFi_cmp (f : Fld) (i v : Nat) : (b.setFi f i v).cmp = b.cmp := rfl
@[simp] theorem setFi_link (f : Fld) (i v : Nat) : (b.setFi f i v).link = b.link := rfl
@[simp] theorem setFi_tdm (f : Fld) (i v : Nat) : (b.setFi f i v).tdm = b.tdm := rfl
@[simp] theorem setFi_brp (f : Fld) (i v : Nat) : (b.setFi f i v).brp = b.brp := rfl
@[simp] theorem setFi_pmc (f : Fld) (i v : Nat) : (b.setFi f i v).pmc = b.pmc := rfl
@[simp] theorem setFi_mod (f : Fld) (i v : Nat) : (b.setFi f i v).mod = b.mod := rfl

@[simp] theorem setF_cmem (f : Fld) (v : Nat) : (b.setF f v).cmem = b.cmem := rfl
@[simp] theorem setF_hbm (f : Fld) (v : Nat) : (b.setF f v).hbm = b.hbm := rfl
@[simp] theorem setF_fresh (f : Fld) (v : Nat) : (b.setF f v).fresh = b.fresh := rfl
@[simp] theorem setF_intr (f : Fld) (v : Nat) : (b.setF f v).intr = b.intr := rfl
@[simp] theorem setF_rdata (f : Fld) (v : Nat) : (b.setF f v).rdata = b.rdata := rfl
@[simp] theorem setF_rtp (f : Fld) (v : Nat) : (b.setF f v).rtp = b.rtp := rfl
@[simp] theorem setF_ses (f : Fld) (v : Nat) : (b.setF f v).ses = b.ses := rfl
@[simp] theorem setF_fe (f : Fld) (v : Nat) : (b.setF f v).fe = b.fe := rfl
@[simp] theorem setF_ten (f : Fld) (v : Nat) : (b.setF f v).ten = b.ten := rfl
@[simp] theorem setF_ste (f : Fld) (v : Nat) : (b.setF f v).ste = b.ste := rfl
@[simp] theorem setF_spk (f : Fld) (v : Nat) : (b.setF f v).spk = b.spk := rfl
@[simp] theorem setF_txu (f : Fld) (v : Nat) : (b.setF f v).txu = b.txu := rfl
@[simp] theorem setF_nms (f : Fld) (v : Nat) : (b.setF f v).nms = b.nms := rfl
@[simp] theorem setF_mem (f : Fld) (v : Nat) : (b.setF f v).mem = b.mem := rfl
@[simp] theorem setF_cmp (f : Fld) (v : Nat) : (b.setF f v).cmp = b.cmp := rfl
@[simp] theorem setF_link (f : Fld) (v : Nat) : (b.setF f v).link = b.link := rfl
@[simp] theorem setF_tdm (f : Fld) (v : Nat) : (b.setF f v).tdm = b.tdm := rfl
@[simp] theorem setF_brp (f : Fld) (v : Nat) : (b.setF f v).brp = b.brp := rfl
@[simp] theorem setF_pmc (f : Fld) (v : Nat) : (b.setF f v).pmc = b.pmc := rfl
@[simp] theorem setF_mod (f : Fld) (v : Nat) : (b.setF f v).mod = b.mod := rfl

@[simp] theorem bumpFi_cmem (f : Fld) (i n : Nat) : (b.bumpFi f i n).cmem = b.cmem := rfl
@[simp] theorem bumpFi_hbm (f : Fld) (i n : Nat) : (b.bumpFi f i n).hbm = b.hbm := rfl
@[simp] theorem bumpFi_fresh (f : Fld) (i n : Nat) : (b.bumpFi f i n).fresh = b.fresh := rfl
@[simp] theorem bumpFi_intr (f : Fld) (i n : Nat) : (b.bumpFi f i n).intr = b.intr := rfl
@[simp] theorem bumpFi_rdata (f : Fld) (i n : Nat) : (b.bumpFi f i n).rdata = b.rdata := rfl
@[simp] theorem bumpFi_rtp (f : Fld) (i n : Nat) : (b.bumpFi f i n).rtp = b.rtp := rfl
@[simp] theorem bumpFi_ses (f : Fld) (i n : Nat) : (b.bumpFi f i n).ses = b.ses := rfl
@[simp] theorem bumpFi_fe (f : Fld) (i n : Nat) : (b.bumpFi f i n).fe = b.fe := rfl
@[simp] theorem bumpFi_ten (f : Fld) (i n : Nat) : (b.bumpFi f i n).ten = b.ten := rfl
@[simp] theorem bumpFi_ste (f : Fld) (i n : Nat) : (b.bumpFi f i n).ste = b.ste := rfl
@[simp] theorem bumpFi_spk (f : Fld) (i n : Nat) : (b.bumpFi f i n).spk = b.spk := rfl
@[simp] theorem bumpFi_txu (f : Fld) (i n : Nat) : (b.bumpFi f i n).txu = b.txu := rfl
@[simp] theorem bumpFi_nms (f : Fld) (i n : Nat) : (b.bumpFi f i n).nms = b.nms := rfl
@[simp] theorem bumpFi_mem (f : Fld) (i n : Nat) : (b.bumpFi f i n).mem = b.mem := rfl
@[simp] theorem bumpFi_cmp (f : Fld) (i n : Nat) : (b.bumpFi f i n).cmp = b.cmp := rfl
@[simp] theorem bumpFi_link (f : Fld) (i n : Nat) : (b.bumpFi f i n).link = b.link := rfl
@[simp] theorem bumpFi_tdm (f : Fld) (i n : Nat) : (b.bumpFi f i n).tdm = b.tdm := rfl
@[simp] theorem bumpFi_brp (f : Fld) (i n : Nat) : (b.bumpFi f i n).brp = b.brp := rfl
@[simp] theorem bumpFi_pmc (f : Fld) (i n : Nat) : (b.bumpFi f i n).pmc = b.pmc := rfl
@[simp] theorem bumpFi_mod (f : Fld) (i n : Nat) : (b.bumpFi f i n).mod = b.mod := rfl

@[simp] theorem bumpN_cmem (f : Fld) (n : Nat) : (b.bumpN f n).cmem = b.cmem := rfl
@[simp] theorem bumpN_hbm (f : Fld) (n : Nat) : (b.bumpN f n).hbm = b.hbm := rfl
@[simp] theorem bumpN_fresh (f : Fld) (n : Nat) : (b.bumpN f n).fresh = b.fresh := rfl
@[simp] theorem bumpN_intr (f : Fld) (n : Nat) : (b.bumpN f n).intr = b.intr := rfl
@[simp] theorem bumpN_rdata (f : Fld) (n : Nat) : (b.bumpN f n).rdata = b.rdata := rfl
@[simp] theorem bumpN_rtp (f : Fld) (n : Nat) : (b.bumpN f n).rtp = b.rtp := rfl
@[simp] theorem bumpN_ses (f : Fld) (n : Nat) : (b.bumpN f n).ses = b.ses := rfl
@[simp] theorem bumpN_fe (f : Fld) (n : Nat) : (b.bumpN f n).fe = b.fe := rfl
@[simp] theorem bumpN_ten (f : Fld) (n : Nat) : (b.bumpN f n).ten = b.ten := rfl
@[simp] theorem bumpN_ste (f : Fld) (n : Nat) : (b.bumpN f n).ste = b.ste := rfl
@[simp] theorem bumpN_spk (f : Fld) (n : Nat) : (b.bumpN f n).spk = b.spk := rfl
@[simp] theorem bumpN_txu (f : Fld) (n : Nat) : (b.bumpN f n).txu = b.txu := rfl
@[simp] theorem bumpN_nms (f : Fld) (n : Nat) : (b.bumpN f n).nms = b.nms := rfl
@[simp] theorem bumpN_mem (f : Fld) (n : Nat) : (b.bumpN f n).mem = b.mem := rfl
@[simp] theorem bumpN_cmp (f : Fld) (n : Nat) : (b.bumpN f n).cmp = b.cmp := rfl
@[simp] theorem bumpN_link (f : Fld) (n : Nat) : (b.bumpN f n).link = b.link := rfl
@[simp] theorem bumpN_tdm (f : Fld) (n : Nat) : (b.bumpN f n).tdm = b.tdm := rfl
@[simp] theorem bumpN_brp (f : Fld) (n : Nat) : (b.bumpN f n).brp = b.brp := rfl
@[simp] theorem bumpN_pmc (f : Fld) (n : Nat) : (b.bumpN f n).pmc = b.pmc := rfl
@[simp] theorem bumpN_mod (f : Fld) (n : Nat) : (b.bumpN f n).mod = b.mod := rfl

@[simp] theorem bump_cmem (f : Fld) : (b.bump f).cmem = b.cmem := rfl
@[simp] theorem bump_hbm (f : Fld) : (b.bump f).hbm = b.hbm := rfl
@[simp] theorem bump_fresh (f : Fld) : (b.bump f).fresh = b.fresh := rfl
@[simp] theorem bump_intr (f : Fld) : (b.bump f).intr = b.intr := rfl
@[simp] theorem bump_rdata (f : Fld) : (b.bump f).rdata = b.rdata := rfl
@[simp] theorem bump_rtp (f : Fld) : (b.bump f).rtp = b.rtp := rfl
@[simp] theorem bump_ses (f : Fld) : (b.bump f).ses = b.ses := rfl
@[simp] theorem bump_fe (f : Fld) : (b.bump f).fe = b.fe := rfl
@[simp] theorem bump_ten (f : Fld) : (b.bump f).ten = b.ten := rfl
@[simp] theorem bump_ste (f : Fld) : (b.bump f).ste = b.ste := rfl
@[simp] theorem bump_spk (f : Fld) : (b.bump f).spk = b.spk := rfl
@[simp] theorem bump_txu (f : Fld) : (b.bump f).txu = b.txu := rfl
@[simp] theorem bump_nms (f : Fld) : (b.bump f).nms = b.nms := rfl
@[simp] theorem bump_mem (f : Fld) : (b.bump f).mem = b.mem := rfl
@[simp] theorem bump_cmp (f : Fld) : (b.bump f).cmp = b.cmp := rfl
@[simp] theorem bump_link (f : Fld) : (b.bump f).link = b.link := rfl
@[simp] theorem bump_tdm (f : Fld) : (b.bump f).tdm = b.tdm := rfl
@[simp] theorem bump_brp (f : Fld) : (b.bump f).brp = b.brp := rfl
@[simp] theorem bump_pmc (f : Fld) : (b.bump f).pmc = b.pmc := rfl
@[simp] theorem bump_mod (f : Fld) : (b.bump f).mod = b.mod := rfl

@[simp] theorem pokeBytes_flds (a : Nat) (bs : Bytes) : (b.pokeBytes a bs).flds = b.flds := rfl
@[simp] theorem pokeBytes_hbm (a : Nat) (bs : Bytes) : (b.pokeBytes a bs).hbm = b.hbm := rfl
@[simp] theorem pokeBytes_fresh (a : Nat) (bs : Bytes) : (b.pokeBytes a bs).fresh = b.fresh := rfl
@[simp] theorem pokeBytes_intr (a : Nat) (bs : Bytes) : (b.pokeBytes a bs).intr = b.intr := rfl
@[simp] theorem pokeBytes_rdata (a : Nat) (bs : Bytes) : (b.pokeBytes a bs).rdata = b.rdata := rfl
@[simp] theorem pokeBytes_rtp (a : Nat) (bs : Bytes) : (b.pokeBytes a bs).rtp = b.rtp := rfl
@[simp] theorem pokeBytes_ses (a : Nat) (bs : Bytes) : (b.pokeBytes a bs).ses = b.ses := rfl
@[simp] theorem pokeBytes_fe (a : Nat) (bs : Bytes) : (b.pokeBytes a bs).fe = b.fe := rfl
@[simp] theorem pokeBytes_ten (a : Nat) (bs : Bytes) : (b.pokeBytes a bs).ten = b.ten := rfl
@[simp] theorem pokeBytes_ste (a : Nat) (bs : Bytes) : (b.pokeBytes a bs).ste = b.ste := rfl
@[simp] theorem pokeBytes_spk (a : Nat) (bs : Bytes) : (b.pokeBytes a bs).spk = b.spk := rfl
@[simp] theorem pokeBytes_txu (a : Nat) (bs : Bytes) : (b.pokeBytes a bs).txu = b.txu := rfl
@[simp] theorem pokeBytes_nms (a : Nat) (bs : Bytes) : (b.pokeBytes a bs).nms = b.nms := rfl
@[simp] theorem pokeBytes_mem (a : Nat) (bs : Bytes) : (b.pokeBytes a bs).mem = b.mem := rfl
@[simp] theorem pokeBytes_cmp (a : Nat) (bs : Bytes) : (b.pokeBytes a bs).cmp = b.cmp := rfl
@[simp] theorem pokeBytes_link (a : Nat) (bs : Bytes) : (b.pokeBytes a bs).link = b.link := rfl
@[simp] theorem pokeBytes_tdm (a : Nat) (bs : Bytes) : (b.pokeBytes a bs).tdm = b.tdm := rfl
@[simp] theorem pokeBytes_brp (a : Nat) (bs : Bytes) : (b.pokeBytes a bs).brp = b.brp := rfl
@[simp] theorem pokeBytes_pmc (a : Nat) (bs : Bytes) : (b.pokeBytes a bs).pmc = b.pmc := rfl
@[simp] theorem pokeBytes_mod (a : Nat) (bs : Bytes) : (b.pokeBytes a bs).mod = b.mod := rfl

@[simp] theorem pokeLe_flds (a n v : Nat) : (b.pokeLe a n v).flds = b.flds := rfl
@[simp] theorem pokeLe_hbm (a n v : Nat) : (b.pokeLe a n v).hbm = b.hbm := rfl
@[simp] theorem pokeLe_fresh (a n v : Nat) : (b.pokeLe a n v).fresh = b.fresh := rfl
@[simp] theorem pokeLe_intr (a n v : Nat) : (b.pokeLe a n v).intr = b.intr := rfl
@[simp] theorem pokeLe_rdata (a n v : Nat) : (b.pokeLe a n v).rdata = b.rdata := rfl
@[simp] theorem pokeLe_rtp (a n v : Nat) : (b.pokeLe a n v).rtp = b.rtp := rfl
@[simp] theorem pokeLe_ses (a n v : Nat) : (b.pokeLe a n v).ses = b.ses := rfl
@[simp] theorem pokeLe_fe (a n v : Nat) : (b.pokeLe a n v).fe = b.fe := rfl
@[simp] theorem pokeLe_ten (a n v : Nat) : (b.pokeLe a n v).ten = b.ten := rfl
@[simp] theorem pokeLe_ste (a n v : Nat) : (b.pokeLe a n v).ste = b.ste := rfl
@[simp] theorem pokeLe_spk (a n v : Nat) : (b.pokeLe a n v).spk = b.spk := rfl
@[simp] theorem pokeLe_txu (a n v : Nat) : (b.pokeLe a n v).txu = b.txu := rfl
@[simp] theorem pokeLe_nms (a n v : Nat) : (b.pokeLe a n v).nms = b.nms := rfl
@[simp] theorem pokeLe_mem (a n v : Nat) : (b.pokeLe a n v).mem = b.mem := rfl
@[simp] theorem pokeLe_cmp (a n v : Nat) : (b.pokeLe a n v).cmp = b.cmp := rfl
@[simp] theorem pokeLe_link (a n v : Nat) : (b.pokeLe a n v).link = b.link := rfl
@[simp] theorem pokeLe_tdm (a n v : Nat) : (b.pokeLe a n v).tdm = b.tdm := rfl
@[simp] theorem pokeLe_brp (a n v : Nat) : (b.pokeLe a n v).brp = b.brp := rfl
@[simp] theorem pokeLe_pmc (a n v : Nat) : (b.pokeLe a n v).pmc = b.pmc := rfl
@[simp] theorem pokeLe_mod (a n v : Nat) : (b.pokeLe a n v).mod = b.mod := rfl

@[simp] theorem setIntSrc_flds (n : Nat) (x : IntSrc) : (setIntSrc n x b).flds = b.flds := rfl
@[simp] theorem setIntSrc_cmem (n : Nat) (x : IntSrc) : (setIntSrc n x b).cmem = b.cmem := rfl
@[simp] theorem setIntSrc_hbm (n : Nat) (x : IntSrc) : (setIntSrc n x b).hbm = b.hbm := rfl
@[simp] theorem setIntSrc_fresh (n : Nat) (x : IntSrc) : (setIntSrc n x b).fresh = b.fresh := rfl
@[simp] theorem setIntSrc_rdata (n : Nat) (x : IntSrc) : (setIntSrc n x b).rdata = b.rdata := rfl
@[simp] theorem setIntSrc_rtp (n : Nat) (x : IntSrc) : (setIntSrc n x b).rtp = b.rtp := rfl
@[simp] theorem setIntSrc_ses (n : Nat) (x : IntSrc) : (setIntSrc n x b).ses = b.ses := rfl
@[simp] theorem setIntSrc_fe (n : Nat) (x : IntSrc) : (setIntSrc n x b).fe = b.fe := rfl
@[simp] theorem setIntSrc_ten (n : Nat) (x : IntSrc) : (setIntSrc n x b).ten = b.ten := rfl
@[simp] theorem setIntSrc_ste (n : Nat) (x : IntSrc) : (setIntSrc n x b).ste = b.ste := rfl
@[simp] theorem setIntSrc_spk (n : Nat) (x : IntSrc) : (setIntSrc n x b).spk = b.spk := rfl
@[simp] theorem setIntSrc_txu (n : Nat) (x : IntSrc) : (setIntSrc n x b).txu = b.txu := rfl
@[simp] theorem setIntSrc_nms (n : Nat) (x : IntSrc) : (setIntSrc n x b).nms = b.nms := rfl
@[simp] theorem setIntSrc_mem (n : Nat) (x : IntSrc) : (setIntSrc n x b).mem = b.mem := rfl
@[simp] theorem setIntSrc_cmp (n : Nat) (x : IntSrc) : (setIntSrc n x b).cmp = b.cmp := rfl
@[simp] theorem setIntSrc_link (n : Nat) (x : IntSrc) : (setIntSrc n x b).link = b.link := rfl
@[simp] theorem setIntSrc_tdm (n : Nat) (x : IntSrc) : (setIntSrc n x b).tdm = b.tdm := rfl
@[simp] theorem setIntSrc_brp (n : Nat) (x : IntSrc) : (setIntSrc n x b).brp = b.brp := rfl
@[simp] theorem setIntSrc_pmc (n : Nat) (x : IntSrc) : (setIntSrc n x b).pmc = b.pmc := rfl
@[simp] theorem setIntSrc_mod (n : Nat) (x : IntSrc) : (setIntSrc n x b).mod = b.mod := rfl

@[simp] theorem setSession_flds (n : Nat) (x : Session) : (setSession n x b).flds = b.flds := rfl
@[simp] theorem setSession_cmem (n : Nat) (x : Session) : (setSession n x b).cmem = b.cmem := rfl
@[simp] theorem setSession_hbm (n : Nat) (x : Session) : (setSession n x b).hbm = b.hbm := rfl
@[simp] theorem setSession_fresh (n : Nat) (x : Session) : (setSession n x b).fresh = b.fresh := rfl
@[simp] theorem setSession_intr (n : Nat) (x : Session) : (setSession n x b).intr = b.intr := rfl
@[simp] theorem setSession_rdata (n : Nat) (x : Session) : (setSession n x b).rdata = b.rdata := rfl
@[simp] theorem setSession_rtp (n : Nat) (x : Session) : (setSession n x b).rtp = b.rtp := rfl
@[simp] theorem setSession_fe (n : Nat) (x : Session) : (setSession n x b).fe = b.fe := rfl
@[simp] theorem setSession_ten (n : Nat) (x : Session) : (setSession n x b).ten = b.ten := rfl
@[simp] theorem setSession_ste (n : Nat) (x : Session) : (setSession n x b).ste = b.ste := rfl
@[simp] theorem setSession_spk (n : Nat) (x : Session) : (setSession n x b).spk = b.spk := rfl
@[simp] theorem setSession_txu (n : Nat) (x : Session) : (setSession n x b).txu = b.txu := rfl
@[simp] theorem setSession_nms (n : Nat) (x : Session) : (setSession n x b).nms = b.nms := rfl
@[simp] theorem setSession_mem (n : Nat) (x : Session) : (setSession n x b).mem = b.mem := rfl
@[simp] theorem setSession_cmp (n : Nat) (x : Session) : (setSession n x b).cmp = b.cmp := rfl
@[simp] theorem setSession_link (n : Nat) (x : Session) : (setSession n x b).link = b.link := rfl
@[simp] theorem setSession_tdm (n : Nat) (x : Session) : (setSession n x b).tdm = b.tdm := rfl
@[simp] theorem setSession_brp (n : Nat) (x : Session) : (setSession n x b).brp = b.brp := rfl
@[simp] theorem setSession_pmc (n : Nat) (x : Session) : (setSession n x b).pmc = b.pmc := rfl
@[simp] theorem setSession_mod (n : Nat) (x : Session) : (setSession n x b).mod = b.mod := rfl

@[simp] theorem updSession_flds (n : Nat) (f : Session → Session) : (updSession n f b).flds = b.flds := rfl
@[simp] theorem updSession_cmem (n : Nat) (f : Session → Session) : (updSession n f b).cmem = b.cmem := rfl
@[simp] theorem updSession_hbm (n : Nat) (f : Session → Session) : (updSession n f b).hbm = b.hbm := rfl
@[simp] theorem updSession_fresh (n : Nat) (f : Session → Session) : (updSession n f b).fresh = b.fresh := rfl
@[simp] theorem updSession_intr (n : Nat) (f : Session → Session) : (updSession n f b).intr = b.intr := rfl
@[simp] theorem updSession_rdata (n : Nat) (f : Session → Session) : (updSession n f b).rdata = b.rdata := rfl
@[simp] theorem updSession_rtp (n : Nat) (f : Session → Session) : (updSession n f b).rtp = b.rtp := rfl
@[simp] theorem updSession_fe (n : Nat) (f : Session → Session) : (updSession n f b).fe = b.fe := rfl
@[simp] theorem updSession_ten (n : Nat) (f : Session → Session) : (updSession n f b).ten = b.ten := rfl
@[simp] theorem updSession_ste (n : Nat) (f : Session → Session) : (updSession n f b).ste = b.ste := rfl
@[simp] theorem updSession_spk (n : Nat) (f : Session → Session) : (updSession n f b).spk = b.spk := rfl
@[simp] theorem updSession_txu (n : Nat) (f : Session → Session) : (updSession n f b).txu = b.txu := rfl
@[simp] theorem updSession_nms (n : Nat) (f : Session → Session) : (updSession n f b).nms = b.nms := rfl
@[simp] theorem updSession_mem (n : Nat) (f : Session → Session) : (updSession n f b).mem = b.mem := rfl
@[simp] theorem updSession_cmp (n : Nat) (f : Session → Session) : (updSession n f b).cmp = b.cmp := rfl
@[simp] theorem updSession_link (n : Nat) (f : Session → Session) : (updSession n f b).link = b.link := rfl
@[simp] theorem updSession_tdm (n : Nat) (f : Session → Session) : (updSession n f b).tdm = b.tdm := rfl
@[simp] theorem updSession_brp (n : Nat) (f : Session → Session) : (updSession n f b).brp = b.brp := rfl
@[simp] theorem updSession_pmc (n : Nat) (f : Session → Session) : (updSession n f b).pmc = b.pmc := rfl
@[simp] theorem updSession_mod (n : Nat) (f : Session → Session) : (updSession n f b).mod = b.mod := rfl

@[simp] theorem setReq_flds (n : Nat) (q : Req) : (setReq n q b).flds = b.flds := rfl
@[simp] theorem setReq_cmem (n : Nat) (q : Req) : (setReq n q b).cmem = b.cmem := rfl
@[simp] theorem setReq_hbm (n : Nat) (q : Req) : (setReq n q b).hbm = b.hbm := rfl
@[simp] theorem setReq_fresh (n : Nat) (q : Req) : (setReq n q b).fresh = b.fresh := rfl
@[simp] theorem setReq_intr (n : Nat) (q : Req) : (setReq n q b).intr = b.intr := rfl
@[simp] theorem setReq_rdata (n : Nat) (q : Req) : (setReq n q b).rdata = b.rdata := rfl
@[simp] theorem setReq_rtp (n : Nat) (q : Req) : (setReq n q b).rtp = b.rtp := rfl
@[simp] theorem setReq_ses (n : Nat) (q : Req) : (setReq n q b).ses = b.ses := rfl
@[simp] theorem setReq_ten (n : Nat) (q : Req) : (setReq n q b).ten = b.ten := rfl
@[simp] theorem setReq_ste (n : Nat) (q : Req) : (setReq n q b).ste = b.ste := rfl
@[simp] theorem setReq_spk (n : Nat) (q : Req) : (setReq n q b).spk = b.spk := rfl
@[simp] theorem setReq_txu (n : Nat) (q : Req) : (setReq n q b).txu = b.txu := rfl
@[simp] theorem setReq_nms (n : Nat) (q : Req) : (setReq n q b).nms = b.nms := rfl
@[simp] theorem setReq_mem (n : Nat) (q : Req) : (setReq n q b).mem = b.mem := rfl
@[simp] theorem setReq_cmp (n : Nat) (q : Req) : (setReq n q b).cmp = b.cmp := rfl
@[simp] theorem setReq_link (n : Nat) (q : Req) : (setReq n q b).link = b.link := rfl
@[simp] theorem setReq_tdm (n : Nat) (q : Req) : (setReq n q b).tdm = b.tdm := rfl
@[simp] theorem setReq_brp (n : Nat) (q : Req) : (setReq n q b).brp = b.brp := rfl
@[simp] theorem setReq_pmc (n : Nat) (q : Req) : (setReq n q b).pmc = b.pmc := rfl
@[simp] theorem setReq_mod (n : Nat) (q : Req) : (setReq n q b).mod = b.mod := rfl

@[simp] theorem updReq_flds (n : Nat) (f : Req → Req) : (updReq n f b).flds = b.flds := rfl
@[simp] theorem updReq_cmem (n : Nat) (f : Req → Req) : (updReq n f b).cmem = b.cmem := rfl
@[simp] theorem updReq_hbm (n : Nat) (f : Req → Req) : (updReq n f b).hbm = b.hbm := rfl
@[simp] theorem updReq_fresh (n : Nat) (f : Req → Req) : (updReq n f b).fresh = b.fresh := rfl
@[simp] theorem updReq_intr (n : Nat) (f : Req → Req) : (updReq n f b).intr = b.intr := rfl
@[simp] theorem updReq_rdata (n : Nat) (f : Req → Req) : (updReq n f b).rdata = b.rdata := rfl
@[simp] theorem updReq_rtp (n : Nat) (f : Req → Req) : (updReq n f b).rtp = b.rtp := rfl
@[simp] theorem updReq_ses (n : Nat) (f : Req → Req) : (updReq n f b).ses = b.ses := rfl
@[simp] theorem updReq_ten (n : Nat) (f : Req → Req) : (updReq n f b).ten = b.ten := rfl
@[simp] theorem updReq_ste (n : Nat) (f : Req → Req) : (updReq n f b).ste = b.ste := rfl
@[simp] theorem updReq_spk (n : Nat) (f : Req → Req) : (updReq n f b).spk = b.spk := rfl
@[simp] theorem updReq_txu (n : Nat) (f : Req → Req) : (updReq n f b).txu = b.txu := rfl
@[simp] theorem updReq_nms (n : Nat) (f : Req → Req) : (updReq n f b).nms = b.nms := rfl
@[simp] theorem updReq_mem (n : Nat) (f : Req → Req) : (updReq n f b).mem = b.mem := rfl
@[simp] theorem updReq_cmp (n : Nat) (f : Req → Req) : (updReq n f b).cmp = b.cmp := rfl
@[simp] theorem updReq_link (n : Nat) (f : Req → Req) : (updReq n f b).link = b.link := rfl
@[simp] theorem updReq_tdm (n : Nat) (f : Req → Req) : (updReq n f b).tdm = b.tdm := rfl
@[simp] theorem updReq_brp (n : Nat) (f : Req → Req) : (updReq n f b).brp = b.brp := rfl
@[simp] theorem updReq_pmc (n : Nat) (f : Req → Req) : (updReq n f b).pmc = b.pmc := rfl
@[simp] theorem updReq_mod (n : Nat) (f : Req → Req) : (updReq n f b).mod = b.mod := rfl

@[simp] theorem delReq_flds (n : Nat) : (delReq n b).flds = b.flds := rfl
@[simp] theorem delReq_cmem (n : Nat) : (delReq n b).cmem = b.cmem := rfl
@[simp] theorem delReq_hbm (n : Nat) : (delReq n b).hbm = b.hbm := rfl
@[simp] theorem delReq_fresh (n : Nat) : (delReq n b).fresh = b.fresh := rfl
@[simp] theorem delReq_intr (n : Nat) : (delReq n b).intr = b.intr := rfl
@[simp] theorem delReq_rdata (n : Nat) : (delReq n b).rdata = b.rdata := rfl
@[simp] theorem delReq_rtp (n : Nat) : (delReq n b).rtp = b.rtp := rfl
@[simp] theorem delReq_ses (n : Nat) : (delReq n b).ses = b.ses := rfl
@[simp] theorem delReq_ten (n : Nat) : (delReq n b).ten = b.ten := rfl
@[simp] theorem delReq_ste (n : Nat) : (delReq n b).ste = b.ste := rfl
@[simp] theorem delReq_spk (n : Nat) : (delReq n b).spk = b.spk := rfl
@[simp] theorem delReq_txu (n : Nat) : (delReq n b).txu = b.txu := rfl
@[simp] theorem delReq_nms (n : Nat) : (delReq n b).nms = b.nms := rfl
@[simp] theorem delReq_mem (n : Nat) : (delReq n b).mem = b.mem := rfl
@[simp] theorem delReq_cmp (n : Nat) : (delReq n b).cmp = b.cmp := rfl
@[simp] theorem delReq_link (n : Nat) : (delReq n b).link = b.link := rfl
@[simp] theorem delReq_tdm (n : Nat) : (delReq n b).tdm = b.tdm := rfl
@[simp] theorem delReq_brp (n : Nat) : (delReq n b).brp = b.brp := rfl
@[simp] theorem delReq_pmc (n : Nat) : (delReq n b).pmc = b.pmc := rfl
@[simp] theorem delReq_mod (n : Nat) : (delReq n b).mod = b.mod := rfl

@[simp] theorem updRing_flds (n : Nat) (f : Ring → Ring) : (updRing n f b).flds = b.flds := rfl
@[simp] theorem updRing_cmem (n : Nat) (f : Ring → Ring) : (updRing n f b).cmem = b.cmem := rfl
@[simp] theorem updRing_hbm (n : Nat) (f : Ring → Ring) : (updRing n f b).hbm = b.hbm := rfl
@[simp] theorem updRing_fresh (n : Nat) (f : Ring → Ring) : (updRing n f b).fresh = b.fresh := rfl
@[simp] theorem updRing_intr (n : Nat) (f : Ring → Ring) : (updRing n f b).intr = b.intr := rfl
@[simp] theorem updRing_rdata (n : Nat) (f : Ring → Ring) : (updRing n f b).rdata = b.rdata := rfl
@[simp] theorem updRing_rtp (n : Nat) (f : Ring → Ring) : (updRing n f b).rtp = b.rtp := rfl
@[simp] theorem updRing_ses (n : Nat) (f : Ring → Ring) : (updRing n f b).ses = b.ses := rfl
@[simp] theorem updRing_ten (n : Nat) (f : Ring → Ring) : (updRing n f b).ten = b.ten := rfl
@[simp] theorem updRing_ste (n : Nat) (f : Ring → Ring) : (updRing n f b).ste = b.ste := rfl
@[simp] theorem updRing_spk (n : Nat) (f : Ring → Ring) : (updRing n f b).spk = b.spk := rfl
@[simp] theorem updRing_txu (n : Nat) (f : Ring → Ring) : (updRing n f b).txu = b.txu := rfl
@[simp] theorem updRing_nms (n : Nat) (f : Ring → Ring) : (updRing n f b).nms = b.nms := rfl
@[simp] theorem updRing_mem (n : Nat) (f : Ring → Ring) : (updRing n f b).mem = b.mem := rfl
@[simp] theorem updRing_cmp (n : Nat) (f : Ring → Ring) : (updRing n f b).cmp = b.cmp := rfl
@[simp] theorem updRing_link (n : Nat) (f : Ring → Ring) : (updRing n f b).link = b.link := rfl
@[simp] theorem updRing_tdm (n : Nat) (f : Ring → Ring) : (updRing n f b).tdm = b.tdm := rfl
@[simp] theorem updRing_brp (n : Nat) (f : Ring → Ring) : (updRing n f b).brp = b.brp := rfl
@[simp] theorem updRing_pmc (n : Nat) (f : Ring → Ring) : (updRing n f b).pmc = b.pmc := rfl
@[simp] theorem updRing_mod (n : Nat) (f : Ring → Ring) : (updRing n f b).mod = b.mod := rfl

@[simp] theorem setModel_flds (n : Nat) (x : Option ModelSlot) : (setModel n x b).flds = b.flds := rfl
@[simp] theorem setModel_cmem (n : Nat) (x : Option ModelSlot) : (setModel n x b).cmem = b.cmem := rfl
@[simp] theorem setModel_hbm (n : Nat) (x : Option ModelSlot) : (setModel n x b).hbm = b.hbm := rfl
@[simp] theorem setModel_fresh (n : Nat) (x : Option ModelSlot) : (setModel n x b).fresh = b.fresh := rfl
@[simp] theorem setModel_intr (n : Nat) (x : Option ModelSlot) : (setModel n x b).intr = b.intr := rfl
@[simp] theorem setModel_rdata (n : Nat) (x : Option ModelSlot) : (setModel n x b).rdata = b.rdata := rfl
@[simp] theorem setModel_rtp (n : Nat) (x : Option ModelSlot) : (setModel n x b).rtp = b.rtp := rfl
@[simp] theorem setModel_ses (n : Nat) (x : Option ModelSlot) : (setModel n x b).ses = b.ses := rfl
@[simp] theorem setModel_fe (n : Nat) (x : Option ModelSlot) : (setModel n x b).fe = b.fe := rfl
@[simp] theorem setModel_ste (n : Nat) (x : Option ModelSlot) : (setModel n x b).ste = b.ste := rfl
@[simp] theorem setModel_spk (n : Nat) (x : Option ModelSlot) : (setModel n x b).spk = b.spk := rfl
@[simp] theorem setModel_txu (n : Nat) (x : Option ModelSlot) : (setModel n x b).txu = b.txu := rfl
@[simp] theorem setModel_nms (n : Nat) (x : Option ModelSlot) : (setModel n x b).nms = b.nms := rfl
@[simp] theorem setModel_mem (n : Nat) (x : Option ModelSlot) : (setModel n x b).mem = b.mem := rfl
@[simp] theorem setModel_cmp (n : Nat) (x : Option ModelSlot) : (setModel n x b).cmp = b.cmp := rfl
@[simp] theorem setModel_link (n : Nat) (x : Option ModelSlot) : (setModel n x b).link = b.link := rfl
@[simp] theorem setModel_tdm (n : Nat) (x : Option ModelSlot) : (setModel n x b).tdm = b.tdm := rfl
@[simp] theorem setModel_brp (n : Nat) (x : Option ModelSlot) : (setModel n x b).brp = b.brp := rfl
@[simp] theorem setModel_pmc (n : Nat) (x : Option ModelSlot) : (setModel n x b).pmc = b.pmc := rfl
@[simp] theorem setModel_mod (n : Nat) (x : Option ModelSlot) : (setModel n x b).mod = b.mod := rfl

@[simp] theorem setTenant_cmem (n st : Nat) : (setTenant n st b).cmem = b.cmem := rfl
@[simp] theorem setTenant_hbm (n st : Nat) : (setTenant n st b).hbm = b.hbm := rfl
@[simp] theorem setTenant_fresh (n st : Nat) : (setTenant n st b).fresh = b.fresh := rfl
@[simp] theorem setTenant_intr (n st : Nat) : (setTenant n st b).intr = b.intr := rfl
@[simp] theorem setTenant_rdata (n st : Nat) : (setTenant n st b).rdata = b.rdata := rfl
@[simp] theorem setTenant_rtp (n st : Nat) : (setTenant n st b).rtp = b.rtp := rfl
@[simp] theorem setTenant_ses (n st : Nat) : (setTenant n st b).ses = b.ses := rfl
@[simp] theorem setTenant_fe (n st : Nat) : (setTenant n st b).fe = b.fe := rfl
@[simp] theorem setTenant_ten (n st : Nat) : (setTenant n st b).ten = b.ten := rfl
@[simp] theorem setTenant_ste (n st : Nat) : (setTenant n st b).ste = b.ste := rfl
@[simp] theorem setTenant_spk (n st : Nat) : (setTenant n st b).spk = b.spk := rfl
@[simp] theorem setTenant_txu (n st : Nat) : (setTenant n st b).txu = b.txu := rfl
@[simp] theorem setTenant_nms (n st : Nat) : (setTenant n st b).nms = b.nms := rfl
@[simp] theorem setTenant_mem (n st : Nat) : (setTenant n st b).mem = b.mem := rfl
@[simp] theorem setTenant_cmp (n st : Nat) : (setTenant n st b).cmp = b.cmp := rfl
@[simp] theorem setTenant_link (n st : Nat) : (setTenant n st b).link = b.link := rfl
@[simp] theorem setTenant_tdm (n st : Nat) : (setTenant n st b).tdm = b.tdm := rfl
@[simp] theorem setTenant_brp (n st : Nat) : (setTenant n st b).brp = b.brp := rfl
@[simp] theorem setTenant_pmc (n st : Nat) : (setTenant n st b).pmc = b.pmc := rfl
@[simp] theorem setTenant_mod (n st : Nat) : (setTenant n st b).mod = b.mod := rfl

@[simp] theorem setWaiting_flds (ws : List Seqn) : (setWaiting ws b).flds = b.flds := rfl
@[simp] theorem setWaiting_cmem (ws : List Seqn) : (setWaiting ws b).cmem = b.cmem := rfl
@[simp] theorem setWaiting_hbm (ws : List Seqn) : (setWaiting ws b).hbm = b.hbm := rfl
@[simp] theorem setWaiting_fresh (ws : List Seqn) : (setWaiting ws b).fresh = b.fresh := rfl
@[simp] theorem setWaiting_intr (ws : List Seqn) : (setWaiting ws b).intr = b.intr := rfl
@[simp] theorem setWaiting_rdata (ws : List Seqn) : (setWaiting ws b).rdata = b.rdata := rfl
@[simp] theorem setWaiting_rtp (ws : List Seqn) : (setWaiting ws b).rtp = b.rtp := rfl
@[simp] theorem setWaiting_ses (ws : List Seqn) : (setWaiting ws b).ses = b.ses := rfl
@[simp] theorem setWaiting_fe (ws : List Seqn) : (setWaiting ws b).fe = b.fe := rfl
@[simp] theorem setWaiting_ten (ws : List Seqn) : (setWaiting ws b).ten = b.ten := rfl
@[simp] theorem setWaiting_spk (ws : List Seqn) : (setWaiting ws b).spk = b.spk := rfl
@[simp] theorem setWaiting_txu (ws : List Seqn) : (setWaiting ws b).txu = b.txu := rfl
@[simp] theorem setWaiting_nms (ws : List Seqn) : (setWaiting ws b).nms = b.nms := rfl
@[simp] theorem setWaiting_mem (ws : List Seqn) : (setWaiting ws b).mem = b.mem := rfl
@[simp] theorem setWaiting_cmp (ws : List Seqn) : (setWaiting ws b).cmp = b.cmp := rfl
@[simp] theorem setWaiting_link (ws : List Seqn) : (setWaiting ws b).link = b.link := rfl
@[simp] theorem setWaiting_tdm (ws : List Seqn) : (setWaiting ws b).tdm = b.tdm := rfl
@[simp] theorem setWaiting_brp (ws : List Seqn) : (setWaiting ws b).brp = b.brp := rfl
@[simp] theorem setWaiting_pmc (ws : List Seqn) : (setWaiting ws b).pmc = b.pmc := rfl
@[simp] theorem setWaiting_mod (ws : List Seqn) : (setWaiting ws b).mod = b.mod := rfl

@[simp] theorem setPel_flds (n : Nat) (x : Option Peloton) : (setPel n x b).flds = b.flds := by cases x <;> rfl
@[simp] theorem setPel_cmem (n : Nat) (x : Option Peloton) : (setPel n x b).cmem = b.cmem := by cases x <;> rfl
@[simp] theorem setPel_hbm (n : Nat) (x : Option Peloton) : (setPel n x b).hbm = b.hbm := by cases x <;> rfl
@[simp] theorem setPel_fresh (n : Nat) (x : Option Peloton) : (setPel n x b).fresh = b.fresh := by cases x <;> rfl
@[simp] theorem setPel_intr (n : Nat) (x : Option Peloton) : (setPel n x b).intr = b.intr := by cases x <;> rfl
@[simp] theorem setPel_rdata (n : Nat) (x : Option Peloton) : (setPel n x b).rdata = b.rdata := by cases x <;> rfl
@[simp] theorem setPel_rtp (n : Nat) (x : Option Peloton) : (setPel n x b).rtp = b.rtp := by cases x <;> rfl
@[simp] theorem setPel_ses (n : Nat) (x : Option Peloton) : (setPel n x b).ses = b.ses := by cases x <;> rfl
@[simp] theorem setPel_fe (n : Nat) (x : Option Peloton) : (setPel n x b).fe = b.fe := by cases x <;> rfl
@[simp] theorem setPel_ten (n : Nat) (x : Option Peloton) : (setPel n x b).ten = b.ten := by cases x <;> rfl
@[simp] theorem setPel_txu (n : Nat) (x : Option Peloton) : (setPel n x b).txu = b.txu := by cases x <;> rfl
@[simp] theorem setPel_nms (n : Nat) (x : Option Peloton) : (setPel n x b).nms = b.nms := by cases x <;> rfl
@[simp] theorem setPel_mem (n : Nat) (x : Option Peloton) : (setPel n x b).mem = b.mem := by cases x <;> rfl
@[simp] theorem setPel_cmp (n : Nat) (x : Option Peloton) : (setPel n x b).cmp = b.cmp := by cases x <;> rfl
@[simp] theorem setPel_link (n : Nat) (x : Option Peloton) : (setPel n x b).link = b.link := by cases x <;> rfl
@[simp] theorem setPel_tdm (n : Nat) (x : Option Peloton) : (setPel n x b).tdm = b.tdm := by cases x <;> rfl
@[simp] theorem setPel_brp (n : Nat) (x : Option Peloton) : (setPel n x b).brp = b.brp := by cases x <;> rfl
@[simp] theorem setPel_pmc (n : Nat) (x : Option Peloton) : (setPel n x b).pmc = b.pmc := by cases x <;> rfl
@[simp] theorem setPel_mod (n : Nat) (x : Option Peloton) : (setPel n x b).mod = b.mod := by cases x <;> rfl

@[simp] theorem setSpoke_flds (n : Nat) (k : Spoke) : (setSpoke n k b).flds = b.flds := rfl
@[simp] theorem setSpoke_cmem (n : Nat) (k : Spoke) : (setSpoke n k b).cmem = b.cmem := rfl
@[simp] theorem setSpoke_hbm (n : Nat) (k : Spoke) : (setSpoke n k b).hbm = b.hbm := rfl
@[simp] theorem setSpoke_fresh (n : Nat) (k : Spoke) : (setSpoke n k b).fresh = b.fresh := rfl
@[simp] theorem setSpoke_intr (n : Nat) (k : Spoke) : (setSpoke n k b).intr = b.intr := rfl
@[simp] theorem setSpoke_rdata (n : Nat) (k : Spoke) : (setSpoke n k b).rdata = b.rdata := rfl
@[simp] theorem setSpoke_rtp (n : Nat) (k : Spoke) : (setSpoke n k b).rtp = b.rtp := rfl
@[simp] theorem setSpoke_ses (n : Nat) (k : Spoke) : (setSpoke n k b).ses = b.ses := rfl
@[simp] theorem setSpoke_fe (n : Nat) (k : Spoke) : (setSpoke n k b).fe = b.fe := rfl
@[simp] theorem setSpoke_ten (n : Nat) (k : Spoke) : (setSpoke n k b).ten = b.ten := rfl
@[simp] theorem setSpoke_ste (n : Nat) (k : Spoke) : (setSpoke n k b).ste = b.ste := rfl
@[simp] theorem setSpoke_txu (n : Nat) (k : Spoke) : (setSpoke n k b).txu = b.txu := rfl
@[simp] theorem setSpoke_nms (n : Nat) (k : Spoke) : (setSpoke n k b).nms = b.nms := rfl
@[simp] theorem setSpoke_mem (n : Nat) (k : Spoke) : (setSpoke n k b).mem = b.mem := rfl
@[simp] theorem setSpoke_cmp (n : Nat) (k : Spoke) : (setSpoke n k b).cmp = b.cmp := rfl
@[simp] theorem setSpoke_link (n : Nat) (k : Spoke) : (setSpoke n k b).link = b.link := rfl
@[simp] theorem setSpoke_tdm (n : Nat) (k : Spoke) : (setSpoke n k b).tdm = b.tdm := rfl
@[simp] theorem setSpoke_brp (n : Nat) (k : Spoke) : (setSpoke n k b).brp = b.brp := rfl
@[simp] theorem setSpoke_pmc (n : Nat) (k : Spoke) : (setSpoke n k b).pmc = b.pmc := rfl
@[simp] theorem setSpoke_mod (n : Nat) (k : Spoke) : (setSpoke n k b).mod = b.mod := rfl

@[simp] theorem setCog_flds (n : Nat) (x : Option Cog) : (setCog n x b).flds = b.flds := rfl
@[simp] theorem setCog_cmem (n : Nat) (x : Option Cog) : (setCog n x b).cmem = b.cmem := rfl
@[simp] theorem setCog_hbm (n : Nat) (x : Option Cog) : (setCog n x b).hbm = b.hbm := rfl
@[simp] theorem setCog_fresh (n : Nat) (x : Option Cog) : (setCog n x b).fresh = b.fresh := rfl
@[simp] theorem setCog_intr (n : Nat) (x : Option Cog) : (setCog n x b).intr = b.intr := rfl
@[simp] theorem setCog_rdata (n : Nat) (x : Option Cog) : (setCog n x b).rdata = b.rdata := rfl
@[simp] theorem setCog_rtp (n : Nat) (x : Option Cog) : (setCog n x b).rtp = b.rtp := rfl
@[simp] theorem setCog_ses (n : Nat) (x : Option Cog) : (setCog n x b).ses = b.ses := rfl
@[simp] theorem setCog_fe (n : Nat) (x : Option Cog) : (setCog n x b).fe = b.fe := rfl
@[simp] theorem setCog_ten (n : Nat) (x : Option Cog) : (setCog n x b).ten = b.ten := rfl
@[simp] theorem setCog_ste (n : Nat) (x : Option Cog) : (setCog n x b).ste = b.ste := rfl
@[simp] theorem setCog_spk (n : Nat) (x : Option Cog) : (setCog n x b).spk = b.spk := rfl
@[simp] theorem setCog_nms (n : Nat) (x : Option Cog) : (setCog n x b).nms = b.nms := rfl
@[simp] theorem setCog_mem (n : Nat) (x : Option Cog) : (setCog n x b).mem = b.mem := rfl
@[simp] theorem setCog_cmp (n : Nat) (x : Option Cog) : (setCog n x b).cmp = b.cmp := rfl
@[simp] theorem setCog_link (n : Nat) (x : Option Cog) : (setCog n x b).link = b.link := rfl
@[simp] theorem setCog_tdm (n : Nat) (x : Option Cog) : (setCog n x b).tdm = b.tdm := rfl
@[simp] theorem setCog_brp (n : Nat) (x : Option Cog) : (setCog n x b).brp = b.brp := rfl
@[simp] theorem setCog_pmc (n : Nat) (x : Option Cog) : (setCog n x b).pmc = b.pmc := rfl
@[simp] theorem setCog_mod (n : Nat) (x : Option Cog) : (setCog n x b).mod = b.mod := rfl

@[simp] theorem setList_flds (n : Nat) (x : Option CList) : (setList n x b).flds = b.flds := rfl
@[simp] theorem setList_cmem (n : Nat) (x : Option CList) : (setList n x b).cmem = b.cmem := rfl
@[simp] theorem setList_hbm (n : Nat) (x : Option CList) : (setList n x b).hbm = b.hbm := rfl
@[simp] theorem setList_fresh (n : Nat) (x : Option CList) : (setList n x b).fresh = b.fresh := rfl
@[simp] theorem setList_intr (n : Nat) (x : Option CList) : (setList n x b).intr = b.intr := rfl
@[simp] theorem setList_rdata (n : Nat) (x : Option CList) : (setList n x b).rdata = b.rdata := rfl
@[simp] theorem setList_rtp (n : Nat) (x : Option CList) : (setList n x b).rtp = b.rtp := rfl
@[simp] theorem setList_ses (n : Nat) (x : Option CList) : (setList n x b).ses = b.ses := rfl
@[simp] theorem setList_fe (n : Nat) (x : Option CList) : (setList n x b).fe = b.fe := rfl
@[simp] theorem setList_ten (n : Nat) (x : Option CList) : (setList n x b).ten = b.ten := rfl
@[simp] theorem setList_ste (n : Nat) (x : Option CList) : (setList n x b).ste = b.ste := rfl
@[simp] theorem setList_spk (n : Nat) (x : Option CList) : (setList n x b).spk = b.spk := rfl
@[simp] theorem setList_nms (n : Nat) (x : Option CList) : (setList n x b).nms = b.nms := rfl
@[simp] theorem setList_mem (n : Nat) (x : Option CList) : (setList n x b).mem = b.mem := rfl
@[simp] theorem setList_cmp (n : Nat) (x : Option CList) : (setList n x b).cmp = b.cmp := rfl
@[simp] theorem setList_link (n : Nat) (x : Option CList) : (setList n x b).link = b.link := rfl
@[simp] theorem setList_tdm (n : Nat) (x : Option CList) : (setList n x b).tdm = b.tdm := rfl
@[simp] theorem setList_brp (n : Nat) (x : Option CList) : (setList n x b).brp = b.brp := rfl
@[simp] theorem setList_pmc (n : Nat) (x : Option CList) : (setList n x b).pmc = b.pmc := rfl
@[simp] theorem setList_mod (n : Nat) (x : Option CList) : (setList n x b).mod = b.mod := rfl

@[simp] theorem setIndex_flds (n : Nat) (x : Option Index) : (setIndex n x b).flds = b.flds := rfl
@[simp] theorem setIndex_cmem (n : Nat) (x : Option Index) : (setIndex n x b).cmem = b.cmem := rfl
@[simp] theorem setIndex_hbm (n : Nat) (x : Option Index) : (setIndex n x b).hbm = b.hbm := rfl
@[simp] theorem setIndex_fresh (n : Nat) (x : Option Index) : (setIndex n x b).fresh = b.fresh := rfl
@[simp] theorem setIndex_intr (n : Nat) (x : Option Index) : (setIndex n x b).intr = b.intr := rfl
@[simp] theorem setIndex_rdata (n : Nat) (x : Option Index) : (setIndex n x b).rdata = b.rdata := rfl
@[simp] theorem setIndex_rtp (n : Nat) (x : Option Index) : (setIndex n x b).rtp = b.rtp := rfl
@[simp] theorem setIndex_ses (n : Nat) (x : Option Index) : (setIndex n x b).ses = b.ses := rfl
@[simp] theorem setIndex_fe (n : Nat) (x : Option Index) : (setIndex n x b).fe = b.fe := rfl
@[simp] theorem setIndex_ten (n : Nat) (x : Option Index) : (setIndex n x b).ten = b.ten := rfl
@[simp] theorem setIndex_ste (n : Nat) (x : Option Index) : (setIndex n x b).ste = b.ste := rfl
@[simp] theorem setIndex_spk (n : Nat) (x : Option Index) : (setIndex n x b).spk = b.spk := rfl
@[simp] theorem setIndex_txu (n : Nat) (x : Option Index) : (setIndex n x b).txu = b.txu := rfl
@[simp] theorem setIndex_mem (n : Nat) (x : Option Index) : (setIndex n x b).mem = b.mem := rfl
@[simp] theorem setIndex_cmp (n : Nat) (x : Option Index) : (setIndex n x b).cmp = b.cmp := rfl
@[simp] theorem setIndex_link (n : Nat) (x : Option Index) : (setIndex n x b).link = b.link := rfl
@[simp] theorem setIndex_tdm (n : Nat) (x : Option Index) : (setIndex n x b).tdm = b.tdm := rfl
@[simp] theorem setIndex_brp (n : Nat) (x : Option Index) : (setIndex n x b).brp = b.brp := rfl
@[simp] theorem setIndex_pmc (n : Nat) (x : Option Index) : (setIndex n x b).pmc = b.pmc := rfl
@[simp] theorem setIndex_mod (n : Nat) (x : Option Index) : (setIndex n x b).mod = b.mod := rfl

@[simp] theorem setChange_flds (x : Option MapChange) : (setChange x b).flds = b.flds := rfl
@[simp] theorem setChange_cmem (x : Option MapChange) : (setChange x b).cmem = b.cmem := rfl
@[simp] theorem setChange_hbm (x : Option MapChange) : (setChange x b).hbm = b.hbm := rfl
@[simp] theorem setChange_fresh (x : Option MapChange) : (setChange x b).fresh = b.fresh := rfl
@[simp] theorem setChange_intr (x : Option MapChange) : (setChange x b).intr = b.intr := rfl
@[simp] theorem setChange_rdata (x : Option MapChange) : (setChange x b).rdata = b.rdata := rfl
@[simp] theorem setChange_rtp (x : Option MapChange) : (setChange x b).rtp = b.rtp := rfl
@[simp] theorem setChange_ses (x : Option MapChange) : (setChange x b).ses = b.ses := rfl
@[simp] theorem setChange_fe (x : Option MapChange) : (setChange x b).fe = b.fe := rfl
@[simp] theorem setChange_ten (x : Option MapChange) : (setChange x b).ten = b.ten := rfl
@[simp] theorem setChange_ste (x : Option MapChange) : (setChange x b).ste = b.ste := rfl
@[simp] theorem setChange_spk (x : Option MapChange) : (setChange x b).spk = b.spk := rfl
@[simp] theorem setChange_txu (x : Option MapChange) : (setChange x b).txu = b.txu := rfl
@[simp] theorem setChange_nms (x : Option MapChange) : (setChange x b).nms = b.nms := rfl
@[simp] theorem setChange_mem (x : Option MapChange) : (setChange x b).mem = b.mem := rfl
@[simp] theorem setChange_link (x : Option MapChange) : (setChange x b).link = b.link := rfl
@[simp] theorem setChange_tdm (x : Option MapChange) : (setChange x b).tdm = b.tdm := rfl
@[simp] theorem setChange_brp (x : Option MapChange) : (setChange x b).brp = b.brp := rfl
@[simp] theorem setChange_pmc (x : Option MapChange) : (setChange x b).pmc = b.pmc := rfl
@[simp] theorem setChange_mod (x : Option MapChange) : (setChange x b).mod = b.mod := rfl

@[simp] theorem setPort_flds (n : Nat) (x : Port) : (setPort n x b).flds = b.flds := rfl
@[simp] theorem setPort_cmem (n : Nat) (x : Port) : (setPort n x b).cmem = b.cmem := rfl
@[simp] theorem setPort_hbm (n : Nat) (x : Port) : (setPort n x b).hbm = b.hbm := rfl
@[simp] theorem setPort_fresh (n : Nat) (x : Port) : (setPort n x b).fresh = b.fresh := rfl
@[simp] theorem setPort_intr (n : Nat) (x : Port) : (setPort n x b).intr = b.intr := rfl
@[simp] theorem setPort_rdata (n : Nat) (x : Port) : (setPort n x b).rdata = b.rdata := rfl
@[simp] theorem setPort_rtp (n : Nat) (x : Port) : (setPort n x b).rtp = b.rtp := rfl
@[simp] theorem setPort_ses (n : Nat) (x : Port) : (setPort n x b).ses = b.ses := rfl
@[simp] theorem setPort_fe (n : Nat) (x : Port) : (setPort n x b).fe = b.fe := rfl
@[simp] theorem setPort_ten (n : Nat) (x : Port) : (setPort n x b).ten = b.ten := rfl
@[simp] theorem setPort_ste (n : Nat) (x : Port) : (setPort n x b).ste = b.ste := rfl
@[simp] theorem setPort_spk (n : Nat) (x : Port) : (setPort n x b).spk = b.spk := rfl
@[simp] theorem setPort_txu (n : Nat) (x : Port) : (setPort n x b).txu = b.txu := rfl
@[simp] theorem setPort_nms (n : Nat) (x : Port) : (setPort n x b).nms = b.nms := rfl
@[simp] theorem setPort_mem (n : Nat) (x : Port) : (setPort n x b).mem = b.mem := rfl
@[simp] theorem setPort_cmp (n : Nat) (x : Port) : (setPort n x b).cmp = b.cmp := rfl
@[simp] theorem setPort_tdm (n : Nat) (x : Port) : (setPort n x b).tdm = b.tdm := rfl
@[simp] theorem setPort_brp (n : Nat) (x : Port) : (setPort n x b).brp = b.brp := rfl
@[simp] theorem setPort_pmc (n : Nat) (x : Port) : (setPort n x b).pmc = b.pmc := rfl
@[simp] theorem setPort_mod (n : Nat) (x : Port) : (setPort n x b).mod = b.mod := rfl

@[simp] theorem updBrp_flds (f : BrpState → BrpState) : (updBrp f b).flds = b.flds := rfl
@[simp] theorem updBrp_cmem (f : BrpState → BrpState) : (updBrp f b).cmem = b.cmem := rfl
@[simp] theorem updBrp_hbm (f : BrpState → BrpState) : (updBrp f b).hbm = b.hbm := rfl
@[simp] theorem updBrp_fresh (f : BrpState → BrpState) : (updBrp f b).fresh = b.fresh := rfl
@[simp] theorem updBrp_intr (f : BrpState → BrpState) : (updBrp f b).intr = b.intr := rfl
@[simp] theorem updBrp_rdata (f : BrpState → BrpState) : (updBrp f b).rdata = b.rdata := rfl
@[simp] theorem updBrp_rtp (f : BrpState → BrpState) : (updBrp f b).rtp = b.rtp := rfl
@[simp] theorem updBrp_ses (f : BrpState → BrpState) : (updBrp f b).ses = b.ses := rfl
@[simp] theorem updBrp_fe (f : BrpState → BrpState) : (updBrp f b).fe = b.fe := rfl
@[simp] theorem updBrp_ten (f : BrpState → BrpState) : (updBrp f b).ten = b.ten := rfl
@[simp] theorem updBrp_ste (f : BrpState → BrpState) : (updBrp f b).ste = b.ste := rfl
@[simp] theorem updBrp_spk (f : BrpState → BrpState) : (updBrp f b).spk = b.spk := rfl
@[simp] theorem updBrp_txu (f : BrpState → BrpState) : (updBrp f b).txu = b.txu := rfl
@[simp] theorem updBrp_nms (f : BrpState → BrpState) : (updBrp f b).nms = b.nms := rfl
@[simp] theorem updBrp_mem (f : BrpState → BrpState) : (updBrp f b).mem = b.mem := rfl
@[simp] theorem updBrp_cmp (f : BrpState → BrpState) : (updBrp f b).cmp = b.cmp := rfl
@[simp] theorem updBrp_link (f : BrpState → BrpState) : (updBrp f b).link = b.link := rfl
@[simp] theorem updBrp_tdm (f : BrpState → BrpState) : (updBrp f b).tdm = b.tdm := rfl
@[simp] theorem updBrp_pmc (f : BrpState → BrpState) : (updBrp f b).pmc = b.pmc := rfl
@[simp] theorem updBrp_mod (f : BrpState → BrpState) : (updBrp f b).mod = b.mod := rfl

@[simp] theorem updPmc_flds (f : PmcState → PmcState) : (updPmc f b).flds = b.flds := rfl
@[simp] theorem updPmc_cmem (f : PmcState → PmcState) : (updPmc f b).cmem = b.cmem := rfl
@[simp] theorem updPmc_hbm (f : PmcState → PmcState) : (updPmc f b).hbm = b.hbm := rfl
@[simp] theorem updPmc_fresh (f : PmcState → PmcState) : (updPmc f b).fresh = b.fresh := rfl
@[simp] theorem updPmc_intr (f : PmcState → PmcState) : (updPmc f b).intr = b.intr := rfl
@[simp] theorem updPmc_rdata (f : PmcState → PmcState) : (updPmc f b).rdata = b.rdata := rfl
@[simp] theorem updPmc_rtp (f : PmcState → PmcState) : (updPmc f b).rtp = b.rtp := rfl
@[simp] theorem updPmc_ses (f : PmcState → PmcState) : (updPmc f b).ses = b.ses := rfl
@[simp] theorem updPmc_fe (f : PmcState → PmcState) : (updPmc f b).fe = b.fe := rfl
@[simp] theorem updPmc_ten (f : PmcState → PmcState) : (updPmc f b).ten = b.ten := rfl
@[simp] theorem updPmc_ste (f : PmcState → PmcState) : (updPmc f b).ste = b.ste := rfl
@[simp] theorem updPmc_spk (f : PmcState → PmcState) : (updPmc f b).spk = b.spk := rfl
@[simp] theorem updPmc_txu (f : PmcState → PmcState) : (updPmc f b).txu = b.txu := rfl
@[simp] theorem updPmc_nms (f : PmcState → PmcState) : (updPmc f b).nms = b.nms := rfl
@[simp] theorem updPmc_mem (f : PmcState → PmcState) : (updPmc f b).mem = b.mem := rfl
@[simp] theorem updPmc_cmp (f : PmcState → PmcState) : (updPmc f b).cmp = b.cmp := rfl
@[simp] theorem updPmc_link (f : PmcState → PmcState) : (updPmc f b).link = b.link := rfl
@[simp] theorem updPmc_tdm (f : PmcState → PmcState) : (updPmc f b).tdm = b.tdm := rfl
@[simp] theorem updPmc_brp (f : PmcState → PmcState) : (updPmc f b).brp = b.brp := rfl
@[simp] theorem updPmc_mod (f : PmcState → PmcState) : (updPmc f b).mod = b.mod := rfl

@[simp] theorem setSensor_flds (n : Nat) (x : Sensor) : (setSensor n x b).flds = b.flds := rfl
@[simp] theorem setSensor_cmem (n : Nat) (x : Sensor) : (setSensor n x b).cmem = b.cmem := rfl
@[simp] theorem setSensor_hbm (n : Nat) (x : Sensor) : (setSensor n x b).hbm = b.hbm := rfl
@[simp] theorem setSensor_fresh (n : Nat) (x : Sensor) : (setSensor n x b).fresh = b.fresh := rfl
@[simp] theorem setSensor_intr (n : Nat) (x : Sensor) : (setSensor n x b).intr = b.intr := rfl
@[simp] theorem setSensor_rdata (n : Nat) (x : Sensor) : (setSensor n x b).rdata = b.rdata := rfl
@[simp] theorem setSensor_rtp (n : Nat) (x : Sensor) : (setSensor n x b).rtp = b.rtp := rfl
@[simp] theorem setSensor_ses (n : Nat) (x : Sensor) : (setSensor n x b).ses = b.ses := rfl
@[simp] theorem setSensor_fe (n : Nat) (x : Sensor) : (setSensor n x b).fe = b.fe := rfl
@[simp] theorem setSensor_ten (n : Nat) (x : Sensor) : (setSensor n x b).ten = b.ten := rfl
@[simp] theorem setSensor_ste (n : Nat) (x : Sensor) : (setSensor n x b).ste = b.ste := rfl
@[simp] theorem setSensor_spk (n : Nat) (x : Sensor) : (setSensor n x b).spk = b.spk := rfl
@[simp] theorem setSensor_txu (n : Nat) (x : Sensor) : (setSensor n x b).txu = b.txu := rfl
@[simp] theorem setSensor_nms (n : Nat) (x : Sensor) : (setSensor n x b).nms = b.nms := rfl
@[simp] theorem setSensor_mem (n : Nat) (x : Sensor) : (setSensor n x b).mem = b.mem := rfl
@[simp] theorem setSensor_cmp (n : Nat) (x : Sensor) : (setSensor n x b).cmp = b.cmp := rfl
@[simp] theorem setSensor_link (n : Nat) (x : Sensor) : (setSensor n x b).link = b.link := rfl
@[simp] theorem setSensor_tdm (n : Nat) (x : Sensor) : (setSensor n x b).tdm = b.tdm := rfl
@[simp] theorem setSensor_brp (n : Nat) (x : Sensor) : (setSensor n x b).brp = b.brp := rfl
@[simp] theorem setSensor_mod (n : Nat) (x : Sensor) : (setSensor n x b).mod = b.mod := rfl

@[simp] theorem updMod_flds (f : ModState → ModState) : (updMod f b).flds = b.flds := rfl
@[simp] theorem updMod_cmem (f : ModState → ModState) : (updMod f b).cmem = b.cmem := rfl
@[simp] theorem updMod_hbm (f : ModState → ModState) : (updMod f b).hbm = b.hbm := rfl
@[simp] theorem updMod_fresh (f : ModState → ModState) : (updMod f b).fresh = b.fresh := rfl
@[simp] theorem updMod_intr (f : ModState → ModState) : (updMod f b).intr = b.intr := rfl
@[simp] theorem updMod_rdata (f : ModState → ModState) : (updMod f b).rdata = b.rdata := rfl
@[simp] theorem updMod_rtp (f : ModState → ModState) : (updMod f b).rtp = b.rtp := rfl
@[simp] theorem updMod_ses (f : ModState → ModState) : (updMod f b).ses = b.ses := rfl
@[simp] theorem updMod_fe (f : ModState → ModState) : (updMod f b).fe = b.fe := rfl
@[simp] theorem updMod_ten (f : ModState → ModState) : (updMod f b).ten = b.ten := rfl
@[simp] theorem updMod_ste (f : ModState → ModState) : (updMod f b).ste = b.ste := rfl
@[simp] theorem updMod_spk (f : ModState → ModState) : (updMod f b).spk = b.spk := rfl
@[simp] theorem updMod_txu (f : ModState → ModState) : (updMod f b).txu = b.txu := rfl
@[simp] theorem updMod_nms (f : ModState → ModState) : (updMod f b).nms = b.nms := rfl
@[simp] theorem updMod_mem (f : ModState → ModState) : (updMod f b).mem = b.mem := rfl
@[simp] theorem updMod_cmp (f : ModState → ModState) : (updMod f b).cmp = b.cmp := rfl
@[simp] theorem updMod_link (f : ModState → ModState) : (updMod f b).link = b.link := rfl
@[simp] theorem updMod_tdm (f : ModState → ModState) : (updMod f b).tdm = b.tdm := rfl
@[simp] theorem updMod_brp (f : ModState → ModState) : (updMod f b).brp = b.brp := rfl
@[simp] theorem updMod_pmc (f : ModState → ModState) : (updMod f b).pmc = b.pmc := rfl

@[simp] theorem setStage_flds (x : PowerStage) : (setStage x b).flds = b.flds := rfl
@[simp] theorem setStage_cmem (x : PowerStage) : (setStage x b).cmem = b.cmem := rfl
@[simp] theorem setStage_hbm (x : PowerStage) : (setStage x b).hbm = b.hbm := rfl
@[simp] theorem setStage_fresh (x : PowerStage) : (setStage x b).fresh = b.fresh := rfl
@[simp] theorem setStage_intr (x : PowerStage) : (setStage x b).intr = b.intr := rfl
@[simp] theorem setStage_rdata (x : PowerStage) : (setStage x b).rdata = b.rdata := rfl
@[simp] theorem setStage_rtp (x : PowerStage) : (setStage x b).rtp = b.rtp := rfl
@[simp] theorem setStage_ses (x : PowerStage) : (setStage x b).ses = b.ses := rfl
@[simp] theorem setStage_fe (x : PowerStage) : (setStage x b).fe = b.fe := rfl
@[simp] theorem setStage_ten (x : PowerStage) : (setStage x b).ten = b.ten := rfl
@[simp] theorem setStage_ste (x : PowerStage) : (setStage x b).ste = b.ste := rfl
@[simp] theorem setStage_spk (x : PowerStage) : (setStage x b).spk = b.spk := rfl
@[simp] theorem setStage_txu (x : PowerStage) : (setStage x b).txu = b.txu := rfl
@[simp] theorem setStage_nms (x : PowerStage) : (setStage x b).nms = b.nms := rfl
@[simp] theorem setStage_mem (x : PowerStage) : (setStage x b).mem = b.mem := rfl
@[simp] theorem setStage_cmp (x : PowerStage) : (setStage x b).cmp = b.cmp := rfl
@[simp] theorem setStage_link (x : PowerStage) : (setStage x b).link = b.link := rfl
@[simp] theorem setStage_tdm (x : PowerStage) : (setStage x b).tdm = b.tdm := rfl
@[simp] theorem setStage_brp (x : PowerStage) : (setStage x b).brp = b.brp := rfl
@[simp] theorem setStage_pmc (x : PowerStage) : (setStage x b).pmc = b.pmc := rfl

@[simp] theorem setRails_flds (rs : List Nat) (on : Bool) : (setRails rs on b).flds = b.flds := rfl
@[simp] theorem setRails_cmem (rs : List Nat) (on : Bool) : (setRails rs on b).cmem = b.cmem := rfl
@[simp] theorem setRails_hbm (rs : List Nat) (on : Bool) : (setRails rs on b).hbm = b.hbm := rfl
@[simp] theorem setRails_fresh (rs : List Nat) (on : Bool) : (setRails rs on b).fresh = b.fresh := rfl
@[simp] theorem setRails_intr (rs : List Nat) (on : Bool) : (setRails rs on b).intr = b.intr := rfl
@[simp] theorem setRails_rdata (rs : List Nat) (on : Bool) : (setRails rs on b).rdata = b.rdata := rfl
@[simp] theorem setRails_rtp (rs : List Nat) (on : Bool) : (setRails rs on b).rtp = b.rtp := rfl
@[simp] theorem setRails_ses (rs : List Nat) (on : Bool) : (setRails rs on b).ses = b.ses := rfl
@[simp] theorem setRails_fe (rs : List Nat) (on : Bool) : (setRails rs on b).fe = b.fe := rfl
@[simp] theorem setRails_ten (rs : List Nat) (on : Bool) : (setRails rs on b).ten = b.ten := rfl
@[simp] theorem setRails_ste (rs : List Nat) (on : Bool) : (setRails rs on b).ste = b.ste := rfl
@[simp] theorem setRails_spk (rs : List Nat) (on : Bool) : (setRails rs on b).spk = b.spk := rfl
@[simp] theorem setRails_txu (rs : List Nat) (on : Bool) : (setRails rs on b).txu = b.txu := rfl
@[simp] theorem setRails_nms (rs : List Nat) (on : Bool) : (setRails rs on b).nms = b.nms := rfl
@[simp] theorem setRails_mem (rs : List Nat) (on : Bool) : (setRails rs on b).mem = b.mem := rfl
@[simp] theorem setRails_cmp (rs : List Nat) (on : Bool) : (setRails rs on b).cmp = b.cmp := rfl
@[simp] theorem setRails_link (rs : List Nat) (on : Bool) : (setRails rs on b).link = b.link := rfl
@[simp] theorem setRails_tdm (rs : List Nat) (on : Bool) : (setRails rs on b).tdm = b.tdm := rfl
@[simp] theorem setRails_brp (rs : List Nat) (on : Bool) : (setRails rs on b).brp = b.brp := rfl
@[simp] theorem setRails_pmc (rs : List Nat) (on : Bool) : (setRails rs on b).pmc = b.pmc := rfl

@[simp] theorem updRtp_flds (f : RtpState → RtpState) : (updRtp f b).flds = b.flds := rfl
@[simp] theorem updRtp_cmem (f : RtpState → RtpState) : (updRtp f b).cmem = b.cmem := rfl
@[simp] theorem updRtp_hbm (f : RtpState → RtpState) : (updRtp f b).hbm = b.hbm := rfl
@[simp] theorem updRtp_fresh (f : RtpState → RtpState) : (updRtp f b).fresh = b.fresh := rfl
@[simp] theorem updRtp_intr (f : RtpState → RtpState) : (updRtp f b).intr = b.intr := rfl
@[simp] theorem updRtp_rdata (f : RtpState → RtpState) : (updRtp f b).rdata = b.rdata := rfl
@[simp] theorem updRtp_ses (f : RtpState → RtpState) : (updRtp f b).ses = b.ses := rfl
@[simp] theorem updRtp_fe (f : RtpState → RtpState) : (updRtp f b).fe = b.fe := rfl
@[simp] theorem updRtp_ten (f : RtpState → RtpState) : (updRtp f b).ten = b.ten := rfl
@[simp] theorem updRtp_ste (f : RtpState → RtpState) : (updRtp f b).ste = b.ste := rfl
@[simp] theorem updRtp_spk (f : RtpState → RtpState) : (updRtp f b).spk = b.spk := rfl
@[simp] theorem updRtp_txu (f : RtpState → RtpState) : (updRtp f b).txu = b.txu := rfl
@[simp] theorem updRtp_nms (f : RtpState → RtpState) : (updRtp f b).nms = b.nms := rfl
@[simp] theorem updRtp_mem (f : RtpState → RtpState) : (updRtp f b).mem = b.mem := rfl
@[simp] theorem updRtp_cmp (f : RtpState → RtpState) : (updRtp f b).cmp = b.cmp := rfl
@[simp] theorem updRtp_link (f : RtpState → RtpState) : (updRtp f b).link = b.link := rfl
@[simp] theorem updRtp_tdm (f : RtpState → RtpState) : (updRtp f b).tdm = b.tdm := rfl
@[simp] theorem updRtp_brp (f : RtpState → RtpState) : (updRtp f b).brp = b.brp := rfl
@[simp] theorem updRtp_pmc (f : RtpState → RtpState) : (updRtp f b).pmc = b.pmc := rfl
@[simp] theorem updRtp_mod (f : RtpState → RtpState) : (updRtp f b).mod = b.mod := rfl

/-! ### What an update sets -/

@[simp] theorem updPmc_pmc (f : PmcState → PmcState) (b : Block) : (updPmc f b).pmc = f b.pmc := rfl
@[simp] theorem updMod_mod (f : ModState → ModState) (b : Block) : (updMod f b).mod = f b.mod := rfl
@[simp] theorem updRtp_rtp (f : RtpState → RtpState) (b : Block) : (updRtp f b).rtp = f b.rtp := rfl
@[simp] theorem updBrp_brp (f : BrpState → BrpState) (b : Block) : (updBrp f b).brp = f b.brp := rfl
@[simp] theorem setChange_change (x : Option MapChange) (b : Block) : (setChange x b).cmp.change = x := rfl
@[simp] theorem setWaiting_waiting (ws : List Seqn) (b : Block) : (setWaiting ws b).ste.waiting = ws := rfl
@[simp] theorem setStage_stage (x : PowerStage) (b : Block) : (setStage x b).mod.stage = x := rfl
@[simp] theorem setSession_slots (n : Nat) (x : Session) (b : Block) :
    (setSession n x b).ses.slots = tset b.ses.slots n x := rfl
@[simp] theorem setReq_reqs (n : Nat) (q : Req) (b : Block) : (setReq n q b).fe.reqs = tset b.fe.reqs n q := rfl
@[simp] theorem setPort_ports (n : Nat) (x : Port) (b : Block) :
    (setPort n x b).link.ports = tset b.link.ports n x := rfl
@[simp] theorem setSensor_sensors (n : Nat) (x : Sensor) (b : Block) :
    (setSensor n x b).pmc.sensors = tset b.pmc.sensors n x := rfl
@[simp] theorem setIntSrc_srcs (n : Nat) (x : IntSrc) (b : Block) :
    (setIntSrc n x b).intr.srcs = tset b.intr.srcs n x := rfl
@[simp] theorem pokeBytes_cmem (a : Nat) (bs : Bytes) (b : Block) :
    (b.pokeBytes a bs).cmem = cellWrite b.cmem a bs := rfl

end Sys2Proof.Machine
end

