-- ==== Sys2Proof/Laws/Tables.lean ====
section
/-! SUPPORT. What a sparse table holds after an entry is set, deleted or changed, and that its keys stay rising. -/

namespace Sys2Proof.Machine

variable {α : Type}

@[simp] theorem tget_nil (k : Nat) : tget ([] : Tab α) k = none := rfl

theorem tget_cons (k' k : Nat) (v : α) (t : Tab α) : tget ((k', v) :: t) k = if k = k' then some v else tget t k := rfl

theorem tget_tset (t : Tab α) (k j : Nat) (v : α) : tget (tset t k v) j = if j = k then some v else tget t j := by
  induction t with
  | nil => simp [tset, tget]
  | cons e t ih =>
    obtain ⟨k', v'⟩ := e
    simp only [tset]
    split
    · subst_vars; simp only [tget]; split <;> simp_all
    · split
      · simp only [tget]
      · simp only [tget, ih]; grind

@[simp] theorem tget_tset_self (t : Tab α) (k : Nat) (v : α) : tget (tset t k v) k = some v := by simp [tget_tset]

theorem tget_tset_ne (t : Tab α) {k j : Nat} (v : α) (h : j ≠ k) : tget (tset t k v) j = tget t j := by simp [tget_tset, h]

theorem tget_tdel (t : Tab α) (k j : Nat) : tget (tdel t k) j = if j = k then none else tget t j := by
  induction t with
  | nil => simp [tdel, tget]
  | cons e t ih =>
    obtain ⟨k', v'⟩ := e
    simp only [tdel]
    split
    · subst_vars; simp only [ih, tget]; grind
    · simp only [tget, ih]; grind

@[simp] theorem tget_tdel_self (t : Tab α) (k : Nat) : tget (tdel t k) k = none := by simp [tget_tdel]

theorem tget_tdel_ne (t : Tab α) {k j : Nat} (h : j ≠ k) : tget (tdel t k) j = tget t j := by simp [tget_tdel, h]

theorem tget_tupd (t : Tab α) (k j : Nat) (f : α → α) :
    tget (tupd t k f) j = if j = k then (tget t k).map f else tget t j := by
  unfold tupd
  cases h : tget t k with
  | none => by_cases hj : j = k <;> simp_all
  | some v => by_cases hj : j = k <;> simp_all [tget_tset]

theorem tgetD_tset (t : Tab α) (k j : Nat) (v d : α) : tgetD (tset t k v) j d = if j = k then v else tgetD t j d := by
  unfold tgetD; rw [tget_tset]; split <;> simp

theorem tgetD_tdel (t : Tab α) (k j : Nat) (d : α) : tgetD (tdel t k) j d = if j = k then d else tgetD t j d := by
  unfold tgetD; rw [tget_tdel]; split <;> simp

/-- The keys of a table with rising keys all exceed the first. -/
theorem tsorted_cons (k : Nat) (v : α) (t : Tab α) :
    tsorted ((k, v) :: t) = true ↔ (∀ e ∈ t, k < e.1) ∧ tsorted t = true := by
  induction t generalizing k v with
  | nil => simp [tsorted]
  | cons e t ih =>
    obtain ⟨k', v'⟩ := e
    simp only [tsorted, Bool.and_eq_true, decide_eq_true_eq]
    rw [ih k' v']
    simp only [List.mem_cons, forall_eq_or_imp]
    constructor
    · rintro ⟨h, h1, h2⟩; exact ⟨⟨h, fun e he => Nat.lt_trans h (h1 e he)⟩, h1, h2⟩
    · rintro ⟨⟨h, _⟩, h1, h2⟩; exact ⟨h, h1, h2⟩

/-- An entry of a table with rising keys is what its key gives. -/
theorem tget_of_mem {t : Tab α} (h : tsorted t = true) {e : Nat × α} (he : e ∈ t) : tget t e.1 = some e.2 := by
  induction t with
  | nil => simp at he
  | cons x t ih =>
    obtain ⟨k, v⟩ := x
    rw [tsorted_cons] at h
    rcases List.mem_cons.1 he with rfl | he'
    · simp [tget]
    · have := h.1 e he'
      rw [tget_cons, if_neg (by omega)]
      exact ih h.2 he'

theorem mem_of_tget {t : Tab α} {k : Nat} {v : α} (h : tget t k = some v) : (k, v) ∈ t := by
  induction t with
  | nil => simp at h
  | cons x t ih =>
    obtain ⟨k', v'⟩ := x
    rw [tget_cons] at h
    split at h
    · subst_vars; simp_all
    · exact List.mem_cons_of_mem _ (ih h)

theorem mem_tset {t : Tab α} {k : Nat} {v : α} {e : Nat × α} (h : e ∈ tset t k v) : e = (k, v) ∨ e ∈ t := by
  induction t with
  | nil => simp_all [tset]
  | cons x t ih =>
    obtain ⟨k', v'⟩ := x
    simp only [tset] at h
    split at h
    · rcases List.mem_cons.1 h with h | h <;> simp_all
    · split at h
      · rcases List.mem_cons.1 h with h | h <;> simp_all
      · rcases List.mem_cons.1 h with h | h
        · simp_all
        · rcases ih h with h | h <;> simp_all

theorem tsorted_tset {t : Tab α} (h : tsorted t = true) (k : Nat) (v : α) : tsorted (tset t k v) = true := by
  induction t with
  | nil => simp [tset, tsorted]
  | cons x t ih =>
    obtain ⟨k', v'⟩ := x
    have hs := h
    rw [tsorted_cons] at hs
    simp only [tset]
    split
    · subst_vars; rw [tsorted_cons]; exact hs
    · split
      · rw [tsorted_cons]
        refine ⟨fun e he => ?_, h⟩
        rcases List.mem_cons.1 he with rfl | he
        · assumption
        · have := hs.1 e he; omega
      · rw [tsorted_cons]
        refine ⟨fun e he => ?_, ih hs.2⟩
        rcases mem_tset he with rfl | he
        · simp only; omega
        · exact hs.1 e he

theorem mem_tdel {t : Tab α} {k : Nat} {e : Nat × α} (h : e ∈ tdel t k) : e ∈ t ∧ e.1 ≠ k := by
  induction t with
  | nil => simp [tdel] at h
  | cons x t ih =>
    obtain ⟨k', v'⟩ := x
    simp only [tdel] at h
    split at h
    · have := ih h; simp_all
    · rcases List.mem_cons.1 h with rfl | h
      · simp_all [eq_comm]
      · have := ih h; simp_all

theorem tsorted_tdel {t : Tab α} (h : tsorted t = true) (k : Nat) : tsorted (tdel t k) = true := by
  induction t with
  | nil => simp [tdel, tsorted]
  | cons x t ih =>
    obtain ⟨k', v'⟩ := x
    rw [tsorted_cons] at h
    simp only [tdel]
    split
    · exact ih h.2
    · rw [tsorted_cons]
      exact ⟨fun e he => h.1 e (mem_tdel he).1, ih h.2⟩

end Sys2Proof.Machine
end

