-- ==== Sys2Proof/Laws/Run.lean ====
section
/-! SUPPORT. What the frames of a meaning answer, what the runner does with an instruction that is due, and what a handle check
answers for a session that may be used. -/

namespace Sys2Proof.Machine

/-! ### Frames -/

theorem actB_wf {u : UnitRef} {s : State} (f : Block → Block) (h : u.wf = true) : actB u f s = .next (s.put (f s.toBlock)) := by
  simp only [actB, h, if_true]; rfl

theorem act_up {u : UnitRef} {s : State} (f : Block → Block) (h : u.wf = true) (hu : s.toBlock.up = true) :
    act u f s = .next (s.put (f s.toBlock)) := by simp only [act, actB_wf _ h, hu, if_true]

theorem act_down {u : UnitRef} {s : State} (f : Block → Block) (h : u.wf = true) (hu : s.toBlock.up = false) :
    act u f s = .next s := by simp only [act, actB_wf _ h, hu]; rfl

theorem actR_up {u : UnitRef} {s : State} (f : Block → Block) (h : u.wf = true) (hu : s.toBlock.up = true) :
    actR u f s = .next (s.put (rest (f s.toBlock))) := act_up _ h hu

theorem actS_up {u : UnitRef} {s : State} (f : Block → Block) (h : u.wf = true) (hu : s.toBlock.up = true) :
    actS u f s = .next (s.put (settle (f s.toBlock))) := act_up _ h hu

theorem actC_works {u : UnitRef} {s : State} (f : Block → Block) (h : u.wf = true) (hw : s.works) :
    actC u f s = .next (s.put (rest (f s.toBlock))) := by
  rw [actC, act_up _ h hw.1]; simp only [hw.2, if_true]

theorem actC_idle {u : UnitRef} {s : State} (f : Block → Block) (h : u.wf = true) (hw : working s.toBlock = false) :
    actC u f s = .next s := by
  cases hu : s.toBlock.up with
  | false => exact act_down _ h hu
  | true => rw [actC, act_up _ h hu]; simp only [hw]; rfl

/-- A meaning whose unit the module does not have faults. -/
theorem actB_noUnit {u : UnitRef} {s : State} (f : Block → Block) (h : u.wf = false) : actB u f s = .fault .noSuchUnit := by
  simp only [actB, h]; rfl

/-! A command of a module that is not up changes nothing; one that names a unit of the module answers a next state; one that
names none faults. -/

theorem actR_down {u : UnitRef} {s : State} (f : Block → Block) (h : u.wf = true) (hu : s.toBlock.up = false) :
    actR u f s = .next s := by unfold actR; exact act_down _ h hu

theorem actS_down {u : UnitRef} {s : State} (f : Block → Block) (h : u.wf = true) (hu : s.toBlock.up = false) :
    actS u f s = .next s := by unfold actS; exact act_down _ h hu

theorem actC_down {u : UnitRef} {s : State} (f : Block → Block) (h : u.wf = true) (hu : s.toBlock.up = false) :
    actC u f s = .next s := by unfold actC; exact act_down _ h hu

theorem actK_down {k : Nat} {s : State} (f : Block → Block) (h : (UnitRef.spoke k).wf = true) (hu : s.toBlock.up = false) :
    actK k f s = .next s := actR_down _ h hu

theorem act_next {u : UnitRef} {s : State} (f : Block → Block) (h : u.wf = true) : ∃ b, act u f s = .next (s.put b) := by
  unfold act; exact ⟨_, actB_wf _ h⟩

theorem actR_next {u : UnitRef} {s : State} (f : Block → Block) (h : u.wf = true) : ∃ b, actR u f s = .next (s.put b) := by
  unfold actR; exact act_next _ h

theorem actS_next {u : UnitRef} {s : State} (f : Block → Block) (h : u.wf = true) : ∃ b, actS u f s = .next (s.put b) := by
  unfold actS; exact act_next _ h

theorem actC_next {u : UnitRef} {s : State} (f : Block → Block) (h : u.wf = true) : ∃ b, actC u f s = .next (s.put b) := by
  unfold actC; exact act_next _ h

theorem actK_next {k : Nat} {s : State} (f : Block → Block) (h : (UnitRef.spoke k).wf = true) :
    ∃ b, actK k f s = .next (s.put b) := by unfold actK; exact actR_next _ h

theorem act_no {u : UnitRef} {s : State} (f : Block → Block) (h : u.wf = false) : act u f s = .fault .noSuchUnit := by
  unfold act; exact actB_noUnit _ h

theorem actR_no {u : UnitRef} {s : State} (f : Block → Block) (h : u.wf = false) : actR u f s = .fault .noSuchUnit := by
  unfold actR; exact act_no _ h

theorem actS_no {u : UnitRef} {s : State} (f : Block → Block) (h : u.wf = false) : actS u f s = .fault .noSuchUnit := by
  unfold actS; exact act_no _ h

theorem actC_no {u : UnitRef} {s : State} (f : Block → Block) (h : u.wf = false) : actC u f s = .fault .noSuchUnit := by
  unfold actC; exact act_no _ h

theorem actK_no {k : Nat} {s : State} (f : Block → Block) (h : (UnitRef.spoke k).wf = false) :
    actK k f s = .fault .noSuchUnit := by unfold actK; exact actR_no _ h

@[simp] theorem UnitRef.none_wf : UnitRef.none.wf = true := rfl

/-! ### The runner -/

/-- A started request may run. -/
theorem startRequest_started {rid : Nat} {q : Req} {b : Block} (h : q.started = true) : startRequest rid q b = (true, b) := by
  simp only [startRequest, h, if_true]

/-- An instruction that is due runs its row's body on what Safety.lean says it is given. -/
theorem runRow_due {row : CRow} {body : Ctx → Block → Ans} {b : Block} {rid : Nat} {q : Req} {e : Entry}
    (h : Due b rid row q e) : runRow row body rid b = applyAns rid (body (dueCtx b rid q e) (dueBlock b rid q e)) := by
  obtain ⟨hq, hk, hp, he, hrow, hw, hs, ho, hc, hd, hbad, hr⟩ := h
  unfold ringIsa at hrow hbad hr
  simp only [runRow, hq, hk, hp, he, hrow, hw, startRequest_started hs, ho, hd, hbad, hr, chunkBreaks, hc, dueCtx, dueBlock,
    ne_eq, not_true_eq_false, or_self, if_false, false_and, Bool.false_eq_true, and_false, Option.getD_some]
  all_goals rfl

/-- The same, of a command of the chain. -/
theorem exec_runs {s : State} {rid : Nat} {row : CRow} {c : Ctx} {b : Block} (body : Ctx → Block → Ans)
    (h : Runs s rid row c b) : actC .none (runRow row body rid) s = .next (s.put (rest (applyAns rid (body c b)))) := by
  obtain ⟨hw, q, e, hd, rfl, rfl⟩ := h
  rw [actC_works _ rfl hw, runRow_due hd]

/-- The instruction is its own request's. -/
theorem runs_rid {s : State} {rid : Nat} {row : CRow} {c : Ctx} {b : Block} (h : Runs s rid row c b) : c.rid = rid := by
  obtain ⟨_, q, e, _, rfl, _⟩ := h; rfl

/-- A body that ends its instruction. -/
theorem exec_ends {s : State} {rid : Nat} {row : CRow} {c : Ctx} {b b' : Block} {body : Ctx → Block → Ans} {st : Nat}
    {res : Option Bytes} (h : Runs s rid row c b) (hb : body c b = .done st res b') :
    actC .none (runRow row body rid) s = .next (s.ended rid st res b') := by
  rw [exec_runs body h, hb]; rfl

/-- A body that begins a wait. -/
theorem exec_waits {s : State} {rid : Nat} {row : CRow} {c : Ctx} {b b' : Block} {body : Ctx → Block → Ans} {w : Wait}
    (h : Runs s rid row c b) (hb : body c b = .wait w b') :
    actC .none (runRow row body rid) s = .next (s.waiting rid w b') := by
  rw [exec_runs body h, hb]; rfl

/-! ### Handle checks -/

/-- A descriptor with no bad pair reads sound (R29). -/
theorem pairsFail_none {x : Session} (h : x.badPairs = []) : pairsFail x = false := by simp [pairsFail, h]

/-- The body runs on the session that the handle names. -/
theorem withSession_on {c : Ctx} {b : Block} {sid : Nat} {x : Session} (any : Bool) (k : Nat → Session → Block → Ans)
    (h : OnSession c b sid x) : withSession c any k b = k sid x b := by
  obtain ⟨ht, hg, hs, hx, hxt, hxg, hsc, hq, hb, hc⟩ := h
  simp only [withSession, checkHandle, ht, hg, hs, hx, hxt, hxg, hsc, hq, pairsFail_none hb, hc, ne_eq, not_true_eq_false, if_false,
    false_and, Bool.false_eq_true]

/-- A session that meets the need and has no earlier waiter is admitted. -/
theorem admitted_of {c : Ctx} {b : Block} {sid : Nat} {x : Session} {n : Need} (h : Admitted c b sid x n) :
    admitted b c sid x n = true := by simp only [admitted, h.1, h.2]; rfl

end Sys2Proof.Machine
end

