-- ==== Sys2Proof/Laws/Exec.lean ====
section
/-! SUPPORT. What each command is, as the frame it runs in: which unit it names, whether it needs the module up or at work, and
what it does there. -/

namespace Sys2Proof.Machine

theorem exec_sopen (rid : Nat) (s : State) : exec (.sopen rid) s =
    actC .none (runRow .sopen sopen rid) s := rfl

theorem exec_sclose (rid : Nat) (s : State) : exec (.sclose rid) s =
    actC .none (runRow .sclose sclose rid) s := rfl

theorem exec_park (rid : Nat) (s : State) : exec (.park rid) s =
    actC .none (runRow .park park rid) s := rfl

theorem exec_revive (rid : Nat) (s : State) : exec (.revive rid) s =
    actC .none (runRow .revive revive rid) s := rfl

theorem exec_move (rid : Nat) (s : State) : exec (.move rid) s =
    actC .none (runRow .move move rid) s := rfl

theorem exec_depth (rid : Nat) (s : State) : exec (.depth rid) s =
    actC .none (runRow .depth depth rid) s := rfl

theorem exec_depthHint (rid : Nat) (s : State) : exec (.depthHint rid) s =
    actC .none (runRow .depthHint depthHint rid) s := rfl

theorem exec_pfxpin (rid : Nat) (s : State) : exec (.pfxpin rid) s =
    actC .none (runRow .pfxpin pfxpin rid) s := rfl

theorem exec_pfxfork (rid : Nat) (s : State) : exec (.pfxfork rid) s =
    actC .none (runRow .pfxfork pfxfork rid) s := rfl

theorem exec_pfxdrop (rid : Nat) (s : State) : exec (.pfxdrop rid) s =
    actC .none (runRow .pfxdrop pfxdrop rid) s := rfl

theorem exec_mloadModel (rid : Nat) (s : State) : exec (.mloadModel rid) s =
    actC .none (runRow .mloadModel mloadModel rid) s := rfl

theorem exec_mloadCog (rid : Nat) (s : State) : exec (.mloadCog rid) s =
    actC .none (runRow .mloadCog mloadCog rid) s := rfl

theorem exec_mloadList (rid : Nat) (s : State) : exec (.mloadList rid) s =
    actC .none (runRow .mloadList mloadList rid) s := rfl

theorem exec_munloadModel (rid : Nat) (s : State) : exec (.munloadModel rid) s =
    actC .none (runRow .munloadModel munloadModel rid) s := rfl

theorem exec_munloadCog (rid : Nat) (s : State) : exec (.munloadCog rid) s =
    actC .none (runRow .munloadCog munloadCog rid) s := rfl

theorem exec_munloadList (rid : Nat) (s : State) : exec (.munloadList rid) s =
    actC .none (runRow .munloadList munloadList rid) s := rfl

theorem exec_tokinNative (rid : Nat) (s : State) : exec (.tokinNative rid) s =
    actC .none (runRow .tokinNative (tokin .native) rid) s := rfl

theorem exec_tokinByte (rid : Nat) (s : State) : exec (.tokinByte rid) s =
    actC .none (runRow .tokinByte (tokin .byte) rid) s := rfl

theorem exec_tokinIds (rid : Nat) (s : State) : exec (.tokinIds rid) s =
    actC .none (runRow .tokinIds (tokin .ids) rid) s := rfl

theorem exec_tokout (rid : Nat) (s : State) : exec (.tokout rid) s =
    actC .none (runRow .tokout tokout rid) s := rfl

theorem exec_constrain (rid : Nat) (s : State) : exec (.constrain rid) s =
    actC .none (runRow .constrain constrain rid) s := rfl

theorem exec_step (rid : Nat) (s : State) : exec (.step rid) s =
    actC .none (runRow .step step_ rid) s := rfl

theorem exec_draft (rid : Nat) (s : State) : exec (.draft rid) s =
    actC .none (runRow .draft draft rid) s := rfl

theorem exec_accept (ring : BitVec 16) (lo hi : BitVec 64) (s : State) : exec (.accept ring lo hi) s =
    actC .none (accept ring.toNat ⟨lo.toNat, hi.toNat, 0⟩) s := rfl

theorem exec_prefill (rid : Nat) (s : State) : exec (.prefill rid) s =
    actC .none (runRow .prefill prefill rid) s := rfl

theorem exec_searchFlat (rid : Nat) (s : State) : exec (.searchFlat rid) s =
    actC .none (runRow .searchFlat (searchWith scansOwn searchLocal) rid) s := rfl

theorem exec_searchGraph (rid : Nat) (s : State) : exec (.searchGraph rid) s =
    actC .none (runRow .searchGraph (searchWith scansOwn searchLocal) rid) s := rfl

theorem exec_searchSharded (rid : Nat) (s : State) : exec (.searchSharded rid) s =
    actC .none (runRow .searchSharded (searchWith scansShard searchShards) rid) s := rfl

theorem exec_vinsert (rid : Nat) (s : State) : exec (.vinsert rid) s =
    actC .none (runRow .vinsert vinsert rid) s := rfl

theorem exec_vdelete (rid : Nat) (s : State) : exec (.vdelete rid) s =
    actC .none (runRow .vdelete vdelete rid) s := rfl

theorem exec_vmerge (rid : Nat) (s : State) : exec (.vmerge rid) s =
    actC .none (runRow .vmerge vmerge rid) s := rfl

theorem exec_swait (rid : Nat) (s : State) : exec (.swait rid) s =
    actC .none (runRow .swait swait rid) s := rfl

theorem exec_ssignal (rid : Nat) (s : State) : exec (.ssignal rid) s =
    actC .none (runRow .ssignal ssignal rid) s := rfl

theorem exec_fence (rid : Nat) (s : State) : exec (.fence rid) s =
    actC .none (runRow .fence fence rid) s := rfl

theorem exec_cadence (rid : Nat) (s : State) : exec (.cadence rid) s =
    actC .none (runRow .cadence cadence rid) s := rfl

theorem exec_overlay (rid : Nat) (s : State) : exec (.overlay rid) s =
    actC .none (runRow .overlay overlay rid) s := rfl

theorem exec_ckpt (rid : Nat) (s : State) : exec (.ckpt rid) s =
    actC .none (runRow .ckpt ckpt rid) s := rfl

theorem exec_tandem (rid : Nat) (s : State) : exec (.tandem rid) s =
    actC .none (runRow .tandem tandem rid) s := rfl

theorem exec_tandemRelease (rid : Nat) (s : State) : exec (.tandemRelease rid) s =
    actC .none (runRow .tandemRelease tandemRelease rid) s := rfl

theorem exec_complete (rid : Nat) (s : State) : exec (.complete rid) s =
    actC .none (runRow .complete complete rid) s := rfl

theorem exec_add (spk : Nat) (w : BitVec 64) (s : State) : exec (.add spk w) s =
    actK spk (runSpoke 0 0x01 (scalar2 (· + ·)) spk w) s := rfl

theorem exec_addi (spk : Nat) (w : BitVec 64) (s : State) : exec (.addi spk w) s =
    actK spk (runSpoke 0 0x02 (scalarImm (· + ·)) spk w) s := rfl

theorem exec_sub (spk : Nat) (w : BitVec 64) (s : State) : exec (.sub spk w) s =
    actK spk (runSpoke 0 0x03 (scalar2 (· - ·)) spk w) s := rfl

theorem exec_mul (spk : Nat) (w : BitVec 64) (s : State) : exec (.mul spk w) s =
    actK spk (runSpoke 0 0x04 (scalar2 (· * ·)) spk w) s := rfl

theorem exec_sand (spk : Nat) (w : BitVec 64) (s : State) : exec (.sand spk w) s =
    actK spk (runSpoke 0 0x05 (scalar2 (· &&& ·)) spk w) s := rfl

theorem exec_sor (spk : Nat) (w : BitVec 64) (s : State) : exec (.sor spk w) s =
    actK spk (runSpoke 0 0x06 (scalar2 (· ||| ·)) spk w) s := rfl

theorem exec_sxor (spk : Nat) (w : BitVec 64) (s : State) : exec (.sxor spk w) s =
    actK spk (runSpoke 0 0x07 (scalar2 (· ^^^ ·)) spk w) s := rfl

theorem exec_shl (spk : Nat) (w : BitVec 64) (s : State) : exec (.shl spk w) s =
    actK spk (runSpoke 0 0x08 (scalar2 fun a b => a <<< shamt b) spk w) s := rfl

theorem exec_shr (spk : Nat) (w : BitVec 64) (s : State) : exec (.shr spk w) s =
    actK spk (runSpoke 0 0x09 (scalar2 fun a b => a >>> shamt b) spk w) s := rfl

theorem exec_sar (spk : Nat) (w : BitVec 64) (s : State) : exec (.sar spk w) s =
    actK spk (runSpoke 0 0x0A (scalar2 fun a b => a.sshiftRight (shamt b)) spk w) s := rfl

theorem exec_lui (spk : Nat) (w : BitVec 64) (s : State) : exec (.lui spk w) s =
    actK spk (runSpoke 0 0x0C (scalarImm fun a i => (a &&& 0xFFFFFFFF) ||| (i <<< 32)) spk w) s := rfl

theorem exec_ld (spk : Nat) (w : BitVec 64) (s : State) : exec (.ld spk w) s =
    actK spk (runSpoke 0 0x10 scalarLd spk w) s := rfl

theorem exec_st (spk : Nat) (w : BitVec 64) (s : State) : exec (.st spk w) s =
    actK spk (runSpoke 0 0x11 scalarSt spk w) s := rfl

theorem exec_beq (spk : Nat) (w : BitVec 64) (s : State) : exec (.beq spk w) s =
    actK spk (runSpoke 0 0x18 (scalarBranch fun a b => decide (a = b)) spk w) s := rfl

theorem exec_bne (spk : Nat) (w : BitVec 64) (s : State) : exec (.bne spk w) s =
    actK spk (runSpoke 0 0x19 (scalarBranch fun a b => decide (a ≠ b)) spk w) s := rfl

theorem exec_blt (spk : Nat) (w : BitVec 64) (s : State) : exec (.blt spk w) s =
    actK spk (runSpoke 0 0x1A (scalarBranch fun a b => a.slt b) spk w) s := rfl

theorem exec_bge (spk : Nat) (w : BitVec 64) (s : State) : exec (.bge spk w) s =
    actK spk (runSpoke 0 0x1B (scalarBranch fun a b => !a.slt b) spk w) s := rfl

theorem exec_jmp (spk : Nat) (w : BitVec 64) (s : State) : exec (.jmp spk w) s =
    actK spk (runSpoke 0 0x1C (scalarBranch fun _ _ => true) spk w) s := rfl

theorem exec_mfs (spk : Nat) (w : BitVec 64) (s : State) : exec (.mfs spk w) s =
    actK spk (runSpoke 0 0x20 scalarMfs spk w) s := rfl

theorem exec_vadd (spk : Nat) (w : BitVec 64) (s : State) : exec (.vadd spk w) s =
    execVector 0x01 (vec2 fAdd) spk w s := rfl

theorem exec_vsub (spk : Nat) (w : BitVec 64) (s : State) : exec (.vsub spk w) s =
    execVector 0x02 (vec2 fSub) spk w s := rfl

theorem exec_vmul (spk : Nat) (w : BitVec 64) (s : State) : exec (.vmul spk w) s =
    execVector 0x03 (vec2 fMul) spk w s := rfl

theorem exec_vdiv (spk : Nat) (w : BitVec 64) (s : State) : exec (.vdiv spk w) s =
    execVector 0x04 (vec2 fDiv) spk w s := rfl

theorem exec_vsqrt (spk : Nat) (w : BitVec 64) (s : State) : exec (.vsqrt spk w) s =
    execVector 0x05 (vec1 fSqrt) spk w s := rfl

theorem exec_vfma (spk : Nat) (w : BitVec 64) (s : State) : exec (.vfma spk w) s =
    execVector 0x06 (vec3 fFma) spk w s := rfl

theorem exec_vrcp (spk : Nat) (w : BitVec 64) (s : State) : exec (.vrcp spk w) s =
    execVector 0x07 (vec1 fRcp) spk w s := rfl

theorem exec_vrsq (spk : Nat) (w : BitVec 64) (s : State) : exec (.vrsq spk w) s =
    execVector 0x08 (vec1 fRsq) spk w s := rfl

theorem exec_vexp2 (spk : Nat) (w : BitVec 64) (s : State) : exec (.vexp2 spk w) s =
    execVector 0x09 (vec1 fExp2) spk w s := rfl

theorem exec_vlog2 (spk : Nat) (w : BitVec 64) (s : State) : exec (.vlog2 spk w) s =
    execVector 0x0A (vec1 fLog2) spk w s := rfl

theorem exec_vexp (spk : Nat) (w : BitVec 64) (s : State) : exec (.vexp spk w) s =
    execVector 0x0B (vec1 fExp) spk w s := rfl

theorem exec_vmin (spk : Nat) (w : BitVec 64) (s : State) : exec (.vmin spk w) s =
    execVector 0x0C (vec2 fMin) spk w s := rfl

theorem exec_vmax (spk : Nat) (w : BitVec 64) (s : State) : exec (.vmax spk w) s =
    execVector 0x0D (vec2 fMax) spk w s := rfl

theorem exec_vcmp (spk : Nat) (w : BitVec 64) (s : State) : exec (.vcmp spk w) s =
    execVector 0x0E vecCmp spk w s := rfl

theorem exec_vsel (spk : Nat) (w : BitVec 64) (s : State) : exec (.vsel spk w) s =
    execVector 0x0F (vec3 fun a b c => if c ≠ 0 then a else b) spk w s := rfl

theorem exec_viadd (spk : Nat) (w : BitVec 64) (s : State) : exec (.viadd spk w) s =
    execVector 0x10 (vec2 (· + ·)) spk w s := rfl

theorem exec_visub (spk : Nat) (w : BitVec 64) (s : State) : exec (.visub spk w) s =
    execVector 0x11 (vec2 (· - ·)) spk w s := rfl

theorem exec_vimul (spk : Nat) (w : BitVec 64) (s : State) : exec (.vimul spk w) s =
    execVector 0x12 (vec2 (· * ·)) spk w s := rfl

theorem exec_vand (spk : Nat) (w : BitVec 64) (s : State) : exec (.vand spk w) s =
    execVector 0x13 (vec2 (· &&& ·)) spk w s := rfl

theorem exec_vor (spk : Nat) (w : BitVec 64) (s : State) : exec (.vor spk w) s =
    execVector 0x14 (vec2 (· ||| ·)) spk w s := rfl

theorem exec_vxor (spk : Nat) (w : BitVec 64) (s : State) : exec (.vxor spk w) s =
    execVector 0x15 (vec2 (· ^^^ ·)) spk w s := rfl

theorem exec_vshl (spk : Nat) (w : BitVec 64) (s : State) : exec (.vshl spk w) s =
    execVector 0x16 (vec2 fun a b => a <<< b.toNat) spk w s := rfl

theorem exec_vshr (spk : Nat) (w : BitVec 64) (s : State) : exec (.vshr spk w) s =
    execVector 0x17 (vec2 fun a b => a >>> b.toNat) spk w s := rfl

theorem exec_vpop (spk : Nat) (w : BitVec 64) (s : State) : exec (.vpop spk w) s =
    execVector 0x18 (vec1 popcount32) spk w s := rfl

theorem exec_vred (spk : Nat) (w : BitVec 64) (s : State) : exec (.vred spk w) s =
    execVector 0x20 vecRed spk w s := rfl

theorem exec_vld (spk : Nat) (w : BitVec 64) (s : State) : exec (.vld spk w) s =
    execVector 0x28 vecLd spk w s := rfl

theorem exec_vst (spk : Nat) (w : BitVec 64) (s : State) : exec (.vst spk w) s =
    execVector 0x29 vecSt spk w s := rfl

theorem exec_vcvt (spk : Nat) (w : BitVec 64) (s : State) : exec (.vcvt spk w) s =
    execVector 0x2A vecCvt spk w s := rfl

theorem exec_vacr (spk : Nat) (w : BitVec 64) (s : State) : exec (.vacr spk w) s =
    execVector 0x30 vecAcr spk w s := rfl

theorem exec_vacw (spk : Nat) (w : BitVec 64) (s : State) : exec (.vacw spk w) s =
    execVector 0x31 vecAcw spk w s := rfl

theorem exec_vbcast (spk : Nat) (w : BitVec 64) (s : State) : exec (.vbcast spk w) s =
    execVector 0x32 vecBcast spk w s := rfl

theorem exec_vidx (spk : Nat) (w : BitVec 64) (s : State) : exec (.vidx spk w) s =
    execVector 0x33 vecIdx spk w s := rfl

theorem exec_mma (spk : Nat) (w : BitVec 64) (s : State) : exec (.mma spk w) s =
    actK spk (runSpoke 2 0x01 matrixMma spk w) s := rfl

theorem exec_cpin (spk : Nat) (w : BitVec 64) (s : State) : exec (.cpin spk w) s =
    actK spk (runSpoke 3 0x01 issueCopy spk w) s := rfl

theorem exec_cpout (spk : Nat) (w : BitVec 64) (s : State) : exec (.cpout spk w) s =
    actK spk (runSpoke 3 0x02 issueCopy spk w) s := rfl

theorem exec_cpls (spk : Nat) (w : BitVec 64) (s : State) : exec (.cpls spk w) s =
    actK spk (runSpoke 3 0x03 issueCopy spk w) s := rfl

theorem exec_cppeer (spk : Nat) (w : BitVec 64) (s : State) : exec (.cppeer spk w) s =
    actK spk (runSpoke 3 0x04 issueCopy spk w) s := rfl

theorem exec_copyComplete (spk copy : Nat) (s : State) : exec (.copyComplete spk copy) s =
    actK spk (fun b => if spokesRun b then copyDone spk copy b else b) s := rfl

theorem exec_copyTimeout (spk copy : Nat) (s : State) : exec (.copyTimeout spk copy) s =
    actK spk (fun b => if spokesRun b then copyLate spk copy b else b) s := rfl

theorem exec_copyErr (spk copy : Nat) (s : State) : exec (.copyErr spk copy) s =
    actK spk (fun b => if spokesRun b then copyFails spk copy b else b) s := rfl

theorem exec_scsig (spk : Nat) (w : BitVec 64) (s : State) : exec (.scsig spk w) s =
    actK spk (runWord 4 0x01 (spokeSignal spk) spk w) s := rfl

theorem exec_cfence (spk : Nat) (w : BitVec 64) (s : State) : exec (.cfence spk w) s =
    actK spk (runWord 4 0x02 (spokeFence spk) spk w) s := rfl

theorem exec_tbegin (spk : Nat) (w : BitVec 64) (s : State) : exec (.tbegin spk w) s =
    actK spk (runSpoke 5 0x01 tileBegin spk w) s := rfl

theorem exec_tend (spk : Nat) (w : BitVec 64) (s : State) : exec (.tend spk w) s =
    actK spk (fun b => if rowListed w.toNat then runWord 5 0x02 (tileEnd spk) spk w b else strayWord spk w b) s := rfl

theorem exec_tileOverrun (spk : Nat) (s : State) : exec (.tileOverrun spk) s =
    actK spk (tileOverrun spk) s := rfl

theorem exec_contextSwapDone (spk : Nat) (s : State) : exec (.contextSwapDone spk) s =
    actK spk (fun b => if spokesRun b then swapDone spk b else b) s := rfl

theorem exec_tileStart (place spk : Nat) (tile : TileDesc) (s : State) : exec (.tileStart place spk tile) s =
    actC (.placeSpoke place spk) (startTile place spk tile) s := rfl

theorem exec_acceptWaitEnd (place tiles : Nat) (s : State) : exec (.acceptWaitEnd place tiles) s =
    actC (.place place) (acceptWaitEnd place tiles) s := rfl

theorem exec_pelotonPlaceGrant (place tiles : Nat) (s : State) : exec (.pelotonPlaceGrant place tiles) s =
    actC (.place place) (grantPlace place tiles) s := rfl

theorem exec_preemptComplete (place : Nat) (s : State) : exec (.preemptComplete place) s =
    actC (.place place) (preemptDone place) s := rfl

theorem exec_ringEnable (who : Caller) (val : BitVec 64) (s : State) : exec (.ringEnable who val) s =
    actR .none (ringCtrlWrite who val.toNat) s := rfl

theorem exec_ringDisable (who : Caller) (val : BitVec 64) (s : State) : exec (.ringDisable who val) s =
    actR .none (ringCtrlWrite who val.toNat) s := rfl

theorem exec_ringDrained (ring : BitVec 16) (s : State) : exec (.ringDrained ring) s =
    actR .none (drainEnds ring.toNat) s := rfl

theorem exec_cancelGo (who : Caller) (val : BitVec 64) (s : State) : exec (.cancelGo who val) s =
    act .none (fun b => if working b then rest (cancelWrite who val.toNat b) else b) s := rfl

theorem exec_tailLineInvalidate (ring : BitVec 16) (s : State) : exec (.tailLineInvalidate ring) s =
    actR .none (readTail ring.toNat) s := rfl

theorem exec_ringService (ring : BitVec 16) (s : State) : exec (.ringService ring) s =
    actR .none (serveRing ring.toNat) s := rfl

theorem exec_duplicateReplay (rid : Nat) (s : State) : exec (.duplicateReplay rid) s =
    actC .none (replayDuplicate rid) s := rfl

theorem exec_cqSpaceReread (rid : Nat) (s : State) : exec (.cqSpaceReread rid) s =
    actC .none (rereadSpace rid) s := rfl

theorem exec_trailer (rid : Nat) (s : State) : exec (.trailer rid) s =
    actC .none (runTrailer rid) s := rfl

theorem exec_timeLineUpdate (s : State) : exec (.timeLineUpdate) s =
    actR .none readTimeLine s := rfl

theorem exec_timelineStaleCount (s : State) : exec (.timelineStaleCount) s =
    act .none lineStale s := rfl

theorem exec_timelineEnable (who : Caller) (val : BitVec 64) (s : State) : exec (.timelineEnable who val) s =
    act .none (fun b => if who.isMgmt then timelineWrite val.toNat b else b) s := rfl

theorem exec_timelineDisable (who : Caller) (val : BitVec 64) (s : State) : exec (.timelineDisable who val) s =
    act .none (fun b => if who.isMgmt then timelineWrite val.toNat b else b) s := rfl

theorem exec_descSelect (who : Caller) (val : BitVec 64) (s : State) : exec (.descSelect who val) s =
    act .none (descSelect who val.toNat) s := rfl

theorem exec_pfxSelect (who : Caller) (val : BitVec 64) (s : State) : exec (.pfxSelect who val) s =
    act .none (pfxSelect who val.toNat) s := rfl

theorem exec_hotIdleExpiry (sid : Nat) (s : State) : exec (.hotIdleExpiry sid) s =
    actC (.slot sid) (hotIdle sid) s := rfl

theorem exec_warmIdleExpiry (sid : Nat) (s : State) : exec (.warmIdleExpiry sid) s =
    actC (.slot sid) (warmIdle sid) s := rfl

theorem exec_specReviveStart (sid : Nat) (s : State) : exec (.specReviveStart sid) s =
    actC (.slot sid) (specRevive sid) s := rfl

theorem exec_shadowHoldExpiry (sid : Nat) (s : State) : exec (.shadowHoldExpiry sid) s =
    actC (.slot sid) (fun b => match (session b sid).bind (·.shadow) with
    | none => b
    | some sh =>
      if b.stale = false ∧ sh.hint + b.getF F.PNE_SPEC_CFG_shadow_hold_ms * 1000000 < b.now then dropShadow sid b else b) s := rfl

theorem exec_motionComplete (sid : Nat) (s : State) : exec (.motionComplete sid) s =
    actC (.slot sid) (motionComplete sid) s := rfl

theorem exec_tierLate (sid : Nat) (s : State) : exec (.tierLate sid) s =
    actC (.slot sid) (fun b => match session b sid, runningMotion b sid with
    | some _, some m =>
      if m.late = false ∧ waitsOnLower b sid = true then
        (updSession sid (fun x => { x with motion := some { m with late := true } }) b).bump F.PNE_CNT_FAULT_tier_late
      else b
    | _, _ => b) s := rfl

theorem exec_tierTimeout (sid : Nat) (read : Bool) (s : State) : exec (.tierTimeout sid read) s =
    actC (.slot sid) (tierFails sid read) s := rfl

theorem exec_tierError (sid : Nat) (read : Bool) (s : State) : exec (.tierError sid read) s =
    actC (.slot sid) (tierFails sid read) s := rfl

theorem exec_moveOffer (src : BitVec 8) (hdr : Bytes) (s : State) : exec (.moveOffer src hdr) s =
    actC .none (takeOffer src.toNat hdr) s := rfl

theorem exec_moveSection (moveId : BitVec 64) (bytes : Bytes) (s : State) : exec (.moveSection moveId bytes) s =
    actC .none (takeSection moveId.toNat bytes) s := rfl

theorem exec_moveTrailer (moveId : BitVec 64) (bytes : Bytes) (wrapOk : Bool) (s : State) : exec (.moveTrailer moveId bytes wrapOk) s =
    actC .none (takeTrailer moveId.toNat bytes wrapOk) s := rfl

theorem exec_moveReady (sid : Nat) (handle : BitVec 48) (dstTandem : Bool) (s : State) : exec (.moveReady sid handle dstTandem) s =
    actC (.slot sid) (moveReady sid handle.toNat dstTandem) s := rfl

theorem exec_moveCommit (moveId : BitVec 64) (s : State) : exec (.moveCommit moveId) s =
    actC .none (takeCommit moveId.toNat) s := rfl

theorem exec_moveDone (sid : Nat) (s : State) : exec (.moveDone sid) s =
    actC (.slot sid) (moveDone sid) s := rfl

theorem exec_poolTimeout (sid : Nat) (s : State) : exec (.poolTimeout sid) s =
    actC (.slot sid) (destinationLost sid) s := rfl

theorem exec_regWrite (who : Caller) (addr : BitVec 32) (val : BitVec 64) (s : State) : exec (.regWrite who addr val) s =
    actR .none (writeReg who addr.toNat val.toNat) s := rfl

theorem exec_homingWrite (who : Caller) (val : BitVec 64) (s : State) : exec (.homingWrite who val) s =
    actR .none (fun b => if who.isMgmt then pneCfgWrite val.toNat b else b) s := rfl

theorem exec_shaperConfig (who : Caller) (val : BitVec 64) (s : State) : exec (.shaperConfig who val) s =
    act .none (fun b => if who.isMgmt then shaperWrite val.toNat b else b) s := rfl

theorem exec_shaperAdmit (kind : BitVec 2) (index : BitVec 16) (refill : Nat) (s : State) : exec (.shaperAdmit kind index refill) s =
    actR .none (shaperAdmit kind.toNat index.toNat refill) s := rfl

theorem exec_hwinConfig (who : Caller) (val : BitVec 64) (s : State) : exec (.hwinConfig who val) s =
    actR .none (fun b => if who.isMgmt then windowWrite (b.getF F.MEM_HWIN_SEL_window) val.toNat b else b) s := rfl

theorem exec_keyRotate (who : Caller) (s : State) : exec (.keyRotate who) s =
    act .none (fun b => if mayCommandKeys who then rotateKey (b.getF F.MEM_KEY_SEL_tenant) b else b) s := rfl

theorem exec_rotatePassEnd (tenant : BitVec 12) (s : State) : exec (.rotatePassEnd tenant) s =
    actC .none (endPass tenant.toNat) s := rfl

theorem exec_reserial (who : Caller) (s : State) : exec (.reserial who) s =
    act .none (fun b => if mayCommandKeys who then reserialise b else b) s := rfl

theorem exec_patrol (addr : BitVec 39) (finding : EccFinding) (s : State) : exec (.patrol addr finding) s =
    actR .none (fun b => loseReplica (patrolRead addr.toNat finding b)) s := rfl

theorem exec_ceHourWindow (s : State) : exec (.ceHourWindow) s =
    act .none hourEnds s := rfl

theorem exec_indexCreate (who : Caller) (s : State) : exec (.indexCreate who) s =
    actR .none (fun b => if who.isMgmt then indexCommand 1 b else b) s := rfl

theorem exec_indexDestroy (who : Caller) (s : State) : exec (.indexDestroy who) s =
    actR .none (fun b => if who.isMgmt then indexCommand 2 b else b) s := rfl

theorem exec_mergeComplete (index : BitVec 10) (s : State) : exec (.mergeComplete index) s =
    actC .none (completeMerge index.toNat) s := rfl

theorem exec_shardQuery (src : BitVec 8) (q : ShardQuery) (s : State) : exec (.shardQuery src q) s =
    actC .none (arriveQuery src.toNat q) s := rfl

theorem exec_shardAnswer (rid : Nat) (src : BitVec 8) (ans : ShardAnswer) (s : State) : exec (.shardAnswer rid src ans) s =
    actC .none (takeAnswer rid src.toNat ans) s := rfl

theorem exec_shardTimeout (rid : Nat) (s : State) : exec (.shardTimeout rid) s =
    actC .none (shardTimeout rid) s := rfl

theorem exec_nbrTierAccess (src : BitVec 8) (acc : NbrAccess) (s : State) : exec (.nbrTierAccess src acc) s =
    actC .none (nbrAccess src.toNat acc) s := rfl

theorem exec_lendStream (range : BitVec 6) (blocks : Nat) (s : State) : exec (.lendStream range blocks) s =
    actR .none (fun b => if working b then lendStream range.toNat blocks b else b) s := rfl

theorem exec_donorScrub (src : BitVec 8) (ranges : List Nat) (s : State) : exec (.donorScrub src ranges) s =
    actC .none (donorScrub src.toNat ranges) s := rfl

theorem exec_mapForm (who : Caller) (s : State) : exec (.mapForm who) s =
    actR .none (fun b => if mayCommandKeys who then mapForm b else b) s := rfl

theorem exec_mapPropose (who : Caller) (s : State) : exec (.mapPropose who) s =
    actR .none (fun b => if mayCommandKeys who then mapPropose b else b) s := rfl

theorem exec_mapClear (who : Caller) (s : State) : exec (.mapClear who) s =
    act .none (fun b => if mayCommandKeys who then
    { b with cmp := { b.cmp with staged := [], stagedMembers := [] } } else b) s := rfl

theorem exec_mapPrepare (src : BitVec 8) (p : Proposal) (s : State) : exec (.mapPrepare src p) s =
    actR .none (takePrepare src.toNat p) s := rfl

theorem exec_mapAck (src : BitVec 8) (epoch : BitVec 32) (ack : Bool) (s : State) : exec (.mapAck src epoch ack) s =
    actR .none (takeMapAck src.toNat epoch.toNat ack) s := rfl

theorem exec_mapPrepTimeout (s : State) : exec (.mapPrepTimeout) s =
    actR .none abortChange s := rfl

theorem exec_mapCommit (src : BitVec 8) (epoch : BitVec 32) (s : State) : exec (.mapCommit src epoch) s =
    actR .none (takeMapCommit src.toNat epoch.toNat) s := rfl

theorem exec_mapAbort (src : BitVec 8) (epoch : BitVec 32) (s : State) : exec (.mapAbort src epoch) s =
    actR .none (takeMapAbort epoch.toNat) s := rfl

theorem exec_rangeDrained (s : State) : exec (.rangeDrained) s =
    actC .none rangeDrained s := rfl

theorem exec_mapHandover (src : BitVec 8) (base2m : BitVec 43) (s : State) : exec (.mapHandover src base2m) s =
    actR .none (takeHandover src.toNat base2m.toNat) s := rfl

theorem exec_heartbeat (s : State) : exec (.heartbeat) s =
    act .none sendHeartbeats s := rfl

theorem exec_peerUnreachable (peer : BitVec 8) (s : State) : exec (.peerUnreachable peer) s =
    actR .none (peerLost peer.toNat) s := rfl

theorem exec_portEnable (who : Caller) (stoty : Bool) (val : BitVec 64) (s : State) : exec (.portEnable who stoty val) s =
    actR .none (fun b => if who.isMgmt then portCtrlWrite stoty val.toNat b else b) s := rfl

theorem exec_portRetrain (who : Caller) (stoty : Bool) (val : BitVec 64) (s : State) : exec (.portRetrain who stoty val) s =
    actR .none (fun b => if who.isMgmt then portCtrlWrite stoty val.toNat b else b) s := rfl

theorem exec_trainingStageDone (port : Nat) (lanesLocked : BitVec 9) (s : State) : exec (.trainingStageDone port lanesLocked) s =
    actR (.port port) (stageDone port lanesLocked.toNat) s := rfl

theorem exec_capabilityBlock (port : Nat) (block : Bytes) (s : State) : exec (.capabilityBlock port block) s =
    actR (.port port) (takeCapability port block) s := rfl

theorem exec_linkHandshake (port : Nat) (peer : PeerCert) (s : State) : exec (.linkHandshake port peer) s =
    actR (.port port) (takeHandshake port peer) s := rfl

theorem exec_linkUp (port : Nat) (s : State) : exec (.linkUp port) s =
    actR (.port port) (linkUp port) s := rfl

theorem exec_trainingRetry (port : Nat) (s : State) : exec (.trainingRetry port) s =
    actR (.port port) (trainingRetry port) s := rfl

theorem exec_flitReceive (port : Nat) (flit : FlitInfo) (s : State) : exec (.flitReceive port flit) s =
    actR (.port port) (flitReceive port flit) s := rfl

theorem exec_laneSwapDone (port : Nat) (s : State) : exec (.laneSwapDone port) s =
    actR (.port port) (laneSwapDone port) s := rfl

theorem exec_faloloSnoop (lineAddr : BitVec 52) (bytes : Bytes) (s : State) : exec (.faloloSnoop lineAddr bytes) s =
    actB .none (fun b =>
    let b := b.pokeBytes lineAddr.toNat (bytes.take (64 - lineAddr.toNat % 64))
    if b.up then faloloSnoop lineAddr.toNat b else b) s := rfl

theorem exec_stotyMessage (src : BitVec 8) (cls : BitVec 3) (stream seq : Nat) (payload : Bytes) (s : State) : exec (.stotyMessage src cls stream seq payload) s =
    actR .none (takeMessage src.toNat cls.toNat seq payload) s := rfl

theorem exec_tandemDelta (src : BitVec 8) (number : BitVec 32) (delta : TandemDelta) (s : State) : exec (.tandemDelta src number delta) s =
    actC .none (takeDelta src.toNat number.toNat delta) s := rfl

theorem exec_tandemAck (src : BitVec 8) (number : BitVec 32) (copyValid : Bool) (s : State) : exec (.tandemAck src number copyValid) s =
    actR .none (takeAck src.toNat number.toNat copyValid) s := rfl

theorem exec_ckptComplete (ok : Bool) (shards : Nat) (s : State) : exec (.ckptComplete ok shards) s =
    actC .none (endCkpt ok shards) s := rfl

theorem exec_tdmRestore (who : Caller) (val : BitVec 64) (found : Option TandemCopy) (s : State) : exec (.tdmRestore who val found) s =
    actC .none (tdmCommand who val.toNat found []) s := rfl

theorem exec_tdmFollow (who : Caller) (val : BitVec 64) (s : State) : exec (.tdmFollow who val) s =
    actC .none (tdmCommand who val.toNat none []) s := rfl

theorem exec_tdmCkRestore (who : Caller) (val : BitVec 64) (slots : List CkptFound) (s : State) : exec (.tdmCkRestore who val slots) s =
    actC .none (tdmCommand who val.toNat none slots) s := rfl

theorem exec_tdmRestoreOne (who : Caller) (val : BitVec 64) (slots : List CkptFound) (s : State) : exec (.tdmRestoreOne who val slots) s =
    actC .none (tdmCommand who val.toNat none slots) s := rfl

theorem exec_tdmCkpt (who : Caller) (val : BitVec 64) (s : State) : exec (.tdmCkpt who val) s =
    actC .none (tdmCommand who val.toNat none []) s := rfl

theorem exec_tdmRelease (who : Caller) (val : BitVec 64) (s : State) : exec (.tdmRelease who val) s =
    actC .none (tdmCommand who val.toNat none []) s := rfl

theorem exec_restoreComplete (badUnits : List (Nat × Nat)) (s : State) : exec (.restoreComplete badUnits) s =
    actC .none (endLoad badUnits) s := rfl

theorem exec_spokeTestRotate (wheel : BitVec 2) (s : State) : exec (.spokeTestRotate wheel) s =
    actR .none (rotateSpoke wheel.toNat) s := rfl

theorem exec_laneTestRotate (port lane : Nat) (s : State) : exec (.laneTestRotate port lane) s =
    actR (.lane port lane) (rotateLane port lane) s := rfl

theorem exec_hubTestRotate (partition : Nat) (s : State) : exec (.hubTestRotate partition) s =
    actR (.hub partition) (rotateHub partition) s := rfl

theorem exec_channelTestRotate (channel : BitVec 8) (s : State) : exec (.channelTestRotate channel) s =
    actR .none (rotateChannel channel.toNat) s := rfl

theorem exec_bistComplete (slice : Slice) (pass patched : Bool) (s : State) : exec (.bistComplete slice pass patched) s =
    actR (.slice slice) (sliceTested slice pass patched) s := rfl

theorem exec_bistOverdue (spk : Nat) (s : State) : exec (.bistOverdue spk) s =
    actR (.spoke spk) (spokeOverdue spk) s := rfl

theorem exec_fuseCommit (who : Caller) (s : State) : exec (.fuseCommit who) s =
    actR .none (fun b => if who.isMgmt && b.rtp.ready then fuseCommit b else b) s := rfl

theorem exec_testNow (who : Caller) (s : State) : exec (.testNow who) s =
    actR .none (fun b => if who.isMgmt then testNow b else b) s := rfl

theorem exec_tenantActivate (who : Caller) (s : State) : exec (.tenantActivate who) s =
    actR .none (fun b => if who.isMgmt then activateTenant (selTenant b) b else b) s := rfl

theorem exec_tenantRestart (who : Caller) (s : State) : exec (.tenantRestart who) s =
    actR .none (fun b => if who.isMgmt then restartTenant (selTenant b) b else b) s := rfl

theorem exec_tenantAutoRestart (tenant : BitVec 12) (s : State) : exec (.tenantAutoRestart tenant) s =
    actR .none (autoRestart tenant.toNat) s := rfl

theorem exec_tenantReset (who : Caller) (s : State) : exec (.tenantReset who) s =
    actR .none (fun b => if who.isMgmt then resetTenant (selTenant b) b else b) s := rfl

theorem exec_scrubComplete (tenant : BitVec 12) (s : State) : exec (.scrubComplete tenant) s =
    actR .none (scrubComplete tenant.toNat) s := rfl

theorem exec_overlayApply (s : State) : exec (.overlayApply) s =
    actC .none applyOverlay s := rfl

theorem exec_rtpStage (who : Caller) (val : BitVec 64) (s : State) : exec (.rtpStage who val) s =
    actR .none (rtpCommand who val.toNat) s := rfl

theorem exec_rtpActivate (who : Caller) (val : BitVec 64) (s : State) : exec (.rtpActivate who val) s =
    actR .none (rtpCommand who val.toNat) s := rfl

theorem exec_rtpRatchet (who : Caller) (val : BitVec 64) (s : State) : exec (.rtpRatchet who val) s =
    actR .none (rtpCommand who val.toNat) s := rfl

theorem exec_claim (who : Caller) (val : BitVec 64) (s : State) : exec (.claim who val) s =
    actR .none (rtpCommand who val.toNat) s := rfl

theorem exec_setOvlKey (who : Caller) (val : BitVec 64) (s : State) : exec (.setOvlKey who val) s =
    actR .none (rtpCommand who val.toNat) s := rfl

theorem exec_confOpen (who : Caller) (val : BitVec 64) (s : State) : exec (.confOpen who val) s =
    actR .none (rtpCommand who val.toNat) s := rfl

theorem exec_ownerRelease (who : Caller) (val : BitVec 64) (s : State) : exec (.ownerRelease who val) s =
    actR .none (rtpCommand who val.toNat) s := rfl

theorem exec_debugUnlock (who : Caller) (val : BitVec 64) (s : State) : exec (.debugUnlock who val) s =
    actR .none (rtpCommand who val.toNat) s := rfl

theorem exec_dkExport (who : Caller) (val : BitVec 64) (s : State) : exec (.dkExport who val) s =
    actR .none (rtpCommand who val.toNat) s := rfl

theorem exec_dkImport (who : Caller) (val : BitVec 64) (s : State) : exec (.dkImport who val) s =
    actR .none (rtpCommand who val.toNat) s := rfl

theorem exec_tenantKey (who : Caller) (val : BitVec 64) (s : State) : exec (.tenantKey who val) s =
    actR .none (rtpCommand who val.toNat) s := rfl

theorem exec_dkRotate (who : Caller) (val : BitVec 64) (s : State) : exec (.dkRotate who val) s =
    actR .none (rtpCommand who val.toNat) s := rfl

theorem exec_reportRequest (who : Caller) (val : BitVec 64) (s : State) : exec (.reportRequest who val) s =
    act .none (rtpRequest who val.toNat) s := rfl

theorem exec_sealBatch (who : Caller) (val : BitVec 64) (s : State) : exec (.sealBatch who val) s =
    act .none (rtpRequest who val.toNat) s := rfl

theorem exec_rtpOpComplete (s : State) : exec (.rtpOpComplete) s =
    act .none finishOp s := rfl

theorem exec_fwSwapSwitch (s : State) : exec (.fwSwapSwitch) s =
    actR .none swapSwitch s := rfl

theorem exec_fwSwapAccept (s : State) : exec (.fwSwapAccept) s =
    actR .none swapAccept s := rfl

theorem exec_fwSwapTimeout (s : State) : exec (.fwSwapTimeout) s =
    actR .none swapReverts s := rfl

theorem exec_intClaim (target : BitVec 4) (s : State) : exec (.intClaim target) s =
    act .none (claimTarget target.toNat) s := rfl

theorem exec_intEoi (target : BitVec 4) (val : BitVec 64) (s : State) : exec (.intEoi target val) s =
    act .none (eoiTarget target.toNat (bitsOf val.toNat 0 11)) s := rfl

theorem exec_intSrcConfig (source : BitVec 11) (val : BitVec 64) (s : State) : exec (.intSrcConfig source val) s =
    act .none (srcConfig source.toNat val.toNat) s := rfl

theorem exec_intSoft (val : BitVec 64) (s : State) : exec (.intSoft val) s =
    act .none (fire (Src.soft (bitsOf val.toNat 0 8))) s := rfl

theorem exec_watchArm (slot : BitVec 8) (val : BitVec 64) (s : State) : exec (.watchArm slot val) s =
    act .none (watchWrite slot.toNat val.toNat) s := rfl

theorem exec_syncCntWrite (counter : BitVec 16) (val : BitVec 64) (s : State) : exec (.syncCntWrite counter val) s =
    actR .none (setCounter counter.toNat val.toNat) s := rfl

theorem exec_syncOwnWrite (word : BitVec 10) (val : BitVec 64) (s : State) : exec (.syncOwnWrite word val) s =
    act .none (ownWrite word.toNat val.toNat) s := rfl

theorem exec_pmcSample (m : PowerSample) (s : State) : exec (.pmcSample m) s =
    act .none (pmcSample m) s := rfl

theorem exec_energyUpdate (e : EnergyReport) (s : State) : exec (.energyUpdate e) s =
    act .none (chargeEnergy e) s := rfl

theorem exec_cadenceWindowStart (hint : Nat) (s : State) : exec (.cadenceWindowStart hint) s =
    act .none (windowStarts hint) s := rfl

theorem exec_cadenceWindowEnd (hint : Nat) (s : State) : exec (.cadenceWindowEnd hint) s =
    act .none (windowEnds hint) s := rfl

theorem exec_throttleSet (sensor : Nat) (temp : BitVec 11) (s : State) : exec (.throttleSet sensor temp) s =
    actB (.sensor sensor) (senseTemp sensor temp.toNat) s := rfl

theorem exec_throttleStepDown (site : Nat) (s : State) : exec (.throttleStepDown site) s =
    act (.sensor site) (throttleDown site) s := rfl

theorem exec_throttleStepUp (site : Nat) (s : State) : exec (.throttleStepUp site) s =
    act (.sensor site) (throttleUp site) s := rfl

theorem exec_sensorTrip (sensor : Nat) (temp : BitVec 11) (s : State) : exec (.sensorTrip sensor temp) s =
    actB (.sensor sensor) (senseTemp sensor temp.toNat) s := rfl

theorem exec_thermTripNLow (s : State) : exec (.thermTripNLow) s =
    actB .none tripFalls s := rfl

theorem exec_coolantOkFall (s : State) : exec (.coolantOkFall) s =
    actB .none coolantFalls s := rfl

theorem exec_brakedEnter (s : State) : exec (.brakedEnter) s =
    act .none enterBraked s := rfl

theorem exec_unbrake (who : Caller) (s : State) : exec (.unbrake who) s =
    act .none (fun b => if who.isMgmt then unbrake b else b) s := rfl

theorem exec_leaveComplete (s : State) : exec (.leaveComplete) s =
    actR .none leaveComplete s := rfl

theorem exec_standby (who : Caller) (s : State) : exec (.standby who) s =
    actR .none (fun b => if who.isMgmt then standby b else b) s := rfl

theorem exec_wake (src : WakeSource) (s : State) : exec (.wake src) s =
    actR .none (wake src) s := rfl

theorem exec_vinApply (mv : BitVec 16) (s : State) : exec (.vinApply mv) s =
    actB .none (vinApplied mv.toNat) s := rfl

theorem exec_pwrEnRise (s : State) : exec (.pwrEnRise) s =
    actB .none pwrEnRises s := rfl

theorem exec_railStageDone (s : State) : exec (.railStageDone) s =
    actB .none railStage s := rfl

theorem exec_pwrEnFall (s : State) : exec (.pwrEnFall) s =
    actB .none pwrEnFalls s := rfl

theorem exec_powerLoss (cause : LossCause) (s : State) : exec (.powerLoss cause) s =
    actB .none (powerLost cause) s := rfl

theorem exec_modResetNFall (s : State) : exec (.modResetNFall) s =
    actB .none resetFalls s := rfl

theorem exec_resetRelease (straps : Straps) (s : State) : exec (.resetRelease straps) s =
    actB .none (resetRises straps) s := rfl

theorem exec_bootComplete (b : BootOutcome) (s : State) : exec (.bootComplete b) s =
    actB .none (bootCompletes b) s := rfl

theorem exec_refclkChange (group : BitVec 2) (ok : Bool) (s : State) : exec (.refclkChange group ok) s =
    actB .none (clockChanges group.toNat ok) s := rfl

theorem exec_i3cAddressAssign (addr : BitVec 7) (s : State) : exec (.i3cAddressAssign addr) s =
    actB .none (assignAddress addr.toNat) s := rfl

theorem exec_busRead (addr : BitVec 32) (s : State) : exec (.busRead addr) s =
    actB .none (busReadOp addr.toNat) s := rfl

theorem exec_busWrite (addr : BitVec 32) (val : BitVec 64) (s : State) : exec (.busWrite addr val) s =
    actB .none (busWriteOp addr.toNat val.toNat) s := rfl

theorem exec_recData (offset : BitVec 32) (bytes : List (BitVec 8)) (s : State) : exec (.recData offset bytes) s =
    actB .none (recoveryData offset.toNat bytes) s := rfl

theorem exec_recCommit (length : BitVec 32) (s : State) : exec (.recCommit length) s =
    actB .none (recoveryCommit length.toNat) s := rfl

theorem exec_jtagInstruction (ir : JtagInstr) (s : State) : exec (.jtagInstruction ir) s =
    actB .none (jtagLoad ir) s := rfl

theorem exec_sessionScrubDone (sid : Nat) (s : State) : exec (.sessionScrubDone sid) s =
    actR (.slot sid) (scrubDone sid) s := rfl

theorem exec_indexDestroyDone (index : BitVec 10) (s : State) : exec (.indexDestroyDone index) s =
    actC .none (indexGone index.toNat) s := rfl

theorem exec_coolantOkRise (s : State) : exec (.coolantOkRise) s =
    actB .none (updPmc fun p => { p with coolantOk := true, okUs := 0 }) s := rfl

theorem exec_thermTripNRise (s : State) : exec (.thermTripNRise) s =
    actB .none (updPmc fun p => { p with tripLow := false }) s := rfl

theorem exec_sensorBelowThrottle (sensor : Nat) (temp : BitVec 11) (s : State) : exec (.sensorBelowThrottle sensor temp) s =
    actB (.sensor sensor) (senseTemp sensor temp.toNat) s := rfl

theorem exec_lossOfWidth (port : Nat) (lanesGood : BitVec 9) (s : State) : exec (.lossOfWidth port lanesGood) s =
    actR (.port port) (lossOfWidth port lanesGood.toNat) s := rfl

theorem exec_fwSwapLoadDone (s : State) : exec (.fwSwapLoadDone) s =
    actR .none swapLoaded s := rfl

theorem exec_railWarn (rail : BitVec 4) (warn : Bool) (mv : BitVec 16) (s : State) : exec (.railWarn rail warn mv) s =
    actB .none (railWarns rail.toNat warn mv.toNat) s := rfl

theorem exec_supplyDroop (spk : Nat) (s : State) : exec (.supplyDroop spk) s =
    act (.spoke spk) (fun b => b.bumpFi F.SPK_ERR_stretch spk 1) s := rfl

theorem exec_overvoltageRestart (mv : BitVec 16) (s : State) : exec (.overvoltageRestart mv) s =
    actB .none (overvoltageEnds mv.toNat) s := rfl

theorem exec_testLogicReset (s : State) : exec (.testLogicReset) s =
    actB .none (updMod fun m => { m with jtag := none }) s := rfl

end Sys2Proof.Machine
end

