-- ==== Sys2Proof/Laws/Fields.lean ====
section
/-! SUPPORT. What a register field reads after a field was set. -/

namespace Sys2Proof.Machine

theorem ftGet_ftSet (t : FieldTab) (k j : Nat × Nat) (v : Nat) :
    ftGet (ftSet t k v) j = if j = k then some v else ftGet t j := by
  induction t with
  | nil => simp [ftSet, ftGet]
  | cons e t ih =>
    obtain ⟨k', v'⟩ := e
    simp only [ftSet]
    split
    · subst_vars; simp only [ftGet]; split <;> simp_all
    · split
      · simp only [ftGet]
      · simp only [ftGet, ih]; grind

theorem ftGet_ftDel (t : FieldTab) (k j : Nat × Nat) : ftGet (ftDel t k) j = if j = k then none else ftGet t j := by
  induction t with
  | nil => simp [ftDel, ftGet]
  | cons e t ih =>
    obtain ⟨k', v'⟩ := e
    simp only [ftDel]
    split
    · subst_vars; simp only [ih, ftGet]; grind
    · simp only [ftGet, ih]; grind

/-- A field read after a field was set: the value cut to the width, or what it read before. -/
theorem getFi_setFi (b : Block) (f g : Fld) (i j v : Nat) (hr : f.key = g.key → f.reset = g.reset) :
    (b.setFi f i v).getFi g j = if (g.key, j) = (f.key, i) then v % 2 ^ f.width else b.getFi g j := by
  unfold Block.setFi Block.getFi
  by_cases h : v % 2 ^ f.width = f.reset <;> by_cases hk : (g.key, j) = (f.key, i)
  all_goals simp only [h, hk, ↓reduceIte, ftGet_ftDel, ftGet_ftSet]
  · simp only [Option.getD_none]
    exact (hr (by simp_all)).symm
  · simp

@[simp] theorem getFi_setFi_self (b : Block) (f : Fld) (i v : Nat) : (b.setFi f i v).getFi f i = v % 2 ^ f.width := by
  rw [getFi_setFi _ _ _ _ _ _ fun _ => rfl, if_pos rfl]

theorem getFi_setFi_ne (b : Block) (f g : Fld) (i j v : Nat) (h : (g.key, j) ≠ (f.key, i)) :
    (b.setFi f i v).getFi g j = b.getFi g j := by
  unfold Block.setFi Block.getFi
  by_cases hv : v % 2 ^ f.width = f.reset
  all_goals simp only [hv, ↓reduceIte, ftGet_ftDel, ftGet_ftSet, if_neg h]

@[simp] theorem getF_setF_self (b : Block) (f : Fld) (v : Nat) : (b.setF f v).getF f = v % 2 ^ f.width := by
  simp [Block.setF, Block.getF]

/-- A field of another register or place is as it was. -/
theorem getF_setF_ne (b : Block) (f g : Fld) (v : Nat) (h : g.key ≠ f.key) : (b.setF f v).getF g = b.getF g := by
  unfold Block.setF Block.getF
  exact getFi_setFi_ne _ _ _ _ _ _ (by simp [h])

/-- Nothing but the store of fields changes. -/
theorem setFi_frame (b : Block) (f : Fld) (i v : Nat) : { b.setFi f i v with flds := b.flds } = b := rfl

/-- A counter saturates at its width. -/
theorem getFi_bumpFi_self (b : Block) (f : Fld) (i n : Nat) :
    (b.bumpFi f i n).getFi f i = min (b.getFi f i + n) (2 ^ f.width - 1) := by
  have : 0 < 2 ^ f.width := Nat.two_pow_pos _
  rw [Block.bumpFi, getFi_setFi_self, Nat.mod_eq_of_lt (by omega)]

end Sys2Proof.Machine
end

