-- ==== Sys2Proof/Tests/Slice0.lean ====
section
/-! SUPPORT. The model's own tests: the checks of WellFormed, small behaviours of single commands, and for each obligation with
hypotheses a state and operands that meet them, clause by clause. -/

namespace Sys2Proof.Machine

section

set_option Elab.async false

/-! ### Small states -/

/-- An entry of the chain with an opcode, operand A and an immediate operand B. -/
def tImm (op a v : Nat) : Entry := ⟨op + a * 2 ^ 32, v, 1⟩

/-- An entry whose block lies at an address. -/
def tPtr (op a addr : Nat) : Entry := ⟨op + 512 + a * 2 ^ 32, addr, 1⟩

/-- A started request of ring 16, of tenant 1, that stands at an entry. -/
def tReq (e : Entry) : Req := { newReq 16 .normal e ⟨7, 0, 0, 0⟩ 0 0 with started := true }

/-- A running ring of tenant 1 with 64 command slots at 4,096. -/
def tRing : Ring := ⟨0x31, 6, 6, 4096, 8192, 12288, 262144, 10, 256, 1, 0, 0, 0, 0, 0, 0, 0, .none, false, [], 0, 0, []⟩

/-- Register fields set. -/
def tSet (l : List (Fld × Nat × Nat)) (b : Block) : Block := l.foldl (fun b e => b.setFi e.1 e.2.1 e.2.2) b

/-- The module booted and in RUN: tenant 1 is active with ring 16 and one window over the first 2 MiB of companion memory. -/
def tBase : Block :=
  let b : Block := { Block.reset with rtp := { RtpState.reset with ready := true } }
  let b := tSet [(F.MOD_TIMELINE_STAT_stale, 0, 0), (F.MOD_TEN_STAT_tstate, 1, 1), (F.CFE_RING_STAT_state, 16, 1),
    (F.CFE_RING_CTRL_enable, 16, 1), (F.MEM_HWIN_CFG_enable, 0, 1), (F.MEM_HWIN_CFG_all_tenants, 0, 1),
    (F.MEM_HWIN_CFG_size_2m, 0, 1), (F.SES_TQ_LIMITS_max_sessions, 1, 4),
    (F.SES_TQ_BYTES_hot_16m, 1, 64), (F.SES_TQ_BYTES_warm_hbm_16m, 1, 64), (F.STE_TQ_SCHED_model_gib, 1, 4),
    (F.CFE_RING_CFG_mgmt, 16, 1), (F.CFE_RING_CFG_models, 16, 1)] b
  { b with fe := { b.fe with rings := [(16, tRing)] } }

/-- The module with a value in companion memory. -/
def tPoke (addr n v : Nat) (b : Block) : Block := b.pokeLe addr n v

/-- A ready model, adapters none, geometry class 0. -/
def tModel : ModelSlot := ⟨slReady, false, false, false, 1, 0, 0x13, 1, 128, 256, 0x10, [], [1], [2], 4096, [], 0, 0, false⟩

/-- A ready cog of the 256 bytes as entries. -/
def tCog : Cog := ⟨slReady, false, 1, 0, some 1, (List.range 256).map fun n => ⟨0, [BitVec.ofNat 8 n]⟩, [3], 0, false⟩

/-- A HOT session of tenant 1 with handle 2^36 + 1 in slot 0. -/
def tSess : Session := newSession 1 1 0 0 0 64 0 []
def tHandle : Nat := 2 ^ 36 + 1

/-- A session in slot 0 beside the model and the cog. -/
def tWith (x : Session) (b : Block) : Block :=
  { b with ses := { b.ses with slots := [(0, x)], firstUnused := 1, classes := [(0, ⟨1, 132, 128⟩)] }, ten := { b.ten with models := [(0, tModel)] },
           txu := { b.txu with cogs := [(0, tCog)] } }

/-- Request 1 stands at an entry. -/
def tDue (e : Entry) (b : Block) : State := ⟨{ b with fe := { b.fe with reqs := [(1, tReq e)], order := 2 } }, []⟩

/-- What the entry is given, and the module as it finds it. -/
def tCtx (e : Entry) (b : Block) : Ctx := dueCtx (tDue e b).toBlock 1 (tReq e) e
def tBlk (e : Entry) (b : Block) : Block := dueBlock (tDue e b).toBlock 1 (tReq e) e

/-- Request 1 stands at an entry of a row that is due, in a module that works, and what the entry is given meets `P`. -/
def Shows (e : Entry) (b : Block) (row : CRow) (P : State → Ctx → Block → Prop) : Prop :=
  Runs (tDue e b) 1 row (tCtx e b) (tBlk e b) ∧ P (tDue e b) (tCtx e b) (tBlk e b)

theorem shows_of {e : Entry} {b : Block} {row : CRow} {P : State → Ctx → Block → Prop}
    (h : ((tDue e b).works ∧ Due (tDue e b).toBlock 1 row (tReq e) e) ∧ P (tDue e b) (tCtx e b) (tBlk e b)) :
    Shows e b row P := ⟨⟨h.1.1, _, _, h.1.2, rfl, rfl⟩, h.2⟩

/-! ### Witnesses: the instructions of the chain -/

/-- SOPEN: model 0 and cog 0 are usable; the tenant holds one session of its four. -/
theorem test_sopen_witness : Shows (tPtr 0x01 0 64) (tPoke 88 4 64 (tWith tSess tBase)) .sopen fun _ c b =>
    modelSlot b (bitsOf c.e.a 0 8) = some tModel ∧ tModel.state = slReady ∧ tModel.draft = false ∧ tModel.damaged = false ∧
    tModel.owner = c.tenant ∧ cogUsable b c.tenant (bitsOf c.e.a 8 4) = true ∧
    tenantPlaces b c.tenant < b.getFi F.SES_TQ_LIMITS_max_sessions c.tenant ∧
    reservedSlots b (fun _ => true) < freeSlots b ∧ oldestFree b = some (1, 0) :=
  shows_of (by decide +kernel)

/-- The least that an SOPEN may find: one session left, generation 0xFFF before. -/
theorem test_sopen_edge :
    Shows (tPtr 0x01 0 64) { tWith tSess tBase with ses := { SesState.reset with firstUnused := numSlots, freed := [(5, 0xFFF)] } } .sopen
      fun _ c b => tenantPlaces b c.tenant < b.getFi F.SES_TQ_LIMITS_max_sessions c.tenant ∧
        reservedSlots b (fun _ => true) < freeSlots b ∧ oldestFree b = some (5, 0xFFF) ∧
        nextGen 0xFFF = 1 :=
  shows_of (by decide +kernel)

/-- SCLOSE: on a settled session; on one in QUARANTINE; on another tenant's handle. -/
theorem test_sclose_witness :
    Shows (tImm 0x02 0 tHandle) (tWith tSess tBase) .sclose (fun _ c b => OnSession c b 0 tSess ∧ Admitted c b 0 tSess .settled) ∧
    Shows (tImm 0x02 0 tHandle) (tWith { tSess with state := ssQuarantine } tBase) .sclose (fun _ c b =>
      hTenant (c.opB % 2 ^ 48) = c.tenant ∧ hGen (c.opB % 2 ^ 48) ≠ 0 ∧
      session b (hSlot (c.opB % 2 ^ 48)) = some { tSess with state := ssQuarantine } ∧ tSess.tenant = c.tenant ∧
      tSess.gen = hGen (c.opB % 2 ^ 48) ∧ tSess.closing = false) ∧
    Shows (tImm 0x02 0 (2 * 2 ^ 36 + 1)) (tWith tSess tBase) .sclose (fun _ c _ => hTenant (c.opB % 2 ^ 48) ≠ c.tenant) :=
  ⟨shows_of (by decide +kernel), shows_of (by decide +kernel), shows_of (by decide +kernel)⟩

/-- DEPTH with its hint bit, PARK and DEPTH of a HOT session: the depth asked is WARM, in tier 0. -/
theorem test_depth_witness :
    Shows (tImm 0x06 0x11 tHandle) (tWith tSess tBase) .depthHint (fun _ c b =>
      OnSession c b 0 tSess ∧ earlierWaiter b 1 c.e.order (handleOf 0 tSess) tSess = false ∧ tSess.shadow = none) ∧
    Shows (tImm 0x03 1 tHandle) (tWith tSess tBase) .park (fun _ c b =>
      bitsOf c.e.a 0 2 ≠ 0 ∧ OnSession c b 0 tSess ∧ Admitted c b 0 tSess .idle ∧ tSess.depth = dHot ∧
      chooseTarget b tSess (bitsOf c.e.a 0 2) (bitsOf c.e.a 2 2) true = .go dWarm 0 false ∧ dWarm ≠ dHot) ∧
    Shows (tImm 0x06 1 tHandle) (tWith tSess tBase) .depth (fun _ c b =>
      OnSession c b 0 tSess ∧ Admitted c b 0 tSess .idle ∧ tSess.depth = dHot ∧
      chooseTarget b tSess (bitsOf c.e.a 0 2) (bitsOf c.e.a 2 2) false = .go dWarm 0 false ∧ dWarm ≠ dHot) :=
  ⟨shows_of (by decide +kernel), shows_of (by decide +kernel), shows_of (by decide +kernel)⟩

/-- REVIVE of a COLD session and of a HOT one; MOVE of a HOT session to the live member 2. -/
def tCold : Session := { tSess with state := ssCold, depth := dCold }
def tDomain (b : Block) : Block :=
  tSet [(F.CMP_ID_in_domain, 0, 1), (F.CMP_ID_module_id, 0, 1)] { b with cmp := { b.cmp with members := [(2, ⟨1, 0, false, 0⟩)] } }

theorem test_revive_witness :
    Shows (tImm 0x04 0 tHandle) (tWith tCold tBase) .revive (fun _ c b =>
      OnSession c b 0 tCold ∧ Admitted c b 0 tCold .settled ∧ tCold.state ≠ ssHot ∧ modelReady b tCold = true ∧
      hotBytes b tCold.tenant + reviveNeed b tCold ≤ hotLimit b tCold.tenant) ∧
    Shows (tImm 0x04 0 tHandle) (tWith tSess tBase) .revive (fun _ c b =>
      OnSession c b 0 tSess ∧ Admitted c b 0 tSess .settled ∧ tSess.state = ssHot) :=
  ⟨shows_of (by decide +kernel), shows_of (by decide +kernel)⟩

theorem test_move_witness :
    Shows (tImm 0x05 0x102 tHandle) (tDomain (tWith tSess tBase)) .move (fun _ c b =>
      bitsOf c.e.a 8 2 ≠ 3 ∧ OnSession c b 0 tSess ∧
      Admitted c b 0 tSess (if bitsOf c.e.a 8 2 = dHot then .settled else .idle) ∧ tSess.moveOut = none ∧
      bitsOf c.e.a 0 8 ≠ ownModule b ∧ liveMember b (bitsOf c.e.a 0 8) = true ∧ tSess.log.contains depthMark = false ∧
      tSess.depth ≠ dCold ∧ bitsOf c.e.a 8 2 ≠ dCold) :=
  shows_of (by decide +kernel)

/-- A session of 16 tokens whose rows fill one frame, and a pinned prefix of the same tokens without attachments. -/
def tTable : PageTable := ⟨1, 10, 0, 0, 16, 0, [⟨0, 1, 0, true⟩], []⟩
def tPaged : Session := { tSess with log := List.replicate 16 5, computed := 16, table := some tTable }
def tPrefix : Prefix := ⟨1, 9, 1, false, 0, 0, 0, tTable, 16, List.replicate 16 5, [], [1], 0, false, none, 0, false⟩
def tFrames (b : Block) : Block :=
  { b with ses := { b.ses with frames := [(0, ⟨0, 1, 0, 1, 1, false, false, [], 1⟩)], supers := [(0, ⟨0, 0, []⟩)] },
           mem := { b.mem with keys := [(1, ⟨1, 0, 0, 0, 0⟩)] } }
def tPinned (b : Block) : Block := { b with ses := { b.ses with prefixes := [(3, tPrefix)] } }

/-- A session bound to the damaged prefix 8, of the same tokens as the prefix 9. -/
def tBound : Session := { tSess with prefixHandle := 8, prefixTokens := 16 }
def tOld (b : Block) : Block :=
  { b with ses := { b.ses with prefixes := (2, { tPrefix with handle := 8, damaged := true, attach := 1 }) :: b.ses.prefixes } }

/-- PFXPIN of all 16 rows under the handle 9; PFXFORK and PFXDROP of the prefix 9. -/
theorem test_prefix_witness :
    Shows (tPtr 0x08 0 64) (tPoke 108 4 16 (tPoke 96 8 9 (tPoke 88 8 tHandle (tFrames (tWith tPaged tBase))))) .pfxpin (fun _ c b =>
      OnSession c b 0 tPaged ∧ Admitted c b 0 tPaged .hot ∧ c.arg b 32 8 ≠ 0 ∧ c.arg b 40 4 = 0 ∧ c.arg b 44 4 ≠ 0 ∧
      boundPrefix b c.tenant (c.arg b 32 8) = none ∧ tPaged.prefixHandle = 0 ∧ c.arg b 44 4 ≤ privatePositions tPaged ∧
      endsGroup 0 (c.arg b 44 4) tPaged.log = true ∧ ((modelSlot b tPaged.modelSlot).map (·.state)) = some slReady ∧
      prefixRoom b c.tenant = true ∧ unitRead 0 [2] b = none ∧ kvRead 0 b = none ∧ tPaged.table = some tTable ∧
      c.arg b 44 4 ≤ tTable.rows) ∧
    Shows (tPtr 0x09 0 64) (tPoke 96 8 9 (tPoke 88 8 tHandle (tPinned (tWith tSess tBase)))) .pfxfork (fun _ c b =>
      OnSession c b 0 tSess ∧ earlierWaiter b 1 c.e.order (handleOf 0 tSess) tSess = false ∧
      boundPrefix b c.tenant (c.arg b 32 8) = some (3, tPrefix) ∧ tPrefix.pstate = 1 ∧ tPrefix.damaged = false ∧
      tPrefix.badPair = false ∧ tPrefix.badTable = false ∧ mayReattach b tSess tPrefix = false ∧ tSess.log = [] ∧ tSess.prefixHandle = 0 ∧
      weightsOf b tSess = tPrefix.weights ∧ tPrefix.tokens ≤ tSess.maxContext) ∧
    Shows (tPtr 0x09 0 64) (tPoke 96 8 9 (tPoke 88 8 tHandle (tOld (tPinned (tWith tBound tBase))))) .pfxfork (fun _ c b =>
      OnSession c b 0 tBound ∧ earlierWaiter b 1 c.e.order (handleOf 0 tBound) tBound = false ∧
      boundPrefix b c.tenant (c.arg b 32 8) = some (3, tPrefix) ∧ tPrefix.pstate = 1 ∧ tPrefix.damaged = false ∧
      tPrefix.badPair = false ∧ tPrefix.badTable = false ∧ mayReattach b tBound tPrefix = true) ∧
    Shows (tImm 0x0A 0 9) (tPinned (tWith tSess tBase)) .pfxdrop (fun _ c b =>
      boundPrefix b c.tenant c.opB = some (3, tPrefix) ∧ tPrefix.pstate = 1) :=
  ⟨shows_of (by decide +kernel), shows_of (by decide +kernel), shows_of (by decide +kernel), shows_of (by decide +kernel)⟩

/-- A program image of 128 bytes at 4,096 beside 64 bytes of weights at 8,192, and the slots that MLOAD and MUNLOAD name. -/
def tImages (b : Block) : Block :=
  tPoke 120 8 128 (tPoke 112 8 4096 (tPoke 104 8 64 (tPoke 96 8 8192 (tPoke 4096 16 (0x4D504C49 + 1 * 2 ^ 40 + 0x13 * 2 ^ 56 +
    1 * 2 ^ 64 + 128 * 2 ^ 80 + 256 * 2 ^ 96) b))))
def tHeader : ProgramHeader := ⟨0x10, false, false, 0x13, 1, 128, 256, List.replicate 32 0⟩

theorem test_mload_witness :
    Shows (tPtr 0x0C 5 64) (tImages tBase) .mloadModel (fun _ c b =>
      let n := bitsOf c.e.a 0 8
      let weights := b.peek (c.arg b 32 8) (c.arg b 40 8)
      let program := b.peek (c.arg b 48 8) (c.arg b 56 8)
      c.arg b 32 8 % 64 = 0 ∧ c.arg b 48 8 % 64 = 0 ∧ c.reads b (c.arg b 32 8) (c.arg b 40 8) = true ∧
      c.reads b (c.arg b 48 8) (c.arg b 56 8) = true ∧ modelSlot b n = none ∧ programHeader program = some tHeader ∧
      tHeader.draft = c.e.a.testBit 8 ∧ leVal tHeader.targetDg = 0 ∧
      rowWidth tHeader.kvFormat tHeader.layers tHeader.elems = some 132 ∧
      tenantModelBytes b c.tenant + (weights.length + program.length) ≤ b.getFi F.STE_TQ_SCHED_model_gib c.tenant * 2 ^ 30 ∧
      ((takeClass tHeader.layers 132 tHeader.elems b).bind fun x => takeExtents 0
        (extentsFor weights.length + extentsFor program.length) c.tenant (.model n) x.2).isSome = true) :=
  shows_of (by decide +kernel)

/-- The same in a slot whose model was unloaded while sessions name it: the weights' digest and the geometry agree. -/
theorem test_mload_refill (dg : Bytes) :
    refillOk { tModel with state := slEmpty, weightsDg := dg } tHeader 132 dg = true := by
  have h : slotGeom { tModel with state := slEmpty, weightsDg := dg } = slotGeom tModel := rfl
  have hg : slotGeom tModel = ⟨1, 132, 128⟩ := by decide +kernel
  simp only [refillOk, h, hg]
  decide

theorem test_munload_witness :
    Shows (tImm 0x0D 0 0) (tWith tSess tBase) .munloadModel (fun _ c b =>
      modelSlot b (bitsOf c.e.a 0 8) = some tModel ∧ tModel.state = slReady ∧ tModel.owner = c.tenant) ∧
    Shows (tImm 0x0D 0x200 0) (tWith tSess tBase) .munloadCog (fun _ c b =>
      textFormBad c false 16 b = false ∧ cogOf b (textSlot c.e) = some tCog ∧ tCog.state = slReady ∧ tCog.owner = c.tenant) :=
  ⟨shows_of (by decide +kernel), shows_of (by decide +kernel)⟩

/-! ### A quick read of a long range: the cells are walked once -/

/-- Bytes from `a` of cells whose addresses rise from `a`. -/
def walkCells : List Host.Cell → Nat → Nat → Bytes
  | _, _, 0 => []
  | [], a, n + 1 => 0 :: walkCells [] (a + 1) n
  | (k, v) :: t, a, n + 1 => if k = a then v :: walkCells t (a + 1) n else 0 :: walkCells ((k, v) :: t) (a + 1) n

/-- Addresses rise strictly from `a`. -/
def cellsFrom : Nat → List Host.Cell → Bool
  | _, [] => true
  | a, (k, _) :: t => decide (a ≤ k) && cellsFrom (k + 1) t

theorem cellGet_before {m : List Host.Cell} {a b : Nat} (h : cellsFrom b m = true) (hb : a < b) : cellGet m a = 0 := by
  induction m generalizing b with
  | nil => rfl
  | cons x t ih =>
    obtain ⟨k, v⟩ := x
    simp only [cellsFrom, Bool.and_eq_true, decide_eq_true_eq] at h
    have : a ≠ k := by omega
    simp only [cellGet, this, if_false]
    exact ih h.2 (by omega)

theorem cellsFrom_mono {m : List Host.Cell} {a b : Nat} (h : cellsFrom b m = true) (hb : a ≤ b) : cellsFrom a m = true := by
  cases m with
  | nil => rfl
  | cons x t =>
    simp only [cellsFrom, Bool.and_eq_true, decide_eq_true_eq] at h ⊢
    exact ⟨by omega, h.2⟩

theorem cellRead_skip {k : Nat} {v : BitVec 8} {t : List Host.Cell} {a : Nat} (n : Nat) (h : k < a) :
    cellRead ((k, v) :: t) a n = cellRead t a n := by
  induction n generalizing a with
  | zero => rfl
  | succ n ih =>
    have : a ≠ k := by omega
    simp only [cellRead, cellGet, this, if_false]
    rw [ih (by omega)]

theorem cellRead_walk {m : List Host.Cell} {a : Nat} (n : Nat) (h : cellsFrom a m = true) : cellRead m a n = walkCells m a n := by
  induction n generalizing m a with
  | zero => cases m <;> rfl
  | succ n ih =>
    cases m with
    | nil => simp only [cellRead, walkCells, cellGet, ih (m := []) (a := a + 1) rfl]
    | cons x t =>
      obtain ⟨k, v⟩ := x
      simp only [cellsFrom, Bool.and_eq_true, decide_eq_true_eq] at h
      simp only [cellRead, walkCells]
      split
      · rename_i hk
        subst hk
        simp only [cellGet, if_true]
        rw [cellRead_skip n (by omega), ih h.2]
      · rename_i hk
        have ha : cellsFrom (a + 1) ((k, v) :: t) = true := by
          simp only [cellsFrom, Bool.and_eq_true, decide_eq_true_eq]; exact ⟨by omega, h.2⟩
        rw [cellGet_before ha (by omega), ih ha]

/-- Cells that lie before a range do not count. -/
theorem cellRead_after (l : List Host.Cell) {m : List Host.Cell} {a : Nat} (n : Nat) (hl : l.all (fun x => decide (x.1 < a)) = true)
    (h : cellsFrom a m = true) : cellRead (l ++ m) a n = walkCells m a n := by
  induction l with
  | nil => exact cellRead_walk n h
  | cons x l ih =>
    obtain ⟨k, v⟩ := x
    simp only [List.all_cons, Bool.and_eq_true, decide_eq_true_eq] at hl
    rw [List.cons_append, cellRead_skip n hl.1, ih hl.2]

/-- The cells of a cog image of 257 entries at 4,096: entry 0 is special and empty, entry t of the others is the byte t - 1. -/
def tCogCells : List Host.Cell :=
  cellWrite [] 4096 (leBytes 20 (0x54434F47 + 0x0100 * 2 ^ 32 + 257 * 2 ^ 64 + 1 * 2 ^ 96 + 0xFFFFFFFF * 2 ^ 128)) ++
    (4165, 4) :: (List.range 256).map fun t => (4173 + 8 * t, 2)

def tCogImage (b : Block) : Block :=
  let b := tPoke 104 8 2120 (tPoke 96 8 4096 b)
  { b with cmem := b.cmem ++ tCogCells }

/-- A list image of one banned sequence, of the token 7, at 4,096. -/
def tListImage (b : Block) : Block :=
  tPoke 104 8 136 (tPoke 96 8 4096 (tPoke 4096 20 (0x54534C43 + 0x0100 * 2 ^ 32 + 257 * 2 ^ 96 + 1 * 2 ^ 128)
    (tPoke 4224 8 (0x100 + 7 * 2 ^ 32) b)))

/-- MLOAD of a cog and of a list: the images parse, and the slots are empty. -/
theorem test_mload_text_witness :
    Shows (tPtr 0x0C 0x1200 64) (tCogImage tBase) .mloadCog (fun _ c b =>
      textFormBad c true 16 b = false ∧ cogOf b (textSlot c.e) = none ∧ (loadImage c b).isSome = true ∧ c.arg b 32 8 = 4096 ∧
      c.arg b 40 8 = 2120 ∧ (takeExtents 0 (extentsFor 2120) c.tenant (.cog (textSlot c.e)) b).isSome = true) ∧
    (parseCog ((tCogImage tBase).peek 4096 2120) 1 false 0).isSome = true ∧
    Shows (tPtr 0x0C 0x1400 64) (tListImage tBase) .mloadList (fun _ c b =>
      textFormBad c true emptyList b = false ∧ listOf b (textSlot c.e) = none ∧
      ((loadImage c b).bind fun img => parseList img c.tenant (c.e.a.testBit 11) b.now).isSome = true) := by
  refine ⟨shows_of (by decide +kernel), ?_, shows_of (by decide +kernel)⟩
  have h : (tCogImage tBase).peek 4096 2120 = walkCells tCogCells 4096 2120 :=
    cellRead_after _ 2120 (by decide +kernel) (by decide +kernel)
  rw [h]
  decide +kernel

/-! ### Witnesses: text, steps and lists -/

/-- Three bytes at 4,096 for the session, in one chunk, with its own cog, under truncation policy 0. -/
def tInput (n : Nat) (b : Block) : Block := tPoke 104 4 n (tPoke 96 8 4096 (tPoke 88 8 tHandle (tPoke 4096 4 0x646362 b)))

theorem test_tokin_witness :
    Shows (tPtr 0x10 0x10 64) (tInput 3 (tWith tSess tBase)) .tokinNative (fun _ c b =>
      TokinReady c b 0 tSess tCog ∧ PolicyGood c b tSess tCog ∧ inputRoom c b tSess ≠ 0) ∧
    Shows (tPtr 0x10 0x90 64) (tInput 3 (tWith tSess tBase)) .tokinByte (fun _ c b =>
      TokinReady c b 0 tSess tCog ∧ PolicyGood c b tSess tCog ∧ inputRoom c b tSess ≠ 0) ∧
    Shows (tPtr 0x10 0x2000010 64) (tPoke 4096 4 5 (tInput 4 (tWith tSess tBase))) .tokinIds (fun _ c b =>
      let data := b.peek (c.arg b 32 8) (c.arg b 40 4)
      TokinReady c b 0 tSess tCog ∧ ringIsa b c.ring = 0x31 ∧ bitsOf c.e.a 5 3 = 0 ∧ bitsOf c.e.a 8 16 = 0 ∧
      data.length % 4 = 0 ∧ idsOk tCog.entries.length (hasWarmForm (sessionFormat b tSess)) none (idsEntries data) = true ∧
      inputRoom c b tSess ≠ 0 ∧ logTokens (idsEntries data) ≤ inputRoom c b tSess ∧ (idsEntries data).head? ≠ some depthMark) :=
  ⟨shows_of (by decide +kernel), shows_of (by decide +kernel), shows_of (by decide +kernel)⟩

/-- The policy that keeps a head and a tail, at its least room. -/
theorem test_tokin_policy : Shows (tPtr 0x10 0x350 64) (tPoke 108 4 4 (tInput 3 (tWith tSess tBase))) .tokinNative (fun _ c b =>
    PolicyGood c b tSess tCog ∧ bitsOf c.e.a 5 2 = 2 ∧ bitsOf c.e.a 8 16 + 1 = inputRoom c b tSess) :=
  shows_of (by decide +kernel)

/-- TOKOUT of the session's two tokens into 16 bytes at 4,096. -/
def tTwo : Session := { tSess with log := [5, 6] }

theorem test_tokout_witness :
    Shows (tPtr 0x11 0 64) (tPoke 104 4 16 (tPoke 96 8 4096 (tPoke 88 8 tHandle (tWith tTwo tBase)))) .tokout (fun _ c b =>
      OnSession c b 0 tTwo ∧ c.reach b (c.arg b 32 8) (c.arg b 40 4) = true ∧ Admitted c b 0 tTwo .settled ∧
      tTwo.state ≠ ssMotion ∧ cogOf b (requestCog c.req tTwo) = some tCog ∧ foreignCog b c.tenant (requestCog c.req tTwo) = false ∧
      c.arg b 44 4 ≤ tokensOf tTwo ∧ tCog.damaged = false ∧ unitRead 0 [2] b = none ∧ tTwo.prefixTokens ≤ c.arg b 44 4) :=
  shows_of (by decide +kernel)

/-- A ready list of the cog in slot 4, and a draft of the model in slot 1. -/
def tList : CList := ⟨slReady, false, 1, false, 0, 256, [3], [[7]], [], 2, [9], 0, false⟩
def tAided (b : Block) : Block :=
  { b with txu := { b.txu with lists := [(4, tList)] },
           ten := { b.ten with models := [(0, tModel), (1, { tModel with draft := true, targetDg := [1] })] } }

theorem test_text_settings_witness :
    Shows (tImm 0x12 0xFFF tHandle) (tAided (tWith tSess tBase)) .constrain (fun _ c b =>
      OnSession c b 0 tSess ∧ earlierWaiter b 1 c.e.order (handleOf 0 tSess) tSess = false ∧ bitsOf c.e.a 0 12 = emptyList) ∧
    Shows (tImm 0x12 4 tHandle) (tAided (tWith tSess tBase)) .constrain (fun _ c b =>
      OnSession c b 0 tSess ∧ earlierWaiter b 1 c.e.order (handleOf 0 tSess) tSess = false ∧
      listOf b (bitsOf c.e.a 0 12) = some tList ∧ foreignList b c.tenant (bitsOf c.e.a 0 12) = false ∧ tList.state = slReady ∧
      tList.damaged = false ∧ (cogOf b (requestCog c.req tSess)).map (·.digest) = some tList.cogDg) ∧
    Shows (tImm 0x19 0x8FF tHandle) (tAided (tWith tSess tBase)) .draft (fun _ c b =>
      OnSession c b 0 tSess ∧ earlierWaiter b 1 c.e.order (handleOf 0 tSess) tSess = false ∧ bitsOf c.e.a 8 4 ≤ 8 ∧
      bitsOf c.e.a 0 8 = 0xFF) ∧
    Shows (tImm 0x19 0x801 tHandle) (tAided (tWith tSess tBase)) .draft (fun _ c b =>
      OnSession c b 0 tSess ∧ earlierWaiter b 1 c.e.order (handleOf 0 tSess) tSess = false ∧ bitsOf c.e.a 8 4 ≤ 8 ∧
      draftHeld b tSess (bitsOf c.e.a 0 8) = true) ∧
    Shows (tImm 0x0D 0x4400 0) (tAided (tWith tSess tBase)) .munloadList (fun _ c b =>
      textFormBad c false emptyList b = false ∧ listOf b (textSlot c.e) = some tList ∧ tList.state = slReady ∧
      tList.owner = c.tenant) :=
  ⟨shows_of (by decide +kernel), shows_of (by decide +kernel), shows_of (by decide +kernel), shows_of (by decide +kernel), shows_of (by decide +kernel)⟩

/-- STEP with K 4 and PREFILL on a HOT session of two tokens. -/
theorem test_step_witness :
    Shows (tPtr 0x18 0 64) (tPoke 100 2 4 (tPoke 88 8 tHandle (tWith tTwo tBase))) .step (fun _ c b =>
      OnSession c b 0 tTwo ∧ Admitted c b 0 tTwo .hot ∧ ((allSeqs b).any fun y => decide (y.rid = some 1)) = false ∧
      otherStepRuns b 1 0 = false ∧ closingFlies b 0 = false ∧ c.req.redo = none ∧
      startStep b c.req c.tenant c.blk tTwo = .ok ⟨0, 4, 0, none, none, 0xFFF, 0, 0, 0, 0, 0, [], none, none, none⟩ false) ∧
    Shows (tImm 0x1B 0 tHandle) (tWith tTwo tBase) .prefill (fun _ c b =>
      OnSession c b 0 tTwo ∧ Admitted c b 0 tTwo .hot ∧ ((allSeqs b).any fun y => decide (y.rid = some 1)) = false ∧
      otherStepRuns b 1 0 = false ∧ closingFlies b 0 = false ∧ modelSlot b tTwo.modelSlot = some tModel ∧
      tModel.state = slReady ∧ tModel.damaged = false ∧ pendingPositions tTwo ≠ 0) ∧
    Shows (tImm 0x1B 0 tHandle) (tWith tSess tBase) .prefill (fun _ _ _ => pendingPositions tSess = 0) :=
  ⟨shows_of (by decide +kernel), shows_of (by decide +kernel), shows_of (by decide +kernel)⟩

/-- A STEP of request 1 that awaits its first list, with one draft, in place 0; an ACCEPT of one token at 4,096. -/
def tRun : StepRun := ⟨8, 0, 1, none, none, 0xFFF, 0, 0, 1, 1, 0, [], none, some ⟨1, [9], 2, 1, false⟩, none⟩
def tSeqn : Seqn := ⟨0, some 1, 16, 1, false, .step tRun, 1, 0, false, [9], none, false, false⟩
def tPel (ph : PelPhase) (seqs : List Seqn) : Peloton :=
  ⟨1, 0, seqs, ph, 0, 1, 0, false, false, 4, 4, 0, 0, none, false, false, false, [], false, [], [], 0, 0, []⟩
def tGather (n : Nat) (tok : Nat) : State :=
  let b := tPoke 88 8 tHandle (tPoke 96 8 7 (tPoke 104 4 1 (tPoke 112 8 4096 (tPoke 4096 n tok (tWith tTwo tBase)))))
  let s := tDue (tPtr 0x18 0 64) b
  { s with ste := { s.ste with pelotons := [(0, tPel .gather [tSeqn])] } }

theorem test_accept_witness :
    let s := tGather 4 7
    let e : Entry := ⟨0x1A + 512 + 1 * 2 ^ 32, 64, 0⟩
    let a := acceptArgs s.toBlock e
    let b := readPairs (hSlot a.handle) s.toBlock
    s.works ∧ ringOf s.toBlock 16 = some tRing ∧ e.ptr = true ∧ blockOk s.toBlock tRing.tenant e = true ∧ hTenant a.handle = tRing.tenant ∧
    (awaiting b 16 a).map (fun x => (x.1, x.2.1)) = some (1, tSeqn) ∧ session b tSeqn.sid = some tTwo ∧
    1 ≤ a.count ∧ a.count ≤ 1 + 1 ∧ a.addr % 4 = 0 ∧ ioRead b (some tRing.tenant) a.addr (4 * a.count) = true ∧
    tokensOk (runList b tRun) (runVocab b tRun) tRun.h tRun.force [9] (tokenWords a.count (b.peek a.addr (4 * a.count))) = true := by
  decide +kernel

/-- Two tokens, the first equal to the draft, are the most that one draft admits; and a list that nothing awaits is stray. -/
theorem test_accept_edge :
    (let s := tGather 8 (9 + 7 * 2 ^ 32)
     let a := acceptArgs s.toBlock ⟨0x1A + 512 + 2 * 2 ^ 32, 64, 0⟩
     a.count = 1 + 1 ∧ tokensOk none 256 [] none [9] (tokenWords a.count (s.peek a.addr (4 * a.count))) = true) ∧
    (let s := tDue (tPtr 0x18 0 64) (tPoke 88 8 tHandle (tWith tTwo tBase))
     let e : Entry := ⟨0x1A + 512, 64, 0⟩
     s.works ∧ ringOf s.toBlock 16 = some tRing ∧ e.ptr = true ∧ blockOk s.toBlock tRing.tenant e = true ∧
     hTenant (acceptArgs s.toBlock e).handle = tRing.tenant ∧ (awaiting (readPairs (hSlot (acceptArgs s.toBlock e).handle) s.toBlock) 16 (acceptArgs s.toBlock e)).isNone = true) := by
  decide +kernel

/-! ### Witnesses: search, counters, cadence, overlays, copies -/

/-- Index 3 of tenant 1, ready and empty, of 256-bit codes; a SEARCH of it for one entry, with the result at 8,192. -/
def tIndex : Index := ⟨ixReady, false, 0, [], [], [], 0, none, 0, false, none, none⟩
def tIndexed (x : Index) (b : Block) : Block :=
  tSet [(F.NMS_IDX_CFG_tenant, 3, 1), (F.NMS_IDX_CFG_max_log2, 3, 10)] { b with nms := { b.nms with indexes := [(3, x)] } }
def tQuery (k : Nat) (b : Block) : Block :=
  tPoke 120 8 8192 (tPoke 104 8 4096 (tPoke 96 4 k (tPoke 88 8 3 (tPoke 4096 1 0xA5 b))))
def tArgs (k : Nat) (walk : Bool) : SearchArgs := ⟨k, walk, 0xA5 :: List.replicate 31 0, [], []⟩

theorem test_search_witness :
    Shows (tPtr 0x20 0 64) (tQuery 1 (tIndexed tIndex tBase)) .searchFlat (fun _ c b => SearchReady c b tIndex (tArgs 1 false)) ∧
    Shows (tPtr 0x20 1 64) (tQuery 1024 (tSet [(F.NMS_IDX_CFG_graph, 3, 1)] (tIndexed tIndex tBase))) .searchGraph
      (fun _ c b => SearchReady c b tIndex (tArgs 1024 true)) :=
  ⟨shows_of (by decide +kernel), shows_of (by decide +kernel)⟩

/-- An index of one item, searched as a shard set of this module alone, and of module 2 alone. -/
def tItem : VItem := ⟨0xA5 :: List.replicate 31 0, 0, 77, 0⟩
def tFull : Index := { tIndex with version := 1, slots := [⟨tItem, false, 0, []⟩] }

theorem test_sharded_witness :
    Shows (tPtr 0x20 2 64) (tQuery 1 (tSet [(F.NMS_IDX_SHARD_shards, 12, 2), (F.CMP_ID_module_id, 0, 1)] (tIndexed tFull tBase)))
      .searchSharded (fun _ c b => SearchReady c b tFull (tArgs 1 false) ∧ shardMembers b c.opB = [ownModule b] ∧
        1 ≤ (searchIndex b c.opB tFull (tArgs 1 false)).1.length) ∧
    Shows (tPtr 0x20 2 64) (tQuery 1 (tSet [(F.NMS_IDX_SHARD_shards, 12, 4)] (tDomain (tIndexed tFull tBase)))) .searchSharded
      (fun _ c b => SearchReady c b tFull (tArgs 1 false) ∧ shardMembers b c.opB = [2] ∧ 2 ≠ ownModule b ∧ liveMember b 2 = true) :=
  ⟨shows_of (by decide +kernel), shows_of (by decide +kernel)⟩

def tShardQuery : ShardQuery := ⟨3, 1, 1, false, 0, 0xA5 :: List.replicate 31 0, [], []⟩
def tWaitShards : ShardWait := ⟨3, 1, 8192, 0, 0, tShardQuery, [(2, 2, false)], [], 0, []⟩
/-- Request 1 waits for the shard of module 2. -/
def tAsked : State :=
  let s := tDue (tPtr 0x20 2 64) (tQuery 1 (tIndexed tIndex tBase))
  { s with fe := { s.fe with reqs := [(1, { tReq (tPtr 0x20 2 64) with wait := .shards, shards := some tWaitShards })] },
           nms := { s.nms with late := [(9, 2)] } }

theorem test_shards_witness :
    (⟨tBase, []⟩ : State).works ∧ searchIngress tBase 2 3 = none ∧ indexOf tBase 3 = none ∧ tShardQuery.epoch = 0 ∧
    (let b := tIndexed tIndex tBase
     (⟨b, []⟩ : State).works ∧ searchIngress b 2 3 = none ∧ indexOf b 3 = some tIndex ∧ tIndex.state = ixReady ∧ tIndex.damaged = false ∧
     indexBad tIndex tShardQuery.walk = none ∧ indexTenant b 3 = tShardQuery.tenant ∧ tShardQuery.query.length = codeBits b 3 / 8 ∧ tShardQuery.walk = false) ∧
    tAsked.works ∧ shardWait tAsked.toBlock 1 = some tWaitShards ∧
    (tWaitShards.waitFor.find? fun e => decide (e.2.1 = 2)) = some (2, 2, false) ∧
    shardWait tAsked.toBlock 9 = none ∧ tAsked.nms.late.contains (9, 2) = true ∧ tWaitShards.waitFor = [(2, 2, false)] := by
  decide +kernel

/-- VINSERT of an item without an owner, VDELETE and VMERGE on index 3. -/
theorem test_index_instr_witness :
    Shows (tPtr 0x21 0 64) (tPoke 120 8 77 (tQuery 0 (tIndexed tIndex tBase))) .vinsert (fun _ c b =>
      indexOf b c.opB = some tIndex ∧ indexTenant b c.opB = c.tenant ∧ tIndex.state = ixReady ∧ c.arg b 32 8 % 2 ^ 48 = 0 ∧
      c.arg b 40 8 % 64 = 0 ∧ c.arg b 56 8 ≠ noId ∧ c.reads b (c.arg b 40 8) (codeBits b c.opB / 8) = true ∧
      tIndex.side.length < sideMax ∧ slotsInUse tIndex.slots + waitingInserts tIndex + 1 ≤ slotLimit b c.opB) ∧
    Shows (tImm 0x22 3 77) (tIndexed tFull tBase) .vdelete (fun _ c b =>
      indexOf b c.e.a = some tFull ∧ indexTenant b c.e.a = c.tenant ∧ tFull.state = ixReady ∧ (findItem tFull c.opB).isSome = true) ∧
    Shows (tImm 0x23 3 0) (tIndexed tIndex tBase) .vmerge (fun _ c b =>
      indexOf b c.e.a = some tIndex ∧ indexTenant b c.e.a = c.tenant ∧ tIndex.state = ixReady ∧ tIndex.damaged = false ∧
      tIndex.merge = none) :=
  ⟨shows_of (by decide +kernel), shows_of (by decide +kernel), shows_of (by decide +kernel)⟩

/-- INDEX_CREATE of the empty index 3, INDEX_DESTROY of the ready one, INDEX_DESTROY_DONE with and without a merge. -/
theorem test_index_life_witness :
    (let b := tSet [(F.NMS_IDX_SEL_index, 0, 3)] tBase
     b.up = true ∧ indexOf b (b.getF F.NMS_IDX_SEL_index) = none) ∧
    (let b := tSet [(F.NMS_IDX_SEL_index, 0, 3)] (tIndexed tIndex tBase)
     b.up = true ∧ indexOf b (b.getF F.NMS_IDX_SEL_index) = some tIndex ∧ tIndex.state = ixReady) ∧
    (let x := { tIndex with state := ixDestroying }
     let b := tIndexed x tBase
     (⟨b, []⟩ : State).works ∧ indexOf b 3 = some x ∧ x.merge = none ∧ searching b 3 = false) ∧
    (let x := { tIndex with state := ixDestroying, merge := some 0 }
     let b := tIndexed x tBase
     (⟨b, []⟩ : State).works ∧ indexOf b 3 = some x ∧ x.merge ≠ none) := by decide +kernel

/-- MERGE_COMPLETE with an empty snapshot needs no room; with one inserted item and no HOT limit it has none. -/
def tMerging : Index := { tIndex with merge := some 1, side := [⟨0, true, .none, tItem⟩], nextSeq := 1 }

theorem test_merge_witness :
    (let x := { tIndex with merge := some 0 }
     let b := tIndexed x tBase
     (⟨b, []⟩ : State).works ∧ indexOf b 3 = some x ∧ x.merge = some 0 ∧ indexBad x (hasGraph b 3) = none ∧
     mergedVersion (hasGraph b 3) (graphBeam b 3) (graphDegree b 3) x 0 = ([], [], [], 0) ∧ mergeNeeds b 3 x.slots [] = 0 ∧
     ¬(kvFree (b.bumpN F.NMS_CNT_gen_skip 0) < 0 ∨ hotLimit b 1 < hotBytes b 1 + 0 * extentBytes) ∧
     (growIndex 3 x.slots [] (b.bumpN F.NMS_CNT_gen_skip 0)).isSome = true) ∧
    (let b := tSet [(F.SES_TQ_BYTES_hot_16m, 1, 0)] (tIndexed tMerging tBase)
     let m := mergedVersion (hasGraph b 3) (graphBeam b 3) (graphDegree b 3) tMerging 1
     indexOf b 3 = some tMerging ∧ indexBad tMerging (hasGraph b 3) = none ∧ (mergeNeeds b 3 tMerging.slots m.1) = 1 ∧ m.2.2.2 = 0 ∧
     hotLimit b 1 < hotBytes b 1 + 1 * extentBytes) ∧
    (let x := { tMerging with bad := some true }
     indexOf (tIndexed x tBase) 3 = some x ∧ indexBad x (hasGraph (tIndexed x tBase) 3) = some true) := by decide +kernel

/-- SWAIT at its condition and short of it, on an own and on a foreign counter; SSIGNAL; FENCE. -/
def tCounter (v : Nat) : Block := { tBase with intr := { tBase.intr with counters := [(16, v)] } }

theorem test_swait_witness :
    Shows (tImm 0x28 16 4) (tCounter 4) .swait (fun _ c b =>
      counterOwner b (bitsOf c.e.a 0 16) = c.tenant ∧ c.opB ≤ counterValue b (bitsOf c.e.a 0 16)) ∧
    Shows (tImm 0x28 0x10010 4) (tCounter 5) .swait (fun _ c b =>
      counterOwner b (bitsOf c.e.a 0 16) = c.tenant ∧ c.e.a.testBit 16 = true ∧ counterValue b (bitsOf c.e.a 0 16) ≠ c.opB) ∧
    Shows (tImm 0x28 16 5) (tCounter 4) .swait (fun _ c b =>
      counterOwner b (bitsOf c.e.a 0 16) = c.tenant ∧ c.e.a.testBit 16 = false ∧ ¬c.opB ≤ counterValue b (bitsOf c.e.a 0 16)) ∧
    Shows (tImm 0x28 32 0) (tCounter 4) .swait (fun _ c b => counterOwner b (bitsOf c.e.a 0 16) ≠ c.tenant ∧ c.opB = 0) ∧
    Shows (tImm 0x28 32 1) (tCounter 4) .swait (fun _ c b => counterOwner b (bitsOf c.e.a 0 16) ≠ c.tenant ∧ c.opB ≠ 0) :=
  ⟨shows_of (by decide +kernel), shows_of (by decide +kernel), shows_of (by decide +kernel), shows_of (by decide +kernel),
   shows_of (by decide +kernel)⟩

theorem test_signal_fence_witness :
    Shows (tImm 0x29 16 (2 ^ 64 - 1)) (tCounter 4) .ssignal (fun _ c b => counterOwner b (bitsOf c.e.a 0 16) = c.tenant) ∧
    Shows (tImm 0x29 32 1) (tCounter 4) .ssignal (fun _ c b => counterOwner b (bitsOf c.e.a 0 16) ≠ c.tenant) ∧
    Shows (tImm 0x2A 0 0) tBase .fence (fun _ c _ => c.e.a.testBit 0 = false) ∧
    Shows (tImm 0x2A 1 0) tBase .fence (fun _ c b => c.e.a.testBit 0 = true ∧ earlierDone b 1 c.req = true) :=
  ⟨shows_of (by decide +kernel), shows_of (by decide +kernel), shows_of (by decide +kernel), shows_of (by decide +kernel)⟩

/-- CADENCE at the edges of share and duration, and the windows of a held hint. -/
theorem test_cadence_witness :
    Shows (tImm 0x30 (1 + 100 * 2 ^ 16) 50000) tBase .cadence (fun _ c _ =>
      0 < bitsOf c.e.a 0 16 * 10000 ∧ 1 ≤ bitsOf c.e.a 16 8 ∧ bitsOf c.e.a 16 8 = 100) ∧
    Shows (tImm 0x30 (1 + 101 * 2 ^ 16) 50000) tBase .cadence (fun _ c _ => 100 < bitsOf c.e.a 16 8) ∧
    Shows (tImm 0x30 1 50000) tBase .cadence (fun _ c _ => bitsOf c.e.a 16 8 = 0) ∧
    Shows (tImm 0x30 (100 * 2 ^ 16) 50000) tBase .cadence (fun _ c _ => bitsOf c.e.a 0 16 * 10000 = 0) ∧
    (let b : Block := { tBase with pmc := { tBase.pmc with hints := [(0, ⟨1, 50000, 10000, 1, false⟩)] } }
     b.up = true ∧ tget b.pmc.hints 0 = some ⟨1, 50000, 10000, 1, false⟩) :=
  ⟨shows_of (by decide +kernel), shows_of (by decide +kernel), shows_of (by decide +kernel), shows_of (by decide +kernel),
   by decide +kernel⟩

/-- A ring-wide FENCE behind an earlier request of its ring. -/
theorem test_fence_waits :
    let e : Entry := tImm 0x2A 1 0
    let b : Block := { tBase with fe := { tBase.fe with reqs := [(1, tReq (tImm 0x2A 0 0)), (2, tReq e)], order := 3 } }
    (⟨b, []⟩ : State).works ∧ Due b 2 .fence (tReq e) e ∧ (dueCtx b 2 (tReq e) e).e.a.testBit 0 = true ∧
    earlierDone (dueBlock b 2 (tReq e) e) 2 (dueCtx b 2 (tReq e) e).req = false := by decide +kernel

/-- An image of an overlay, 448 bytes at 4,096, whose fields Table 14.7 admits. -/
def tOvlImage : Bytes :=
  padTo 448 (leBytes 6 (0x59414C4F + 0x10 * 2 ^ 32 + 2 * 2 ^ 40) ++ List.replicate 10 0 ++ leBytes 8 (32 + 64 * 2 ^ 16 + 256 * 2 ^ 32 +
    4 * 2 ^ 48 + 10 * 2 ^ 56))
def tOverlaid (b : Block) : Block :=
  let b := tPoke 96 4 448 (tPoke 88 8 4096 (b.pokeBytes 4096 tOvlImage))
  { b with rtp := { b.rtp with overlayKey := some [1] } }
def tOverlay : Overlay := ⟨none, [4], 2, 32, 64, 256, 4, 10, 1, []⟩

/-- OVERLAY of that image; without a key; behind an overlay that waits. -/
theorem test_overlay_witness :
    Shows (tPtr 0x31 0 64) (tOverlaid tBase) .overlay (fun _ c b => b.ten.overlay = none ∧ earlierOverlay b c = false ∧ c.opB % 64 = 0 ∧
      c.reads b c.opB (c.arg b 32 4) = true ∧ b.rtp.overlayKey = some [1] ∧ b.peek c.opB (c.arg b 32 4) = tOvlImage) ∧
    Shows (tPtr 0x31 0 64) tBase .overlay (fun _ c b => b.ten.overlay = none ∧ earlierOverlay b c = false ∧ b.rtp.overlayKey = none) ∧
    Shows (tPtr 0x31 0 64) { tBase with ten := { tBase.ten with overlay := some tOverlay } } .overlay
      (fun _ _ b => b.ten.overlay.isSome = true) :=
  ⟨shows_of (by decide +kernel), shows_of (by decide +kernel), shows_of (by decide +kernel)⟩

/-- The image is an overlay where the key has signed it, and one of zeros is none. -/
theorem test_overlay_image :
    (Config.rsaVerify [1] (sha256 (tOvlImage.take 64)) (tOvlImage.drop 64) = true → (parseOverlay tOvlImage [1] 1).isSome = true) ∧
    (Config.rsaVerify [1] (sha256 (tOvlImage.take 64)) (tOvlImage.drop 64) = false → parseOverlay tOvlImage [1] 1 = none) ∧
    parseOverlay (List.replicate 448 0) [1] 1 = none := by
  have hn : bytesAt tOvlImage 28 2 = 0 := by decide +kernel
  refine ⟨fun h => ?_, fun h => ?_, ?_⟩
  · unfold parseOverlay
    simp only [hn]
    rw [if_neg]
    · rfl
    · rintro (h' | h' | h' | h' | h' | h' | h' | h' | h' | h' | h' | h' | h' | h')
      all_goals first
        | exact absurd (h.symm.trans h') (by decide)
        | (revert h'; decide +kernel)
  · unfold parseOverlay
    simp only [hn]
    rw [if_pos]
    repeat (first | exact h | apply Or.inr)
  · unfold parseOverlay
    rw [if_pos]
    exact .inr (.inl (by decide +kernel))

/-- OVERLAY_APPLY with no peloton in flight, for no request, for one that waits and for one that does not; and with one in flight. -/
theorem test_overlay_apply_witness :
    (let s : State := ⟨{ tBase with ten := { tBase.ten with overlay := some tOverlay } }, []⟩
     s.works ∧ s.ten.overlay = some tOverlay ∧ tOverlay.rid = none ∧
     (s.ste.pelotons.any fun e => decide (e.2.phase ≠ .ready)) = false) ∧
    (let o := { tOverlay with rid := some 1 }
     let q := { tReq (tPtr 0x31 0 64) with wait := .overlay }
     let s : State := ⟨{ tBase with ten := { tBase.ten with overlay := some o }, fe := { tBase.fe with reqs := [(1, q)] } }, []⟩
     s.works ∧ s.ten.overlay = some o ∧ (s.ste.pelotons.any fun e => decide (e.2.phase ≠ .ready)) = false ∧
     ((req (putOverlay o s.toBlock) 1).any fun q => decide (q.wait = .overlay)) = true ∧
     ((req (putOverlay o { s.toBlock with fe := { s.fe with reqs := [] } }) 1).any fun q => decide (q.wait = .overlay)) = false) ∧
    (let o := { tOverlay with shapers := [(16, 5)] }
     o.shapers = [] ++ [(16, 5)] ∧ shaperOfSel 16 = some 16) ∧
    (let s : State := ⟨{ tBase with ten := { tBase.ten with overlay := some tOverlay }, ste := { tBase.ste with pelotons := [(0, tPel .flight [])] } }, []⟩
     s.works ∧ s.ten.overlay = some tOverlay ∧ (s.ste.pelotons.any fun e => decide (e.2.phase ≠ .ready)) = true) := by decide +kernel

/-- CKPT with a peer's pool; TANDEM with a live partner, and its release. -/
theorem test_copies_witness :
    Shows (tPtr 0x38 0 64) (tPoke 4096 8 (0x4C4F4F50 + 2 ^ 32) (tPoke 88 8 4096 tBase)) .ckpt (fun _ c b =>
      b.tdm.ckpt = none ∧ c.reads b c.opB 64 = true ∧ readPool b c.opB = some ⟨1, 0, 0, 0, 0⟩) ∧
    Shows (tImm 0x39 0x102 0) (tDomain tBase) .tandem (fun _ c b =>
      bitsOf c.e.a 0 8 ≠ ownModule b ∧ b.isSet F.CMP_ID_in_domain = true ∧ tandemOn b = false ∧ liveMember b (bitsOf c.e.a 0 8) = true) ∧
    Shows (tImm 0x39 0 0) tBase .tandemRelease (fun _ _ _ => True) :=
  ⟨shows_of (by decide +kernel), shows_of (by decide +kernel), shows_of (by decide +kernel)⟩

/-- A checkpoint in progress with nothing left to capture, in a slot of 16 MiB or of none, and one whose session is still in a step. -/
def tCkptRun (slotBytes : Nat) (left : List Nat) : CkptRun := ⟨1, 1, 2, 0, slotBytes, none, 0, 0, 0, left, [], [], [], 0⟩
def tWriting (slotBytes : Nat) (left : List Nat) (b : Block) : Block :=
  { b with tdm := { b.tdm with ckpt := some (tCkptRun slotBytes left) } }

theorem test_ckpt_witness :
    (captureReady tBase).tdm.ckpt = none ∧ (⟨tBase, []⟩ : State).works ∧
    (let b := tWriting (2 ^ 24) [0] { tWith tSess tBase with ste := { tBase.ste with pelotons := [(0, tPel .flight [tSeqn])] } }
     (⟨b, []⟩ : State).works ∧ (captureReady b).tdm.ckpt = some (tCkptRun (2 ^ 24) [0])) ∧
    (let b := tWriting (2 ^ 24) [] tBase
     (⟨b, []⟩ : State).works ∧ (captureReady b).tdm.ckpt = some (tCkptRun (2 ^ 24) []) ∧
     (endCapture (tCkptRun (2 ^ 24) []) { captureReady b with tdm := { (captureReady b).tdm with ckpt := none } }).getF F.TDM_CMD_state ≠ 1) := by
  decide +kernel

/-- The counters alone make one shard, which fits the larger slot and no slot of 0 bytes. -/
theorem test_ckpt_fits :
    let size := fun (b : Block) => ((shardContents b []).map fun x => wrappedLength x.2).sum + 2 ^ 20
    size tBase ≤ 2 ^ 24 ∧ ¬size tBase ≤ 0 := by
  have hl : (counterPiece tBase).length = 524288 := by
    simp only [counterPiece, List.length_flatMap, leBytes_length, List.map_const', List.length_range, List.sum_replicate]
    rfl
  have hs : shardContents tBase [] = [(3, counterPiece tBase)] := rfl
  simp only [hs, List.map_cons, List.map_nil, wrappedLength, hl]
  decide

/-- TANDEM_DELTA and TANDEM_ACK: a first delta of this homing and of the other; the next, an applied and an early delta; an
acknowledgement of a valid pair, of a seeding one, and a refusal. -/
def tDelta : TandemDelta := ⟨none, TandemCopy.empty, [], [], [], [], false⟩
def tKept : KeptCopy := ⟨2, TandemCopy.empty, 3, true, false, false, false, false⟩
def tPair (st : Nat) : State := ⟨tSet [(F.TDM_STAT_tstate, 0, st), (F.TDM_STAT_partner, 0, 2), (F.TDM_DELTA_sent, 0, 5)] tBase, []⟩

theorem test_tandem_witness :
    (let s : State := ⟨{ tBase with rtp := { tBase.rtp with dkCur := some (7, []) } }, []⟩
     s.works ∧ s.tdm.kept = none ∧ singleHome s.toBlock = false ∧ holdsDk s.toBlock 7 = true ∧ true ≠ singleHome s.toBlock) ∧
    (let s : State := ⟨{ tBase with tdm := { tBase.tdm with kept := some tKept } }, []⟩
     s.works ∧ tDelta.start = none ∧ s.tdm.kept = some tKept ∧ tKept.source = 2 ∧ tKept.frozen = false ∧
     (tKept.follow && tKept.final && tKept.handover) = false ∧ tKept.applied + 1 = 4 ∧ 1 ≤ tKept.applied ∧ tKept.applied + 1 < 5) ∧
    (let s := tPair tdValid
     s.works ∧ tandemOn s.toBlock = true ∧ 2 = s.getF F.TDM_STAT_partner ∧ 4 ≤ s.getF F.TDM_DELTA_sent) ∧
    (let s := tPair tdSeeding
     let raised := s.toBlock.setF F.TDM_DELTA_acked 5
     s.works ∧ tandemOn s.toBlock = true ∧ 5 = s.getF F.TDM_DELTA_sent ∧
     working (endSeeding St.ok (raised.setF F.TDM_STAT_tstate tdValid)) = true ∧ 0 ≤ s.getF F.TDM_DELTA_sent) := by decide +kernel

/-! ### Witnesses: the Spokes -/

/-- An instruction word: class, operation and the bits above them. -/
def tWord (cls op rest : Nat) : BitVec 64 := BitVec.ofNat 64 (cls + op * 16 + rest * 4096)

/-- Spoke 5 runs a tile of the step in place 0, and stands at the word `w` after its TBEGIN. -/
def tSpoke (w : BitVec 64) : Spoke :=
  { Spoke.reset with ctx := some (1, 0, 0), chain := some 3, running := true, pc := 1, code := [tWord 5 1 0, w, 0] }
def tSpk (k : Spoke) : State :=
  ⟨{ tBase with spk := ⟨[(5, k)], []⟩, ste := { tBase.ste with pelotons := [(0, { tPel .flight [] with tilesOut := 1 })] } }, []⟩

/-- The operations of a class that issue with all the bits above them clear, the word after them in place. -/
def tIssue (cls op : Nat) : Prop :=
  Issues (tSpk (tSpoke (tWord cls op 0))) 5 (tWord cls op 0) cls op ∧ Follows (spoke (tSpk (tSpoke (tWord cls op 0))).toBlock 5)

theorem test_scalar_witness :
    (∀ op ∈ [0x01, 0x02, 0x03, 0x04, 0x05, 0x06, 0x07, 0x08, 0x09, 0x0A, 0x0C, 0x20], tIssue 0 op) ∧
    (∀ n ∈ [0, 15, 16, 17], let w := tWord 0 0x20 (n * 2 ^ 20)
      Issues (tSpk (tSpoke w)) 5 w 0 0x20 ∧ Follows (spoke (tSpk (tSpoke w)).toBlock 5) ∧ bitsOf w.toNat 32 32 = n) := by
  unfold tIssue; decide +kernel

/-- LD and ST at the last word of the local store, one word past it and off its multiple of 8; the branches. -/
theorem test_memory_witness :
    (∀ op ∈ [0x10, 0x11], ∀ e ∈ [(2 ^ 21 - 8, true), (2 ^ 21, false), (4, false)],
      let w := tWord 0 op (e.1 * 2 ^ 20)
      let k := spoke (tSpk (tSpoke w)).toBlock 5
      let a := (((sreg k (fldA w.toNat)).toNat + fldImm w.toNat) % 2 ^ 64).toNat
      Issues (tSpk (tSpoke w)) 5 w 0 op ∧ Follows k ∧ Clear k [(a, 8)] [(a, 8)] [] ∧ a = e.1 ∧
      (e.2 = true ↔ a % 8 = 0 ∧ a + 8 ≤ 2 ^ 21)) ∧
    (∀ op ∈ [0x18, 0x19, 0x1A, 0x1B, 0x1C], tIssue 0 op) := by
  unfold tIssue; decide +kernel

theorem test_vector_witness :
    (∀ op ∈ [0x01, 0x02, 0x03, 0x04, 0x05, 0x06, 0x07, 0x08, 0x09, 0x0A, 0x0B, 0x0C, 0x0D, 0x0F, 0x10, 0x11, 0x12, 0x13, 0x14, 0x15,
       0x16, 0x17, 0x18, 0x32, 0x33], tIssue 1 op) ∧
    (let w := tWord 1 0x0E (5 * 2 ^ 26)
     Issues (tSpk (tSpoke w)) 5 w 1 0x0E ∧ fldMode w.toNat = 5) := by
  unfold tIssue; decide +kernel

/-- VRED in its three modes, VACR and VACW at the last rows of the last tile. -/
theorem test_rows_witness :
    (∀ m ∈ [0, 1, 2], let w := tWord 1 0x20 (m * 2 ^ 26)
      Issues (tSpk (tSpoke w)) 5 w 1 0x20 ∧ Follows (spoke (tSpk (tSpoke w)).toBlock 5) ∧ fldMode w.toNat = m) ∧
    (∀ op ∈ [0x30, 0x31], let w := tWord 1 op (3 * 2 ^ 26 + 1 * 2 ^ 30)
      let k := { tSpoke w with sregs := [(1, 124)] }
      let r := (sreg k (fldS w.toNat)).toNat
      Issues (tSpk k) 5 w 1 op ∧ Follows k ∧ fldMode w.toNat % 4 = 3 ∧ r % 4 = 0 ∧ r = 124 ∧
      upsetsIn k [] ([0, 1, 2, 3].map fun i => 128 * 3 + r + i) = []) := by decide +kernel

/-- VLD, VST and VCVT of FP32, which lies in 2,048 bytes, and of block-scaled FP8, with its scale bytes last in the store. -/
theorem test_vector_memory_witness :
    (∀ op ∈ [0x28, 0x29, 0x2A], ∀ f ∈ [(0, false), (3, true)],
      let w := tWord 1 op ((f.1 + (if f.2 then 16 else 0)) * 2 ^ 20 + 2 * 2 ^ 15 + 1 * 2 ^ 30)
      let k := { tSpoke w with sregs := [(1, BitVec.ofNat 64 (2 ^ 21 - 2048)), (2, BitVec.ofNat 64 (2 ^ 21 - 16))] }
      let n := elemBytes (fldFmt w.toNat) 512
      let a := (((sreg k (fldS w.toNat)).toNat + fldOff w.toNat) % 2 ^ 64).toNat
      let sa := (sreg k (fldC w.toNat)).toNat
      let sc := if fldMx w.toNat then 16 else 0
      Issues (tSpk k) 5 w 1 op ∧ Follows k ∧ fldMx w.toNat = f.2 ∧ codeLegal k.isa (fldFmt w.toNat) f.2 = true ∧ a + n ≤ 2 ^ 21 ∧
      sa + 16 = 2 ^ 21 ∧ (sreg k (fldS w.toNat)).toNat + 16 ≤ 2 ^ 21 ∧ Clear k [(a, n), (sa, sc)] [(a, n), (sa, sc)] [] ∧
      Clear k [] [((sreg k (fldS w.toNat)).toNat, sc)] []) := by decide +kernel

/-- MMA of one group of 32 FP8 products in one row and column, and of the whole tile. -/
theorem test_mma_witness :
    ∀ size ∈ [0, 127], let w := tWord 2 0x01 (3 * 2 ^ 4 + 3 * 2 ^ 9 + 3 * 2 ^ 24 + size * 2 ^ 29 + size * 2 ^ 36)
      let k := { tSpoke w with sregs := [(3, BitVec.ofNat 64 (32 + 32 * 2 ^ 21 + 32 * 2 ^ 42))] }
      let m := mmaArgs w.toNat k
      Issues (tSpk k) 5 w 2 0x01 ∧ Follows k ∧ m.rows = size + 1 ∧ m.cols = size + 1 ∧ mmaIllegal k.isa m = false ∧
      groupOf m.fa m.fb = some 32 ∧ m.addrA % 8 = 0 ∧ m.addrB % 8 = 0 ∧ m.strideA % 8 = 0 ∧ m.strideB % 8 = 0 ∧
      (∀ r ∈ mmaReads m, r.1 + r.2 ≤ 2 ^ 21) ∧ Clear k (mmaReads m) [] ((List.range 128).map fun r => 128 * m.acc + r) ∧
      (∀ r, r < 128 → (accRow k m.acc r).length = 128) := by decide +kernel

/-- The copies issue with 64 bytes; a copy of local-store bytes, a CPIN from segment 0 of kind 1 at its last byte, a CPOUT into
segment 1 of kind 3; a timeout and a transfer error. -/
def tCopy (op seg len : Nat) : CopyOp := ⟨7, op, 0, 64, len, seg, false, 0, false, 0, false, false, 0, len⟩
def tCopying (op seg len : Nat) : Spoke :=
  { tSpoke 0 with copies := [tCopy op seg len], segs := [⟨1, 4096, 0, 128⟩, ⟨3, 8192, 0, 128⟩] }

theorem test_copy_witness :
    (∀ op ∈ [1, 2, 3, 4], let w := tWord 3 op (1 * 2 ^ 10)
      let k := { tSpoke w with sregs := [(1, 64)] }
      let c := copyOf w.toNat k
      Issues (tSpk k) 5 w 3 op ∧ Follows k ∧ copyIllegal k.isa c = false ∧ copyMisaligned c = false ∧ c.len = 64 ∧
      (∀ r ∈ c.reads ++ c.writes, r.1 + r.2 ≤ 2 ^ 21) ∧ Clear k c.reads c.writes []) ∧
    (∀ x ∈ [(3, 0), (1, 0), (2, 1)], let k := tCopying x.1 x.2 64
      let s := tSpk k
      s.toBlock.up = true ∧ spokesRun s.toBlock = true ∧ outstanding s.toBlock 5 7 = some (tCopy x.1 x.2 64) ∧
      upsetsIn k (tCopy x.1 x.2 64).reads [] = [] ∧ 64 + 64 = (segmentOf k x.2).size ∧ s.toBlock.mem.poisoned = [] ∧ k.running = true) ∧
    segReads (segmentOf (tCopying 1 0 64) 0).kind = true ∧ (segmentOf (tCopying 2 1 64) 1).kind = 3 := by decide +kernel

/-- SCSIG on an own counter and on a foreign one, CFENCE, with and without a copy outstanding; TBEGIN; TEND of a tile that is not
the step's last, of one with a copy outstanding, and of one whose live state is too large. -/
def tSignal (n : Nat) : Spoke := { tSpoke (tWord 4 0x01 1) with sregs := [(1, BitVec.ofNat 64 n)] }

theorem test_tile_witness :
    tIssue 4 0x02 ∧ tIssue 4 0x01 ∧
    (∀ op ∈ [0x01, 0x02], let k := { tSpoke (tWord 4 op 0) with copies := [tCopy 3 0 64] }
      Issues (tSpk k) 5 (tWord 4 op 0) 4 op ∧ Follows k ∧ k.copies ≠ []) ∧
    (∀ n ∈ [16, 31, 32], let k := tSignal n
      let s := tSpk k
      let m := bitsOf (sreg k (fldD (tWord 4 1 1).toNat)).toNat 0 16
      let b' := signalCounter m ((tWord 4 1 1).toNat.testBit 22) (sreg k (fldA (tWord 4 1 1).toNat)).toNat s.toBlock
      Issues s 5 (tWord 4 1 1) 4 0x01 ∧ m = n ∧ (counterOwner s.toBlock m = spokeTenant k ↔ n ≠ 32) ∧
      (spoke b' 5).upsets = [] ∧ (spoke b' 5).pc + 1 < (spoke b' 5).code.length) ∧
    (let k := { tSpoke 0 with pc := 0 }
     Issues (tSpk k) 5 (tWord 5 1 0) 5 0x01 ∧ k.pc = 0 ∧ 1 < k.code.length) ∧
    (let w := tWord 5 2 0
     let p := { tPel .flight [] with tilesOut := 1 }
     Issues (tSpk (tSpoke w)) 5 w 5 0x02 ∧ tendBad w.toNat = false ∧ stepOfSpoke (tSpk (tSpoke w)).toBlock (tSpoke w) = some (0, p) ∧
     p.preempting = false ∧ p.fault = none ∧ p.torn = false ∧ p.abandon = false ∧ 2 ≤ p.tilesLeft ∧
     spkState (tSpk (tSpoke w)).toBlock 5 ≠ spDraining ∧
     Issues (tSpk { tSpoke w with copies := [tCopy 3 0 64] }) 5 w 5 0x02) ∧
    (let w := tWord 5 2 (255 * 2 ^ 20 + 2 * 2 ^ 28)
     Issues (tSpk (tSpoke w)) 5 w 5 0x02 ∧ tendBad w.toNat = true) := by
  unfold tIssue
  refine ⟨?_, ?_, ?_, ?_, ?_, ?_, ?_⟩ <;> decide +kernel

/-- TILE_OVERRUN of a running tile whose step is gone, of one whose step has another tile out, and of a Spoke that runs none. -/
theorem test_overrun_witness :
    (let s : State := ⟨{ tBase with spk := ⟨[(5, tSpoke 0)], []⟩ }, []⟩
     let k := spoke s.toBlock 5
     s.toBlock.up = true ∧ spokesRun s.toBlock = true ∧ k.running = true ∧ stepOfSpoke s.toBlock k = none) ∧
    (let p := { tPel .flight [] with tilesOut := 2 }
     let s : State := ⟨{ tBase with spk := ⟨[(5, tSpoke 0)], []⟩, ste := { tBase.ste with pelotons := [(0, p)] } }, []⟩
     s.toBlock.up = true ∧ spokesRun s.toBlock = true ∧ (spoke s.toBlock 5).running = true ∧
     stepOfSpoke s.toBlock (spoke s.toBlock 5) = some (0, p) ∧ 2 ≤ p.tilesOut) ∧
    (tBase.up = true ∧ spokesRun tBase = true ∧ (spoke tBase 5).running = false) := by decide +kernel

/-- TILE_START of the last tile of a step on the last Spoke in service, with a consumer beside it, and of a draft's tile before it. -/
def tTile : TileDesc := ⟨3, [tWord 5 1 0, tWord 5 2 0], 0, [0], [], [⟨6, 0, 266, 4096⟩]⟩
def tDraftTile : TileDesc := ⟨3, [tWord 5 1 0, tWord 5 2 0], 1, [0], [], []⟩
def tFlying (f : Peloton → Peloton) : Peloton := f { tPel .flight [{ tSeqn with work := .step { tRun with draft := some 1 } }] with tilesOut := 3 }
def tFlight (p : Peloton) : State := ⟨{ tBase with ste := { tBase.ste with pelotons := [(0, p)] } }, []⟩

theorem test_tile_start_witness :
    ∀ tile ∈ [tTile, tDraftTile], let p := tFlying id
      let s := tFlight p
      s.works ∧ tget s.ste.pelotons 0 = some p ∧ p.phase = .flight ∧ p.fault = none ∧ p.torn = false ∧ p.abandon = false ∧
      p.tilesOut < p.tilesLeft ∧ tile.code.length ≤ 8192 ∧ spokeTakes s.toBlock 0 p 267 tile = true ∧
      peerCopyPending s.toBlock 267 = false ∧ peersFit s.toBlock (p.tenant, p.slot, 0) tile = true ∧ tileListed p tile = true ∧
      tileInTurn s.toBlock 0 p tile = true ∧ mayBegin (logBegin 267 p.tenant tile.code s.toBlock) p.tenant tile.code = true := by
  decide +kernel

/-- The steps that take no tile, each for its one reason, and the SPARE next to that Spoke. -/
theorem test_tile_start_left :
    (∀ p ∈ [tFlying fun p => { p with phase := .gather }, tFlying fun p => { p with fault := some (5, 9) },
       tFlying fun p => { p with torn := true }, tFlying fun p => { p with abandon := true }, tFlying fun p => { p with tilesOut := 4 }],
      (tFlight p).works ∧ tget (tFlight p).ste.pelotons 0 = some p ∧ (p.phase ≠ .flight ∨ p.fault.isSome = true ∨ p.torn = true ∨
        p.abandon = true ∨ p.tilesLeft ≤ p.tilesOut)) ∧
    spokeTakes (tFlight (tFlying id)).toBlock 0 (tFlying id) 268 tTile = false := by decide +kernel

/-- CONTEXT_SWAP_DONE with the errors it may meet, at the ends of the live ranges; of a Spoke that swaps nothing; and with the last serial
and none left. -/
theorem test_swap_witness :
    let k := { tSpoke 0 with running := false, swapping := true }
    let s := tSpk k
    (s.toBlock.up = true ∧ spokesRun s.toBlock = true ∧ k.ctx = some (1, 0, 0) ∧ k.chain = some 3 ∧ k.swapping = true ∧
     upsetsIn k (saveReads k.live) (saveRows k.live) = [] ∧ (meetUpsets 5 [] s.toBlock).1 = none ∧ s.ses.nextSerial + 1 ≤ serialEnd) ∧
    (∀ x ∈ [(0x10000000025, (1023, true)), (0x1025, (2 ^ 20 + 63, true))],
      let k := { k with live := x.1, upsets := [(1024, true), x.2] }
      upsetsIn k (saveReads k.live) (saveRows k.live) = [x.2] ∧ ((meetUpsets 5 [x.2] (tSpk k).toBlock).1).isSome = true) ∧
    (∀ n ∈ [(serialEnd - 1, true), (serialEnd, false)],
      let b : Block := { s.toBlock with ses := { s.ses with nextSerial := n.1 } }
      b.up = true ∧ spokesRun b = true ∧ spoke b 5 = k ∧ (b.ses.nextSerial + 1 ≤ serialEnd ↔ n.2 = true)) ∧
    (let s := tSpk { k with swapping := false }
     s.toBlock.up = true ∧ spokesRun s.toBlock = true ∧ (spoke s.toBlock 5).ctx = some (1, 0, 0) ∧ (spoke s.toBlock 5).chain = some 3 ∧
     (spoke s.toBlock 5).swapping = false) := by decide +kernel

/-- A place is granted to a preempted peloton and to a ready one; a gather ends; a preempted step's last chain has left. -/
def tPlaced (p : Peloton) : State := ⟨{ tBase with ste := { tBase.ste with pelotons := [(7, p)] } }, []⟩

theorem test_peloton_witness :
    (∀ ph ∈ [PelPhase.preempted, PelPhase.ready], let s := tPlaced (tPel ph [tSeqn])
      s.works ∧ nextForPlace s.toBlock = some (7, tPel ph [tSeqn]) ∧ tget s.toBlock.ste.pelotons 7 = some (tPel ph [tSeqn]) ∧
      inFlight s.toBlock < 4 ∧ tenantState s.toBlock 1 = tsActive ∧ tget s.toBlock.ten.tearing 1 = none) ∧
    (let s := tPlaced (tPel .gather [tSeqn])
     s.works ∧ tget s.toBlock.ste.pelotons 7 = some (tPel .gather [tSeqn])) ∧
    (let p := { tPel .flight [tSeqn] with preempting := true }
     let s := tPlaced p
     s.works ∧ tget s.toBlock.ste.pelotons 7 = some p ∧ p.tilesOut = 0 ∧
     (s.toBlock.spk.spokes.any fun e => decide (e.2.ctx = some (p.tenant, p.slot, 7)) &&
       (e.2.running || e.2.swapping || e.2.chain.isSome)) = false) := by decide +kernel

/-- TEND of a tile whose step is gone. -/
theorem test_tend_gone :
    let w := tWord 5 2 0
    let s : State := ⟨{ tBase with spk := ⟨[(5, tSpoke w)], []⟩ }, []⟩
    Issues s 5 w 5 0x02 ∧ tendBad w.toNat = false ∧ (spoke s.toBlock 5).copies = [] ∧ stepOfSpoke s.toBlock (spoke s.toBlock 5) = none := by
  decide +kernel

/-! ### Witnesses: rings, records and the time line -/

/-- A control block of chain ISA 3.1 at 256 with 64 command and completion slots, and ring 16 disabled. -/
def tControl (magic : Nat) : Block :=
  let b := tPoke 288 8 262144 (tPoke 280 8 12288 (tPoke 272 8 8192 (tPoke 264 8 4096 (tPoke 256 8
    (magic + 0x31 * 2 ^ 32 + 6 * 2 ^ 40 + 6 * 2 ^ 48) (tPoke 262144 5 (0x31534552 + 10 * 2 ^ 32) tBase)))))
  tSet [(F.CFE_RING_SEL_ring, 0, 16), (F.CFE_RING_STAT_state, 16, 0), (F.CFE_RING_CTRL_enable, 16, 0)] b

/-- RING_ENABLE with a good and a bad line 0; RING_DISABLE of the running ring; RING_DRAINED. -/
theorem test_ring_witness :
    (∀ m ∈ [(0x31434843, 0), (0, 1)], let b := tControl m.1
      let set := (b.setFi F.CFE_RING_CTRL_cb_addr 16 (bitsOf 257 8 44)).setFi F.CFE_RING_CTRL_enable 16 1
      b.up = true ∧ b.getF F.CFE_RING_SEL_ring = 16 ∧ b.getFi F.CFE_RING_STAT_state 16 = rsDisabled ∧ 257 % 2 = 1 ∧
      ringTenant set 16 = 1 ∧ 256 * set.getFi F.CFE_RING_CTRL_cb_addr 16 = 256 ∧ enableError set 1 256 = m.2 ∧
      b.peekLe (256 + 7) 1 % 2 = 0 ∧ b.getF F.PMC_STAT_pstate ≠ pstateStandby) ∧
    (let b := tSet [(F.CFE_RING_SEL_ring, 0, 16)] tBase
     b.up = true ∧ b.getFi F.CFE_RING_STAT_state (b.getF F.CFE_RING_SEL_ring) = rsRunning ∧
     b.getFi F.CFE_RING_CTRL_enable (b.getF F.CFE_RING_SEL_ring) = 1) ∧
    (∀ on ∈ [0, 1], let b := tSet [(F.CFE_RING_STAT_state, 16, 3), (F.CFE_RING_CTRL_enable, 16, on)] tBase
     b.up = true ∧ b.getFi F.CFE_RING_STAT_state 16 = rsDraining ∧ ringInflight b 16 = 0 ∧
     b.getFi F.CFE_RING_CTRL_enable 16 = on) := by decide +kernel

/-- TAIL_LINE_INVALIDATE with a tail at the ring's last slot, one past it, and a lower one. -/
theorem test_tail_witness :
    ∀ x ∈ [(0, 64), (0, 65), (3, 2)], let r := { tRing with tail := x.1 }
      let b := tPoke 320 8 x.2 { tBase with fe := { tBase.fe with rings := [(16, r)] } }
      b.up = true ∧ ringOf b 16 = some r ∧ b.getFi F.CFE_RING_STAT_state 16 = rsRunning ∧ b.getF F.PMC_STAT_pstate ≠ pstateStandby ∧
      b.peekLe (r.cb + 64) 8 = x.2 ∧ (x.2 = 64 ↔ r.tail ≤ x.2 ∧ x.2 ≤ r.head + 2 ^ r.cmdLog2) ∧
      (x.2 = 65 ↔ r.tail ≤ x.2 ∧ r.head + 2 ^ r.cmdLog2 < x.2) ∧ (x.2 = 2 ↔ x.2 < r.tail) := by decide +kernel

/-- RING_SERVICE of an empty ring, whose turn never comes, and of one that holds the head of a request with ID 1, the highest so far being 0. -/
def tHead : Block :=
  tPoke 4096 8 (0x3F + 256 + 512) (tPoke 4104 8 512 (tPoke 512 8 1
    { tBase with fe := { tBase.fe with rings := [(16, { tRing with tail := 1, admitted := 2 })] } }))

theorem test_service_witness :
    ((⟨tBase, []⟩ : State).works ∧ ringOf tBase 16 = some tRing ∧ mayFetch tBase 16 tRing = true ∧ nextTurn tBase ≠ some 16) ∧
    (let r := { tRing with tail := 1, admitted := 2 }
     let e := entryAt tHead r r.head
     (⟨tHead, []⟩ : State).works ∧ ringOf tHead 16 = some r ∧ mayFetch tHead 16 r = true ∧ nextTurn tHead = some 16 ∧ r.tail = r.head + 1 ∧ r.admitted = 2 ∧ r.intake = .none ∧
     r.copied ≤ r.head ∧ r.heads = [] ∧ tandemValid tHead = false ∧ e.opcode ≠ Op.accept ∧ e.isHead = true ∧
     readHeader tHead r.tenant e = some ⟨1, 0, 0, 0⟩ ∧ r.hwm < 1 ∧ poolFull tHead r.tenant = false ∧ r.isa = 0x31 ∧
     req tHead tHead.fe.order = none) := by decide +kernel

/-- CANCEL_GO of a request that runs, begun and not, and of one on another tenant's ring; COMPLETE. -/
theorem test_records_witness :
    (∀ begun ∈ [true, false], let q := { tReq (tImm 0x2A 0 0) with started := begun }
     let b := tSet [(F.CFE_CANCEL_ID_req_id, 0, 7)] tBase
     let s : State := ⟨{ b with fe := { b.fe with reqs := [(1, q)], order := 2 } }, []⟩
     s.works ∧ (s.toBlock.fe.reqs.find? fun e => inflight e.2 && decide (e.2.ring = 16) &&
       decide (e.2.reqId = s.getF F.CFE_CANCEL_ID_req_id)) = some (1, q) ∧ req s.toBlock 1 = some q ∧ q.kind = .normal ∧
     q.isTrailerFail = false ∧ q.phase = .body) ∧
    ((⟨tBase, []⟩ : State).works ∧ ringTenant tBase 16 ≠ 2) ∧
    Shows (tImm 0x3F 0 0) tBase .complete (fun _ c b => req b 1 = some c.req) :=
  ⟨by decide +kernel, by decide +kernel, shows_of (by decide +kernel)⟩

/-- A duplicate whose original has completed; a record that waits for a slot; a trailer at its last entry and past it. -/
def tOne (q : Req) (b : Block) : State := ⟨{ b with fe := { b.fe with reqs := [(1, q)], order := 2 } }, []⟩

theorem test_trailer_witness :
    (let q := { tReq (tImm 0x3F 0 0) with kind := .replay 0 }
     (tOne q tBase).works ∧ req (tOne q tBase).toBlock 1 = some q ∧ q.phase = .body ∧
     originalFlies (tOne q tBase).toBlock q.ring q.reqId = false) ∧
    (let q := { tReq (tImm 0x3F 0 0) with phase := .record }
     let r := { tRing with cqQueue := [1, 2] }
     let s := tOne q { tBase with fe := { tBase.fe with rings := [(16, r)] } }
     s.works ∧ req s.toBlock 1 = some q ∧ ringOf s.toBlock q.ring = some r ∧ r.cqQueue = 1 :: [2]) ∧
    (let q := { tReq (tImm 0x3F 0 0) with phase := .trailer, completeAt := some 0, closed := true }
     (tOne q tBase).works ∧ req (tOne q tBase).toBlock 1 = some q ∧ q.kind = .normal ∧ q.wait = .none ∧
     q.instrs[max q.pc (0 + 1)]? = none) ∧
    (∀ w ∈ [Wait.none, Wait.retry],
     let q := { tReq (tImm 0x3F 0 0) with phase := .trailer, completeAt := some 0, wait := w, instrs := [tImm 0x3F 0 0, tImm 0x29 16 1] }
     (tOne q tBase).works ∧ req (tOne q tBase).toBlock 1 = some q ∧ q.kind = .normal ∧ q.instrs[max q.pc (0 + 1)]? = some (tImm 0x29 16 1) ∧
     max q.pc (0 + 1) < 256 ∧ rowOf (ringIsa (tOne q tBase).toBlock q.ring) (tImm 0x29 16 1) = some .ssignal) := by decide +kernel

/-- The time line, watched at 64: a later, an equal and an earlier value; a fresh line; an enable and a disable. -/
def tLine (now seen : Nat) : Block :=
  tPoke 64 8 seen (tSet [(F.MOD_TIMELINE_ADDR_enable, 0, 1), (F.MOD_TIMELINE_ADDR_line_addr, 0, 1), (F.MOD_TIMELINE_LAST_last_ns, 0, now)] tBase)

theorem test_timeline_witness :
    (∀ v ∈ [4, 5, 6], let b := tLine 5 v
      b.up = true ∧ b.isSet F.MOD_TIMELINE_ADDR_enable = true ∧ b.getF F.PMC_STAT_pstate ≠ pstateStandby ∧ b.now = 5 ∧
      b.peekLe (64 * b.getF F.MOD_TIMELINE_ADDR_line_addr) 8 = v ∧ v ≠ 0) ∧
    (tLine 5 5).stale = false ∧ tBase.isSet F.MOD_TIMELINE_ADDR_enable = false ∧ tBase.up = true := by decide +kernel

/-! ### Witnesses: motions, moves and windows -/

/-- Session 0 in a module whose host time is `now`. -/
def tAt (now : Nat) (x : Session) (b : Block) : State := ⟨tSet [(F.MOD_TIMELINE_LAST_last_ns, 0, now)] (tWith x b), []⟩
def tWarm : Session := { tSess with state := ssWarm, depth := dWarm }

/-- The idle intervals as they end, a resume hint whose lead begins, and a shadow slot held one ns too long. -/
theorem test_timer_witness :
    (let s := tAt 2000000 tSess (tSet [(F.SES_TQ_POLICY_hot_idle_ms, 1, 2)] tBase)
     let b := readPairs 0 s.toBlock
     s.works ∧ session b 0 = some tSess ∧ tSess.state = ssHot ∧
     idleFor b 0 tSess (b.getFi F.SES_TQ_POLICY_hot_idle_ms tSess.tenant * 1000000) = true ∧
     demotionTarget b tSess = some (dWarm, 0, false)) ∧
    (let s := tAt 2000000000 tWarm (tSet [(F.SES_TQ_POLICY_warm_idle_s, 1, 2)] tBase)
     let b := readPairs 0 s.toBlock
     s.works ∧ session b 0 = some tWarm ∧ tWarm.state = ssWarm ∧ coldAllowed b tWarm.tenant = true ∧
     idleFor b 0 tWarm (b.getFi F.SES_TQ_POLICY_warm_idle_s tWarm.tenant * 1000000000) = true ∧
     chooseTarget b tWarm dCold 3 true = .go dCold 0 false) ∧
    (let s0 := tAt 5000000 tWarm (tSet [(F.SES_TQ_POLICY_spec_revive, 1, 1)] tBase)
     let x := { tWarm with resumeHintNs := 5000000 + specLead s0.toBlock tWarm }
     let s := tAt 5000000 x (tSet [(F.SES_TQ_POLICY_spec_revive, 1, 1)] tBase)
     let b := readPairs 0 s.toBlock
     s.works ∧ session b 0 = some x ∧ x.resumeHintNs ≠ 0 ∧ x.hintSpent = false ∧
     b.getFi F.SES_TQ_POLICY_spec_revive x.tenant ≠ 0 ∧ x.motion = none ∧ x.shadow = none ∧ x.liftWait = none ∧ x.closing = false ∧
     x.state = ssWarm ∧ x.resumeHintNs = b.now + specLead b x) ∧
    (let x := { tWarm with shadow := some ⟨7, 0, true, false, []⟩ }
     let hold := tBase.getF F.PNE_SPEC_CFG_shadow_hold_ms * 1000000
     let s := tAt (7 + hold + 1) x tBase
     s.works ∧ session s.toBlock 0 = some x ∧ s.toBlock.stale = false ∧
     7 + s.toBlock.getF F.PNE_SPEC_CFG_shadow_hold_ms * 1000000 + 1 = s.toBlock.now) := by
  refine ⟨?_, ?_, ?_, ?_⟩ <;> decide +kernel

/-- Motions that run: a demotion in mirror mode, one of every other kind, and a revival from the host tier. -/
def tMoves (k : MotionKind) (x : Session) : Session := { x with state := ssMotion, motion := some ⟨k, 4, 0, true, false, 2, 0, none⟩ }
def tHostWarm : Session := { tWarm with warmTier := 1 }

/-- A WARM session that revives from one unit of range 4, which is borrowed or gone. -/
def tNbrWarm (borrowed : Bool) : State :=
  let b := tWith (tMoves .revive { tWarm with warmTier := 2 }) tBase
  ⟨{ b with
      ses := { b.ses with extents := [(9, ⟨2, [4 * 2 ^ 21], 1, 1, 1, .warm 0, [], 1, []⟩)] }
      mem := { b.mem with borrowed := if borrowed then [(4, ⟨2, 1, 1, 0, none, 0, none, [], false⟩)] else [] } }, []⟩

theorem test_motion_witness :
    (∀ k ∈ [MotionKind.demote, .park, .retier, .revive, .moveOut, .moveIn, .restore], let x := tMoves k tWarm
      let s := tAt 0 x tBase
      let b := readPairs 0 s.toBlock
      s.works ∧ readsOut s.toBlock 0 = false ∧ session b 0 = some x ∧ x.motion = some ⟨k, 4, 0, true, false, 2, 0, none⟩ ∧
      readsLost b 0 x (motionReads b x) = false ∧ x.moveOut = none ∧ singleHome b = false ∧
      (k = .demote → unitRead 0 (motionReads b x) b = none)) ∧
    (let s := tAt 0 tSess { tBase with mem := { tBase.mem with fetches := [⟨2, 0, 1, 9, 0⟩] } }
     s.works ∧ readsOut s.toBlock 0 = true) ∧
    (∀ here ∈ [true, false], let x := tMoves .revive { tWarm with warmTier := 2 }
      let b := readPairs 0 (tNbrWarm here).toBlock
      (tNbrWarm here).works ∧ readsOut (tNbrWarm here).toBlock 0 = false ∧ session b 0 = some x ∧
      readsLost b 0 x (motionReads b x) = !here) ∧
    (let x := tMoves .revive tHostWarm
     let s := tAt 0 x tBase
     s.works ∧ session s.toBlock 0 = some x ∧ waitsOnLower s.toBlock 0 = true ∧ x.moveOut = none ∧ singleHome s.toBlock = false) := by
  refine ⟨?_, ?_, ?_, ?_⟩ <;> decide +kernel

/-- The header of a COLD session of tenant 1 that module 2 offers as its first move, for the model whose digest begins with 1. -/
def tOffer : Bytes := leBytes 256 (0x524E4E50 + 0x0200 * 2 ^ 32 + tHandle * 2 ^ 64 + 1 * 2 ^ 112 + 2 * 2 ^ 128 + 2 * 2 ^ 136 +
  1 * 2 ^ 320 + (2 ^ 57 + 1) * 2 ^ 1152)
def tArrive : Block :=
  { tBase with ten := { tBase.ten with models := [(0, { tModel with weightsDg := 1 :: List.replicate 31 0 })] } }
def tInbound (r : Option (Nat × Nat)) : State :=
  ⟨{ tArrive with ses := { tArrive.ses with inbound := [(2 ^ 57 + 1, ⟨2, tOffer, [], r, none, none⟩)] } }, []⟩

theorem sha256_length (bs : Bytes) : (sha256 bs).length = 32 := by simp [sha256, beBytes32]

theorem test_move_dest_witness :
    ((⟨tArrive, []⟩ : State).works ∧ hdrMoveId tOffer = 2 ^ 57 + 1 ∧
     ((tget tArrive.ses.inbound (hdrMoveId tOffer)).bind (·.ready)) = none ∧ arriveCheck tArrive 2 tOffer = none) ∧
    (let s := tInbound none
     s.works ∧ tget s.ses.inbound (2 ^ 57 + 1) = some ⟨2, tOffer, [], none, none, none⟩ ∧ arriveCheck s.toBlock 2 tOffer = none ∧
     (headerModel s.toBlock tOffer).isSome = true ∧ oldestFree s.toBlock = some (0, 0) ∧ tandemValid s.toBlock = false ∧
     tandemOn s.toBlock = false) ∧
    (∃ bs : Bytes, bs.take 32 = sha256 (tOffer ++ [])) ∧ (∃ bs : Bytes, bs.take 32 ≠ sha256 (tOffer ++ [])) :=
  ⟨by decide +kernel, by decide +kernel, ⟨sha256 (tOffer ++ []), List.take_of_length_le (by rw [sha256_length])⟩, ⟨[], fun h => by
    have := congrArg List.length h
    rw [sha256_length] at this
    simp at this⟩⟩

/-- The source: READY of a move that is sent, DONE of a committed and of a sent one, no path left to a sent one. -/
def tOut (st : MoveStage) (h : Nat) : MoveOut := ⟨2, 2 ^ 56 + 1, 2, false, st, none, h, false, false, [], none, false, none, []⟩

theorem test_move_source_witness :
    (let x := { tMoves .moveOut tSess with moveOut := some (tOut .sent 0) }
     (tAt 0 x tBase).works ∧ session (tAt 0 x tBase).toBlock 0 = some x ∧ x.moveOut = some (tOut .sent 0) ∧
     (x.motion.map (·.kind)) = some .moveOut ∧ (tOut .sent 0).stage = .sent ∧ singleHome (tAt 0 x tBase).toBlock = false) ∧
    (∀ st ∈ [MoveStage.committed, .sent], let x := { tSess with moveOut := some (tOut st 9) }
      (tAt 0 x tBase).works ∧ session (tAt 0 x tBase).toBlock 0 = some x ∧ (tOut st 9).dstHandle ≠ 0 ∧
      (tOut st 9).commitDelta = none ∧ tBase.tdm.restored = [] ∧ (tOut st 9).rid = none ∧ x.motion = none) := by
  refine ⟨?_, ?_⟩ <;> decide +kernel

/-- DESC_SELECT of session 0 and of another tenant's handle; HOMING_WRITE where nothing moves and where a motion waits. -/
theorem test_window_witness :
    (let b := tWith tSess tBase
     b.up = true ∧ b.rtp.conf = false ∧ (match checkHandle 1 0 0 tHandle true (b.setF F.SES_DESC_SEL_handle tHandle) with
       | .ok sid x => decide (sid = hSlot tHandle ∧ x = tSess)
       | _ => false) = true ∧ hTenant tHandle = 1 ∧ hTenant tHandle ≠ 2 ∧
     motionsActive b = 0 ∧ motionsQueued b = 0 ∧ (b.ses.slots.any fun e => outsideHbm b e.2) = false) ∧
    motionsQueued (tWith { tSess with motion := some ⟨.park, 3, 0, false, false, 1, 0, none⟩ } tBase) ≠ 0 := by decide +kernel

/-! ### Witnesses: registers, shapers, windows, keys and memory -/

/-- CFE_CANCEL_ID is a register without an effect of its own; 0x7FFFFF8 is no register's address; offset 0xFFF8 of an aperture
shows none. -/
theorem test_register_witness :
    (∀ r ∈ [R.CFE_CANCEL_ID, R.PNE_CNT_MOTION],
      regAt r.addr = some (r, 0) ∧ instOf .mgmt tBase r 0 = some 0 ∧ ruleFor r writeRules = none ∧ r.addr % 8 = 0 ∧
      (∀ f ∈ r.fields, tBase.getFi f 0 < 2 ^ f.width) ∧ r.addr ≠ R.INT_TGT_CLAIM.addr ∧ r.addr ≠ R.MOD_RAIL.addr) ∧
    tBase.up = true ∧ regAt 0x7FFFFF8 = none ∧
    (let b := tSet [(F.RTP_APER_enable, 0, 1)] tBase
     b.up = true ∧ apertureOn b 0xFFF8 = true ∧ apertureReg 1 0xFFF8 = none) := by decide +kernel

/-- SHAPER_CONFIG of the ring shaper 0, SHAPER_ADMIT of ring 16 with nothing waiting; HWIN_CONFIG of window 0, which is
enabled, and of window 1 at and above the most units. -/
theorem test_shaper_window_witness :
    shaperInst (tBase.getF F.TSH_SEL_kind) (tBase.getF F.TSH_SEL_index) = some 0 ∧ tBase.up = true ∧
    ringOf tBase 16 = some tRing ∧ tRing.admitted ≠ 1 ∧
    tBase.getFi F.MEM_HWIN_CFG_enable (tBase.getF F.MEM_HWIN_SEL_window) = 1 ∧
    (∀ used ∈ [0, 1], let b := tSet [(F.MEM_HWIN_SEL_window, 0, 1), (F.MEM_HWIN_CFG_enable, 2, used), (F.MEM_HWIN_CFG_tier, 2, 1),
        (F.MEM_HWIN_CFG_size_2m, 2, 1)] tBase
      b.getFi F.MEM_HWIN_CFG_enable 1 ≠ 1 ∧ tierWindowUnits b 1 + bitsOf (3 + 0x200000 * 2 ^ 16) 16 22 = 0x200000 + used) := by
  decide +kernel

/-- Tenant 1, which holds a frame, with a key entry, selected for the commands. -/
def tKeyed (k : KeyEntry) : State :=
  let b := tFrames (tSet [(F.MEM_KEY_SEL_tenant, 0, 1)] tBase)
  ⟨{ b with mem := { b.mem with keys := [(1, k)] } }, []⟩

/-- Key commands from the root of trust, a management ring and others; KEY_ROTATE at the last version, with a rotation under way and
without a key; a pass with none under way, one that is through and, where the versions are the same, one that is not; RESERIAL. -/
theorem test_key_witness :
    mayCommandKeys .rtp = true ∧ mayCommandKeys .mgmtRing = true ∧ mayCommandKeys .mgmt = false ∧ mayCommandKeys (.aperture 1) = false ∧
    (∀ k ∈ [(⟨255, 0, 0, 0, 0⟩ : KeyEntry), ⟨2, 1, 3, 0, 0⟩, ⟨0, 0, 0, 0, 0⟩, ⟨1, 1, 3, 0, 0⟩], let s := tKeyed k
      s.works ∧ s.toBlock.up = true ∧ tget s.mem.keys (s.getF F.MEM_KEY_SEL_tenant) = some k) ∧
    (∀ k ∈ [(⟨2, 1, 3, 0, 0⟩ : KeyEntry), ⟨1, 1, 3, 0, 0⟩], let s := tKeyed k
      let read := s.ses.slots.foldl (fun b e =>
        if e.2.tenant = 1 ∧ e.2.state ≠ ssQuarantine ∧ e.2.state ≠ ssScrubbing then passReads e.1 b else b) s.toBlock
      standsUnder (rewriteUnits 1 k read) 1 k.retiring = decide (k.retiring = k.current)) ∧
    holdsData tBase = false ∧ tBase.up = true ∧ holdsData (tFrames tBase) = true ∧ (tFrames tBase).up = true := by decide +kernel

/-- PATROL while host time is stale, and below the last block of a stack with 0, 1, 3, 4 and 5 bad bytes; with 6, each of the two ways
the code may answer. -/
theorem test_patrol_witness :
    (tSet [(F.MOD_TIMELINE_STAT_stale, 0, 1)] tBase).stale = true ∧ tBase.up = true ∧ tBase.stale = false ∧ tBase.cmp.badReplica = false ∧
    (64 * (2 ^ 30 - 2)) / 64 % 2 ^ 30 ≠ 2 ^ 30 - 1 ∧ (tSet [(F.MEM_CFG_ce_warn, 0, 0)] tBase).getF F.MEM_CFG_ce_warn = 0 ∧
    (Config.miscorrects 0 = true ∨ Config.miscorrects 0 = false) :=
  ⟨by decide +kernel, by decide +kernel, by decide +kernel, by decide +kernel, by decide +kernel, by decide +kernel, by
    cases Config.miscorrects 0 <;> simp⟩

/-- A lent range of one unit at its last block, and one that streams to its heir. -/
def tLent (heir : Option Nat) (pos : Nat) : State :=
  ⟨{ tBase with mem := { tBase.mem with lent := [(4, ⟨2, 1, 1, 0, heir, pos, none, [], false⟩)] } }, []⟩

theorem test_lent_witness :
    (let s := tLent none 0
     s.works ∧ lentRange s.toBlock 4 = some ⟨2, 1, 1, 0, none, 0, none, [], false⟩ ∧ 32767 < 1 * 32768) ∧
    (let s := tLent (some 3) 5
     s.works ∧ lentRange s.toBlock 4 = some ⟨2, 1, 1, 0, some 3, 5, none, [], false⟩ ∧ 5 + 2 < 1 * 32768) := by decide +kernel

/-! ### Witnesses: the map, the links, copies, slices and firmware -/

/-- A module outside a domain that has staged itself as member 1 alone, and the coordinator of a domain of the members 1 and 2. -/
def tStaged (own : Nat) : Block :=
  tSet [(F.CMP_ID_module_id, 0, own)] { tBase with cmp := { tBase.cmp with stagedMembers := [(1, ⟨1, 0, false, 0⟩)] } }
def tTwoMembers : Block :=
  tSet [(F.CMP_ID_in_domain, 0, 1), (F.CMP_ID_module_id, 0, 1), (F.CMP_EPOCH_epoch, 0, 5)]
    { tBase with cmp := { tBase.cmp with members := [(1, ⟨1, 0, false, 0⟩), (2, ⟨1, 0, false, 0⟩)] } }

theorem test_map_form_witness :
    (tTwoMembers.up = true ∧ tTwoMembers.isSet F.CMP_ID_in_domain = true) ∧
    ((tStaged 2).isSet F.CMP_ID_in_domain = false ∧ (liveIn (tStaged 2).cmp.stagedMembers).head? ≠ some (ownModule (tStaged 2))) ∧
    (let b := tStaged 1
     let live := liveIn b.cmp.stagedMembers
     b.isSet F.CMP_ID_in_domain = false ∧ live.head? = some (ownModule b) ∧
     changeErr { b with cmp := { b.cmp with entries := [], members := [] } } (formEntries b.cmp.staged live) b.cmp.stagedMembers = 0) := by
  decide +kernel

/-- A proposal of a later epoch by member 2; a change under way; a proposal held; and none. -/
def tProposal : Proposal := ⟨6, [], [], 0⟩
def tChanging : Block := { tTwoMembers with cmp := { tTwoMembers.cmp with change := some ⟨tProposal, [], false, []⟩ } }

theorem test_map_change_witness :
    (tTwoMembers.cmp.badReplica = false ∧ tTwoMembers.getF F.CMP_EPOCH_epoch < tProposal.epoch ∧ liveMember tTwoMembers 2 = true ∧
     donorAgrees tTwoMembers tProposal = true) ∧
    (tChanging.up = true ∧ tChanging.cmp.change = some ⟨tProposal, [], false, []⟩ ∧ tProposal.epoch = 6) ∧
    tTwoMembers.cmp.held = none ∧ tTwoMembers.getF F.CMP_EPOCH_epoch < 6 := by decide +kernel

/-- A range given to module 2 whose last request has completed; a range awaited; a peer that is no member, and one whose loss
leaves half of the live members. -/
def tServing (owner : Nat) (serving : Bool) : Block :=
  { tTwoMembers with cmp := { tTwoMembers.cmp with entries := [(0, ⟨4096, 1, owner, 0, false, 1, 5⟩)], range := some 4096,
                                                   serving := serving, awaiting := !serving } }

theorem test_range_witness :
    (let s : State := ⟨tServing 2 true, []⟩
     s.works ∧ departingRange s.toBlock = true ∧ drainCount s.toBlock = 0 ∧ servedEntry s.toBlock = some ⟨4096, 1, 2, 0, false, 1, 5⟩ ∧
     tandemOn s.toBlock = false) ∧
    (let b := tServing 1 false
     b.up = true ∧ b.isSet F.CMP_ID_coordinator = false ∧ b.mem.lent = [] ∧ b.cmp.awaiting = true ∧ b.cmp.range = some 4096 ∧
     b.tdm.kept = none ∧ ((entryAtBase b.cmp.entries 1 4096).any fun e => decide (e.owner = ownModule b)) = true) ∧
    (let lose := fun m => tandemMemberLost m { tTwoMembers with cmp := { tTwoMembers.cmp with unreachable := [m] } }
     tTwoMembers.cmp.unreachable.contains 2 = false ∧ liveMember (lose 9) 9 = false ∧ liveMember (lose 2) 2 = true ∧
     (lose 2).isSet F.CMP_ID_isolated = false ∧
     2 * ((liveMembers (lose 2)).filter fun n => !(lose 2).cmp.unreachable.contains n).length = (liveMembers (lose 2)).length ∧
     (lose 2).cmp.unreachable.contains 2 = true) := by
  refine ⟨?_, ?_, ?_⟩ <;> decide +kernel

/-- Port 3 disabled and enabled, with its reference clock good; each stage of its training; a Stoty port in order 7. -/
def tPort (p st stage : Nat) (b : Block) : Block :=
  tSet [(F.FLL_PORT_SEL_port, 0, p), (F.FLL_PORT_STAT_state, p, st), (F.MOD_BOARD_refclk_ok, 0, 15)]
    { b with link := { b.link with ports := [(p, { Port.reset with stage := stage })] } }

theorem test_port_witness :
    (∀ en ∈ [0, 1], let b := tSet [(F.FLL_PORT_CTRL_enable, 3, en)] (tPort 3 psDown 0 tBase)
      b.up = true ∧ b.getF F.FLL_PORT_SEL_port = 3 ∧ b.getFi F.FLL_PORT_CTRL_enable 3 = en ∧
      b.getFi F.FLL_PORT_STAT_state 3 = psDown ∧ b.getFi F.FLL_PORT_STAT_state 3 ≠ psError ∧ clockOk b 3 = true) ∧
    (∀ st ∈ [2, 3, 4, 5, 6, 8], (portOf (tPort 17 psTraining st tBase) 17).stage = st) ∧
    (portOf (tPort 4 psTraining 7 tBase) 4).stage = 7 ∧
    (∀ bad ∈ [(0x1F, 4), (0x3F, 3)], (goodLanes (tSet [(F.FLL_PORT_STAT_lanes_bad, 3, bad.1)] (tPort 3 psTraining 4 tBase)) 3).length = bad.2) := by
  decide +kernel

/-- A port that is up with no peer known; a swap in progress; a Stoty port that is up to module 2, whose next message is 3. -/
def tLinked : Block :=
  let b := tPort 4 psUp 0 tBase
  { b with link := { b.link with ports := [(4, { Port.reset with peer := leBytes 8 (2 * 2 ^ 48) })], expect := [(16, 3)] } }

theorem test_traffic_witness :
    (let b := tSet [(F.FLL_PORT_CTRL_swap_thresh, 3, 7)] (tPort 3 psUp 0 tBase)
     b.up = true ∧ portUp b 3 = true ∧ peerModule b 3 = none ∧ 7 ≤ b.getFi F.FLL_PORT_CTRL_swap_thresh 3) ∧
    (portOf { tBase with link := { tBase.link with ports := [(3, { Port.reset with swapping := some 8 })] } } 3).swapping = some 8 ∧
    (tLinked.up = true ∧ portsTo tLinked 2 = [4] ∧ tgetD tLinked.link.expect (8 * 2 + 0) 0 = 3 ∧ tLinked.link.early = [] ∧
     tgetD tLinked.link.expect (8 * 2 + 4) 0 = 0) ∧ Block.reset.up = false := by decide +kernel

/-- TDM_CMD with each command from 1 to 6 while none runs, and while one runs; copies to load; a slot that cannot be found. -/
def tCopyOf (x : Session) : CopySession := copySession tBase x
def tHurt : Session := { tSess with state := ssQuarantine }
def tTandem : Block :=
  let b := tSet [(F.TDM_STAT_tstate, 0, tdValid), (F.TDM_HANDLE_handle, 0, tHandle)] (tWith tHurt tBase)
  { b with tdm := { b.tdm with sent := { TandemCopy.empty with sessions := [(0, tCopyOf tHurt)] } } }
def tFound : CkptFound := ⟨true, true, true, 1, 7, true, TandemCopy.empty⟩
def tPool : Block :=
  let b := tPoke 4096 8 (0x4C4F4F50 + 2 ^ 32) (tSet [(F.TDM_POOL_valid, 0, 1), (F.TDM_POOL_addr, 0, 64)] tBase)
  { b with rtp := { b.rtp with dkCur := some (7, []) } }

theorem test_tdm_witness :
    (∀ cmd ∈ [1, 2, 3, 4, 5, 6], TdmReady ⟨tBase, []⟩ (BitVec.ofNat 64 (cmd + 2 * 256)) cmd ∧ bitsOf (cmd + 2 * 256) 8 8 = 2) ∧
    restoreErr (tdmNoted ⟨tBase, []⟩ 1) TandemCopy.empty = 0 ∧ tBase.tdm.kept = none ∧
    (let s : State := ⟨{ tBase with tdm := { tBase.tdm with kept := some tKept } }, []⟩
     TdmReady s 0x202 2 ∧ tKept.source = bitsOf 0x202 8 8 ∧ tKept.valid = true ∧ restoreErr (tdmNoted s 0x202) tKept.copy = 0) ∧
    (let s : State := ⟨tPool, []⟩
     TdmReady s 3 3 ∧ (tdmPool (tdmNoted s 3)).isSome = true ∧ s.tdm.ckpt = none ∧
     (match chooseCkpt [tFound] (tdmNoted s 3) with
       | (b, .ok c) => decide (c = TandemCopy.empty) && decide (restoreErr b { c with requests := [] } = 0)
       | _ => false) = true) ∧
    (let s : State := ⟨{ tBase with tdm := { tBase.tdm with loading := some (TandemCopy.empty, none) } }, []⟩
     s.works ∧ s.tdm.loading = some (TandemCopy.empty, none) ∧ (s.tdm.kept.map (·.follow)).getD false = false) ∧
    (let s : State := ⟨tSet [(F.TDM_CMD_state, 0, 1)] tBase, []⟩
     s.works ∧ 1 ≤ bitsOf 6 0 3 ∧ bitsOf 6 0 3 ≤ 6 ∧ s.getF F.TDM_CMD_state = 1) := by
  refine ⟨?_, ?_, ?_, ?_, ?_, ?_, ?_⟩ <;> decide +kernel

theorem test_restore_one_witness :
    (let s : State := ⟨tTandem, []⟩
     TdmReady s 4 4 ∧ hSlot (s.getF F.TDM_HANDLE_handle) = 0 ∧ session s.toBlock 0 = some tHurt ∧
     handleOf 0 tHurt = s.getF F.TDM_HANDLE_handle ∧ tHurt.state = ssQuarantine ∧ tHurt.motion = none ∧ tandemValid s.toBlock = true ∧
     tget s.tdm.sent.sessions 0 = some (tCopyOf tHurt) ∧ (tCopyOf tHurt).gen = tHurt.gen ∧ (tCopyOf tHurt).tenant = tHurt.tenant) ∧
    session tBase (hSlot (tBase.getF F.TDM_HANDLE_handle)) = none := by
  refine ⟨?_, ?_⟩ <;> decide +kernel

/-- The last wheel with all its Spokes healthy and one spare; a lane of a port that is up; the first hub partition; a channel. -/
theorem test_rotate_witness :
    (let b := tSet [(F.SPK_STATE_state, 271, 3)] tBase
     b.up = true ∧ 64 < healthySpokes b 3 ∧ lowestSpare b 3 ≠ none ∧ wheelIn b 3 spTest + wheelIn b 3 spDraining = 0 ∧
     oldestTested b 3 = some 204) ∧
    tBase.getF F.SPK_SEL_spoke < numSpokes ∧
    (let b := tPort 17 psUp 0 tBase
     b.getFi F.FLL_PORT_STAT_state 17 = psUp ∧ (portOf b 17).drained = none ∧ (portOf b 17).swapping = none ∧
     (goodLanes b 17).contains 7 = true ∧ 7 ≠ (portOf b 17).spare ∧ spareFree b 17 = true) ∧
    (∀ x ∈ [(1000000000, true), (999999999, false)], let b := tSet [(F.MOD_TIMELINE_LAST_last_ns, 0, x.1)] tBase
      ∀ key ∈ [spokePeriod 3, lanePeriod 17, hubPeriod, channelPeriod 255], periodOver b key 1 = x.2) ∧
    hubTestable tBase 0 = true ∧ (tBase.brp.channels.any fun d => decide (d / 32 = 255 / 32)) = false := by decide +kernel

/-- Spoke 271, a lane and a hub partition under test; a Spoke tested 6 h and 1 ns ago; a swap in each of its states. -/
theorem test_bist_witness :
    spkState (tSet [(F.SPK_STATE_state, 271, 2)] tBase) 271 = spTest ∧
    (portOf { tBase with link := { tBase.link with ports := [(17, { Port.reset with drained := some 8 })] } } 17) =
      { Port.reset with drained := some 8 } ∧
    ({ tBase with brp := { tBase.brp with hubTest := some 24 } } : Block).brp.hubTest = some 24 ∧
    (let b := tSet [(F.MOD_TIMELINE_LAST_last_ns, 0, 21600000000001)] tBase
     b.stale = false ∧ spkState b 271 ≠ spFailed ∧ tgetD b.brp.tested 271 0 + 21600000000000 + 1 = b.now ∧
     b.brp.overdue.contains 271 = false) ∧
    (∀ st ∈ [1, 2], let b := tSet [(F.BRP_STAT_swap, 0, st)] tBase
      b.up = true ∧ b.getF F.BRP_STAT_swap = st ∧ (b.ste.pelotons.all fun e => decide (e.2.phase = .ready)) = true) ∧
    (let b : Block := { tBase with brp := { tBase.brp with switched := true } }
     b.up = true ∧ b.rtp.activeB.length = 3 ∧ b.rtp.runB.length = 3 ∧ b.rtp.running.length = 3) := by decide +kernel

/-- RTP_CMD for each command and component, its buffer in the window; the owner's commands. -/
def tOwned (op : Nat) : State :=
  let b := tPoke 4100 1 op (tSet [(F.RTP_CMD_ADDR_addr, 0, 64)] tBase)
  ⟨{ b with rtp := { b.rtp with ownerKey := some [1] } }, []⟩

theorem test_rtp_witness :
    (∀ cmd ∈ [1, 2, 3], ∀ comp ∈ [0, 1, 2, 3], let v : BitVec 64 := BitVec.ofNat 64 (cmd + 8 * comp + 8 * 2 ^ 32)
      let s := tOwned 0
      RtpReady s v cmd comp ∧ cmdReach s.toBlock 0 (64 * bitsOf v.toNat 32 24) = true ∧
      (inactiveSlot s.toBlock comp).valid = true ∧ ratchet s.toBlock 1 ≤ (inactiveSlot s.toBlock 1).svn) ∧
    tBase.getF F.BRP_STAT_swap = 0 := by decide +kernel

theorem test_owner_witness :
    (RtpReady ⟨tBase, []⟩ (4 + 2 ^ 32) 4 0 ∧ tBase.rtp.ownerKey = none ∧ cmdReach tBase 0 64 = true ∧ (tOwned 0).rtp.ownerKey ≠ none) ∧
    (∀ op ∈ [1, 2, 3, 4, 5, 6], let s := tOwned op
      OwnerReady s (5 + 8 * 2 ^ 32) op [1] [] ∧ s.rtp.confNext = false ∧ s.rtp.conf = false ∧
      cmdReach s.toBlock 4096 (exportBytes s.toBlock [1]).length = true) ∧
    (RtpReady ⟨tBase, []⟩ (6 + 2 * 256) 6 0 ∧ tenantState tBase 2 = tsAbsent ∧ hasKey tBase 2 = false ∧ tenantState tBase 1 ≠ tsAbsent) ∧
    (let b := tSet [(F.CMP_ID_coordinator, 0, 1)] tTwoMembers
     RtpReady ⟨b, []⟩ 7 7 0 ∧ b.isSet F.CMP_ID_in_domain = true ∧ b.isSet F.CMP_ID_coordinator = true ∧
     b.isSet F.CMP_ID_isolated = false ∧ b.cmp.change = none ∧ b.getF F.CMP_EPOCH_epoch ≠ 0xFFFFFFFF) ∧
    tBase.isSet F.CMP_ID_coordinator = false := by
  refine ⟨?_, ?_, ?_, ?_, ?_⟩ <;> decide +kernel

/-- Tenants: one ABSENT with a key, one HELD whose restart is due, one that is torn down with nothing left. -/
theorem test_tenant_witness :
    (let b : Block := { tSet [(F.MOD_TEN_SEL_tenant, 0, 2)] tBase with mem := { tBase.mem with keys := [(2, ⟨1, 0, 0, 0, 0⟩)] } }
     b.up = true ∧ b.getF F.MOD_TEN_SEL_tenant = 2 ∧ b.getFi F.MOD_TEN_STAT_tstate 2 = tsAbsent ∧ hasKey b 2 = true) ∧
    (let b : Block := { tSet [(F.MOD_TEN_SEL_tenant, 0, 1), (F.MOD_TEN_STAT_tstate, 1, 2), (F.STE_TQ_SCHED_auto_restart, 1, 1),
         (F.MOD_TIMELINE_LAST_last_ns, 0, 7 + 1000000000)] tBase with ten := { tBase.ten with teardownNs := [(1, 7)] } }
     b.getFi F.MOD_TEN_STAT_tstate 1 = tsHeld ∧ b.getFi F.STE_TQ_SCHED_auto_restart 1 = 1 ∧ b.stale = false ∧
     tget b.ten.teardownNs 1 = some 7 ∧ 7 + b.getFi F.STE_TQ_SCHED_restart_ms 1 * 1000000 = b.now) ∧
    (let b := tSet [(F.MOD_TEN_SEL_tenant, 0, 1)] (tWith tSess tBase)
     tenantState b 1 = tsActive ∧ resetRefused b 1 = false) ∧
    (let b := tSet [(F.MOD_TEN_SEL_tenant, 0, 1)] (tWith { tSess with tenant := 2 } tBase)
     let b : Block := { b with txu := { b.txu with cogs := [(0, { tCog with shared := true })] } }
     tenantState b 1 = tsActive ∧ resetRefused b 1 = true) ∧
    (let x := { tSess with state := ssScrubbing }
     session (tWith x tBase) 0 = some x ∧ x.vecItems = 0 ∧ x.moveOut = none) ∧
    (let b := tSet [(F.MOD_TEN_STAT_tstate, 1, 3)] tBase
     tenantState b 1 = tsResetting ∧ b.ten.resetting.contains 1 = false ∧
     (b.ses.slots.any fun e => decide (e.2.tenant = 1 ∧ e.2.vecItems ≠ 0)) = false) := by
  refine ⟨?_, ?_, ?_, ?_, ?_, ?_⟩ <;> decide +kernel

/-- What a peer shows in a handshake. -/
def tCert : PeerCert := ⟨true, [], false, [], [], []⟩

/-- Requests of the RTP by management and by a tenant, idle and busy; a queue of each kind of operation. -/
theorem test_report_witness :
    (∀ who ∈ [Caller.mgmt, Caller.aperture 1], ∀ op ∈ [1, 2], RtpIdle ⟨tBase, []⟩ who (BitVec.ofNat 64 op) op) ∧
    reportScope .mgmt (4 + 16) = some 1 ∧ reportScope .mgmt 0 = none ∧
    (tSet [(F.RTP_REQ_CMD_state, 0, 1)] tBase).getFi F.RTP_REQ_CMD_state (Caller.inst .mgmt) = 1 ∧
    (let q := [RtpOp.report .mgmt 0 none, .handshake 4 tCert]
     let b : Block := { tPort 4 psTraining 7 tBase with rtp := { tBase.rtp with queue := q } }
     b.up = true ∧ b.rtp.queue = [RtpOp.report .mgmt 0 none] ++ .handshake 4 tCert :: [] ∧ (portOf b 4).stage = 7 ∧
     ¬ownModule b < bytesAt (portOf b 4).peer 6 1 ∧
     ownModule b < bytesAt (portOf (setPort 4 { portOf b 4 with peer := [0, 0, 0, 0, 0, 0, 9] } b) 4).peer 6 1) ∧
    tBase.rtp.queue = [] := by decide +kernel

/-! ### Witnesses: interrupts, power, heat, board -/

/-- Target 15 with a pending source of priority 62 above an empty stack, and with that source claimed; a level source. -/
def tSrc (n : Nat) (x : IntSrc) (st : List (Nat × Nat)) : Block :=
  let b := tSet [(F.INT_TGT_STAT_threshold, 15, 63), (F.INT_CFG_storm_n, 0, 0)] tBase
  { b with intr := { b.intr with srcs := [(n, x)], prioStacks := [(15, st)] } }
def tPending : IntSrc := ⟨true, 15, 62, true, false, false, 0, 0⟩

theorem test_interrupt_witness :
    (let b := tSrc 0x7FF tPending []
     b.up = true ∧ tsorted b.intr.srcs = true ∧ presented b 15 = some (0x7FF, 62) ∧ presented tBase 15 = none) ∧
    (let b := tSrc 0x7FF { tPending with pending := false, active := true } [(0x7FF, 62)]
     bitsOf 0x7FF 0 11 = 0x7FF ∧ intStack b 15 = (0x7FF, 62) :: [] ∧ isLevelSrc 0x7FF = false ∧
     (intStack b 15).head?.map (·.1) ≠ some (bitsOf 0x7FE 0 11)) ∧
    (let b := tSrc Src.timeStale { tPending with pending := false, active := true } [(Src.timeStale, 62)]
     intStack b 15 = (Src.timeStale, 62) :: [] ∧ isLevelSrc Src.timeStale = true ∧ b.getF F.INT_CFG_storm_n = 0) := by
  decide +kernel

theorem test_stack_witness : stackFalls [(3, 5), (2, 63)] := by unfold stackFalls; decide

/-- A module in RUN and in STANDBY for soft interrupts; counters that nothing waits on. -/
theorem test_source_witness :
    (tBase.up = true ∧ tBase.getF F.PMC_STAT_pstate ≠ pstateStandby) ∧
    (let b := tSet [(F.PMC_STAT_pstate, 0, pstateStandby)] tBase
     b.up = true ∧ b.getF F.PMC_STAT_pstate = pstateStandby) ∧
    tBase.fe.reqs = [] ∧ (∀ w, w < 256 → tBase.getFi F.INT_WATCH_CFG_armed w ≠ 1) := by decide +kernel

/-- The order of the domains at reset, with just the floors as budget; a step's energy shared among two rings. -/
theorem test_power_witness :
    [tBase.getF F.PMC_CFG_order0, tBase.getF F.PMC_CFG_order1, tBase.getF F.PMC_CFG_order2].Perm [0, 1, 2] ∧ 380 ≤ 380 ∧
    (let rings := [(16, 3), (65535, 1)]
     (∀ e ∈ rings, e.1 < 65536) ∧ (rings.map (·.1)).Nodup ∧ 0 < (rings.map (·.2)).sum) := by decide +kernel

/-- Heat: THERM_TRIP_N already driven, and a module not up; site 21 at its full limit; each power state that a brake passes. -/
theorem test_heat_witness :
    (tripDriven tBase = true ∨ Block.reset.up = false) ∧ thermalLimit tBase 21 ≤ fullLimit ∧
    (tBase.getF F.PMC_STAT_pstate = psRun ∧ tBase.getF F.PMC_CMD_state ≠ 1) ∧
    (let b := tSet [(F.PMC_STAT_pstate, 0, psLeaving), (F.PMC_CMD_state, 0, 1)] tBase
     b.up = true ∧ b.getF F.PMC_STAT_pstate = psLeaving ∧ b.getF F.PMC_CMD_state = 1) ∧
    (let b := tSet [(F.PMC_STAT_pstate, 0, psBraking)] tBase
     b.up = true ∧ b.getF F.PMC_STAT_pstate = psBraking) := by decide +kernel

/-- UNBRAKE of a BRAKED module at two seconds of good coolant, one µs short of it, and with a trip held; STANDBY when idle and
when a request is in flight. -/
def tBraked (us : Nat) (low : Bool) : Block :=
  tSet [(F.PMC_STAT_pstate, 0, psBraked)] { tBase with pmc := { tBase.pmc with okUs := us, tripLow := low } }

theorem test_brake_witness :
    (let b := tBraked 2000000 false
     b.up = true ∧ b.getF F.PMC_STAT_pstate = psBraked ∧ b.pmc.coolantOk = true ∧ b.pmc.okUs = 2000000 ∧ tripIsLow b = false ∧
     (∀ e ∈ b.pmc.sensors, e.2.throttling = false) ∧ b.pmc.fromStandby = false) ∧
    (tBraked 1999999 false).pmc.okUs < 2000000 ∧ tripIsLow (tBraked 2000000 true) = true ∧
    tBase.getF F.PMC_STAT_pstate = psRun ∧ standbyIdle tBase = true ∧ standbyIdle (tOne (tReq (tImm 0x2A 0 0)) tBase).toBlock = false := by
  decide +kernel

/-- The board in each stage; the input at the edges of its range; a loss of a rail that is up, and of one that is off; an
overvoltage whose input has fallen to the restart threshold. -/
def tBoard (f : ModState → ModState) : State := ⟨{ Block.reset with mod := f ModState.reset }, []⟩

theorem test_board_power_witness :
    (let s := tBoard fun m => { m with stage := .dead, vinMv := 0 }
     s.mod.overvolt = false ∧ 38500 ≤ (38500#16).toNat ∧ (38500#16).toNat < 58000 ∧ (57999#16).toNat < 58000 ∧ s.mod.stage = .dead) ∧
    (∀ st ∈ [PowerStage.input, .up 2, .up 3, .up 4, .up 5, .up 6, .down 2, .down 3, .down 4, .good],
      (tBoard fun m => { m with stage := st }).mod.stage = st) ∧
    (let s := tBoard id
     s.mod.stage ≠ .dead ∧ s.mod.stage ≠ .input ∧ 13 ∈ s.mod.railsUp ∧ 13 < 16 ∧ 14 ∉ s.mod.railsUp) ∧
    (let s := tBoard fun m => { m with overvolt := true, stage := .dead }
     s.mod.overvolt = true ∧ (55500#16).toNat ≤ 55500 ∧ 37000 ≤ (55500#16).toNat ∧ s.mod.stage = .dead ∧ 55500 < (55501#16).toNat) := by
  decide +kernel

/-- A module that has just been released boots; power good with the reset held; a ROM recovery; a bus that is released. -/
theorem test_board_boot_witness :
    (let s := State.reset
     let x : BootOutcome := ⟨[true, true, true], [true, true, true], []⟩
     s.mod.pwrGood = true ∧ s.mod.released = true ∧ s.rtp.ready = false ∧ s.rtp.recovery = false ∧
     bootSlot x s.toBlock 0 = some false ∧ bootSlot x s.toBlock 1 = some false ∧ bootSlot x s.toBlock 2 = some false ∧
     bootSlot ⟨[false, true, true], [false, true, true], []⟩ s.toBlock 0 = none ∧ s.toBlock.up = false) ∧
    (let s := tBoard fun m => { m with released := false }
     s.mod.pwrGood = true ∧ s.mod.released = false) ∧
    (let s : State := ⟨{ Block.reset with rtp := { RtpState.reset with recovery := true } }, []⟩
     s.mod.released = true ∧ s.rtp.recovery = true ∧ 0 + 64 ≤ recoveryLimit s.toBlock) := by decide +kernel

/-! ### Witnesses: the whole block -/

theorem test_queue_witness :
    (let s : State := ⟨tBase, [.timeLineUpdate, .heartbeat]⟩
     s.pending = .timeLineUpdate :: [.heartbeat] ∧ (∀ c ∈ s.pending, c.wf = true)) ∧ State.reset.pending = [] ∧
    Instr.wf (.tileOverrun 271) = true ∧ Instr.wf (.tileOverrun 272) = false := by decide +kernel

theorem test_may_not_witness :
    (State.reset.toBlock.up = false ∧ onBoard (.sopen 1) = false ∧ ∀ a bs, Instr.sopen 1 ≠ .faloloSnoop a bs) ∧
    Instr.wf (.sopen 1) = true ∧
    (let b := tSet [(F.CMP_ID_isolated, 0, 1)] tBase
     b.isSet F.CMP_ID_isolated = true ∧ isWork (.sopen 1) = true) ∧ (tBraked 0 false).getF F.PMC_STAT_pstate ≠ psRun :=
  ⟨⟨rfl, rfl, fun _ _ h => by cases h⟩, by decide +kernel⟩

theorem test_memory_witness_wf :
    Memory.wf tBase.cmem = true ∧ Memory.wf (tBase.pokeLe (2 ^ 52 - 8) 8 1).cmem = true ∧ 2 ^ 64 - 1 < 2 ^ (8 * 8) := by decide +kernel

/-! ### WellFormed: a command that names a unit the module does not have is refused by its check, and faults -/

theorem test_ill_formed :
    Instr.wf (.tileOverrun 272) = false ∧ Instr.wf (.trainingStageDone 18 0) = false ∧ Instr.wf (.laneTestRotate 17 9) = false ∧
    Instr.wf (.laneTestRotate 18 8) = false ∧ Instr.wf (.preemptComplete 8) = false ∧ Instr.wf (.tileStart 0 272 tTile) = false ∧
    Instr.wf (.tileStart 8 0 tTile) = false ∧ Instr.wf (.throttleSet 60 0) = false ∧ Instr.wf (.hubTestRotate 25) = false ∧
    Instr.wf (.hotIdleExpiry (2 ^ 24)) = false ∧ Instr.wf (.bistComplete (.spoke 272) true false) = false ∧
    Instr.wf (.bistComplete (.lane 18 0) true false) = false ∧ Instr.wf (.bistComplete (.lane 0 9) true false) = false ∧
    Instr.wf (.bistComplete (.hub 25) true false) = false ∧ Instr.wf (.bistComplete (.channel 256) true false) = false := by decide

theorem test_well_formed :
    Instr.wf (.tileOverrun 271) = true ∧ Instr.wf (.laneTestRotate 17 8) = true ∧ Instr.wf (.tileStart 7 271 tTile) = true ∧
    Instr.wf (.throttleSet 59 0) = true ∧ Instr.wf (.hubTestRotate 24) = true ∧ Instr.wf (.hotIdleExpiry (2 ^ 24 - 1)) = true ∧
    Instr.wf (.bistComplete (.channel 255) true false) = true := by decide

theorem test_no_unit_faults : exec (.tileOverrun 272) State.reset = .fault .noSuchUnit := by rfl

/-- The table of commands gives no row any bits. -/
theorem test_no_words (n w : Nat) : decodeTableWord n w = none ∧ State.withFetchWord State.reset n w = State.reset := ⟨rfl, rfl⟩

/-! ### Single steps -/

/-- What a command leaves, read by `f`. -/
def tGet {α : Type} (f : Block → α) : Host.Outcome State Fault Refusal → Option α
  | .next s => some (f s.toBlock)
  | _ => none

/-- The scalar register 3 after the word `w` on a Spoke whose registers 1 and 2 hold `a` and `b`. -/
def tScalar (w : BitVec 64) (a b : BitVec 64) : State := tSpk { tSpoke w with sregs := [(1, a), (2, b)] }
def tReg3 (b : Block) : BitVec 64 := sreg (spoke b 5) 3

/-- ADD wraps at 64 bits; SUB goes below 0; SAR keeps the sign; a shift counts modulo 64 (Table 9.3). -/
theorem test_scalar_values :
    tGet tReg3 (exec (.add 5 (tWord 0 0x01 (3 + 1 * 2 ^ 5 + 2 * 2 ^ 10))) (tScalar (tWord 0 0x01 (3 + 1 * 2 ^ 5 + 2 * 2 ^ 10)) (-1) 2)) = some 1 ∧
    tGet tReg3 (exec (.sub 5 (tWord 0 0x03 (3 + 1 * 2 ^ 5 + 2 * 2 ^ 10))) (tScalar (tWord 0 0x03 (3 + 1 * 2 ^ 5 + 2 * 2 ^ 10)) 1 2)) = some (-1) ∧
    tGet tReg3 (exec (.sar 5 (tWord 0 0x0A (3 + 1 * 2 ^ 5 + 2 * 2 ^ 10))) (tScalar (tWord 0 0x0A (3 + 1 * 2 ^ 5 + 2 * 2 ^ 10)) (-8) 65)) = some (-4) ∧
    tGet (fun b => (sreg (spoke b 5) 0, (spoke b 5).pc)) (exec (.add 5 (tWord 0 0x01 (1 * 2 ^ 5 + 2 * 2 ^ 10)))
      (tScalar (tWord 0 0x01 (1 * 2 ^ 5 + 2 * 2 ^ 10)) 1 2)) = some (0, 2) := by decide +kernel

/-- ADDI sign-extends its immediate; LUI keeps the low half; BLT compares signed, and leaves the code with PC_RANGE. -/
theorem test_scalar_forms :
    tGet tReg3 (exec (.addi 5 (tWord 0 0x02 (3 + 1 * 2 ^ 5 + 0xFFFFFFFF * 2 ^ 20))) (tScalar (tWord 0 0x02 (3 + 1 * 2 ^ 5 + 0xFFFFFFFF * 2 ^ 20)) 5 0)) =
      some 4 ∧
    tGet tReg3 (exec (.lui 5 (tWord 0 0x0C (3 + 1 * 2 ^ 5 + 0x12 * 2 ^ 20))) (tScalar (tWord 0 0x0C (3 + 1 * 2 ^ 5 + 0x12 * 2 ^ 20)) 0xAA00000034 0)) =
      some 0x1200000034 ∧
    tGet (fun b => (spoke b 5).pc) (exec (.blt 5 (tWord 0 0x1A (1 * 2 ^ 5 + 2 * 2 ^ 10 + 0xFFFFFFFF * 2 ^ 20)))
      (tScalar (tWord 0 0x1A (1 * 2 ^ 5 + 2 * 2 ^ 10 + 0xFFFFFFFF * 2 ^ 20)) (-1) 0)) = some 0 ∧
    tGet (fun b => (b.getFi F.SPK_FAULT_code 5, b.getFi F.SPK_FAULT_pc 5)) (exec (.jmp 5 (tWord 0 0x1C (2 * 2 ^ 20)))
      (tScalar (tWord 0 0x1C (2 * 2 ^ 20)) 0 0)) = some (0x04, 1) := by decide +kernel

/-- FP32 (R205): 1 + 1 is 2; the sum of 2^24 and 1 rounds to even; 1 / 0 is infinity; the root of -1 is the one NaN. -/
theorem test_fp_values :
    fAdd 0x3F800000 0x3F800000 = 0x40000000 ∧ fAdd 0x4B800000 0x3F800000 = 0x4B800000 ∧ fDiv 0x3F800000 0 = 0x7F800000 ∧
    fSqrt 0xBF800000 = 0x7FC00000 ∧ fFma 0x40000000 0x40400000 0x3F800000 = 0x40E00000 := by decide +kernel

/-- A reduction of 512 ones by addition is 512, in lane 0. -/
theorem test_reduce : reduceTree fAdd 9 (List.replicate 512 0x3F800000) = 0x44000000 := by decide +kernel

/-- SHA-256 of "abc" (FIPS 180-4). -/
theorem test_sha256 : leVal (sha256 [0x61, 0x62, 0x63]).reverse = 0xBA7816BF8F01CFEA414140DE5DAE2223B00361A396177A9CB410FF61F20015AD := by
  decide +kernel

/-- SSIGNAL adds modulo 2^64 (R413); a foreign counter keeps its value and the attempt is logged as kind 8 (R412). -/
theorem test_signal_values :
    tGet (fun b => counterValue b 16) (exec (.ssignal 1) (tDue (tImm 0x29 16 (2 ^ 64 - 1)) (tCounter 4))) = some 3 ∧
    tGet (fun b => (counterValue b 32, b.rtp.vlog.map (·.kind))) (exec (.ssignal 1) (tDue (tImm 0x29 32 1) (tCounter 4))) = some (0, [8]) := by
  decide +kernel

/-- SOPEN gives slot 1 with generation 1 (R24), and the handle of Table 2.1; with model slot 9 empty it opens none. -/
theorem test_sopen_values :
    tGet (fun b => ((session b 1).map (·.gen), (req b 1).map fun q => leVal (q.result.take 6)))
      (exec (.sopen 1) (tDue (tPtr 0x01 0 64) (tPoke 96 4 64 (tWith tSess tBase)))) = some (some 1, some (2 ^ 36 + 2 ^ 12 + 1)) ∧
    tGet (fun b => session b 1) (exec (.sopen 1) (tDue (tPtr 0x01 9 64) (tWith tSess tBase))) = some none := by decide +kernel

/-- CONSTRAIN of the empty list and DRAFT write their session fields (R173, R258). -/
theorem test_setting_values :
    tGet (fun b => (session b 0).map (·.clist)) 
      (exec (.constrain 1) (tDue (tImm 0x12 emptyList tHandle) (tAided (tWith { tSess with clist := 4 } tBase)))) = some (some emptyList) ∧
    tGet (fun b => (session b 0).map (·.draftSlot)) (exec (.draft 1) (tDue (tImm 0x19 0x801 tHandle) (tAided (tWith tSess tBase)))) =
      some (some 1) := by decide +kernel

/-- The longest entry wins; a byte that no entry matches, and an invalid one, give byte tokens (R246, R247). -/
theorem test_tokenise_values :
    let es : List CogEntry := [⟨0, [0x61]⟩, ⟨0, [0x61, 0x62]⟩, ⟨2, [0x63]⟩]
    (tokenise 100 es true 5 [0x61, 0x62, 0x61, 0x63, 0xFF]).toks = [1, 0, 199, 355] ∧
    (tokenise 100 es true 5 [0x61, 0x62, 0x61, 0x63, 0xFF]).invalid = 1 := by decide +kernel

/-- A key version of 255 is followed by 1 (R291). -/
theorem test_key_values :
    tGet (fun b => (tget b.mem.keys 1).map fun k => (k.current, k.retiring)) (exec (.keyRotate .rtp)
      ⟨{ tSet [(F.MEM_KEY_SEL_tenant, 0, 1)] tBase with mem := { tBase.mem with keys := [(1, ⟨255, 0, 0, 0, 0⟩)] } }, []⟩) = some (some (1, 255)) := by
  decide +kernel

/-- A claim answers the source with `valid` (R404), and an EOI of another source is counted (R405). -/
theorem test_claim_values :
    tGet (fun b => b.rdata) (exec (.intClaim 15) ⟨tSrc 0x7FF tPending [], []⟩) = some 0x800007FF ∧
    tGet (fun b => b.getF F.INT_STAT_eoi_err) (exec (.intEoi 15 0x7FE) ⟨tSrc 0x7FF tPending [(0x7FF, 62)], []⟩) = some 1 := by decide +kernel

/-- A tail past the ring is error 3 (R49); the time line takes a later value (R15). -/
theorem test_ring_values :
    tGet (fun b => (b.getFi F.CFE_RING_STAT_state 16, b.getFi F.CFE_RING_STAT_err 16)) (exec (.tailLineInvalidate 16) ⟨tPoke 320 8 65 tBase, []⟩) =
      some (rsError, 3) ∧
    tGet (fun b => b.now) (exec .timeLineUpdate ⟨tLine 5 6, []⟩) = some 6 := by decide +kernel

/-- An uncorrectable block is poisoned (R294); the coolant's fall brakes the module (R428); IDCODE is shown (R449). -/
theorem test_unit_values :
    tGet (fun b => b.getF F.PMC_STAT_pstate) (exec .coolantOkFall ⟨tBase, []⟩) = some psBraking ∧
    tGet (fun b => b.rdata) (exec (.jtagInstruction .idcode) State.reset) = some 0xB074058F ∧
    (uncorrectable 0x1234 tBase).mem.poisoned = [0x1200] := by decide +kernel

/-- REG_WRITE and READ by management (R6, R445). -/
theorem test_register_values :
    tGet (fun b => b.getF F.CFE_CANCEL_ID_req_id) (exec (.regWrite .mgmt (BitVec.ofNat 32 R.CFE_CANCEL_ID.addr) 7) ⟨tBase, []⟩) = some 7 ∧
    tGet (fun b => (b.mod.busStatus, b.rdata)) (exec (.busRead (BitVec.ofNat 32 R.CFE_CANCEL_ID.addr))
      ⟨tSet [(F.CFE_CANCEL_ID_req_id, 0, 7)] tBase, []⟩) = some (0, 7) ∧
    tGet (fun b => b.mod.busStatus) (exec (.busRead (BitVec.ofNat 32 (R.CFE_CANCEL_ID.addr + 4))) ⟨tBase, []⟩) = some 2 := by decide +kernel

/-- A step takes the first command of the queue; with none it idles. -/
theorem test_step_values :
    (match step ⟨tBase, [.coolantOkFall, .heartbeat]⟩ with
     | .next s => decide (s.pending = [.heartbeat]) && decide (s.getF F.PMC_STAT_pstate = psBraking)
     | _ => false) = true ∧
    step State.reset = .next State.reset := ⟨by decide +kernel, rfl⟩

end

end Sys2Proof.Machine
end

/-! PROOFS of the family 00_scope: byte memories and session handles (O60), register accesses (O34). -/

namespace Sys2Proof.Machine

/-! ### Byte memories and session handles (R3, R25) -/

/-- What is read back of a little-endian value is the value (R3). -/
theorem peekLe_pokeLe {b : Block} (h : Memory.wf b.cmem = true) (a : Nat) {n v : Nat} (hv : v < 2 ^ (8 * n)) :
    (b.pokeLe a n v).peekLe a n = v := by
  have hread := cellRead_cellWrite h a (leBytes n v)
  rw [leBytes_length] at hread
  rw [Block.peekLe, Block.peek, Block.pokeLe, pokeBytes_cmem, hread, leVal_leBytes n v hv]

/-- A byte that is not 0 lies at or past the first listed address. -/
theorem head_le_of_cellGet_ne_zero {k a : Nat} {v : BitVec 8} {m : List Host.Cell} (h : Memory.wf ((k, v) :: m) = true)
    (ha : cellGet ((k, v) :: m) a ≠ 0) : k ≤ a := by
  obtain ⟨-, hlow, -⟩ := (Memory.wf_cons k v m).1 h
  by_contra hlt
  refine ha (cellGet_below fun c hc => ?_)
  rcases List.mem_cons.1 hc with rfl | hc
  · simp only; omega
  · have := hlow c hc; omega

@[simp] theorem cellGet_head (k : Nat) (v : BitVec 8) (m : List Host.Cell) : cellGet ((k, v) :: m) k = v := by
  simp [cellGet]

theorem cellGet_tail {k a : Nat} (v : BitVec 8) (m : List Host.Cell) (h : a ≠ k) :
    cellGet ((k, v) :: m) a = cellGet m a := by
  simp [cellGet, h]

/-- A canonical memory that reads 0 everywhere lists nothing. -/
theorem eq_nil_of_cellGet_zero {m : List Host.Cell} (h : Memory.wf m = true) (h0 : ∀ a, cellGet m a = 0) : m = [] := by
  cases m with
  | nil => rfl
  | cons c m =>
    obtain ⟨k, v⟩ := c
    have hv := h0 k
    rw [cellGet_head] at hv
    exact absurd hv ((Memory.wf_cons k v m).1 h).1

/-- The canonical form is unique: memories of equal contents are equal. -/
theorem Memory.eq_of_cellGet_eq {m m' : List Host.Cell} (h : Memory.wf m = true) (h' : Memory.wf m' = true)
    (heq : ∀ a, cellGet m a = cellGet m' a) : m = m' := by
  induction m generalizing m' with
  | nil => exact (eq_nil_of_cellGet_zero h' fun a => (heq a).symm).symm
  | cons c t ih =>
    cases m' with
    | nil => exact eq_nil_of_cellGet_zero h heq
    | cons c' t' =>
      obtain ⟨k, v⟩ := c
      obtain ⟨k', v'⟩ := c'
      obtain ⟨hv, hlow, ht⟩ := (Memory.wf_cons k v t).1 h
      obtain ⟨hv', hlow', ht'⟩ := (Memory.wf_cons k' v' t').1 h'
      have hk : k = k' := by
        have hle : k ≤ k' := head_le_of_cellGet_ne_zero h (by rwa [heq, cellGet_head])
        have hge : k' ≤ k := head_le_of_cellGet_ne_zero h' (by rwa [← heq, cellGet_head])
        omega
      subst hk
      have hvv : v = v' := by simpa using heq k
      have htt : t = t' := by
        refine ih ht ht' fun a => ?_
        by_cases ha : a = k
        · rw [ha, cellGet_below hlow, cellGet_below hlow']
        · simpa only [cellGet_tail _ _ ha] using heq a
      rw [hvv, htt]

/-- The fields of a handle read back, and it fits its 48 bits (Table 2.1). -/
theorem mkHandle_fields {t sid g : Nat} (ht : t < 2 ^ 12) (hs : sid < 2 ^ 24) (hg : g < 2 ^ 12) :
    hTenant (mkHandle t sid g) = t ∧ hSlot (mkHandle t sid g) = sid ∧ hGen (mkHandle t sid g) = g ∧
    mkHandle t sid g < 2 ^ 48 := by
  simp only [hTenant, hSlot, hGen, mkHandle, bitsOf]
  omega

/-- A handle is made of its three fields. -/
theorem mkHandle_of_fields {h : Nat} (hh : h < 2 ^ 48) : mkHandle (hTenant h) (hSlot h) (hGen h) = h := by
  simp only [hTenant, hSlot, hGen, mkHandle, bitsOf]
  omega

/-- No generation is 0 (R24). -/
theorem nextGen_range {g : Nat} (hg : g < 2 ^ 12) : nextGen g ≠ 0 ∧ nextGen g < 2 ^ 12 := by
  unfold nextGen
  split <;> omega

/-- Settles O60: a write is read back byte by byte, the canonical form is unique, and a handle is its three fields. -/
theorem memoryAndHandlesHold : Obligations.MemoryAndHandlesHold := by
  unfold Obligations.MemoryAndHandlesHold
  refine ⟨⟨fun b a n v hb hv => peekLe_pokeLe hb a hv, fun b a bs hb => ⟨?_, fun x hx => ?_⟩,
    fun m m' h h' heq => Memory.eq_of_cellGet_eq h h' heq⟩,
    fun t sid g ht hs hg => mkHandle_fields ht hs hg, fun h hh => mkHandle_of_fields hh, fun g hg => nextGen_range hg⟩
  · exact cellRead_cellWrite hb a bs
  · exact cellGet_cellWrite_out hb bs hx

/-! ### The register map -/

/-- Within a register every field has a key of its own. -/
theorem fieldKeys_nodup : ∀ r ∈ allRegs, (r.fields.map (·.key)).Nodup := by decide +kernel

theorem findReg_mem {a n : Nat} {r : Reg} {rs : List Reg} (h : findReg a rs = some (r, n)) : r ∈ rs := by
  induction rs with
  | nil => simp [findReg] at h
  | cons r' rs ih =>
    simp only [findReg] at h
    split at h
    · obtain ⟨rfl, -⟩ := Prod.mk.inj (Option.some.inj h)
      exact List.mem_cons_self
    · exact List.mem_cons_of_mem _ (ih h)

/-- The register at an address is one of the map. -/
theorem regAt_mem {a n : Nat} {r : Reg} (h : regAt a = some (r, n)) : r ∈ allRegs := findReg_mem h

/-! ### Writes by the access codes (R6) -/

/-- Value of a field after `v` is written to its register, of a field that reads `old` (Table 0.3). -/
def Fld.written (f : Fld) (old v : Nat) : Nat :=
  match f.acc with
  | .ro => old
  | .rw1c => old - (old &&& f.of v)
  | _ => f.of v

theorem Fld.of_lt (f : Fld) (v : Nat) : f.of v < 2 ^ f.width := Nat.mod_lt _ (Nat.two_pow_pos _)

/-- A write to a field whose value fits gives the field what its access code says. -/
theorem getFi_writeField_self {b : Block} {f : Fld} {i : Nat} (v : Nat) (h : b.getFi f i < 2 ^ f.width) :
    (writeField i v b f).getFi f i = f.written (b.getFi f i) v := by
  cases hacc : f.acc <;> simp only [writeField, Fld.written, hacc, getFi_setFi_self]
  case rw1c => exact Nat.mod_eq_of_lt (by omega)
  all_goals exact Nat.mod_eq_of_lt (f.of_lt v)

/-- A write to a field is the block as it was or a field set. -/
theorem writeField_eq (i v : Nat) (b : Block) (f : Fld) : writeField i v b f = b ∨ ∃ x, writeField i v b f = b.setFi f i x := by
  unfold writeField
  cases f.acc with
  | ro => exact .inl rfl
  | rw | rwl | wo | rw1c => exact .inr ⟨_, rfl⟩

theorem getFi_writeField_ne (b : Block) {f g : Fld} (i v : Nat) (h : g.key ≠ f.key) :
    (writeField i v b f).getFi g i = b.getFi g i := by
  obtain hb | ⟨x, hb⟩ := writeField_eq i v b f
  · rw [hb]
  · rw [hb, getFi_setFi_ne _ _ _ _ _ _ (by simp [h])]

/-- Writes to other fields leave a field as it was. -/
theorem getFi_foldl_writeField_ne {fs : List Fld} (b : Block) {g : Fld} (i v : Nat) (h : g.key ∉ fs.map (·.key)) :
    (fs.foldl (writeField i v) b).getFi g i = b.getFi g i := by
  induction fs generalizing b with
  | nil => rfl
  | cons f fs ih =>
    simp only [List.map_cons, List.mem_cons, not_or] at h
    rw [List.foldl_cons, ih _ h.2, getFi_writeField_ne b i v h.1]

/-- Writes to fields of different keys give each field what its access code says. -/
theorem getFi_foldl_writeField {fs : List Fld} (b : Block) {f : Fld} {i : Nat} (v : Nat) (hnd : (fs.map (·.key)).Nodup)
    (hf : f ∈ fs) (hfit : b.getFi f i < 2 ^ f.width) :
    (fs.foldl (writeField i v) b).getFi f i = f.written (b.getFi f i) v := by
  induction fs generalizing b with
  | nil => simp at hf
  | cons g fs ih =>
    obtain ⟨hg, hnd⟩ := List.nodup_cons.1 hnd
    rw [List.foldl_cons]
    rcases List.mem_cons.1 hf with rfl | hf
    · rw [getFi_foldl_writeField_ne _ i v hg, getFi_writeField_self v hfit]
    · have hkey : f.key ≠ g.key := fun he => hg (List.mem_map.2 ⟨f, hf, he⟩)
      have hkeep := getFi_writeField_ne b i v hkey
      rw [ih _ hnd hf (by rwa [hkeep]), hkeep]

/-- A field of a register of the map, after a write to the register. -/
theorem getFi_writeFields {r : Reg} (hr : r ∈ allRegs) (b : Block) {f : Fld} {i : Nat} (v : Nat) (hf : f ∈ r.fields)
    (hfit : b.getFi f i < 2 ^ f.width) : (writeFields r i v b).getFi f i = f.written (b.getFi f i) v :=
  getFi_foldl_writeField b v (fieldKeys_nodup r hr) hf hfit

/-- A write to a field changes nothing but the store of fields. -/
theorem writeField_frame (i v : Nat) (b : Block) (f : Fld) : ∃ t, writeField i v b f = { b with flds := t } := by
  obtain hb | ⟨x, hb⟩ := writeField_eq i v b f
  · exact ⟨b.flds, hb⟩
  · exact ⟨(b.setFi f i x).flds, hb⟩

theorem foldl_writeField_frame (fs : List Fld) (i v : Nat) (b : Block) :
    ∃ t, fs.foldl (writeField i v) b = { b with flds := t } := by
  induction fs generalizing b with
  | nil => exact ⟨b.flds, rfl⟩
  | cons f fs ih =>
    obtain ⟨t, ht⟩ := ih (writeField i v b f)
    obtain ⟨u, hu⟩ := writeField_frame i v b f
    exact ⟨t, by rw [List.foldl_cons, ht, hu]⟩

theorem writeFields_frame (r : Reg) (i v : Nat) (b : Block) : ∃ t, writeFields r i v b = { b with flds := t } :=
  foldl_writeField_frame r.fields i v b

/-! ### Accesses from management space, an aperture and the bus (R445, R367) -/

theorem writeReg_mgmt_unmapped {a : Nat} (v : Nat) (b : Block) (h : regAt a = none) : writeReg .mgmt a v b = b := by
  simp only [writeReg, Caller.tenant?, h]

/-- Management writes a register that has no effect of its own by its access codes. -/
theorem writeReg_mgmt_plain {a n i : Nat} {r : Reg} {b : Block} (v : Nat) (h : regAt a = some (r, n))
    (hi : instOf .mgmt b r n = some i) (hplain : ruleFor r writeRules = none) :
    writeReg .mgmt a v b = writeFields r i v b := by
  simp only [writeReg, Caller.tenant?, h, writeAt, hi, hplain]

/-- A write to an offset that an aperture does not show is a violation (R367). -/
theorem writeReg_aperture_hidden {t : BitVec 12} {a : Nat} (v : Nat) {b : Block} (hon : apertureOn b a = true)
    (h : apertureReg t.toNat a = none) : writeReg (.aperture t) a v b = violation 9 t.toNat a v b := by
  simp only [writeReg, Caller.tenant?, hon, h, Bool.true_eq_false, if_false]

/-- A read has no effect of its own, save of the claim register and of the rails' readings. -/
theorem readReg_mgmt_plain {a n i : Nat} {r : Reg} {b : Block} (h : regAt a = some (r, n))
    (hi : instOf .mgmt b r n = some i) (hclaim : r.addr ≠ R.INT_TGT_CLAIM.addr) (hrail : r.addr ≠ R.MOD_RAIL.addr) :
    readReg .mgmt a b = (BitVec.ofNat 64 (wordOf .mgmt b r i), b) := by
  simp only [readReg, Caller.tenant?, h, readAt, hi, hclaim, hrail, if_false]

/-- A booted module is out of the internal reset, and its RTP is ready. -/
theorem up_iff (b : Block) : b.up = true ↔ b.mod.released = true ∧ b.rtp.ready = true := by
  simp only [Block.up, Bool.and_eq_true]

theorem busStatusOf_mapped {a n : Nat} {r : Reg} {b : Block} (hup : b.up = true) (ha : a % 8 = 0)
    (h : regAt a = some (r, n)) : busStatusOf b a = 0 := by
  simp [busStatusOf, ((up_iff b).1 hup).2, ha, h]

theorem busStatusOf_bad {a : Nat} {b : Block} (hup : b.up = true) (h : a % 8 ≠ 0 ∨ regAt a = none) :
    busStatusOf b a = 2 := by
  simp [busStatusOf, ((up_iff b).1 hup).2, h]

/-- A bus operation of a booted module at a mapped, aligned address is the access from management space. -/
theorem busWriteOp_mapped {a n : Nat} {r : Reg} {b : Block} (v : Nat) (hup : b.up = true) (ha : a % 8 = 0)
    (h : regAt a = some (r, n)) : busWriteOp a v b = rest (busAnswer 0 (writeReg .mgmt a v b)) := by
  simp only [busWriteOp, ((up_iff b).1 hup).1, Bool.true_eq_false, if_false, busStatusOf_mapped hup ha h]

theorem busReadOp_mapped {a n : Nat} {r : Reg} {b : Block} (hup : b.up = true) (ha : a % 8 = 0)
    (h : regAt a = some (r, n)) :
    busReadOp a b = busAnswer 0 { (readReg .mgmt a b).2 with rdata := (readReg .mgmt a b).1 } := by
  simp only [busReadOp, ((up_iff b).1 hup).1, Bool.true_eq_false, if_false, busStatusOf_mapped hup ha h]

theorem busReadOp_bad {a : Nat} {b : Block} (hup : b.up = true) (h : a % 8 ≠ 0 ∨ regAt a = none) :
    busReadOp a b = busAnswer 2 b := by
  simp only [busReadOp, ((up_iff b).1 hup).1, Bool.true_eq_false, if_false, busStatusOf_bad hup h]

/-- REG_WRITE of a booted module is the write, then rest. -/
theorem exec_regWrite_up {s : State} (who : Caller) (a : BitVec 32) (v : BitVec 64) (hup : s.toBlock.up = true) :
    exec (.regWrite who a v) s = .next (s.put (rest (writeReg who a.toNat v.toNat s.toBlock))) := by
  rw [exec_regWrite, actR_up _ UnitRef.none_wf hup]

theorem exec_busRead_eq (s : State) (a : BitVec 32) :
    exec (.busRead a) s = .next (s.put (busReadOp a.toNat s.toBlock)) := by
  rw [exec_busRead, actB_wf _ UnitRef.none_wf]

theorem exec_busWrite_eq (s : State) (a : BitVec 32) (v : BitVec 64) :
    exec (.busWrite a v) s = .next (s.put (busWriteOp a.toNat v.toNat s.toBlock)) := by
  rw [exec_busWrite, actB_wf _ UnitRef.none_wf]

/-- Settles O34: a plain register is written field by field, each field once since no two of a register share a key. -/
theorem registerWritesFollowAccessCodes : Obligations.RegisterWritesFollowAccessCodes := by
  unfold Obligations.RegisterWritesFollowAccessCodes
  refine ⟨fun s a v r n i hup hr hi hplain hfit => ?_, fun s a v hup hr => ?_, fun s t a v hup hon hr => ?_,
    fun s a r n i hup ha hr hi hclaim hrail => ?_, fun s a hup hbad => ?_⟩
  · have hw := writeReg_mgmt_plain v.toNat hr hi hplain
    obtain ⟨t, hframe⟩ := writeFields_frame r i v.toNat s.toBlock
    refine ⟨writeFields r i v.toNat s.toBlock, ?_, fun ha => ?_, fun f hf => ?_, by rw [hframe], by rw [hframe], by rw [hframe]⟩
    · rw [exec_regWrite_up _ _ _ hup, hw]
    · rw [exec_busWrite_eq, busWriteOp_mapped _ hup ha hr, hw]
    · rw [getFi_writeFields (regAt_mem hr) _ _ hf (hfit f hf)]
      cases hacc : f.acc <;> simp only [Fld.written, Fld.of, hacc]
  · rw [exec_regWrite_up _ _ _ hup, writeReg_mgmt_unmapped _ _ hr]
  · rw [exec_regWrite_up _ _ _ hup, writeReg_aperture_hidden _ hon hr]
  · rw [exec_busRead_eq, busReadOp_mapped hup ha hr, readReg_mgmt_plain hr hi hclaim hrail]
  · rw [exec_busRead_eq, busReadOp_bad hup hbad]

end Sys2Proof.Machine

/-! PROOFS of the family 01_architecture: the host time line (O29), the rings (O27), self-test and repair (O43). -/

namespace Sys2Proof.Machine

/-! ### What an interrupt source leaves unchanged (R400, R407) -/

/-- `b'` is `b` after work of the interrupt controller alone: of the fields only `msg_prio` differs, and beyond them only
companion memory, which takes the messages, and the controller's own state. -/
structure SignalsOnly (b b' : Block) : Prop where
  frame : b' = { b with flds := b'.flds, cmem := b'.cmem, intr := b'.intr }
  fields : ∀ (g : Fld) (j : Nat), g.key ≠ F.INT_TGT_STAT_msg_prio.key → b'.getFi g j = b.getFi g j

namespace SignalsOnly

theorem refl (b : Block) : SignalsOnly b b := ⟨rfl, fun _ _ _ => rfl⟩

theorem trans {a b c : Block} (h : SignalsOnly a b) (h' : SignalsOnly b c) : SignalsOnly a c where
  frame := by rw [h'.frame, h.frame]
  fields g j hg := (h'.fields g j hg).trans (h.fields g j hg)

variable {b b' : Block} (h : SignalsOnly b b')
include h

theorem ses : b'.ses = b.ses := by rw [h.frame]
theorem fe : b'.fe = b.fe := by rw [h.frame]
theorem spk : b'.spk = b.spk := by rw [h.frame]
theorem brp : b'.brp = b.brp := by rw [h.frame]

end SignalsOnly

/-- A controller whose own state is set. -/
theorem signalsOnly_intr (x : IntrState) (b : Block) : SignalsOnly b { b with intr := x } := ⟨rfl, fun _ _ _ => rfl⟩

theorem signalTarget_signalsOnly (t : Nat) (b : Block) : SignalsOnly b (signalTarget t b) := by
  unfold signalTarget
  split
  · exact .refl b
  · split
    · exact ⟨rfl, fun g j hg => getFi_setFi_ne _ _ _ _ _ _ (by simp [hg])⟩
    · exact .refl b

theorem foldl_signalTarget_signalsOnly (ts : List Nat) (b : Block) :
    SignalsOnly b (ts.foldl (fun b t => signalTarget t b) b) := by
  induction ts generalizing b with
  | nil => exact .refl b
  | cons t ts ih => exact (signalTarget_signalsOnly t b).trans (ih _)

/-- The condition of a level source that rises or ends is work of the controller alone. -/
theorem setLevel_signalsOnly (n : Nat) (on : Bool) (b : Block) : SignalsOnly b (setLevel n on b) := by
  unfold setLevel
  split
  · exact .refl b
  · show SignalsOnly b (if b.getF F.PMC_STAT_pstate = pstateStandby then _ else signalTargets _)
    split
    · exact signalsOnly_intr _ b
    · exact (signalsOnly_intr _ b).trans (foldl_signalTarget_signalsOnly _ _)

@[simp] theorem setLevel_ses (n : Nat) (on : Bool) (b : Block) : (setLevel n on b).ses = b.ses := (setLevel_signalsOnly n on b).ses
@[simp] theorem setLevel_fe (n : Nat) (on : Bool) (b : Block) : (setLevel n on b).fe = b.fe := (setLevel_signalsOnly n on b).fe
@[simp] theorem setLevel_spk (n : Nat) (on : Bool) (b : Block) : (setLevel n on b).spk = b.spk := (setLevel_signalsOnly n on b).spk
@[simp] theorem setLevel_brp (n : Nat) (on : Bool) (b : Block) : (setLevel n on b).brp = b.brp := (setLevel_signalsOnly n on b).brp

theorem getFi_setLevel (n : Nat) (on : Bool) (b : Block) {g : Fld} (j : Nat) (hg : g.key ≠ F.INT_TGT_STAT_msg_prio.key) :
    (setLevel n on b).getFi g j = b.getFi g j :=
  (setLevel_signalsOnly n on b).fields g j hg

theorem getF_setLevel (n : Nat) (on : Bool) (b : Block) {g : Fld} (hg : g.key ≠ F.INT_TGT_STAT_msg_prio.key) :
    (setLevel n on b).getF g = b.getF g :=
  getFi_setLevel n on b 0 hg

/-! ### The host time line (R15 to R17) -/

theorem leVal_lt (bs : Bytes) : leVal bs < 2 ^ (8 * bs.length) := by
  induction bs with
  | nil => simp [leVal]
  | cons v vs ih =>
    have hv := v.isLt
    have hpow : 2 ^ (8 * (vs.length + 1)) = 256 * 2 ^ (8 * vs.length) := by rw [Nat.mul_add, Nat.pow_add]; omega
    simp only [leVal, List.length_cons]
    omega

@[simp] theorem cellRead_length (m : List Host.Cell) (a n : Nat) : (cellRead m a n).length = n := by
  induction n generalizing a with
  | zero => rfl
  | succ n ih => simp [cellRead, ih]

/-- A value read from companion memory fits its bytes. -/
theorem peekLe_lt (b : Block) (a n : Nat) : b.peekLe a n < 2 ^ (8 * n) := by
  have h := leVal_lt (b.peek a n)
  rwa [Block.peek, cellRead_length] at h

/-- The module works as another does that has its power state and is fenced as it is. -/
theorem working_congr {b b' : Block} (hp : b'.getF F.PMC_STAT_pstate = b.getF F.PMC_STAT_pstate)
    (hi : b'.getF F.CMP_ID_isolated = b.getF F.CMP_ID_isolated) : working b' = working b := by
  simp only [working, Block.isSet, hp, hi]

/-- The module once a value of the time line has become host time, its deadlines not yet swept. -/
def timeTaken (v : Nat) (b : Block) : Block :=
  let b := (b.setF F.MOD_TIMELINE_LAST_last_ns v).setF F.MOD_TIMELINE_STAT_stale 0
  setLevel Src.timeStale false { b with fe := { b.fe with tlAccepted := true } }

/-- Of the fields outside the controller, taking host time sets the two of the time line. -/
theorem getF_timeTaken_eq (v : Nat) (b : Block) {g : Fld} (hg : g.key ≠ F.INT_TGT_STAT_msg_prio.key) :
    (timeTaken v b).getF g = ((b.setF F.MOD_TIMELINE_LAST_last_ns v).setF F.MOD_TIMELINE_STAT_stale 0).getF g :=
  getF_setLevel _ _ _ hg

theorem getF_timeTaken (v : Nat) (b : Block) {g : Fld} (hg : g.key ≠ F.INT_TGT_STAT_msg_prio.key)
    (hl : g.key ≠ F.MOD_TIMELINE_LAST_last_ns.key) (hs : g.key ≠ F.MOD_TIMELINE_STAT_stale.key) :
    (timeTaken v b).getF g = b.getF g := by
  rw [getF_timeTaken_eq v b hg, getF_setF_ne _ _ _ _ hs, getF_setF_ne _ _ _ _ hl]

@[simp] theorem timeTaken_fe (v : Nat) (b : Block) : (timeTaken v b).fe = { b.fe with tlAccepted := true } := setLevel_fe _ _ _

@[simp] theorem timeTaken_ses (v : Nat) (b : Block) : (timeTaken v b).ses = b.ses := setLevel_ses _ _ _

theorem timeTaken_now {v : Nat} (b : Block) (hv : v < 2 ^ 64) : (timeTaken v b).now = v := by
  rw [Block.now, getF_timeTaken_eq v b (by decide), getF_setF_ne _ _ _ _ (by decide), getF_setF_self]
  exact Nat.mod_eq_of_lt hv

theorem timeTaken_stale (v : Nat) (b : Block) : (timeTaken v b).stale = false := by
  rw [Block.stale, Block.isSet, getF_timeTaken_eq v b (by decide), getF_setF_self]
  rfl

theorem working_timeTaken (v : Nat) (b : Block) : working (timeTaken v b) = working b :=
  working_congr (getF_timeTaken v b (by decide) (by decide) (by decide)) (getF_timeTaken v b (by decide) (by decide) (by decide))

theorem acceptTime_newer {v : Nat} {b : Block} (h : b.now < v) :
    acceptTime v b = if working b then deadlineSweep (timeTaken v b) else timeTaken v b := by
  rw [← working_timeTaken v b]
  exact if_pos h

theorem acceptTime_same {v : Nat} {b : Block} (h : v = b.now) : acceptTime v b = b := by
  rw [acceptTime, if_neg (by omega), if_pos h]

theorem acceptTime_older {v : Nat} {b : Block} (h : v < b.now) (hseen : v ≠ 0 ∨ b.fe.tlAccepted = true) :
    acceptTime v b = (b.setF F.MOD_TIMELINE_STAT_regress_seen 1).bump F.MOD_TIMELINE_STAT_regress_count := by
  have hwritten : ¬(v = 0 ∧ b.fe.tlAccepted = false) := by
    rintro ⟨h0, hf⟩
    rcases hseen with hv | ht
    · exact hv h0
    · rw [ht] at hf; cases hf
  rw [acceptTime, if_neg (by omega), if_neg (by omega), if_neg hwritten]

theorem readTimeLine_watched {b : Block} (hon : b.isSet F.MOD_TIMELINE_ADDR_enable = true)
    (hp : b.getF F.PMC_STAT_pstate ≠ pstateStandby) :
    readTimeLine b = acceptTime (b.peekLe (64 * b.getF F.MOD_TIMELINE_ADDR_line_addr) 8) (watchLine timeLine true b) :=
  if_pos ⟨hon, hp⟩

theorem exec_timeLineUpdate_up {s : State} (hup : s.toBlock.up = true) (hon : s.toBlock.isSet F.MOD_TIMELINE_ADDR_enable = true)
    (hp : s.toBlock.getF F.PMC_STAT_pstate ≠ pstateStandby) :
    exec .timeLineUpdate s = .next (s.put (rest (acceptTime
      (s.toBlock.peekLe (64 * s.toBlock.getF F.MOD_TIMELINE_ADDR_line_addr) 8) (watchLine timeLine true s.toBlock)))) := by
  rw [exec_timeLineUpdate, actR_up _ UnitRef.none_wf hup, readTimeLine_watched hon hp]

theorem lineStale_fresh {b : Block} (hon : b.isSet F.MOD_TIMELINE_ADDR_enable = true) (hs : b.stale = false) :
    lineStale b =
      setLevel Src.timeStale true ((b.setF F.MOD_TIMELINE_STAT_stale 1).setF F.MOD_TIMELINE_STAT_stale_seen 1) :=
  if_pos ⟨hon, hs⟩

theorem timelineWrite_enables {v : Nat} {b : Block} (hoff : b.isSet F.MOD_TIMELINE_ADDR_enable = false)
    (hv : v.testBit 63 = true) :
    timelineWrite v b = watchLine timeLine true
      { ((b.setF F.MOD_TIMELINE_ADDR_line_addr (bitsOf v 6 46)).setF F.MOD_TIMELINE_ADDR_enable 1) with
        fe := { b.fe with tlAccepted := false } } := by
  simp only [timelineWrite, hoff, hv, if_true, Bool.false_eq_true, if_false, setF_fe]

theorem timelineWrite_disables {v : Nat} {b : Block} (hon : b.isSet F.MOD_TIMELINE_ADDR_enable = true)
    (hv : v.testBit 63 = false) :
    timelineWrite v b =
      watchLine timeLine false ((b.setF F.MOD_TIMELINE_ADDR_enable 0).setF F.MOD_TIMELINE_STAT_stale 1) := by
  simp only [timelineWrite, hon, hv, if_true, Bool.false_eq_true, if_false]

/-- A write of MOD_TIMELINE_ADDR from management space, as either command gives it. -/
theorem exec_timelineEnable_mgmt {s : State} (v : BitVec 64) (hup : s.toBlock.up = true) :
    exec (.timelineEnable .mgmt v) s = .next (s.put (timelineWrite v.toNat s.toBlock)) := by
  rw [exec_timelineEnable, act_up _ UnitRef.none_wf hup]; rfl

theorem exec_timelineDisable_mgmt {s : State} (v : BitVec 64) (hup : s.toBlock.up = true) :
    exec (.timelineDisable .mgmt v) s = .next (s.put (timelineWrite v.toNat s.toBlock)) :=
  exec_timelineEnable_mgmt v hup

/-- A meaning that does nothing leaves the state as it is, booted or not. -/
theorem act_id (s : State) : act .none (fun b => b) s = .next s := by
  cases hup : s.toBlock.up with
  | false => exact act_down _ UnitRef.none_wf hup
  | true => rw [act_up _ UnitRef.none_wf hup, State.put_self]

/-- Settles O29: the value read is above, equal to or below host time, and each of the three has one outcome. -/
theorem timeLineGivesTime : Obligations.TimeLineGivesTime := by
  unfold Obligations.TimeLineGivesTime
  refine ⟨fun s => ?_, fun s hup hon hs => ?_, fun s v hup hoff hv => ?_, fun s v hup hon hv => ?_, fun s t v => ⟨?_, ?_⟩⟩
  · intro b v seen hup hon hp
    have hexec := exec_timeLineUpdate_up hup hon hp
    refine ⟨fun hnew => ⟨timeTaken v seen, ?_, timeTaken_now seen (peekLe_lt _ _ _), timeTaken_stale v seen, ?_, ?_, ?_⟩,
      fun hsame => ?_, fun hold hseen => ?_⟩
    · rw [hexec, acceptTime_newer (b := seen) hnew]; rfl
    · simp
    · simp [seen, b, watchLine]
    · simp [seen, b, watchLine]
    · rw [hexec, acceptTime_same (b := seen) hsame]
    · rw [hexec, acceptTime_older (b := seen) hold hseen]
  · rw [exec_timelineStaleCount, act_up _ UnitRef.none_wf hup, lineStale_fresh hon hs]
  · rw [exec_timelineEnable_mgmt v hup, timelineWrite_enables hoff hv]
  · rw [exec_timelineDisable_mgmt v hup, timelineWrite_disables hon hv]
  · rw [exec_timelineEnable]; exact act_id s
  · rw [exec_timelineDisable]; exact act_id s

/-! ### The tail line (R19, R49) -/

/-- A ring read after a ring was changed. -/
theorem ringOf_updRing (n m : Nat) (f : Ring → Ring) (b : Block) :
    ringOf (updRing n f b) m = if m = n then (ringOf b n).map f else ringOf b m :=
  tget_tupd _ _ _ _

theorem ringOf_updRing_self {n : Nat} {r : Ring} {b : Block} (f : Ring → Ring) (h : ringOf b n = some r) :
    ringOf (updRing n f b) n = some (f r) := by
  rw [ringOf_updRing, if_pos rfl, h]; rfl

@[simp] theorem ringOf_setReq (k : Nat) (q : Req) (b : Block) (n : Nat) : ringOf (setReq k q b) n = ringOf b n := rfl

@[simp] theorem ringOf_pokeBytes (a : Nat) (bs : Bytes) (b : Block) (n : Nat) : ringOf (b.pokeBytes a bs) n = ringOf b n := rfl

/-- The tail line of a running ring is watched again; its value `t` is judged against the tail known and the ring's slots. -/
theorem readTail_running {n t : Nat} {r : Ring} {b : Block} (hr : ringOf b n = some r)
    (hrun : b.getFi F.CFE_RING_STAT_state n = rsRunning) (hp : b.getF F.PMC_STAT_pstate ≠ pstateStandby)
    (ht : b.peekLe (r.cb + 64) 8 = t) :
    readTail n b = if t < r.tail then (watchLine n true b).bump F.CFE_STAT_stray_count
      else if 2 ^ r.cmdLog2 < t - r.head then closeOpen n (ringError n 3 (watchLine n true b))
      else updRing n (fun r => { r with tail := t }) (watchLine n true b) := by
  have hgo : ¬(b.getFi F.CFE_RING_STAT_state n ≠ rsRunning ∨ b.getF F.PMC_STAT_pstate = pstateStandby) := by simp [hrun, hp]
  subst ht
  rw [readTail, hr]
  exact if_neg hgo

theorem exec_tailLineInvalidate_up {s : State} (ring : BitVec 16) (hup : s.toBlock.up = true) :
    exec (.tailLineInvalidate ring) s = .next (s.put (rest (readTail ring.toNat s.toBlock))) := by
  rw [exec_tailLineInvalidate, actR_up _ UnitRef.none_wf hup]

/-! ### A turn of a ring (R50, R52, R65 to R68) -/

theorem exec_ringService_up {s : State} (ring : BitVec 16) (hup : s.toBlock.up = true) :
    exec (.ringService ring) s = .next (s.put (rest (serveRing ring.toNat s.toBlock))) := by
  rw [exec_ringService, actR_up _ UnitRef.none_wf hup]

/-- A module that works is in RUN and not fenced. -/
theorem working_iff (b : Block) :
    working b = true ↔ b.getF F.PMC_STAT_pstate = 0 ∧ b.isSet F.CMP_ID_isolated = false := by
  simp [working]

theorem serveRing_of_not_turn {n : Nat} {b : Block} (h : nextTurn b ≠ some n) : serveRing n b = b := by
  unfold serveRing
  cases ringOf b n with
  | none => rfl
  | some r => exact if_pos (.inr h)

/-- Showing `head` writes companion memory alone. -/
@[simp] theorem writeHead_fe (r : Ring) (b : Block) : (writeHead r b).fe = b.fe := pokeLe_fe _ _ _ _
@[simp] theorem writeHead_ses (r : Ring) (b : Block) : (writeHead r b).ses = b.ses := pokeLe_ses _ _ _ _
theorem req_writeHead (r : Ring) (b : Block) (rid : Nat) : req (writeHead r b) rid = req b rid := by rw [req, writeHead_fe, req]
theorem ringOf_writeHead (r : Ring) (b : Block) (n : Nat) : ringOf (writeHead r b) n = ringOf b n := by
  rw [ringOf, writeHead_fe, ringOf]

/-- A ring with no entry before its tail gives none. -/
theorem serveEntries_empty {n : Nat} {r : Ring} {b : Block} (k : Nat) (hr : ringOf b n = some r) (h : r.tail ≤ r.head) :
    serveEntries n k b = b := by
  cases k with
  | zero => rfl
  | succ k =>
    rw [serveEntries, hr]
    exact if_pos (.inr h)

theorem admitEntry_charged {r : Ring} (n : Nat) (e : Entry) (b : Block) (h : r.admitted = 2) : admitEntry n r e b = .go b := by
  simp only [admitEntry, h, decide_true, Bool.or_true, if_true]

/-- The module with the entry at a ring's `head` fetched: `head` is past it, and the decode order counts it. -/
def pastHead (n : Nat) (b : Block) : Block :=
  let b := updRing n (fun r => { r with head := r.head + 1, admitted := 0 }) b
  { b with fe := { b.fe with order := b.fe.order + 1 } }

theorem ringOf_pastHead {n : Nat} {r : Ring} {b : Block} (hr : ringOf b n = some r) :
    ringOf (pastHead n b) n = some { r with head := r.head + 1, admitted := 0 } :=
  ringOf_updRing_self (b := b) _ hr

/-- The next entry of a ring, charged already at its shaper, is taken in. -/
theorem serveEntries_charged {n : Nat} {r : Ring} {b : Block} (k : Nat) (hr : ringOf b n = some r)
    (hmay : mayFetch b n r = true) (hlt : r.head < r.tail) (hadm : r.admitted = 2) :
    serveEntries n (k + 1) b = serveEntries n k (takeEntry n r.head (entryAt b r r.head) (pastHead n b)) := by
  have hgo : ¬(mayFetch b n r = false ∨ r.tail ≤ r.head) := by simp [hmay, hlt]
  simp only [serveEntries, hr, if_neg hgo, admitEntry_charged n _ b hadm]
  rfl

theorem closeBefore_idle {n : Nat} {r : Ring} {b : Block} (e : Entry) (hr : ringOf b n = some r) (hi : r.intake = .none) :
    closeBefore n e b = b := by
  simp only [closeBefore, hr, Option.map_some, hi]

/-- The head instruction of a ring that takes in no request makes a new one. -/
theorem takeEntry_head {n : Nat} {r : Ring} {b : Block} {e : Entry} (slot : Nat) (hr : ringOf b n = some r)
    (hi : r.intake = .none) (hop : e.opcode ≠ Op.accept) (hhead : e.isHead = true) :
    takeEntry n slot e b = newHead n slot e false b := by
  rw [takeEntry, if_neg hop, if_pos hhead, closeBefore_idle e hr hi]

/-- A head with a good ID above `hwm`, in an entry that no restored copy holds, is accepted. -/
theorem newHead_above_hwm {n slot : Nat} {r : Ring} {b : Block} {e : Entry} {h : Header} (hr : ringOf b n = some r)
    (hh : readHeader b r.tenant e = some h) (hid : badId h.id = false) (hslot : r.copied ≤ slot)
    (hiso : b.isSet F.CMP_ID_isolated = false) (hnew : r.hwm < h.id) :
    newHead n slot e false b = acceptHead n e h false b := by
  simp only [newHead, hr, hh, hid, Nat.not_lt.2 hslot, hiso, hnew, Bool.false_eq_true, false_and, if_false, if_true]

/-- The module once it has accepted a head instruction within the limits of R68 on a ring of chain ISA 3.1. -/
def headAccepted (n : Nat) (r : Ring) (e : Entry) (h : Header) (b : Block) : Block :=
  let q := newReq n .normal e h r.acceptSeq b.now
  setReq e.order q ((updRing n (fun r => { r with
    hwm := h.id, acceptSeq := r.acceptSeq + 1, intake := .join e.order (decide (e.opcode = Op.complete)) }) b).pokeBytes
      (replayAddr r r.acceptSeq) (padTo 192 (completionRecord q false true false 0)))

theorem headAccepted_flds (n : Nat) (r : Ring) (e : Entry) (h : Header) (b : Block) :
    (headAccepted n r e h b).flds = b.flds := by
  simp only [headAccepted, setReq_flds, pokeBytes_flds, updRing_flds]

theorem headAccepted_ses (n : Nat) (r : Ring) (e : Entry) (h : Header) (b : Block) :
    (headAccepted n r e h b).ses = b.ses := by
  simp only [headAccepted, setReq_ses, pokeBytes_ses, updRing_ses]

/-- Neither the turn nor the decode order moves. -/
theorem headAccepted_turn (n : Nat) (r : Ring) (e : Entry) (h : Header) (b : Block) :
    (headAccepted n r e h b).fe.turn = b.fe.turn ∧ (headAccepted n r e h b).fe.order = b.fe.order := by
  simp only [headAccepted, setReq, updRing, pokeBytes_fe, and_self]

/-- The request stands under the place of its head in the decode order. -/
@[simp] theorem req_headAccepted (n : Nat) (r : Ring) (e : Entry) (h : Header) (b : Block) :
    req (headAccepted n r e h b) e.order = some (newReq n .normal e h r.acceptSeq b.now) :=
  tget_tset_self _ _ _

theorem acceptHead_room {n : Nat} {r : Ring} {b : Block} (e : Entry) (h : Header) (hr : ringOf b n = some r)
    (hisa : r.isa = 0x31) (hroom : poolFull b r.tenant = false) :
    acceptHead n e h false b = headAccepted n r e h b := by
  have hlow : decide (r.isa < 0x31) = false := by simp [hisa]
  simp only [acceptHead, hr, hroom, hlow, Bool.and_false, Bool.false_and, Bool.or_self, Bool.false_eq_true, if_false]
  rfl

/-- R68 judges by the limits, the requests and their tenants. -/
theorem poolFull_congr {b b' : Block} (t : Nat) (hf : b'.flds = b.flds) (hq : b'.fe.reqs = b.fe.reqs)
    (ht : ∀ q, reqTenant b' q = reqTenant b q) : poolFull b' t = poolFull b t := by
  have hlimit (f : Fld) (i : Nat) : b'.getFi f i = b.getFi f i := by simp only [Block.getFi, hf]
  have htenant : tenantInflight b' t = tenantInflight b t := by simp only [tenantInflight, hq, ht]
  have hmodule : poolInflight b' = poolInflight b := by simp only [poolInflight, hq]
  simp only [poolFull, hlimit, htenant, hmodule]

theorem reqTenant_pastHead (n : Nat) (b : Block) (q : Req) : reqTenant (pastHead n b) q = reqTenant b q := by
  have hr : (ringOf (pastHead n b) q.ring).map (·.tenant) = (ringOf b q.ring).map (·.tenant) := by
    refine (congrArg _ (ringOf_updRing n q.ring _ b)).trans ?_
    split
    · next hn => subst hn; simp [Function.comp_def]
    · rfl
  simp only [reqTenant, hr]
  rfl

/-- The head instruction `e` of a new request, with header `h`, is the last entry of ring `n`, charged at its shaper; its ID
is above `hwm`, and R68 leaves room. -/
structure HeadDue (b : Block) (n : Nat) (r : Ring) (e : Entry) (h : Header) : Prop where
  ring : ringOf b n = some r
  fetch : mayFetch b n r = true
  last : r.tail = r.head + 1
  charged : r.admitted = 2
  idle : r.intake = .none
  uncopied : r.copied ≤ r.head
  entry : entryAt b r r.head = e
  notAccept : e.opcode ≠ Op.accept
  head : e.isHead = true
  header : readHeader b r.tenant e = some h
  goodId : badId h.id = false
  above : r.hwm < h.id
  unfenced : b.isSet F.CMP_ID_isolated = false
  room : poolFull b r.tenant = false
  isa : r.isa = 0x31

/-- A ring whose last entry was the head of a new request. -/
def ringServed (r : Ring) (e : Entry) (h : Header) : Ring :=
  { r with
    head := r.head + 1, admitted := 0, hwm := h.id, acceptSeq := r.acceptSeq + 1
    intake := .join e.order (decide (e.opcode = Op.complete)) }

section HeadDue

variable {b : Block} {n : Nat} {r : Ring} {e : Entry} {h : Header} (hd : HeadDue b n r e h)
include hd

theorem ringOf_headAccepted : ringOf (headAccepted n r e h (pastHead n b)) n = some (ringServed r e h) := by
  rw [headAccepted, ringOf_setReq, ringOf_pokeBytes, ringOf_updRing_self _ (ringOf_pastHead hd.ring)]
  rfl

/-- The entry is taken in, and with it the ring is empty. -/
theorem serveEntries_head (k : Nat) : serveEntries n (k + 1) b = headAccepted n r e h (pastHead n b) := by
  have hpast := ringOf_pastHead hd.ring
  have hroom : poolFull (pastHead n b) r.tenant = false :=
    (poolFull_congr (b' := pastHead n b) (b := b) _ rfl rfl (reqTenant_pastHead n b)).trans hd.room
  have htake : takeEntry n r.head e (pastHead n b) = headAccepted n r e h (pastHead n b) := by
    rw [takeEntry_head _ hpast hd.idle hd.notAccept hd.head,
      newHead_above_hwm hpast hd.header hd.goodId hd.uncopied hd.unfenced hd.above,
      acceptHead_room e h hpast hd.isa hroom]
    rfl
  rw [serveEntries_charged k hd.ring hd.fetch (by rw [hd.last]; omega) hd.charged, hd.entry, htake]
  exact serveEntries_empty k (ringOf_headAccepted hd) hd.last.le

/-- The state that records whose turn it is does not matter to the entry. -/
theorem HeadDue.turn : HeadDue { b with fe := { b.fe with turn := n } } n r e h :=
  ⟨hd.ring, hd.fetch, hd.last, hd.charged, hd.idle, hd.uncopied, hd.entry, hd.notAccept, hd.head, hd.header, hd.goodId, hd.above,
    hd.unfenced, hd.room, hd.isa⟩

/-- The module after the turn of ring `n`, `head` not yet shown. -/
def turnTaken (n : Nat) (r : Ring) (e : Entry) (h : Header) (b : Block) : Block :=
  headAccepted n r e h (pastHead n { b with fe := { b.fe with turn := n } })

/-- What the turn leaves: the request, the ring, whose turn it was, the decode order, and the sessions as they were. -/
theorem turnTaken_spec :
    req (turnTaken n r e h b) e.order = some (newReq n .normal e h r.acceptSeq b.now) ∧
    ringOf (turnTaken n r e h b) n = some (ringServed r e h) ∧ (turnTaken n r e h b).fe.turn = n ∧
    (turnTaken n r e h b).fe.order = b.fe.order + 1 ∧ (turnTaken n r e h b).ses = b.ses := by
  obtain ⟨hturn, horder⟩ := headAccepted_turn n r e h (pastHead n { b with fe := { b.fe with turn := n } })
  exact ⟨req_headAccepted _ _ _ _ _, ringOf_headAccepted hd.turn, hturn, horder, headAccepted_ses _ _ _ _ _⟩

/-- A turn of the ring takes the head in and shows `head` past it. -/
theorem serveRing_head (hp : b.getF F.PMC_STAT_pstate = 0) (ht : nextTurn b = some n) (htd : tandemValid b = false) :
    serveRing n b = writeHead (ringServed r e h) (turnTaken n r e h b) := by
  have hgo : ¬(b.getF F.PMC_STAT_pstate ≠ 0 ∨ nextTurn b ≠ some n) := by simp [hp, ht]
  have hmoved : (ringServed r e h).head ≠ r.head := Nat.succ_ne_self _
  have hentries : serveEntries n 16 { b with fe := { b.fe with turn := n } } = turnTaken n r e h b := serveEntries_head hd.turn 15
  have hring : ringOf (turnTaken n r e h b) n = some (ringServed r e h) := ringOf_headAccepted hd.turn
  have htd' : tandemValid (turnTaken n r e h b) = false := by
    rw [tandemValid, Block.getF, Block.getFi, turnTaken, headAccepted_flds]
    exact htd
  simp only [serveRing, hd.ring, if_neg hgo, hentries, hring, if_neg hmoved, htd', Bool.false_eq_true, if_false]

end HeadDue

/-- Settles O27: a tail is one of three things against the one known and the slots past `head`; the turn of a ring that holds
one head takes that entry alone. -/
theorem ringsAreReadAndServed : Obligations.RingsAreReadAndServed := by
  unfold Obligations.RingsAreReadAndServed
  refine ⟨fun s ring r => ?_, fun s ring r h => ?_⟩
  · intro b n t hup hr hrun hp
    have hexec := exec_tailLineInvalidate_up ring hup
    rw [readTail_running hr hrun hp rfl] at hexec
    refine ⟨fun hlo hhi => ?_, fun hlt => ?_, fun hlo hhi => ?_⟩
    · rw [hexec, if_neg (Nat.not_lt.2 hlo), if_neg (Nat.not_lt.2 (Nat.sub_le_iff_le_add'.2 hhi))]
    · rw [hexec, if_pos hlt]
    · rw [hexec, if_neg (Nat.not_lt.2 hlo), if_pos (Nat.lt_sub_iff_add_lt'.2 hhi)]
  · intro b n e hw hr hmay
    have hexec := exec_ringService_up ring hw.1
    obtain ⟨hp, hiso⟩ := (working_iff b).1 hw.2
    refine ⟨fun hturn => ?_, ?_⟩
    · rw [hexec, serveRing_of_not_turn hturn]
    · intro hturn hlast hadm hidle hcop hheads htd hop hhead hh h0 h1 hwm hroom hisa hreq
      have hid : badId h.id = false := by simp only [badId, h0, h1, decide_false, Bool.or_self]
      have hd : HeadDue b n r e h := ⟨hr, hmay, hlast, hadm, hidle, hcop, rfl, hop, hhead, hh, hid, hwm, hiso, hroom, hisa⟩
      rw [serveRing_head hd hp hturn htd] at hexec
      obtain ⟨hreq', hring', hturn', horder', hses'⟩ := turnTaken_spec hd
      refine ⟨_, ringServed r e h, hexec, ?_⟩
      rw [req_writeHead, ringOf_writeHead, writeHead_fe, writeHead_ses]
      exact ⟨hreq', hring', rfl, rfl, rfl, rfl, hturn', horder', hses'⟩

/-! ### Rotation of self-tests (R10, R13, R393, R395) -/

/-- A test period has run out once host time is fresh and has moved on by the period, of 1 s or more (R13). -/
theorem periodOver_iff (b : Block) (key seconds : Nat) : periodOver b key seconds = true ↔
    b.stale = false ∧ tgetD b.brp.periods key 0 + max 1 seconds * 1000000000 ≤ b.now := by
  simp only [periodOver, Bool.and_eq_true, Bool.not_eq_true', decide_eq_true_eq]

theorem rotateSpoke_ready {w i : Nat} {b : Block} (hwheel : 64 < healthySpokes b w) (hspare : lowestSpare b w ≠ none)
    (hnone : wheelIn b w spTest + wheelIn b w spDraining = 0) (hold : oldestTested b w = some i) :
    rotateSpoke w b = if periodOver b (spokePeriod w) (min 0x13D (b.getF F.BRP_CFG_spoke_period_s)) = true then
      drainSpoke i (periodStarts (spokePeriod w) b) else b := by
  have hs : (lowestSpare b w).isNone = false := by simpa [Option.isSome_iff_ne_none] using hspare
  cases hover : periodOver b (spokePeriod w) (min 0x13D (b.getF F.BRP_CFG_spoke_period_s)) with
  | false => rw [rotateSpoke, if_pos (.inl hover)]; rfl
  | true =>
    rw [rotateSpoke, if_neg (by simp [hover, hs, hnone, hwheel]), hold]
    rfl

theorem rotateLane_ready {p l : Nat} {b : Block} (hup : b.getFi F.FLL_PORT_STAT_state p = psUp)
    (hd : (portOf b p).drained = none) (hs : (portOf b p).swapping = none) (hgood : (goodLanes b p).contains l = true)
    (hspare : l ≠ (portOf b p).spare) (hfree : spareFree b p = true) :
    rotateLane p l b = if periodOver b (lanePeriod p) (b.getF F.BRP_CFG_lane_period_s) = true then
      periodStarts (lanePeriod p) (setPort p { portOf b p with drained := some l, swapping := some l } b) else b := by
  have hin : l ∈ goodLanes b p := by simpa using hgood
  cases hover : periodOver b (lanePeriod p) (b.getF F.BRP_CFG_lane_period_s) <;>
    simp [rotateLane, hup, hd, hs, hin, hspare, hfree, hover]

theorem rotateHub_testable {n : Nat} {b : Block} (h : hubTestable b n = true) :
    rotateHub n b = if periodOver b hubPeriod (b.getF F.BRP_CFG_hub_period_s) = true then
      periodStarts hubPeriod { b with brp := { b.brp with hubTest := some n } } else b := by
  simp only [rotateHub, h, Bool.true_and]
  rfl

theorem rotateChannel_idle {c : Nat} {b : Block} (h : (b.brp.channels.any fun d => decide (d / 32 = c / 32)) = false) :
    rotateChannel c b = if periodOver b (channelPeriod c) (b.getF F.BRP_CFG_chan_period_s) = true then
      periodStarts (channelPeriod c) { b with brp := { b.brp with channels := b.brp.channels ++ [c] } } else b := by
  cases hover : periodOver b (channelPeriod c) (b.getF F.BRP_CFG_chan_period_s) <;>
    simp [rotateChannel, h, hover, updBrp]

theorem testNow_selected {b : Block} (h : b.getF F.SPK_SEL_spoke < numSpokes) :
    testNow b = drainSpoke (b.getF F.SPK_SEL_spoke) b :=
  if_pos h

/-! ### Results of self-tests (R394 to R397) -/

/-- A Spoke set back reads so. -/
theorem spoke_setSpoke_self (i : Nat) (k : Spoke) (b : Block) : spoke (setSpoke i k b) i = k := by
  unfold spoke setSpoke tgetD
  split
  · next hk => simp [hk]
  · simp

/-- A Spoke's state once it is set reads so; the controller's signals do not change it. -/
theorem spkState_setSpkState_self (i : Nat) {st : Nat} (b : Block) (h : st < 8) : spkState (setSpkState i st b) i = st := by
  rw [spkState, setSpkState, getFi_setLevel _ _ _ _ (by decide), getFi_setFi_self]
  exact Nat.mod_eq_of_lt h

@[simp] theorem setSpkState_ses (i st : Nat) (b : Block) : (setSpkState i st b).ses = b.ses := by simp [setSpkState]
@[simp] theorem setSpkState_spk (i st : Nat) (b : Block) : (setSpkState i st b).spk = b.spk := by simp [setSpkState]
@[simp] theorem setSpkState_brp (i st : Nat) (b : Block) : (setSpkState i st b).brp = b.brp := by simp [setSpkState]

theorem getFi_bump_ne (b : Block) {f g : Fld} (j : Nat) (h : g.key ≠ f.key) : (b.bump f).getFi g j = b.getFi g j :=
  getFi_setFi_ne _ _ _ _ _ _ (by simp [h])

/-- A test with no patch is counted, and that is all. -/
theorem countTest_unpatched {pass patched : Bool} (kind : Nat) (b : Block) (h : (pass && patched) = false) :
    countTest pass patched kind b = b.bump (if pass then F.BRP_CNT_bist_pass else F.BRP_CNT_bist_fail) := by
  cases pass <;> simp_all [countTest]

/-- The module once a Spoke's test is counted and dated, its state not yet set. -/
def spokeJudged (i : Nat) (pass patched : Bool) (b : Block) : Block :=
  let b := countTest pass patched 0 (setSpoke i Spoke.reset b)
  let b := updBrp (fun r => { r with tested := tset r.tested i b.now, overdue := r.overdue.filter (· ≠ i) }) b
  settleOverdue (b.setFi F.SPK_STATE_last_test_s i (b.now / 1000000000))

theorem spokeTested_failed {i : Nat} {b : Block} (patched : Bool) (h : spkState b i = spTest) :
    spokeTested i false patched b = autoCkpt 2 (setSpkState i spFailed (spokeJudged i false patched b)) := by
  rw [spokeTested, if_neg (not_not.2 h)]
  rfl

theorem spokeTested_passed {i : Nat} {b : Block} (h : spkState b i = spTest) :
    spokeTested i true false b = fillWheel (i / 68) (setSpkState i spSpare (spokeJudged i true false b)) := by
  rw [spokeTested, if_neg (not_not.2 h)]
  rfl

/-- A test with no patch leaves the Spoke as at reset, its date, and the sessions as they were. -/
theorem spokeJudged_spec {pass patched : Bool} (i : Nat) (b : Block) (h : (pass && patched) = false) :
    spoke (spokeJudged i pass patched b) i = Spoke.reset ∧
    tget (spokeJudged i pass patched b).brp.tested i = some b.now ∧ (spokeJudged i pass patched b).ses = b.ses := by
  have hnow : ((setSpoke i Spoke.reset b).bump (if pass then F.BRP_CNT_bist_pass else F.BRP_CNT_bist_fail)).now = b.now := by
    cases pass <;> exact getFi_bump_ne _ _ (by decide)
  refine ⟨?_, ?_, ?_⟩
  · rw [spoke, spokeJudged, settleOverdue, setLevel_spk, setFi_spk, updBrp_spk, countTest_unpatched 0 _ h, bump_spk]
    exact spoke_setSpoke_self i Spoke.reset b
  · rw [spokeJudged, settleOverdue, setLevel_brp, setFi_brp, updBrp_brp, countTest_unpatched 0 _ h, hnow]
    exact tget_tset_self _ _ _
  · rw [spokeJudged, settleOverdue, setLevel_ses, setFi_ses, updBrp_ses, countTest_unpatched 0 _ h, bump_ses, setSpoke_ses]

/-- What a test's end leaves of a Spoke: the state given, the Spoke as at reset, its date, and the sessions as they were. -/
theorem setSpkState_spokeJudged {pass patched : Bool} {st : Nat} (i : Nat) (b : Block) (h : (pass && patched) = false)
    (hst : st < 8) :
    let b' := setSpkState i st (spokeJudged i pass patched b)
    spkState b' i = st ∧ spoke b' i = Spoke.reset ∧ tget b'.brp.tested i = some b.now ∧ b'.ses = b.ses := by
  obtain ⟨hspoke, htested, hses⟩ := spokeJudged_spec i b h
  refine ⟨spkState_setSpkState_self i _ hst, ?_, ?_, ?_⟩
  · rw [spoke, setSpkState_spk]; exact hspoke
  · rw [setSpkState_brp]; exact htested
  · rw [setSpkState_ses]; exact hses

theorem portOf_setPort_self (p : Nat) (x : Port) (b : Block) : portOf (setPort p x b) p = x := by
  rw [portOf, setPort_ports, tgetD_tset, if_pos rfl]

theorem getFi_setPort (p : Nat) (x : Port) (b : Block) (f : Fld) (i : Nat) : (setPort p x b).getFi f i = b.getFi f i := rfl

/-- A lane that passes is its port's spare, which carries no traffic. -/
theorem laneTested_passed {p l : Nat} {b : Block} (hd : (portOf b p).drained = some l) (hs : (portOf b p).swapping = none) :
    let b' := laneTested p l true b
    (portOf b' p).spare = l ∧ (portOf b' p).drained = none ∧ b'.getFi F.FLL_PORT_STAT_spare_for p = 15 := by
  have hgo : ¬((portOf b p).drained ≠ some l ∨ (portOf b p).swapping = some l) := by simp [hd, hs]
  have hport : portOf (countTest true false 0 (setPort p { portOf b p with drained := none } b)) p =
      { portOf b p with drained := none } := by
    rw [countTest_unpatched 0 _ rfl]
    exact portOf_setPort_self _ _ _
  simp only [laneTested, if_neg hgo, if_true, portOf_setPort_self, hport, true_and, getFi_setPort, getFi_setFi_self]
  rfl

theorem hubTested_failed {n : Nat} {b : Block} (h : b.brp.hubTest = some n) :
    (hubTested n false false b).brp.hubOut = b.brp.hubOut ++ [n] ∧ (hubTested n false false b).brp.hubTest = none := by
  rw [hubTested, if_neg (not_not.2 h), countTest_unpatched _ _ rfl]
  simp

theorem spokeOverdue_due {i : Nat} {b : Block} (hfresh : b.stale = false) (hst : spkState b i ≠ spFailed)
    (hold : tgetD b.brp.tested i 0 + 21600000000000 < b.now) (hnew : b.brp.overdue.contains i = false) :
    spokeOverdue i b = setLevel Src.bistOverdue true { b with brp := { b.brp with overdue := b.brp.overdue ++ [i] } } := by
  have hgo : ¬(b.stale = true ∨ spkState b i = spFailed ∨ b.now ≤ tgetD b.brp.tested i 0 + 21600000000000 ∨
      b.brp.overdue.contains i = true) := by
    rw [hfresh, hnew]; simp [hst, hold]
  have hsome : (b.brp.overdue ++ [i]).isEmpty = false := by simp
  rw [spokeOverdue, if_neg hgo, settleOverdue, updBrp_brp, hsome]
  rfl

/-! ### Fuse repairs (R397) -/

/-- Of one kind, patches are turned into fuse repairs as far as the budget goes. -/
theorem commitKind_self {b : Block} {k n u : Nat} (hn : b.brp.patches[k]? = some n) (hu : b.brp.fusesUsed[k]? = some u) :
    (commitKind b k).brp.patches[k]? = some (n - min n (Config.fuseBudget k - u)) ∧
    (commitKind b k).brp.fusesUsed[k]? = some (u + min n (Config.fuseBudget k - u)) := by
  simp [commitKind, fusesLeft, hn, hu]

theorem commitKind_other (b : Block) {j k : Nat} (h : j ≠ k) :
    (commitKind b k).brp.patches[j]? = b.brp.patches[j]? ∧ (commitKind b k).brp.fusesUsed[j]? = b.brp.fusesUsed[j]? := by
  simp [commitKind, h.symm]

theorem foldl_commitKind_notMem {ks : List Nat} {k : Nat} (b : Block) (h : k ∉ ks) :
    (ks.foldl commitKind b).brp.patches[k]? = b.brp.patches[k]? ∧
    (ks.foldl commitKind b).brp.fusesUsed[k]? = b.brp.fusesUsed[k]? := by
  induction ks generalizing b with
  | nil => exact ⟨rfl, rfl⟩
  | cons j ks ih =>
    obtain ⟨hj, hks⟩ := not_or.1 (List.mem_cons.not.1 h)
    obtain ⟨hp, hu⟩ := commitKind_other b hj
    rw [List.foldl_cons, (ih _ hks).1, (ih _ hks).2]
    exact ⟨hp, hu⟩

/-- Kinds are committed independently of each other. -/
theorem foldl_commitKind_mem {ks : List Nat} {b : Block} {k n u : Nat} (hnd : ks.Nodup) (hk : k ∈ ks)
    (hn : b.brp.patches[k]? = some n) (hu : b.brp.fusesUsed[k]? = some u) :
    (ks.foldl commitKind b).brp.patches[k]? = some (n - min n (Config.fuseBudget k - u)) ∧
    (ks.foldl commitKind b).brp.fusesUsed[k]? = some (u + min n (Config.fuseBudget k - u)) := by
  induction ks generalizing b with
  | nil => cases hk
  | cons j ks ih =>
    obtain ⟨hj, hnd⟩ := List.nodup_cons.1 hnd
    rw [List.foldl_cons]
    rcases List.mem_cons.1 hk with rfl | hk
    · obtain ⟨hp, hf⟩ := foldl_commitKind_notMem (commitKind b k) hj
      rw [hp, hf]
      exact commitKind_self hn hu
    · obtain ⟨hp, hf⟩ := commitKind_other b (ne_of_mem_of_not_mem hk hj)
      exact ih hnd hk (hp.trans hn) (hf.trans hu)

theorem foldl_commitKind_ses (ks : List Nat) (b : Block) : (ks.foldl commitKind b).ses = b.ses := by
  induction ks generalizing b with
  | nil => rfl
  | cons k ks ih => rw [List.foldl_cons, ih, commitKind, updBrp_ses]

/-- One patched Spoke repaired by fuse. -/
def fuseSpoke (b : Block) (i : Nat) : Block :=
  if b.getFi F.SPK_STATE_patched i = 1 then (b.setFi F.SPK_STATE_patched i 0).setFi F.SPK_STATE_fused i 1 else b

/-- Spokes are marked as repaired in their fields alone. -/
theorem foldl_fuseSpoke_frame (is : List Nat) (b : Block) :
    (is.foldl fuseSpoke b).brp = b.brp ∧ (is.foldl fuseSpoke b).ses = b.ses := by
  induction is generalizing b with
  | nil => exact ⟨rfl, rfl⟩
  | cons i is ih =>
    have hstep : (fuseSpoke b i).brp = b.brp ∧ (fuseSpoke b i).ses = b.ses := by unfold fuseSpoke; split <;> simp
    rw [List.foldl_cons, (ih _).1, (ih _).2]
    exact hstep

theorem fuseSpokes_frame (b : Block) : (fuseSpokes b).brp = b.brp ∧ (fuseSpokes b).ses = b.ses := by
  unfold fuseSpokes
  split
  · exact ⟨rfl, rfl⟩
  · exact foldl_fuseSpoke_frame _ b

/-- The module once its patches are committed, FUSE_LOW following the budgets. -/
def fusesCommitted (b : Block) : Block :=
  let b := fuseSpokes ([0, 1, 2].foldl commitKind b)
  setLevel Src.fuseLow (fuseLow b) b

/-- Budgets left are judged by the controller's own state. -/
theorem fuseLow_congr {b b' : Block} (h : b'.brp = b.brp) : fuseLow b' = fuseLow b := by
  have hleft (k : Nat) : fusesLeft b' k = fusesLeft b k := by rw [fusesLeft, fusesLeft, h]
  simp only [fuseLow, hleft]

theorem fuseCommit_eq (b : Block) : fuseCommit b =
    if fuseLow (fusesCommitted b) = true ∧ b.intr.levels.contains Src.fuseLow = false then autoCkpt 4 (fusesCommitted b)
    else fusesCommitted b := by
  have hlow : fuseLow (fusesCommitted b) = fuseLow (fuseSpokes ([0, 1, 2].foldl commitKind b)) :=
    fuseLow_congr (setLevel_brp _ _ _)
  have hif : fuseCommit b = if (fuseLow (fuseSpokes ([0, 1, 2].foldl commitKind b)) &&
      !b.intr.levels.contains Src.fuseLow) = true then autoCkpt 4 (fusesCommitted b) else fusesCommitted b := rfl
  simp only [hif, hlow, Bool.and_eq_true, Bool.not_eq_true']

theorem fusesCommitted_spec (b : Block) :
    (∀ k, k < 3 → ∀ n u, b.brp.patches[k]? = some n → b.brp.fusesUsed[k]? = some u →
      (fusesCommitted b).brp.patches[k]? = some (n - min n (Config.fuseBudget k - u)) ∧
      (fusesCommitted b).brp.fusesUsed[k]? = some (u + min n (Config.fuseBudget k - u))) ∧
    (fusesCommitted b).ses = b.ses := by
  obtain ⟨hbrp, hses⟩ := fuseSpokes_frame ([0, 1, 2].foldl commitKind b)
  refine ⟨fun k hk n u hn hu => ?_, ?_⟩
  · rw [fusesCommitted, setLevel_brp, hbrp]
    exact foldl_commitKind_mem (by decide) (by simp; omega) hn hu
  · rw [fusesCommitted, setLevel_ses, hses, foldl_commitKind_ses]

/-- FUSE_COMMIT from management space of a booted module, whose RTP is ready. -/
theorem exec_fuseCommit_mgmt {s : State} (hup : s.toBlock.up = true) :
    exec (.fuseCommit .mgmt) s = .next (s.put (rest (fuseCommit s.toBlock))) := by
  have hready : s.toBlock.rtp.ready = true := ((up_iff _).1 hup).2
  rw [exec_fuseCommit, actR_up _ UnitRef.none_wf hup, hready]
  rfl

theorem exec_testNow_mgmt {s : State} (hup : s.toBlock.up = true) :
    exec (.testNow .mgmt) s = .next (s.put (rest (testNow s.toBlock))) := by
  rw [exec_testNow, actR_up _ UnitRef.none_wf hup]
  rfl

/-- BIST_COMPLETE of a slice that the module has. -/
theorem exec_bistComplete_up {s : State} {x : Slice} (pass patched : Bool) (hx : x.wf = true) (hup : s.toBlock.up = true) :
    exec (.bistComplete x pass patched) s = .next (s.put (rest (sliceTested x pass patched s.toBlock))) := by
  rw [exec_bistComplete, actR_up (u := .slice x) _ hx hup]

/-- Settles O43: each rotation takes its slice when the period is over, and each result has its one outcome. -/
theorem slicesAreTested : Obligations.SlicesAreTested := by
  unfold Obligations.SlicesAreTested
  refine ⟨⟨fun s w i hup hwheel hspare hnone hold => ?_, fun s hup hsel => ?_,
      fun s p l hup hp hl hst hd hs hgood hspare hfree => ?_, fun s n hup hn htest => ?_, fun s c hup hidle => ?_,
      fun s key seconds => periodOver_iff s.toBlock key seconds, fun s key => rfl⟩,
    fun s i patched hup hi hst => ?_, fun s i hup hi hst => ?_, fun s p l hup hp hl hd hs => ?_, fun s n hup hn htest => ?_,
    fun s i hup hi hfresh hst hold hnew => ?_, fun s hup => ?_⟩
  · rw [exec_spokeTestRotate, actR_up _ UnitRef.none_wf hup, rotateSpoke_ready hwheel hspare hnone hold]
  · rw [exec_testNow_mgmt hup, testNow_selected hsel]
  · have hwf : (UnitRef.lane p l).wf = true := by simp [UnitRef.wf, hp, hl]
    rw [exec_laneTestRotate, actR_up _ hwf hup, rotateLane_ready hst hd hs hgood hspare hfree]
  · have hwf : (UnitRef.hub n).wf = true := by simp [UnitRef.wf, hn]
    rw [exec_hubTestRotate, actR_up _ hwf hup, rotateHub_testable htest]
  · rw [exec_channelTestRotate, actR_up _ UnitRef.none_wf hup, rotateChannel_idle hidle]
  · refine ⟨_, ?_, setSpkState_spokeJudged (pass := false) (patched := patched) i s.toBlock rfl (by decide)⟩
    rw [exec_bistComplete_up _ _ (by simp [Slice.wf, hi]) hup, sliceTested, spokeTested_failed patched hst]
  · refine ⟨_, ?_, setSpkState_spokeJudged (pass := true) (patched := false) i s.toBlock rfl (by decide)⟩
    rw [exec_bistComplete_up _ _ (by simp [Slice.wf, hi]) hup, sliceTested, spokeTested_passed hst]
  · exact ⟨_, exec_bistComplete_up _ _ (by simp [Slice.wf, hp, hl]) hup, laneTested_passed hd hs⟩
  · exact ⟨_, exec_bistComplete_up _ _ (by simp [Slice.wf, hn]) hup, hubTested_failed htest⟩
  · have hwf : (UnitRef.spoke i).wf = true := by simp [UnitRef.wf, hi]
    rw [exec_bistOverdue, actR_up _ hwf hup, spokeOverdue_due hfresh hst hold hnew]
  · refine ⟨fusesCommitted s.toBlock, ?_, fusesCommitted_spec s.toBlock⟩
    rw [exec_fuseCommit_mgmt hup, fuseCommit_eq]

end Sys2Proof.Machine

/-! PROOFS of the family 02_sessions: opening and closing (O1, O2), revivals and moves (O4), timers (O30), ends of motions (O31),
windows and homing (O33). -/

namespace Sys2Proof.Machine

/-! ### Session slots (R24, R25) -/

theorem session_setSession (sid n : Nat) (x : Session) (b : Block) :
    session (setSession sid x b) n = if n = sid then some x else session b n :=
  tget_tset b.ses.slots sid n x

/-- Sessions stand in their slots alone. -/
theorem session_congr {b b' : Block} (h : b'.ses.slots = b.ses.slots) (n : Nat) : session b' n = session b n := by
  rw [session, session, h]

@[simp] theorem noteNamed_ses (rid h : Nat) (b : Block) : (noteNamed rid h b).ses = b.ses := rfl
@[simp] theorem takeFree_slots (b : Block) : (takeFree b).ses.slots = b.ses.slots := by unfold takeFree; split <;> rfl
@[simp] theorem takeFree_flds (b : Block) : (takeFree b).flds = b.flds := by unfold takeFree; split <;> rfl
@[simp] theorem takeFree_cmem (b : Block) : (takeFree b).cmem = b.cmem := by unfold takeFree; split <;> rfl
@[simp] theorem takeFree_ste (b : Block) : (takeFree b).ste = b.ste := by unfold takeFree; split <;> rfl
@[simp] theorem takeFree_spk (b : Block) : (takeFree b).spk = b.spk := by unfold takeFree; split <;> rfl

/-! ### SOPEN (R24) -/

/-- What an SOPEN opens in the slot it takes, for a generation (Table 2.2). -/
def openedSession (c : Ctx) (b : Block) (m : ModelSlot) (g : Nat) : Session :=
  newSession g c.tenant (bitsOf c.e.a 0 8) m.cls (bitsOf c.e.a 8 4) (c.arg b 32 4) b.now (b.peek (c.blk + 40) 16)

/-- The module with that session in slot `sid`. -/
def openedBlock (c : Ctx) (b : Block) (m : ModelSlot) (sid g : Nat) : Block :=
  noteNamed c.rid (mkHandle c.tenant sid (nextGen g)) (setSession sid (openedSession c b m (nextGen g)) (takeFree b))

/-- The slot that is allocated is the one FREE longest, with its next generation (R24). -/
theorem allocSlot_oldest {b : Block} {sid g : Nat} (mk : Nat → Session) (h : oldestFree b = some (sid, g)) :
    allocSlot mk b = some (sid, setSession sid (mk (nextGen g)) (takeFree b)) := by
  rw [allocSlot, h]; rfl

/-- An SOPEN that passes every check opens its session and gives the handle. -/
theorem sopen_admitted {c : Ctx} {b : Block} {m : ModelSlot} {sid g : Nat} (hm : modelSlot b (bitsOf c.e.a 0 8) = some m)
    (hready : m.state = slReady) (hdraft : m.draft = false) (hsound : m.damaged = false)
    (howner : m.shared = true ∨ m.owner = c.tenant) (hcog : cogUsable b c.tenant (bitsOf c.e.a 8 4) = true)
    (hquota : tenantPlaces b c.tenant < b.getFi F.SES_TQ_LIMITS_max_sessions c.tenant)
    (hroom : reservedSlots b (fun _ => true) < freeSlots b) (hfree : oldestFree b = some (sid, g)) :
    sopen c b = .done St.ok (some (leBytes 6 (mkHandle c.tenant sid (nextGen g)))) (openedBlock c b m sid g) := by
  have howned : ¬(m.shared = false ∧ m.owner ≠ c.tenant) := by rcases howner with h | h <;> simp [h]
  have hstate : ¬(m.state ≠ 1 ∨ m.draft = true) := by simp [hready, hdraft, slReady]
  simp only [sopen, hm, if_neg hstate, if_neg howned, hcog, hsound, if_neg (Nat.not_le.2 hquota), if_neg (Nat.not_le.2 hroom),
    allocSlot_oldest _ hfree, Bool.true_eq_false, Bool.false_eq_true, if_false]
  rw [session_setSession, if_pos rfl]
  rfl

theorem session_openedBlock (c : Ctx) (b : Block) (m : ModelSlot) (sid g n : Nat) :
    session (openedBlock c b m sid g) n = if n = sid then some (openedSession c b m (nextGen g)) else session b n := by
  rw [openedBlock, session_congr (congrArg _ (noteNamed_ses _ _ _)), session_setSession, session_congr (takeFree_slots b)]

/-- Settles O1: each check of SOPEN passes, the slot FREE longest is taken, and nothing but the slots and the request's own
record of the session it names changes. -/
theorem sopenOpensHotSession : Obligations.SopenOpensHotSession := by
  unfold Obligations.SopenOpensHotSession
  intro s rid c b m sid g hrun hm hready hdraft hsound howner hcog hquota hroom hfree
  refine ⟨openedBlock c b m sid g, ?_, ?_, fun n hn => ?_, ?_, ?_, ?_, ?_⟩
  · rw [exec_sopen]
    exact exec_ends hrun (sopen_admitted hm hready hdraft hsound howner hcog hquota hroom hfree)
  · rw [session_openedBlock, if_pos rfl, openedSession]
  · rw [session_openedBlock, if_neg hn]
  all_goals simp [openedBlock, noteNamed]

/-! ### SCLOSE (R25, R33) -/

/-- A handle of another tenant is stale, and logged (R25). -/
theorem withSession_foreign {c : Ctx} (b : Block) (any : Bool) (k : Nat → Session → Block → Ans)
    (h : hTenant (c.opB % 2 ^ 48) ≠ c.tenant) :
    withSession c any k b = .done St.staleHandle none (violation 1 c.tenant c.ring (c.opB % 2 ^ 48) b) := by
  simp only [withSession, checkHandle, if_pos h]

/-- The checks of R25 and R34 pass a session in QUARANTINE to an instruction that is answered there; its pairs are compared no
more (R29). -/
theorem withSession_quarantined {c : Ctx} {b : Block} {x : Session} (k : Nat → Session → Block → Ans)
    (ht : hTenant (c.opB % 2 ^ 48) = c.tenant) (hg : hGen (c.opB % 2 ^ 48) ≠ 0) (hx : session b (hSlot (c.opB % 2 ^ 48)) = some x)
    (hxt : x.tenant = c.tenant) (hxg : x.gen = hGen (c.opB % 2 ^ 48)) (hq : x.state = ssQuarantine) (hc : x.closing = false) :
    withSession c true k b = k (hSlot (c.opB % 2 ^ 48)) x b := by
  have hpairs : pairsFail x = false := by simp [pairsFail, hq]
  have hscrub : x.state ≠ ssScrubbing := by rw [hq]; decide
  simp only [withSession, checkHandle, ht, hg, hx, hxt, hxg, hscrub, hpairs, hc, ne_eq, not_true_eq_false, if_false, false_and,
    Bool.true_eq_false, Bool.false_eq_true, and_false]

/-- An SCLOSE that is admitted closes its session. -/
theorem sclose_admitted {c : Ctx} {b : Block} {sid : Nat} {x : Session} (hon : OnSession c b sid x)
    (hadm : Admitted c b sid x .settled) :
    sclose c b = .done St.ok none (cancelNaming c.rid c.e.order (handleOf sid x)
      (dropShadow sid (updSession sid (fun x => { x with closing := true, closeOrder := c.e.order }) b))) := by
  rw [sclose, withSession_on _ _ hon]
  obtain ⟨-, -, -, -, -, -, -, hq, -, hc⟩ := hon
  simp only [hc, hq, admitted_of hadm, closeSession, Bool.false_eq_true, Bool.true_eq_false, false_and, and_false, if_false]

/-- An SCLOSE of a session in QUARANTINE scrubs it (row 18). -/
theorem sclose_quarantined {c : Ctx} {b : Block} {x : Session} (ht : hTenant (c.opB % 2 ^ 48) = c.tenant)
    (hg : hGen (c.opB % 2 ^ 48) ≠ 0) (hx : session b (hSlot (c.opB % 2 ^ 48)) = some x) (hxt : x.tenant = c.tenant)
    (hxg : x.gen = hGen (c.opB % 2 ^ 48)) (hq : x.state = ssQuarantine) (hc : x.closing = false) :
    sclose c b = .done St.ok none (enterScrubbing (hSlot (c.opB % 2 ^ 48)) b) := by
  rw [sclose, withSession_quarantined _ ht hg hx hxt hxg hq hc]
  simp only [hc, hq, closeSession, ne_eq, not_true_eq_false, Bool.false_eq_true, false_and, if_true, if_false]

/-- Settles O2: an admitted SCLOSE closes, one of a session in QUARANTINE scrubs, a foreign handle is logged. -/
theorem scloseEndsSessions : Obligations.ScloseEndsSessions := by
  unfold Obligations.ScloseEndsSessions
  refine ⟨fun s rid c b sid x hrun hon hadm => ?_, fun s rid c b x hrun ht hg hx hxt hxg hq hc => ?_,
    fun s rid c b hrun ht => ?_⟩ <;> rw [exec_sclose]
  · have hbody := sclose_admitted hon hadm
    rw [runs_rid hrun] at hbody
    exact exec_ends hrun hbody
  · exact exec_ends hrun (sclose_quarantined ht hg hx hxt hxg hq hc)
  · exact exec_ends hrun (withSession_foreign b true _ ht)

/-! ### Shadow slots, dropped (R96) -/

/-- A frame returned changes the frames and the superblocks of the session manager, and nothing else. -/
theorem returnFrame_frame (key : Nat) (b : Block) :
    ∃ fs sbs, returnFrame key b = { b with ses := { b.ses with frames := fs, supers := sbs } } := by
  unfold returnFrame
  split
  · exact ⟨_, _, rfl⟩
  · exact ⟨_, _, rfl⟩

theorem foldl_returnFrame_frame (ks : List Nat) (b : Block) :
    ∃ fs sbs, ks.foldl (fun b k => returnFrame k b) b = { b with ses := { b.ses with frames := fs, supers := sbs } } := by
  induction ks generalizing b with
  | nil => exact ⟨_, _, rfl⟩
  | cons k ks ih =>
    obtain ⟨fs, sbs, hk⟩ := returnFrame_frame k b
    obtain ⟨fs', sbs', hks⟩ := ih (returnFrame k b)
    exact ⟨fs', sbs', by rw [List.foldl_cons, hks, hk]⟩

/-- A dropped shadow slot changes the donors' reads, sessions, frames and superblocks, and of the registers `spec_drop` alone. -/
theorem dropShadow_frame (sid : Nat) (b : Block) :
    ∃ t m slots fs sbs,
      dropShadow sid b = { b with flds := t, mem := m, ses := { b.ses with slots := slots, frames := fs, supers := sbs } } ∧
      ∀ (g : Fld) (j : Nat), g.key ≠ F.PNE_CNT_SPEC_spec_drop.key → (dropShadow sid b).getFi g j = b.getFi g j := by
  obtain ⟨m, hm⟩ : ∃ m, dropFetches sid b = { b with mem := m } := by
    unfold dropFetches
    split
    · exact ⟨_, rfl⟩
    · exact ⟨_, rfl⟩
  rw [dropShadow, hm]
  split
  · exact ⟨_, _, _, _, _, rfl, fun _ _ _ => rfl⟩
  · next sh _ =>
    obtain ⟨fs, sbs, hframes⟩ := foldl_returnFrame_frame sh.frames
      (updSession sid (fun x => { x with liftWait := none }) { b with mem := m })
    rw [hframes]
    exact ⟨_, _, _, _, _, rfl, fun g j hg => getFi_bump_ne _ j hg⟩

@[simp] theorem dropShadow_moveSeq (sid : Nat) (b : Block) : (dropShadow sid b).ses.moveSeq = b.ses.moveSeq := by
  obtain ⟨_, _, _, _, _, h, -⟩ := dropShadow_frame sid b
  rw [h]

/-- Of the registers, a dropped shadow slot changes `spec_drop` alone. -/
theorem getFi_dropShadow (sid : Nat) (b : Block) {g : Fld} (j : Nat) (h : g.key ≠ F.PNE_CNT_SPEC_spec_drop.key) :
    (dropShadow sid b).getFi g j = b.getFi g j := by
  obtain ⟨_, _, _, _, _, -, hfields⟩ := dropShadow_frame sid b
  exact hfields g j h

@[simp] theorem ownModule_dropShadow (sid : Nat) (b : Block) : ownModule (dropShadow sid b) = ownModule b :=
  getFi_dropShadow sid b 0 (by decide)

/-! ### REVIVE (R42, R75, R96, R97) -/

/-- The module once a REVIVE of class 1 is ordered, counted as a hit where a lift was made (R96), and the instruction waits. -/
def reviveOrdered (rid sid : Nat) (x : Session) (b : Block) : Block :=
  let ordered := orderMotion sid .revive 1 dHot 0 (some rid) (if x.shadow.isSome then b.bump F.PNE_CNT_SPEC_spec_hit else b)
  instrWait rid (.motion (waitsOnLower ordered sid)) ordered

/-- A REVIVE of a session below HOT whose HOT bytes fit orders its revival; a complete lift ends it at once (R97). -/
theorem revive_ordered {c : Ctx} {b : Block} {sid : Nat} {x : Session} (hon : OnSession c b sid x)
    (hadm : Admitted c b sid x .settled) (hbelow : x.state ≠ ssHot)
    (hmodel : x.depth = dCold → 0 < privatePositions x → modelReady b x = true)
    (hfits : hotBytes b x.tenant + reviveNeed b x ≤ hotLimit b x.tenant) :
    revive c b = .handled
      (if liftComplete x = true ∧ motionsActive (reviveOrdered c.rid sid x b) < maxMotions (reviveOrdered c.rid sid x b) then
        finishRevive sid (beginMotion sid (reviveOrdered c.rid sid x b)) else reviveOrdered c.rid sid x b) := by
  have hmodelOk : ¬(x.depth = dCold ∧ 0 < privatePositions x ∧ modelReady b x = false) := by
    rintro ⟨hcold, hpos, hnot⟩
    rw [hmodel hcold hpos] at hnot
    exact absurd hnot (by decide)
  rw [revive, withSession_on _ _ hon]
  simp only [admitted_of hadm, Bool.true_eq_false, if_false, if_neg hbelow, if_neg hmodelOk, admitRevival, if_pos hfits]
  rfl

/-- A REVIVE of a HOT session moves nothing and gives depth 0. -/
theorem revive_hot {c : Ctx} {b : Block} {sid : Nat} {x : Session} (hon : OnSession c b sid x)
    (hadm : Admitted c b sid x .settled) (hhot : x.state = ssHot) : revive c b = .done St.ok (some [0]) b := by
  rw [revive, withSession_on _ _ hon]
  simp only [admitted_of hadm, Bool.true_eq_false, if_false, if_pos hhot]

/-! ### MOVE (R75, R85, R86) -/

/-- The module once a MOVE's shadow slot is gone and its number is taken. -/
def moveNumbered (sid : Nat) (b : Block) : Block :=
  let d := dropShadow sid b
  { d with ses := { d.ses with moveSeq := d.ses.moveSeq + 1 } }

/-- What a MOVE that is admitted keeps of itself (Table 4.3, order 1). -/
def movePlanned (c : Ctx) (b : Block) (sid dest depth : Nat) : MoveOut :=
  { dest := dest, moveId := ownModule b * 2 ^ 56 + b.ses.moveSeq % 2 ^ 56, depth := depth,
    oldPannier := reads10Only (moveNumbered sid b) dest, stage := .streaming, rid := some c.rid, dstHandle := 0,
    dstTandem := false, cutover := false, header := [], commitDelta := none, pagesSent := false, snap := none, leased := [] }

/-- The module with that noted on its session. -/
def moveNoted (c : Ctx) (b : Block) (sid dest depth : Nat) : Block :=
  updSession sid (fun x => { x with moveOut := some (movePlanned c b sid dest depth) }) (moveNumbered sid b)

/-- A MOVE that is admitted orders its motion in class 2: to the depth and tier named in single-home mode, else to the session's
own. -/
theorem startMove_eq (c : Ctx) (sid : Nat) (x : Session) (dest depth tier : Nat) (b : Block) :
    startMove c sid x dest depth tier b =
      let b1 := moveNoted c b sid dest depth
      .wait (.motion (readsLower b1 x)) (orderMotion sid .moveOut 2 (if singleHome b1 then depth else x.depth)
        (if singleHome b1 then moveTier b1 x tier else x.warmTier) (some c.rid) b1) := by
  simp only [startMove, moveNoted, movePlanned, moveNumbered, ownModule_dropShadow, dropShadow_moveSeq]
  split <;> rfl

/-- A MOVE that passes its checks starts. -/
theorem move_starts {c : Ctx} {b : Block} {sid : Nat} {x : Session} (hdepth : bitsOf c.e.a 8 2 ≠ 3) (hon : OnSession c b sid x)
    (hadm : Admitted c b sid x (if bitsOf c.e.a 8 2 = dHot then .settled else .idle)) (hfree : x.moveOut = none)
    (hother : bitsOf c.e.a 0 8 ≠ ownModule b) (hlive : liveMember b (bitsOf c.e.a 0 8) = true)
    (hmark : x.log.contains depthMark = false ∨ reads10Only b (bitsOf c.e.a 0 8) = false)
    (hcold : x.depth = dCold → bitsOf c.e.a 8 2 ≠ dWarm) (hdeep : bitsOf c.e.a 8 2 = dCold → coldAllowed b x.tenant = true) :
    move c b = startMove c sid x (bitsOf c.e.a 0 8) (bitsOf c.e.a 8 2) (bitsOf c.e.a 10 2) b := by
  have hmarkOk : ¬(x.log.contains depthMark = true ∧ reads10Only b (bitsOf c.e.a 0 8) = true) := by
    rcases hmark with h | h <;> simp only [h, Bool.false_eq_true, false_and, and_false, not_false_eq_true]
  have hcoldOk : ¬(x.depth = dCold ∧ bitsOf c.e.a 8 2 = dWarm) := fun h => hcold h.1 h.2
  have hdeepOk : ¬(bitsOf c.e.a 8 2 = dCold ∧ coldAllowed b x.tenant = false) := by
    rintro ⟨hd, hnot⟩
    rw [hdeep hd] at hnot
    exact absurd hnot (by decide)
  rw [move, if_neg hdepth, withSession_on _ _ hon]
  simp only [admitted_of hadm, hfree, Option.isSome_none, Bool.true_eq_false, Bool.false_eq_true, or_self, if_false, if_neg hother,
    hlive, if_neg hmarkOk, if_neg hcoldOk, if_neg hdeepOk]

/-- Settles O4: a REVIVE orders its motion in class 1 or moves nothing; a MOVE takes the next number and waits in class 2. -/
theorem reviveAndMoveOrderMotions : Obligations.ReviveAndMoveOrderMotions := by
  unfold Obligations.ReviveAndMoveOrderMotions
  refine ⟨⟨fun s rid c b sid x hrun hon hadm hbelow hmodel hfits => ?_, fun s rid c b sid x hrun hon hadm hhot => ?_⟩, ?_⟩
  · rw [exec_revive, exec_runs revive hrun, revive_ordered hon hadm hbelow hmodel hfits, runs_rid hrun]
    rfl
  · rw [exec_revive]
    exact exec_ends hrun (revive_hot hon hadm hhot)
  · intro s rid c b sid x dest depth hrun hdepth hon hadm hfree hother hlive hmark hcold hdeep
    refine ⟨moveNoted c b sid dest depth, movePlanned c b sid dest depth, rfl, rfl, rfl, ?_, rfl, rfl, ?_⟩
    · rw [movePlanned, runs_rid hrun]
    · have hbody := move_starts hdepth hon hadm hfree hother hlive hmark hcold hdeep
      rw [startMove_eq, runs_rid hrun] at hbody
      rw [exec_move]
      exact exec_waits hrun hbody

/-! ### Timers (R29, R35, R95, R96) -/

/-- A command of one session slot that the module has, in a module that works. -/
theorem actC_slot {s : State} {sid : Nat} (f : Block → Block) (hw : s.works) (hsid : sid < numSlots) :
    actC (.slot sid) f s = .next (s.put (rest (f s.toBlock))) :=
  actC_works f (by simp [UnitRef.wf, hsid]) hw

theorem exec_hotIdleExpiry_works {s : State} {sid : Nat} (hw : s.works) (hsid : sid < numSlots) :
    exec (.hotIdleExpiry sid) s = .next (s.put (rest (hotIdle sid s.toBlock))) := actC_slot (hotIdle sid) hw hsid

theorem exec_warmIdleExpiry_works {s : State} {sid : Nat} (hw : s.works) (hsid : sid < numSlots) :
    exec (.warmIdleExpiry sid) s = .next (s.put (rest (warmIdle sid s.toBlock))) := actC_slot (warmIdle sid) hw hsid

theorem exec_specReviveStart_works {s : State} {sid : Nat} (hw : s.works) (hsid : sid < numSlots) :
    exec (.specReviveStart sid) s = .next (s.put (rest (specRevive sid s.toBlock))) := actC_slot (specRevive sid) hw hsid

/-- A HOT session idle for its interval, with a target, is demoted in class 4 (R35, R41). -/
theorem hotIdle_expired {sid : Nat} {b : Block} {x : Session} {d : Nat × Nat × Bool} (hx : session (readPairs sid b) sid = some x)
    (hhot : x.state = ssHot)
    (hidle : idleFor (readPairs sid b) sid x ((readPairs sid b).getFi F.SES_TQ_POLICY_hot_idle_ms x.tenant * 1000000) = true)
    (htarget : demotionTarget (readPairs sid b) x = some d) :
    hotIdle sid b = orderDemotion 4 (sid, x) (dropShadow sid (readPairs sid b)) := by
  simp only [hotIdle, hx, if_pos (And.intro hhot hidle), htarget]

/-- A WARM session idle for its interval, of a tenant that allows COLD, is demoted in class 4 (R35, R41). -/
theorem warmIdle_expired {sid d t : Nat} {b : Block} {x : Session} {f : Bool} (hx : session (readPairs sid b) sid = some x)
    (hwarm : x.state = ssWarm) (hcold : coldAllowed (readPairs sid b) x.tenant = true)
    (hidle : idleFor (readPairs sid b) sid x ((readPairs sid b).getFi F.SES_TQ_POLICY_warm_idle_s x.tenant * 1000000000) = true)
    (htarget : chooseTarget (readPairs sid b) x dCold 3 true = .go d t f) :
    warmIdle sid b = orderMotion sid .demote 4 d t none (countFallback f (dropShadow sid (readPairs sid b))) := by
  simp only [warmIdle, hx, if_pos (And.intro hwarm (And.intro hcold hidle)), htarget]

/-- A session whose resume hint may be acted on, its lead reached (R95). -/
structure HintDue (b : Block) (x : Session) : Prop where
  given : x.resumeHintNs ≠ 0
  unspent : x.hintSpent = false
  policy : b.getFi F.SES_TQ_POLICY_spec_revive x.tenant ≠ 0
  still : x.motion = none
  noShadow : x.shadow = none
  noLift : x.liftWait = none
  notClosing : x.closing = false
  below : x.state = ssWarm ∨ x.state = ssCold
  lead : x.resumeHintNs ≤ b.now + specLead b x

/-- A hint that is due is acted on once: the lift is ordered, or counts as skipped (R95). -/
theorem specRevive_due {sid : Nat} {b : Block} {x : Session} (hx : session (readPairs sid b) sid = some x)
    (hdue : HintDue (readPairs sid b) x) :
    let spent := updSession sid (fun x => { x with hintSpent := true }) (readPairs sid b)
    specRevive sid b =
      if spent.stale = true ∨ x.state = ssCold ∨ hotLimit spent x.tenant < hotBytes spent x.tenant + reviveNeed spent x then
        spent.bump F.PNE_CNT_SPEC_spec_skip else orderLift sid spent := by
  obtain ⟨hgiven, hunspent, hpolicy, hstill, hshadow, hlift, hclosing, hbelow, hlead⟩ := hdue
  have hstate : ¬(x.state ≠ ssWarm ∧ x.state ≠ ssCold) := by tauto
  have hpass : ¬(x.resumeHintNs = 0 ∨ x.hintSpent = true ∨ (readPairs sid b).getFi F.SES_TQ_POLICY_spec_revive x.tenant = 0 ∨
      x.motion.isSome = true ∨ x.shadow.isSome = true ∨ x.liftWait.isSome = true ∨ x.closing = true ∨
      (x.state ≠ ssWarm ∧ x.state ≠ ssCold) ∨ (readPairs sid b).now + specLead (readPairs sid b) x < x.resumeHintNs) := by
    simp only [hgiven, hunspent, hpolicy, hstill, hshadow, hlift, hclosing, hstate, Nat.not_lt.2 hlead, Option.isSome_none,
      Bool.false_eq_true, or_self, not_false_eq_true]
  simp only [specRevive, hx, if_neg hpass]

/-- Settles O30: each timer that has run out orders its demotion, acts on its hint, or drops its shadow slot. -/
theorem timersDemoteAndLift : Obligations.TimersDemoteAndLift := by
  unfold Obligations.TimersDemoteAndLift
  refine ⟨fun s sid x d hw hsid hx hhot hidle htarget => ?_, fun s sid d t x f hw hsid hx hwarm hcold hidle htarget => ?_,
    fun s sid x hw hsid hx hgiven hunspent hpolicy hstill hshadow hlift hclosing hbelow hlead => ?_,
    fun s sid x h hw hsid hx hshadow hstale hheld => ?_⟩
  · rw [exec_hotIdleExpiry_works hw hsid, hotIdle_expired hx hhot hidle htarget]
  · rw [exec_warmIdleExpiry_works hw hsid, warmIdle_expired hx hwarm hcold hidle htarget]
  · rw [exec_specReviveStart_works hw hsid,
      specRevive_due hx ⟨hgiven, hunspent, hpolicy, hstill, hshadow, hlift, hclosing, hbelow, hlead⟩]
  · rw [exec_shadowHoldExpiry, actC_slot _ hw hsid]
    simp only [hx, Option.bind_some, hshadow, if_pos (And.intro hstale hheld)]

/-! ### The windows of descriptors and prefixes (R43, R134) -/

/-- A selection by management space, outside confidential mode, that names a session shows its words (R43). -/
theorem descSelect_mgmt {v : Nat} {b : Block} {x : Session} (hconf : b.rtp.conf = false)
    (hx : checkHandle (hTenant (bitsOf v 0 48)) 0 0 (bitsOf v 0 48) true (b.setF F.SES_DESC_SEL_handle (bitsOf v 0 48)) =
      .ok (hSlot (bitsOf v 0 48)) x) :
    descSelect .mgmt v b =
      let b := b.setF F.SES_DESC_SEL_handle (bitsOf v 0 48)
      Block.setF { b with ses := { b.ses with descWin := descriptorWords b (hSlot (bitsOf v 0 48)) x } }
        F.SES_DESC_SEL_valid 1 := by
  simp only [descSelect, setF_rtp, hconf, Caller.tenant?, hx, ne_eq, not_true_eq_false, Bool.false_eq_true, false_and, and_false,
    if_false]

/-- A selection through an aperture of a handle of another tenant shows nothing. -/
theorem descSelect_foreign {t : BitVec 12} {v : Nat} (b : Block) (ht : hTenant (bitsOf v 0 48) ≠ t.toNat) :
    descSelect (.aperture t) v b =
      let b := b.setF F.SES_DESC_SEL_handle (bitsOf v 0 48)
      Block.setF { b with ses := { b.ses with descWin := List.replicate 32 0 } } F.SES_DESC_SEL_valid 0 := by
  have hother : ¬some t.toNat = some (hTenant (bitsOf v 0 48)) := fun h => ht (Option.some.inj h).symm
  simp [descSelect, Caller.isMgmt, Caller.tenant?, hother, zeroWindow]

/-- The window of pinned records with a record in it, or with none (R134). -/
def showPrefix (shown : Option (Nat × Prefix)) (b : Block) : Block :=
  match shown with
  | none => Block.setF { b with ses := { b.ses with pfxWin := List.replicate 16 0 } } F.PGM_PFX_TEN_valid 0
  | some e => Block.setF { b with ses := { b.ses with pfxWin := prefixWords b e.1 e.2 } } F.PGM_PFX_TEN_valid 1

/-- A selection of a pinned name by management space is one of the tenant that PGM_PFX_TEN names (R134). -/
theorem pfxSelect_mgmt (name : Nat) {b : Block} (hconf : b.rtp.conf = false) :
    pfxSelect .mgmt name b = showPrefix (boundPrefix b (b.getF F.PGM_PFX_TEN_tenant) name) b := by
  simp only [pfxSelect, hconf, Caller.tenant?, Option.getD_none, Bool.false_eq_true, and_false, if_false]
  cases boundPrefix b (b.getF F.PGM_PFX_TEN_tenant) name with
  | none => rfl
  | some e => rfl

/-! ### The homing mode (R81) -/

/-- `homing` may change: no motion runs or waits, and no session stands WARM or COLD outside HBM. -/
abbrev HomingFree (b : Block) : Prop :=
  motionsActive b = 0 ∧ motionsQueued b = 0 ∧ (b.ses.slots.any fun e => outsideHbm b e.2) = false

/-- What a write of PNE_CFG leaves in its fields (Table 4.11). -/
theorem pneCfgWrite_fields (v : Nat) (b : Block) :
    (HomingFree b → (pneCfgWrite v b).getF F.PNE_CFG_homing = v % 2) ∧
    (¬HomingFree b → (pneCfgWrite v b).getF F.PNE_CFG_homing = b.getF F.PNE_CFG_homing) ∧
    (pneCfgWrite v b).getF F.PNE_CFG_max_motions = bitsOf v 16 9 ∧
    (pneCfgWrite v b).getF F.PNE_CFG_pool_timeout_ms = bitsOf v 32 16 ∧ (pneCfgWrite v b).ses = b.ses := by
  have hfree : (decide (motionsActive b = 0) && decide (motionsQueued b = 0) &&
      !(b.ses.slots.any fun e => outsideHbm b e.2)) = true ↔ HomingFree b := by
    simp only [Bool.and_eq_true, decide_eq_true_eq, Bool.not_eq_true', HomingFree, and_assoc]
  have hother : ∀ b' : Block,
      ((b'.setF F.PNE_CFG_max_motions (bitsOf v 16 9)).setF F.PNE_CFG_pool_timeout_ms (bitsOf v 32 16)).getF F.PNE_CFG_homing =
        b'.getF F.PNE_CFG_homing := fun b' => by
    rw [getF_setF_ne _ _ _ _ (by decide), getF_setF_ne _ _ _ _ (by decide)]
  refine ⟨fun h => ?_, fun h => ?_, ?_, ?_, ?_⟩
  · rw [pneCfgWrite, if_pos (hfree.2 h), hother, getF_setF_self]
    simp [bitsOf, F.PNE_CFG_homing]
  · rw [pneCfgWrite, if_neg (mt hfree.1 h), hother]
  · rw [pneCfgWrite, getF_setF_ne _ _ _ _ (by decide), getF_setF_self]
    exact Nat.mod_mod _ _
  · rw [pneCfgWrite, getF_setF_self]
    exact Nat.mod_mod _ _
  · rw [pneCfgWrite]
    split <;> rfl

/-- Settles O33: the windows show what is selected, and `homing` changes only where it may. -/
theorem windowsAndHoming : Obligations.WindowsAndHoming := by
  unfold Obligations.WindowsAndHoming
  refine ⟨⟨fun s v x hup hconf hx => ?_, fun s t v hup ht => ?_, fun s v hup hconf => ?_⟩, fun s v hup => ?_⟩
  · rw [exec_descSelect, act_up _ UnitRef.none_wf hup, descSelect_mgmt hconf hx]
  · rw [exec_descSelect, act_up _ UnitRef.none_wf hup, descSelect_foreign _ ht]
  · rw [exec_pfxSelect, act_up _ UnitRef.none_wf hup, pfxSelect_mgmt _ hconf]
    cases boundPrefix s.toBlock (s.toBlock.getF F.PGM_PFX_TEN_tenant) v.toNat with
    | none => rfl
    | some e => rfl
  · refine ⟨pneCfgWrite v.toNat s.toBlock, ?_, pneCfgWrite_fields v.toNat s.toBlock⟩
    rw [exec_homingWrite, actR_up _ UnitRef.none_wf hup]
    rfl

/-! ### The fields that bringing the module to rest leaves as they are

Each operation of `rest` keeps `otherFields` of the store; the lemmas follow the operations from the inside out. -/

/-- The register fields that `rest` may set: interrupts, low-water marks, shapers, deltas of a tandem copy, and the counters of
completions, pages, Spokes and speculative lifts. -/
def restFields : List Fld :=
  [F.INT_TGT_STAT_msg_prio, F.INT_RING_PEND_rings, F.PGM_STAT_frames_low, F.PGM_STAT_frames_low_seen, F.PGM_STAT_stage_low,
   F.PGM_STAT_stage_low_seen, F.PGM_STAT_serial_low, F.PGM_CNT_lease_held, F.PGM_CNT_cow_count, F.TSH_STAT_tokens,
   F.TSH_STAT_held, F.TSH_STAT_drops, F.TDM_DELTA_sent, F.CFE_STAT_malformed_count, F.CFE_RING_STAT_cq_full,
   F.SES_STAT_quota_count, F.SES_STAT_stale_count, F.PNE_CNT_FAULT_pool_lost, F.PNE_CNT_SPEC_spec_start,
   F.PNE_CNT_SPEC_spec_drop, F.PNE_CNT_SPEC_spec_skip, F.SPK_CNT_save_wait]

/-- The places of those fields. -/
def restKeys : List Nat := restFields.map (·.key)

/-- What a store of fields holds of every other field. -/
def otherFields (t : FieldTab) (g : Fld) (j : Nat) : Nat :=
  if g.key ∈ restKeys then 0 else (ftGet t (g.key, j)).getD g.reset

/-- Stores agree beyond `restFields` where every other field reads the same. -/
theorem otherFields_eq_iff {b b' : Block} :
    otherFields b'.flds = otherFields b.flds ↔ ∀ (g : Fld) (j : Nat), g.key ∉ restKeys → b'.getFi g j = b.getFi g j := by
  constructor
  · intro h g j hg
    have hgj := congrFun (congrFun h g) j
    rwa [otherFields, otherFields, if_neg hg, if_neg hg] at hgj
  · intro h
    funext g j
    unfold otherFields
    by_cases hg : g.key ∈ restKeys
    · rw [if_pos hg, if_pos hg]
    · rw [if_neg hg, if_neg hg]
      exact h g j hg

section
variable {f : Fld} (hf : f.key ∈ restKeys) (b : Block)
include hf

@[simp] theorem otherFields_setFi (i v : Nat) : otherFields (b.setFi f i v).flds = otherFields b.flds :=
  otherFields_eq_iff.2 fun g j hg => getFi_setFi_ne b f g i j v fun h => hg ((Prod.mk.inj h).1 ▸ hf)

@[simp] theorem otherFields_setF (v : Nat) : otherFields (b.setF f v).flds = otherFields b.flds := otherFields_setFi hf b 0 v

@[simp] theorem otherFields_bumpFi (i n : Nat) : otherFields (b.bumpFi f i n).flds = otherFields b.flds :=
  otherFields_setFi hf b i _

@[simp] theorem otherFields_bump : otherFields (b.bump f).flds = otherFields b.flds := otherFields_bumpFi hf b 0 1

end

/-- A fold keeps those fields where each of its steps does. -/
theorem otherFields_foldl {α : Type} {f : Block → α → Block} (h : ∀ b a, otherFields (f b a).flds = otherFields b.flds)
    (l : List α) (b : Block) : otherFields (l.foldl f b).flds = otherFields b.flds := by
  induction l generalizing b with
  | nil => rfl
  | cons a l ih => rw [List.foldl_cons, ih, h]

/-- A fold of steps that set no field sets none. -/
theorem flds_foldl {α : Type} {f : Block → α → Block} (h : ∀ b a, (f b a).flds = b.flds) (l : List α) (b : Block) :
    (l.foldl f b).flds = b.flds := by
  induction l generalizing b with
  | nil => rfl
  | cons a l ih => rw [List.foldl_cons, ih, h]

/-- A choice keeps those fields where both of its ways do. -/
theorem otherFields_ite {p : Prop} [Decidable p] {a a' b : Block} (ha : otherFields a.flds = otherFields b.flds)
    (ha' : otherFields a'.flds = otherFields b.flds) : otherFields (if p then a else a').flds = otherFields b.flds := by
  split
  · exact ha
  · exact ha'

/-! Interrupts and low-water marks. -/

theorem SignalsOnly.otherFields_eq {b b' : Block} (h : SignalsOnly b b') : otherFields b'.flds = otherFields b.flds :=
  otherFields_eq_iff.2 fun g j hg => h.fields g j fun hkey => hg (hkey ▸ by decide)

@[simp] theorem otherFields_signalTargets (b : Block) : otherFields (signalTargets b).flds = otherFields b.flds :=
  (foldl_signalTarget_signalsOnly _ b).otherFields_eq

@[simp] theorem otherFields_setLevel (n : Nat) (on : Bool) (b : Block) :
    otherFields (setLevel n on b).flds = otherFields b.flds :=
  (setLevel_signalsOnly n on b).otherFields_eq

@[simp] theorem otherFields_fire (n : Nat) (b : Block) : otherFields (fire n b).flds = otherFields b.flds := by
  unfold fire
  split
  · rfl
  · split
    · split <;> rfl
    · rw [otherFields_signalTargets, setIntSrc_flds]

@[simp] theorem otherFields_ringPend (r : Nat) (b : Block) : otherFields (ringPend r b).flds = otherFields b.flds := by
  unfold ringPend
  dsimp only
  split
  · rfl
  · rw [otherFields_fire, otherFields_setFi (by decide)]

theorem otherFields_levelFlag {f : Fld} {seen : Option Fld} (hf : f.key ∈ restKeys) (hseen : ∀ g ∈ seen, g.key ∈ restKeys)
    (src : Nat) (on : Bool) (b : Block) : otherFields (levelFlag f seen src on b).flds = otherFields b.flds := by
  unfold levelFlag
  split
  · rfl
  · dsimp only
    rw [otherFields_setLevel]
    split
    · split
      · rw [otherFields_setF (hseen _ rfl), otherFields_setF hf]
      · rw [otherFields_setF hf]
    · rw [otherFields_setF hf]

@[simp] theorem otherFields_settle (b : Block) : otherFields (settle b).flds = otherFields b.flds := by
  unfold settle
  dsimp only
  rw [otherFields_levelFlag (by decide) (by decide), otherFields_levelFlag (by decide) (by decide),
    otherFields_levelFlag (by decide) (by decide)]

/-! Frames, extents and page tables. -/

@[simp] theorem returnFrame_flds (key : Nat) (b : Block) : (returnFrame key b).flds = b.flds := by
  obtain ⟨_, _, h⟩ := returnFrame_frame key b
  rw [h]

@[simp] theorem addRef_flds (key : Nat) (b : Block) : (addRef key b).flds = b.flds := rfl
@[simp] theorem addLease_flds (key : Nat) (b : Block) : (addLease key b).flds = b.flds := rfl
@[simp] theorem dropExtents_flds (key : Nat) (b : Block) : (dropExtents key b).flds = b.flds := rfl
@[simp] theorem copySlots_flds (src key slot : Nat) (b : Block) : (copySlots src key slot b).flds = b.flds := by
  unfold copySlots; split <;> rfl

@[simp] theorem otherFields_dropRef (key : Nat) (b : Block) : otherFields (dropRef key b).flds = otherFields b.flds := by
  unfold dropRef
  split
  · rfl
  · split
    · split
      · rw [returnFrame_flds]
      · rw [otherFields_bump (by decide)]
    · rfl

@[simp] theorem dropLease_flds (key : Nat) (b : Block) : (dropLease key b).flds = b.flds := by
  unfold dropLease
  split
  · rfl
  · split
    · rw [returnFrame_flds]
    · rfl

@[simp] theorem otherFields_dropTable (t : PageTable) (b : Block) : otherFields (dropTable t b).flds = otherFields b.flds :=
  otherFields_foldl (fun b (e : PageEntry) => otherFields_dropRef e.frame b) _ b

@[simp] theorem dropExtentsWith_flds (p : ExtentRun → Bool) (b : Block) : (dropExtentsWith p b).flds = b.flds :=
  flds_foldl (fun b k => dropExtents_flds k b) _ b

@[simp] theorem freeUnit_flds (p : Option Place) (b : Block) : (freeUnit p b).flds = b.flds := by
  unfold freeUnit
  split
  · rfl
  · dsimp only
    split
    · split <;> rfl
    · rfl

theorem takeSerials_flds {n k : Nat} {b b' : Block} (h : takeSerials n b = some (k, b')) : b'.flds = b.flds := by
  unfold takeSerials at h
  split at h
  · cases h; rfl
  · cases h

theorem frameInStack_flds {cls stack order tenant k : Nat} {b b' : Block}
    (h : frameInStack cls stack order tenant b = some (k, b')) : b'.flds = b.flds := by
  simp only [frameInStack, Option.bind_eq_some_iff, Prod.exists] at h
  obtain ⟨b1, hsuper, sb, off, o, -, serial, b2, hserial, hframe⟩ := h
  have hfirst : b1.flds = b.flds := by
    split at hsuper
    · cases hsuper; rfl
    · split at hsuper
      · cases hsuper; rfl
      · cases hsuper
  obtain ⟨-, rfl⟩ := Prod.mk.inj (Option.some.inj hframe)
  exact (takeSerials_flds hserial).trans hfirst

/-- The first stack that gives a frame: what each stack leaves as it is, all of them do. -/
theorem takeFrame_flds {cls stack order tenant k : Nat} {b b' : Block}
    (h : takeFrame cls stack order tenant b = some (k, b')) : b'.flds = b.flds := by
  unfold takeFrame at h
  suffices hfold : ∀ (l : List Nat) (acc : Option (Nat × Block)), (∀ r ∈ acc, r.2.flds = b.flds) →
      ∀ r ∈ l.foldl (fun acc i => match acc with
        | some x => some x
        | none => frameInStack cls ((stack + i) % 8) order tenant b) acc, r.2.flds = b.flds from
    hfold _ none (by simp) (k, b') h
  intro l
  induction l with
  | nil => exact fun acc hacc => hacc
  | cons i l ih =>
    refine fun acc hacc => ih _ ?_
    cases acc with
    | some x => exact hacc
    | none => exact fun r hr => frameInStack_flds hr

theorem otherFields_readyPage {seed tenant g slot : Nat} {t t' : PageTable} {b b' : Block}
    (h : readyPage seed tenant g slot t b = .ok t' b') : otherFields b'.flds = otherFields b.flds := by
  unfold readyPage at h
  dsimp only at h
  split at h
  · split at h
    · cases h
    · split at h
      · cases h
      · next hframe =>
        cases h
        rw [addRef_flds, takeFrame_flds hframe]
  · split at h
    · split at h
      · cases h
      · split at h
        · cases h
        · next hframe =>
          cases h
          rw [otherFields_bump (by decide), otherFields_dropRef, addRef_flds, copySlots_flds, takeFrame_flds hframe]
    · cases h; rfl

theorem otherFields_landPages {seed tenant fuel p : Nat} {rows : List KvRow} {t t' : PageTable} {b b' : Block}
    (h : landPages seed tenant fuel p rows t b = .ok t' b') : otherFields b'.flds = otherFields b.flds := by
  induction fuel generalizing p rows t b with
  | zero => cases h; rfl
  | succ f ih =>
    unfold landPages at h
    split at h
    · cases h; rfl
    · dsimp only at h
      split at h
      · next b1 hpage =>
        have hkept := otherFields_readyPage hpage
        rw [ih h]
        split
        · exact hkept
        · exact hkept
      · next hfailed => exact absurd h (hfailed t' b')

theorem otherFields_landGroups {seed tenant firstPos : Nat} {gs : List (List KvRow)} {t t' : PageTable} {b b' : Block}
    (h : landGroups seed tenant firstPos gs t b = .ok t' b') : otherFields b'.flds = otherFields b.flds := by
  induction gs generalizing t b with
  | nil => cases h; rfl
  | cons g gs ih =>
    unfold landGroups at h
    split at h
    · next hpages =>
      have hkept := otherFields_landPages hpages
      rw [ih h]
      exact hkept
    · next hfailed => exact absurd h (hfailed t' b')

@[simp] theorem startTable_flds (b : Block) (x : Session) : (startTable b x).2.flds = b.flds := by
  unfold startTable
  split
  · rfl
  · dsimp only
    split <;> rfl

theorem otherFields_tryLand {sid : Nat} {x : Session} {groups : List (List KvRow)} {t : PageTable} {b b' : Block}
    (h : tryLand sid x groups b = .ok t b') : otherFields b'.flds = otherFields b.flds := by
  unfold tryLand at h
  dsimp only at h
  rw [otherFields_landGroups h]
  split
  · rfl
  · rw [startTable_flds]

/-! Messages, deltas and records. -/

@[simp] theorem emit_flds (m : OutMsg) (b : Block) : (emit m b).flds = b.flds := by
  unfold emit
  dsimp only
  split <;> rfl

/-- The module as a shaper's answer leaves it. -/
def Admission.block : Admission → Block
  | .go b => b
  | .hold b => b
  | .drop b => b

theorem otherFields_admitPacket (inst bytes : Nat) (always : Bool) (b : Block) :
    otherFields (admitPacket inst bytes always b).block.flds = otherFields b.flds := by
  unfold admitPacket
  split
  · rfl
  · dsimp only
    split
    · exact otherFields_setFi (by decide) b _ _
    · split
      · exact otherFields_bumpFi (by decide) b _ _
      · exact otherFields_bumpFi (by decide) b _ _

@[simp] theorem otherFields_sendMsg (dest cls stream : Nat) (body : MsgBody) (b : Block) :
    otherFields (sendMsg dest cls stream body b).flds = otherFields b.flds := by
  unfold sendMsg
  dsimp only
  split
  · rfl
  · split
    · rfl
    · split
      · rfl
      · split
        · rw [emit_flds]
        · split
          · exact otherFields_bumpFi (by decide) b _ _
          · next p _ _ _ =>
            have hshaped := otherFields_admitPacket (65536 + 8 * p + cls) body.payload false b
            split
            · next hgo =>
              rw [hgo] at hshaped
              rw [emit_flds]
              exact hshaped
            · next hhold =>
              rw [hhold] at hshaped
              exact hshaped
            · next hdrop =>
              rw [hdrop] at hshaped
              exact hshaped

@[simp] theorem otherFields_sendDelta (start : Option (Bool × Nat)) (final : Bool) (b : Block) :
    otherFields (sendDelta start final b).2.flds = otherFields b.flds := by
  unfold sendDelta
  dsimp only
  rw [otherFields_sendMsg, otherFields_setF (by decide)]

@[simp] theorem otherFields_noteDelta (b : Block) : otherFields (noteDelta b).flds = otherFields b.flds := by
  unfold noteDelta
  split
  · exact otherFields_sendDelta none false b
  · rfl

@[simp] theorem finalEntry_flds (q : Req) (b : Block) : (finalEntry q b).flds = b.flds := by
  unfold finalEntry
  split
  · rfl
  · split <;> rfl

@[simp] theorem writeSlots_flds (r : Ring) (tail fuel : Nat) (bs : Bytes) (b : Block) :
    (writeSlots r tail fuel bs b).flds = b.flds := by
  induction fuel generalizing tail bs b with
  | zero => rfl
  | succ n ih =>
    unfold writeSlots
    split
    · rfl
    · rw [ih, pokeBytes_flds]

@[simp] theorem otherFields_countStatus (st : Nat) (b : Block) : otherFields (countStatus st b).flds = otherFields b.flds := by
  unfold countStatus
  split
  · exact otherFields_bump (by decide) b
  · split
    · exact otherFields_bump (by decide) b
    · split
      · exact otherFields_bump (by decide) b
      · split
        · exact otherFields_bump (by decide) b
        · rfl

@[simp] theorem touchSessions_flds (q : Req) (b : Block) : (touchSessions q b).flds = b.flds := rfl
@[simp] theorem joinBatch_flds (ring reqId : Nat) (rec : Bytes) (b : Block) : (joinBatch ring reqId rec b).flds = b.flds := rfl
@[simp] theorem writeLine2_flds (r : Ring) (b : Block) : (writeLine2 r b).flds = b.flds := by
  rw [writeLine2, pokeBytes_flds]

@[simp] theorem otherFields_writeRecord (rid : Nat) (q : Req) (r : Ring) (b : Block) :
    otherFields (writeRecord rid q r b).flds = otherFields b.flds := by
  unfold writeRecord
  extract_lets +lift bs final slots r' ring line batch counted pended touched
  have hline : line.flds = b.flds := by
    rw [writeLine2_flds, updRing_flds, writeSlots_flds, finalEntry_flds]
  have hbatch : otherFields batch.flds = otherFields line.flds := otherFields_ite (by rw [joinBatch_flds]) rfl
  have hcounted : otherFields counted.flds = otherFields batch.flds := by
    cases hkind : q.kind <;> simp only [counted, hkind, otherFields_countStatus]
  have hpended : otherFields pended.flds = otherFields counted.flds := otherFields_ite (otherFields_ringPend _ _) rfl
  have htouched : otherFields touched.flds = otherFields pended.flds := otherFields_ite (by rw [touchSessions_flds]) rfl
  have hall : otherFields touched.flds = otherFields b.flds := by rw [htouched, hpended, hcounted, hbatch, hline]
  exact otherFields_ite (by rw [setReq_flds, hall]) (by rw [delReq_flds, hall])

@[simp] theorem otherFields_queueRecord (rid : Nat) (b : Block) : otherFields (queueRecord rid b).flds = otherFields b.flds := by
  unfold queueRecord
  split
  · rfl
  · split
    · rw [delReq_flds]
    · dsimp only
      split
      · rw [otherFields_writeRecord, setReq_flds]
      · rw [otherFields_bumpFi (by decide), updRing_flds, setReq_flds]

@[simp] theorem otherFields_postRecord (rid : Nat) (b : Block) : otherFields (postRecord rid b).flds = otherFields b.flds := by
  unfold postRecord
  split
  · rfl
  · dsimp only
    split
    · rw [postRecord.instrWaitOn, updReq_flds, otherFields_sendDelta, setReq_flds]
    · rw [otherFields_queueRecord]
      exact otherFields_ite (by rw [otherFields_noteDelta, setReq_flds]) (by rw [setReq_flds])

@[simp] theorem otherFields_endRequest (rid status index : Nat) (b : Block) :
    otherFields (endRequest rid status index b).flds = otherFields b.flds := by
  unfold endRequest
  split
  · rfl
  · rw [otherFields_postRecord, setReq_flds]

@[simp] theorem otherFields_trailerFail (rid status index opcode tag : Nat) (b : Block) :
    otherFields (trailerFail rid status index opcode tag b).flds = otherFields b.flds := by
  unfold trailerFail
  split
  · rfl
  · rw [otherFields_postRecord, setReq_flds]

@[simp] theorem otherFields_runOut (rid : Nat) (b : Block) : otherFields (runOut rid b).flds = otherFields b.flds := by
  unfold runOut
  split
  · rfl
  · exact otherFields_ite (otherFields_endRequest _ _ _ b) rfl

@[simp] theorem otherFields_instrEnds (rid status : Nat) (result : Option Bytes) (b : Block) :
    otherFields (instrEnds rid status result b).flds = otherFields b.flds := by
  unfold instrEnds
  split
  · rfl
  · dsimp only
    split
    · rfl
    · exact otherFields_ite (by rw [setReq_flds]) (otherFields_trailerFail _ _ _ _ _ b)
    · split
      · rw [otherFields_endRequest, setReq_flds]
      · exact otherFields_ite (by rw [otherFields_runOut, setReq_flds]) (by rw [otherFields_endRequest, setReq_flds])

@[simp] theorem otherFields_instrDone (rid status : Nat) (result : Option Bytes) (b : Block) :
    otherFields (instrDone rid status result b).flds = otherFields b.flds := by
  rw [instrDone, otherFields_noteDelta, otherFields_instrEnds]

/-! Sessions: motions abandoned, slots scrubbed, closing sessions reaped. -/

@[simp] theorem otherFields_motionEnds (sid : Nat) (x : Session) (rid : Option Nat) (status : Nat) (result : Option Bytes)
    (b : Block) : otherFields (motionEnds sid x rid status result b).flds = otherFields b.flds := by
  unfold motionEnds
  split
  · rfl
  · split
    · rfl
    · split
      · exact otherFields_ite (otherFields_instrDone _ _ _ b) rfl
      · rfl

@[simp] theorem otherFields_releasePrefix (key : Nat) (b : Block) :
    otherFields (releasePrefix key b).flds = otherFields b.flds := by
  unfold releasePrefix
  split
  · rfl
  · dsimp only
    rw [freeUnit_flds, otherFields_dropTable]

@[simp] theorem otherFields_detachPrefix (sid : Nat) (b : Block) :
    otherFields (detachPrefix sid b).flds = otherFields b.flds := by
  unfold detachPrefix
  split
  · rfl
  · split
    · rfl
    · dsimp only
      split
      · rw [otherFields_releasePrefix]
      · rfl

@[simp] theorem otherFields_dropShadow (sid : Nat) (b : Block) : otherFields (dropShadow sid b).flds = otherFields b.flds :=
  otherFields_eq_iff.2 fun _ j hg => getFi_dropShadow sid b j fun hkey => hg (hkey ▸ by decide)

@[simp] theorem otherFields_releaseHot (sid : Nat) (b : Block) : otherFields (releaseHot sid b).flds = otherFields b.flds := by
  unfold releaseHot
  split
  · rfl
  · dsimp only
    rw [updSession_flds]
    split
    · rw [otherFields_dropTable]
    · rfl

@[simp] theorem releaseWarm_flds (sid : Nat) (b : Block) : (releaseWarm sid b).flds = b.flds := dropExtentsWith_flds _ b

@[simp] theorem dropFetches_flds (sid : Nat) (b : Block) : (dropFetches sid b).flds = b.flds := by
  unfold dropFetches; split <;> rfl

@[simp] theorem dropSnap_flds (snap : Nat × Nat) (b : Block) : (dropSnap snap b).flds = b.flds := rfl

@[simp] theorem endWalk_flds (sid : Nat) (b : Block) : (endWalk sid b).flds = b.flds := by
  unfold endWalk
  dsimp only
  split
  · rw [dropFetches_flds]
  · rw [updSession_flds]
    split
    · rw [dropSnap_flds, flds_foldl fun b k => dropLease_flds k b, dropFetches_flds]
    · rw [flds_foldl fun b k => dropLease_flds k b, dropFetches_flds]

@[simp] theorem otherFields_abandonMotion (sid status : Nat) (b : Block) :
    otherFields (abandonMotion sid status b).flds = otherFields b.flds := by
  unfold abandonMotion
  dsimp only
  split
  · rw [endWalk_flds]
  · split
    · rw [endWalk_flds]
    · rw [otherFields_motionEnds, updSession_flds]
      exact otherFields_ite (by rw [otherFields_releaseHot, endWalk_flds]) (by rw [endWalk_flds])

@[simp] theorem holdDigests_flds (h : Nat) (b : Block) : (holdDigests h b).flds = b.flds := rfl

@[simp] theorem otherFields_enterScrubbing (sid : Nat) (b : Block) :
    otherFields (enterScrubbing sid b).flds = otherFields b.flds := by
  unfold enterScrubbing
  extract_lets +lift dropped held released
  have hdropped : otherFields dropped.flds = otherFields b.flds := by
    rw [otherFields_dropShadow, otherFields_abandonMotion]
  have hheld : otherFields held.flds = otherFields dropped.flds := by
    cases hx : session dropped sid <;> simp only [held, hx, holdDigests_flds]
  have hreleased : otherFields released.flds = otherFields b.flds := by
    rw [releaseWarm_flds, otherFields_releaseHot, otherFields_detachPrefix, hheld, hdropped]
  split
  · exact hreleased
  · rw [updSession_flds, freeUnit_flds, freeUnit_flds]
    exact hreleased

@[simp] theorem otherFields_reapClosing (b : Block) : otherFields (reapClosing b).flds = otherFields b.flds :=
  otherFields_foldl (fun b (e : Nat × Session) => otherFields_ite (otherFields_enterScrubbing e.1 b) rfl) _ b

/-! Draining slots of cogs, lists and models. -/

@[simp] theorem otherFields_txuTidy (b : Block) : otherFields (txuTidy b).flds = otherFields b.flds := by
  unfold txuTidy
  dsimp only
  rw [otherFields_foldl (fun b e => otherFields_ite (by rw [dropExtentsWith_flds, setList_flds]) rfl),
    otherFields_foldl (fun b e => otherFields_ite (by rw [dropExtentsWith_flds, setCog_flds]) rfl)]

@[simp] theorem dropAdapters_flds (m : ModelSlot) (n : Nat) (b : Block) : (dropAdapters m n b).flds = b.flds := by
  unfold dropAdapters
  dsimp only
  split
  · rfl
  · split
    · rfl
    · rw [setModel_flds, flds_foldl fun b (v : Bytes × Nat) => dropExtents_flds v.2 b]

@[simp] theorem classTidy_flds (b : Block) : (classTidy b).flds = b.flds := by
  unfold classTidy
  dsimp only
  split <;> rfl

@[simp] theorem otherFields_modelTidy (b : Block) : otherFields (modelTidy b).flds = otherFields b.flds := by
  unfold modelTidy
  rw [classTidy_flds]
  refine otherFields_foldl (fun b e => ?_) _ b
  dsimp only
  refine otherFields_ite ?_ (otherFields_ite ?_ ?_)
  · rw [dropExtentsWith_flds, setModel_flds]
  · rw [setModel_flds]
  · rw [dropAdapters_flds]

/-! Items of scrubbed sessions. -/

@[simp] theorem ownItems_flds (h : Nat) (f : Nat → Nat) (b : Block) : (ownItems h f b).flds = b.flds := by
  unfold ownItems
  split
  · rfl
  · split
    · rfl
    · split
      · rw [setSession_flds]
      · rfl

@[simp] theorem autoMerge_flds (n : Nat) (b : Block) : (autoMerge n b).flds = b.flds := by
  unfold autoMerge
  split
  · rfl
  · dsimp only
    split
    · rw [startMerge, setIndex_flds]
    · rfl

@[simp] theorem deleteItem_flds (n : Nat) (x : Index) (e : VItem × SideLoc) (b : Block) :
    (deleteItem n x e b).flds = b.flds := by
  rw [deleteItem, appendRecord, autoMerge_flds, setIndex_flds, ownItems_flds]

@[simp] theorem otherFields_dropOwned (h : Nat) (b : Block) : otherFields (dropOwned h b).flds = otherFields b.flds := by
  refine otherFields_foldl (fun b e => ?_) _ b
  split
  · exact otherFields_ite (by rw [deleteItem_flds]) rfl
  · rfl

@[simp] theorem otherFields_scrubItems (b : Block) : otherFields (scrubItems b).flds = otherFields b.flds :=
  otherFields_foldl (fun b (e : Nat × Session) => otherFields_ite (otherFields_dropOwned (handleOf e.1 e.2) b) rfl) _ b

/-! Motions and lifts that start. -/

@[simp] theorem otherFields_fetchBlocks (sid kind key first : Nat) (bytes : Bytes) (b : Block) :
    otherFields (fetchBlocks sid kind key first bytes b).flds = otherFields b.flds := by
  unfold fetchBlocks
  split
  · rfl
  · refine otherFields_ite (otherFields_foldl (fun b p => ?_) _ b) rfl
    split
    · rw [otherFields_sendMsg]
    · rfl

@[simp] theorem otherFields_fetchUnit (sid kind : Nat) (b : Block) :
    otherFields (fetchUnit sid kind b).flds = otherFields b.flds := by
  unfold fetchUnit
  split
  · rfl
  · exact otherFields_foldl (fun b (u : Nat × Nat × Bytes) => otherFields_fetchBlocks sid kind u.1 u.2.1 u.2.2 b) _ b

@[simp] theorem otherFields_fetchUnits (sid : Nat) (b : Block) :
    otherFields (beginMotion.fetchUnits sid b).flds = otherFields b.flds := by
  unfold beginMotion.fetchUnits
  split
  · rfl
  · exact otherFields_foldl (fun b k => otherFields_fetchUnit sid k b) _ b

@[simp] theorem otherFields_beginMotion (sid : Nat) (b : Block) :
    otherFields (beginMotion sid b).flds = otherFields b.flds := by
  unfold beginMotion
  split
  · rfl
  · dsimp only
    split
    · rw [otherFields_fetchUnits, otherFields_sendMsg, updSession_flds, flds_foldl fun b k => addLease_flds k b, takeSnap,
        updSession_flds, updSession_flds]
    · rw [otherFields_fetchUnits, updSession_flds]

@[simp] theorem otherFields_startLift (sid order : Nat) (b : Block) :
    otherFields (startLift sid order b).flds = otherFields b.flds := by
  unfold startLift
  split
  · rfl
  · dsimp only
    split
    · next hland =>
      have hkept := otherFields_tryLand hland
      rw [otherFields_fetchUnit, otherFields_bump (by decide), updSession_flds]
      exact hkept
    · rw [otherFields_bump (by decide), updSession_flds]

@[simp] theorem otherFields_resumeLift (sid order : Nat) (b : Block) :
    otherFields (resumeLift sid order b).flds = otherFields b.flds := by
  unfold resumeLift
  exact otherFields_ite (otherFields_startLift _ _ b) (by rw [suspendLift, updSession_flds])

@[simp] theorem otherFields_pump (n : Nat) (b : Block) : otherFields (pump n b).flds = otherFields b.flds := by
  induction n generalizing b with
  | zero => rfl
  | succ n ih =>
    unfold pump
    split
    · refine otherFields_ite (by rw [ih, otherFields_beginMotion]) ?_
      split
      · rw [ih, otherFields_beginMotion, suspendLift, updSession_flds]
      · rfl
    · refine otherFields_ite ?_ rfl
      split
      · rw [ih, otherFields_resumeLift]
      · rfl

/-! Sequences and pelotons. -/

@[simp] theorem releaseSlots_flds (s : Seqn) (b : Block) : (releaseSlots s b).flds = b.flds := by
  unfold releaseSlots
  split
  · rfl
  · rw [updRing_flds]

@[simp] theorem sweepSeq_flds (s : Seqn) (b : Block) : (sweepSeq s b).flds = b.flds := by
  have hgone : (releaseSlots s (setWaiting (b.ste.waiting.erase s) b)).flds = b.flds := by
    rw [releaseSlots_flds, setWaiting_flds]
  unfold sweepSeq
  dsimp only
  split
  · exact hgone
  · split
    · exact hgone
    · split
      · split
        · exact hgone
        · rfl
      · split
        · rfl
        · exact hgone
      · split
        · rfl
        · exact hgone
      · exact hgone
      · split
        · rfl
        · split
          · rw [releaseSlots_flds, setWaiting_flds]
          · exact hgone

@[simp] theorem enrolSession_flds (s : Seqn) (b : Block) : (enrolSession s b).flds = b.flds := by
  unfold enrolSession
  dsimp only
  split
  · rw [updReq_flds, updSession_flds]
  · rw [updSession_flds]

@[simp] theorem putSeqs_flds (place : Nat) (ss : List Seqn) (b : Block) : (putSeqs place ss b).flds = b.flds := by
  unfold putSeqs
  split
  · rfl
  · rw [setPel_flds]

@[simp] theorem joinSeqs_flds (place : Nat) (ss : List Seqn) (b : Block) : (joinSeqs place ss b).flds = b.flds := by
  induction ss generalizing b with
  | nil => rfl
  | cons s ss ih =>
    unfold joinSeqs
    split
    · rfl
    · split
      · rw [ih, enrolSession_flds, putSeqs_flds, setWaiting_flds]
      · rw [ih]

@[simp] theorem newPeloton_flds (place : Nat) (key : Nat × Nat) (s : Seqn) (b : Block) :
    (newPeloton place key s b).flds = b.flds := by
  unfold newPeloton
  dsimp only
  rw [enrolSession_flds, setPel_flds, nextTick]

@[simp] theorem formPeloton_flds (s : Seqn) (b : Block) : (formPeloton s b).flds = b.flds := by
  unfold formPeloton
  split
  · dsimp only
    split
    · rw [joinSeqs_flds, newPeloton_flds, setWaiting_flds]
    · rfl
  · rfl

@[simp] theorem otherFields_chainLeaves (i : Nat) (b : Block) : otherFields (chainLeaves i b).flds = otherFields b.flds := by
  unfold chainLeaves
  dsimp only
  refine otherFields_ite rfl (otherFields_ite ?_ ?_)
  · rw [setSpoke_flds]
  · rw [otherFields_bump (by decide), setSpoke_flds]

@[simp] theorem otherFields_chainsLeave (place : Nat) (p : Peloton) (b : Block) :
    otherFields (chainsLeave place p b).flds = otherFields b.flds :=
  otherFields_foldl (fun b (e : Nat × Spoke) => otherFields_ite (otherFields_chainLeaves e.1 b) rfl) _ b

@[simp] theorem otherFields_markPreempt (b : Block) : otherFields (markPreempt b).flds = otherFields b.flds := by
  unfold markPreempt
  refine otherFields_ite rfl ?_
  split
  · rfl
  · dsimp only
    split
    · rfl
    · rw [otherFields_chainsLeave, setPel_flds, nextTick]

@[simp] theorem markVictim_flds (b : Block) : (markVictim b).flds = b.flds := by
  unfold markVictim
  split
  · rfl
  · dsimp only
    split
    · rfl
    · rw [setPel_flds]

@[simp] theorem otherFields_steTidy (b : Block) : otherFields (steTidy b).flds = otherFields b.flds := by
  rw [steTidy, markVictim_flds, otherFields_markPreempt, formPelotons,
    otherFields_foldl fun b s => by rw [formPeloton_flds], addRevivals, otherFields_foldl ?_,
    otherFields_foldl fun b s => by rw [sweepSeq_flds]]
  intro b e
  exact otherFields_ite (by rw [setWaiting_flds]) rfl

/-- Bringing the module to rest leaves every field as it is but those of `restFields`. -/
theorem getFi_rest (b : Block) {g : Fld} (hg : g.key ∉ restKeys) (j : Nat) : (rest b).getFi g j = b.getFi g j := by
  refine otherFields_eq_iff.1 ?_ g j hg
  rw [rest]
  refine otherFields_ite ?_ (otherFields_settle b)
  rw [otherFields_settle, otherFields_steTidy, otherFields_pump, otherFields_scrubItems, otherFields_modelTidy,
    otherFields_txuTidy, otherFields_reapClosing]

/-! ### A failed read at a full `tier_fault` counter (R94, Table 4.16) -/

/-- A WARM session whose image stands in the host tier, in a revival that runs and that no instruction waits for. -/
def revivingSession : Session :=
  { newSession 1 1 0 0 0 64 0 [] with
    state := ssMotion, depth := dWarm, warmTier := 1, motion := some ⟨.revive, 1, 0, true, false, dHot, 0, none⟩ }

/-- The booted module with that session in slot 0, and `tier_fault` at the most its 16 bits hold. -/
def faultsFull : State :=
  let b : Block := { Block.reset with
    rtp := { RtpState.reset with ready := true }, ses := { SesState.reset with slots := [(0, revivingSession)] } }
  ⟨b.setF F.PNE_CNT_FAULT_tier_fault 0xFFFF, []⟩

/-- What the last part of O31 asks of a state holds there. -/
theorem faultsFull_meets :
    faultsFull.works ∧ session faultsFull.toBlock 0 = some revivingSession ∧ waitsOnLower faultsFull.toBlock 0 = true ∧
    singleHome faultsFull.toBlock = false ∧ faultsFull.toBlock.getF F.PNE_CNT_FAULT_tier_fault = 0xFFFF := by
  decide +kernel

/-- The counter saturates: one more failed read leaves it as it is. -/
theorem faultsFull_saturates : (tierFails 0 true faultsFull.toBlock).getF F.PNE_CNT_FAULT_tier_fault = 0xFFFF := by
  decide +kernel

/-- Two modules that come to the same rest agree in every field that `rest` does not set. -/
theorem getF_eq_of_rest_eq {b b' : Block} (h : rest b' = rest b) {g : Fld} (hg : g.key ∉ restKeys) : b'.getF g = b.getF g := by
  have hrest : (rest b').getFi g 0 = (rest b).getFi g 0 := by rw [h]
  rwa [getFi_rest b' hg, getFi_rest b hg] at hrest

/-- Refutes O31: `tier_fault` is a counter of 16 bits (bits [31:16] of its register), so from 65,535 a failed read leaves it at
65,535, where the statement, which saturates it at 2^32 - 1, has 65,536. -/
theorem not_motionsEnd : ¬ Obligations.MotionsEnd := by
  unfold Obligations.MotionsEnd
  rintro ⟨-, -, hfailed⟩
  obtain ⟨hworks, hsession, hlower, hmirror, hfull⟩ := faultsFull_meets
  obtain ⟨b', htimeout, -, -, hcount, -⟩ := hfailed faultsFull 0 revivingSession ⟨.revive, 1, 0, true, false, dHot, 0, none⟩
    hworks (by decide) hsession rfl rfl rfl rfl hlower rfl hmirror
  rw [exec_tierTimeout, actC_slot _ hworks (by decide)] at htimeout
  have hrest : rest (tierFails 0 true faultsFull.toBlock) = rest b' :=
    congrArg State.toBlock (Host.Outcome.next.inj htimeout)
  have hsaturated : b'.getF F.PNE_CNT_FAULT_tier_fault = 0xFFFF :=
    (getF_eq_of_rest_eq hrest.symm (by decide)).trans faultsFull_saturates
  rw [hsaturated, hfull] at hcount
  exact absurd hcount (by decide)

end Sys2Proof.Machine

/-! PROOFS of the family 03_chain_programs: the start of rings (O26), cancels and records (O28). -/

namespace Sys2Proof.Machine

/-! ### Cancels (R63, R73) -/

/-- An aperture reaches no ring but its own tenant's (R73). -/
theorem ringAccess_foreign {t : BitVec 12} {ring : Nat} (offset : Nat) (f : Block → Block) {b : Block}
    (h : ringTenant b ring ≠ t.toNat) : ringAccess (.aperture t) offset ring f b = violation 4 t.toNat offset ring b :=
  if_neg h

theorem exec_cancelGo_works {s : State} (who : Caller) (v : BitVec 64) (hw : s.works) :
    exec (.cancelGo who v) s = .next (s.put (rest (cancelWrite who v.toNat s.toBlock))) := by
  rw [exec_cancelGo, act_up _ UnitRef.none_wf hw.1, if_pos hw.2]

/-- What a request whose record is not yet due becomes when it is ended from outside. -/
theorem cutRequest_body {rid : Nat} {q : Req} {b : Block} (status : Nat) (hq : req b rid = some q) (hk : q.kind = .normal)
    (hf : q.isTrailerFail = false) (hp : q.phase = .body) :
    cutRequest rid status b =
      if q.started = false ∨ waitEndsAtOnce q.wait = true then
        endRequest rid status (min q.pc (q.instrs.length - 1)) (noteOwnResult rid (setReq rid { q with owed := some status } b))
      else if q.owed.isSome then b else setReq rid { q with owed := some status } b := by
  have hcut : ¬(q.kind ≠ .normal ∨ q.isTrailerFail = true) := by simp [hk, hf]
  simp only [cutRequest, hq, if_neg hcut, hp]

/-- A cancel from management space acts on the accepted, uncompleted request of the ring that CFE_CANCEL_ID names. -/
theorem cancelWrite_mgmt_found {v rid : Nat} {q : Req} {b : Block}
    (h : (b.fe.reqs.find? fun e => inflight e.2 && decide (e.2.ring = bitsOf v 0 16) &&
      decide (e.2.reqId = b.getF F.CFE_CANCEL_ID_req_id)) = some (rid, q)) :
    cancelWrite .mgmt v b = cutRequest rid St.cancelled b := by
  simp only [cancelWrite, ringAccess, Caller.tenant?, h, cancelRequest]

/-! ### Replays and records that wait (R66, R71) -/

theorem replayDuplicate_due {rid idx : Nat} {q : Req} {b : Block} (hq : req b rid = some q) (hk : q.kind = .replay idx)
    (hp : q.phase = .body) (ho : originalFlies b q.ring q.reqId = false) :
    replayDuplicate rid b = postRecord rid b := by
  simp only [replayDuplicate, hq, hk, if_pos (And.intro hp ho)]

/-- The record at the head of a ring's queue is written where it has room, and the next is tried; without room none is. -/
theorem drainQueue_head {ring rid : Nat} {q : Req} {r : Ring} {more : List Nat} {b : Block} (n : Nat)
    (hr : ringOf b ring = some r) (hc : r.cqQueue = rid :: more) (hq : req b rid = some q) :
    drainQueue ring (n + 1) b =
      if (recordBytes b q).length / 64 ≤ cqFree b r then
        drainQueue ring n (writeRecord rid q { r with cqQueue := more } (updRing ring (fun _ => { r with cqQueue := more }) b))
      else b := by
  simp only [drainQueue, hr, hc, hq]

theorem rereadSpace_eq {rid : Nat} {q : Req} {r : Ring} {b : Block} (hq : req b rid = some q) (hr : ringOf b q.ring = some r) :
    rereadSpace rid b = drainQueue q.ring (r.cqQueue.length + 1) b := by
  simp only [rereadSpace, hq, hr, Option.map_some, Option.getD_some]

/-! ### Trailers (R52, R58) -/

section
variable {rid ca : Nat} {q : Req} {b : Block} (hq : req b rid = some q) (hk : q.kind = .normal) (hp : q.phase = .trailer)
  (hw : q.wait = .none ∨ q.wait = .retry) (hca : q.completeAt = some ca)
include hq hk hp hw hca

/-- A closed request with no trailer instruction left is gone. -/
theorem runTrailer_over (hi : q.instrs[max q.pc (ca + 1)]? = none) (hcl : q.closed = true) : runTrailer rid b = delReq rid b := by
  have hgo : ¬(q.kind ≠ .normal ∨ q.phase ≠ .trailer ∨ (q.wait ≠ .none ∧ q.wait ≠ .retry)) := by
    simp only [hk, hp, ne_eq, not_true_eq_false, false_or]; tauto
  simp only [runTrailer, hq, if_neg hgo, hca, hi, hcl, if_true]

/-- The next trailer instruction, where it spells a row, is refused, passed over or run. -/
theorem runTrailer_next {e : Entry} {row : CRow} (hi : q.instrs[max q.pc (ca + 1)]? = some e) (hlen : max q.pc (ca + 1) < 256)
    (hrow : rowOf (ringIsa b q.ring) e = some row) :
    let q' := { q with pc := max q.pc (ca + 1), owed := none }
    let b' := setReq rid q' b
    let t := reqTenant b' q'
    runTrailer rid b =
      if opInTrailer e.opcode = false ∨ encodingBad b' (ringIsa b q.ring) t e = true then instrDone rid St.malformed none b'
      else if trailerIdle q' e b' = true then instrDone rid St.ok none b'
      else applyAns rid (trailerBody row ⟨rid, q', e, t, q.ring, entryB b' e, e.hi, true⟩ b') := by
  have hgo : ¬(q.kind ≠ .normal ∨ q.phase ≠ .trailer ∨ (q.wait ≠ .none ∧ q.wait ≠ .retry)) := by
    simp only [hk, hp, ne_eq, not_true_eq_false, false_or]; tauto
  simp only [ringIsa] at hrow ⊢
  simp only [runTrailer, hq, if_neg hgo, hca, hi, if_neg (Nat.not_le.2 hlen), ringOf_setReq, hrow]

end

/-- Settles O28: each command meets one branch of its meaning, which the lemma of that branch states. -/
theorem recordsAnswerRequests : Obligations.RecordsAnswerRequests := by
  unfold Obligations.RecordsAnswerRequests
  refine ⟨⟨fun s v rid q => ?_, fun s t v hw hten => ?_⟩, fun s rid c b hruns hreq => ?_,
    fun s rid idx q hw hq hk hp ho => ?_, fun s rid q r more hw hq hr hc => ?_,
    fun s rid ca q hw hq hk hp hwait hca hi hcl => ?_, fun s rid ca q e row hw hq hk hp hwait hca hi hlen hrow => ?_⟩
  · intro b ring hw hfind hq hk hf hp
    rw [exec_cancelGo_works _ _ hw, cancelWrite_mgmt_found hfind, cutRequest_body _ hq hk hf hp]
  · rw [exec_cancelGo_works _ _ hw, cancelWrite, ringAccess_foreign _ _ hten]
  · rw [exec_complete, exec_runs complete hruns, complete, runs_rid hruns, applyAns]
  · rw [exec_duplicateReplay, actC_works _ UnitRef.none_wf hw, replayDuplicate_due hq hk hp ho]
  · rw [exec_cqSpaceReread, actC_works _ UnitRef.none_wf hw, rereadSpace_eq hq hr, drainQueue_head _ hr hc hq, hc,
      List.length_cons]
  · rw [exec_trailer, actC_works _ UnitRef.none_wf hw, runTrailer_over hq hk hp (.inl hwait) hca hi hcl]
  · rw [exec_trailer, actC_works _ UnitRef.none_wf hw, runTrailer_next hq hk hp hwait hca hi hlen hrow]

/-! ### Messages of the low-water marks (R400, R407) -/

/-- From `b` to `b'` no interrupt source ceases to be listed, and where no source of `ns` is listed in the end, no message has
been written: companion memory is as it was. -/
structure MessagesListed (ns : List Nat) (b b' : Block) : Prop where
  unlisted : ∀ m, tget b'.intr.srcs m = none → tget b.intr.srcs m = none
  quiet : (∀ n ∈ ns, tget b'.intr.srcs n = none) → b'.cmem = b.cmem

namespace MessagesListed

theorem of_eq {ns : List Nat} {b b' : Block} (hm : b'.cmem = b.cmem) (hi : b'.intr.srcs = b.intr.srcs) : MessagesListed ns b b' :=
  ⟨fun _ h => hi ▸ h, fun _ => hm⟩

theorem trans {ns : List Nat} {a b c : Block} (h : MessagesListed ns a b) (h' : MessagesListed ns b c) : MessagesListed ns a c where
  unlisted m hm := h.unlisted m (h'.unlisted m hm)
  quiet hns := (h'.quiet hns).trans (h.quiet fun n hn => h'.unlisted n (hns n hn))

end MessagesListed

theorem foldl_signalTarget_intr (ts : List Nat) (b : Block) : (ts.foldl (fun b t => signalTarget t b) b).intr = b.intr := by
  induction ts generalizing b with
  | nil => rfl
  | cons t ts ih =>
    rw [List.foldl_cons, ih]
    unfold signalTarget
    split
    · rfl
    · split <;> rfl

@[simp] theorem signalTargets_intr (b : Block) : (signalTargets b).intr = b.intr := foldl_signalTarget_intr _ b

/-- A source that is set and signalled is listed. -/
theorem messagesListed_signalled {ns : List Nat} {n : Nat} (x : IntSrc) (b : Block) (hn : n ∈ ns) :
    MessagesListed ns b (signalTargets (setIntSrc n x b)) := by
  have hsrcs : (signalTargets (setIntSrc n x b)).intr.srcs = tset b.intr.srcs n x := by rw [signalTargets_intr, setIntSrc_srcs]
  constructor
  · intro m hm
    rw [hsrcs, tget_tset] at hm
    split at hm
    · cases hm
    · exact hm
  · intro hns
    have hself := hns n hn
    rw [hsrcs, tget_tset_self] at hself
    cases hself

/-- A level that changes is signalled under its source, outside standby. -/
theorem setLevel_messagesListed {ns : List Nat} {n : Nat} (on : Bool) (b : Block) (hn : n ∈ ns) :
    MessagesListed ns b (setLevel n on b) := by
  unfold setLevel
  split
  · exact .of_eq rfl rfl
  · show MessagesListed ns b (if b.getF F.PMC_STAT_pstate = pstateStandby then _ else signalTargets _)
    split
    · exact .of_eq rfl rfl
    · refine .trans ?_ (messagesListed_signalled _ _ hn)
      exact .of_eq rfl rfl

theorem levelFlag_messagesListed {ns : List Nat} {src : Nat} (f : Fld) (seen : Option Fld) (on : Bool) (b : Block) (hn : src ∈ ns) :
    MessagesListed ns b (levelFlag f seen src on b) := by
  unfold levelFlag
  split
  · exact .of_eq rfl rfl
  · exact .trans (.of_eq (by cases seen <;> cases on <;> rfl) (by cases seen <;> cases on <;> rfl)) (setLevel_messagesListed on _ hn)

/-- The sources of the low-water marks, which `settle` judges. -/
def lowMarks : List Nat := [Src.framesLow, Src.stageLow, Src.serialLow]

theorem settle_messagesListed (b : Block) : MessagesListed lowMarks b (settle b) := by
  unfold settle
  have hframes : Src.framesLow ∈ lowMarks := by decide
  have hstage : Src.stageLow ∈ lowMarks := by decide
  have hserial : Src.serialLow ∈ lowMarks := by decide
  refine .trans ?_ (levelFlag_messagesListed _ _ _ _ hserial)
  refine .trans ?_ (levelFlag_messagesListed _ _ _ _ hstage)
  exact levelFlag_messagesListed _ _ _ _ hframes

/-! ### An overrun whose interrupt message falls on the tail line (R47, R49, R407, R408) -/

/-- A booted module, fenced, with all of companion memory's first 2 MiB in one io window. At 256 stands a control block of chain
ISA 3.1 with 64 command and completion slots, whose tail line holds 65. Ring 0, disabled, is selected; its interrupt source
RING_0 is enabled towards companion target 8, whose messages are the word 0 at 320: the tail line. -/
def tailOverwritten : State :=
  let b : Block := { Block.reset with
    rtp := { RtpState.reset with ready := true }
    cmem := [(256, 0x43), (257, 0x48), (258, 0x43), (259, 0x31), (260, 0x31), (261, 6), (262, 6), (265, 0x10), (273, 0x20),
      (281, 0x30), (320, 65)]
    intr := ⟨[(0, ⟨true, 8, 0, false, false, false, 0, 0⟩)], [], [], [], [], []⟩ }
  ⟨(((((b.setF F.MEM_HWIN_CFG_enable 1).setF F.MEM_HWIN_CFG_all_tenants 1).setF F.MEM_HWIN_CFG_size_2m 1).setF
    F.CMP_ID_isolated 1).setFi F.INT_TGT_MSI_ADDR_addr 8 80), []⟩

/-- The module that the write of `enable` with the control block at 256 leaves there. -/
def tailOverrun : Block := ringCtrlWrite .mgmt 257 tailOverwritten.toBlock

/-- What the statement asks of a ring that it says is enabled. -/
theorem tailOverwritten_meets :
    let b := tailOverwritten.toBlock
    let set := (b.setFi F.CFE_RING_CTRL_cb_addr 0 (bitsOf 257 8 44)).setFi F.CFE_RING_CTRL_enable 0 1
    b.up = true ∧ b.getF F.CFE_RING_SEL_ring = 0 ∧ b.getFi F.CFE_RING_STAT_state 0 = rsDisabled ∧ ringTenant set 0 = 0 ∧
    256 * set.getFi F.CFE_RING_CTRL_cb_addr 0 = 256 ∧ enableError set 0 256 = 0 ∧ b.peekLe (256 + 7) 1 % 2 = 0 ∧
    b.getF F.PMC_STAT_pstate ≠ pstateStandby := by
  decide +kernel

/-- The ring is in the error state, the tail line reads 0, and a fenced module does no work. -/
theorem tailOverrun_spec :
    working tailOverrun = false ∧ tailOverrun.getFi F.CFE_RING_STAT_state 0 = rsError ∧
    (settle tailOverrun).peekLe (256 + 64) 8 = 0 ∧ (∀ n ∈ lowMarks, tget (settle tailOverrun).intr.srcs n = none) := by
  decide +kernel

theorem rest_idle {b : Block} (h : working b = false) : rest b = settle b := by
  simp only [rest, h, Bool.false_eq_true, if_false]

/-- Two modules that come to the same rest are both at work or both not. -/
theorem working_eq_of_rest_eq {b b' : Block} (h : rest b' = rest b) : working b' = working b :=
  working_congr (getF_eq_of_rest_eq h (by decide)) (getF_eq_of_rest_eq h (by decide))

/-- Whatever module the rest of the fenced one came from, its ring is in the error state and its tail line reads 0. -/
theorem rest_tailOverrun {b : Block} (h : rest b = rest tailOverrun) :
    b.getFi F.CFE_RING_STAT_state 0 = rsError ∧ b.peekLe (256 + 64) 8 = 0 := by
  obtain ⟨hidle, hstate, htail, hlow⟩ := tailOverrun_spec
  have hsettle : settle b = settle tailOverrun := by
    rw [← rest_idle hidle, ← h, rest_idle ((working_eq_of_rest_eq h).trans hidle)]
  have hmem : (settle b).cmem = b.cmem := (settle_messagesListed b).quiet (by rw [hsettle]; exact hlow)
  constructor
  · exact (getF_eq_of_rest_eq (g := F.CFE_RING_STAT_state) h (by decide)).trans hstate
  · rw [Block.peekLe, Block.peek, ← hmem, hsettle]
    exact htail

/-- Refutes O26: the overrun of a ring raises its interrupt, and a message of the companion target may fall on the ring's own tail
line. The ring is then in the error state for a tail of 65, where the module that the write leaves reads a tail of 0, which is no
overrun. -/
theorem not_ringsStartAndDrain : ¬ Obligations.RingsStartAndDrain := by
  unfold Obligations.RingsStartAndDrain
  rintro ⟨hstart, -⟩
  obtain ⟨hup, hsel, hdis, hten, hcb, herr, hres, hp⟩ := tailOverwritten_meets
  have henable := (hstart tailOverwritten 257 0 256 hup (by rw [hsel]; exact hdis) (by decide) (by rw [hsel]; exact hten.symm)
    (by rw [hsel]; exact hcb.symm)).2 (by rw [hsel]; exact herr) hres hp
  obtain ⟨b', r, hexec, -, -, -, -, -, -, -, -, -, -, -, -, -, -, -, -, hend⟩ := henable
  rw [exec_ringEnable, actR_up _ UnitRef.none_wf hup] at hexec
  obtain ⟨hstate, htail⟩ := rest_tailOverrun (congrArg State.toBlock (Host.Outcome.next.inj hexec)).symm
  rw [hsel, hstate, htail, if_neg (Nat.not_lt_zero _)] at hend
  exact absurd hend (by decide)

end Sys2Proof.Machine

/-! PROOFS of the family 04_park_revive_move: depth hints, PARK and DEPTH (O3), moves between modules (O32). -/

namespace Sys2Proof.Machine

/-! ### One session changed -/

theorem session_updSession (sid n : Nat) (f : Session → Session) (b : Block) :
    session (updSession sid f b) n = if n = sid then (session b n).map f else session b n := by
  rw [session, updSession, tget_tupd]
  split
  · next h => rw [h, session]
  · rfl

@[simp] theorem dropFetches_ses (sid : Nat) (b : Block) : (dropFetches sid b).ses = b.ses := by unfold dropFetches; split <;> rfl

/-- The module whose session waits for no lift, before its shadow slot is dropped (R96). -/
def liftGivenUp (sid : Nat) (b : Block) : Block := updSession sid (fun x => { x with liftWait := none }) (dropFetches sid b)

theorem session_liftGivenUp (sid n : Nat) (b : Block) :
    session (liftGivenUp sid b) n = if n = sid then (session b n).map fun x => { x with liftWait := none } else session b n := by
  rw [liftGivenUp, session_updSession, session_congr (congrArg _ (dropFetches_ses sid b))]

/-- Giving up a lift leaves the shadow slot. -/
theorem shadow_liftGivenUp (sid : Nat) (b : Block) :
    (session (liftGivenUp sid b) sid).bind (·.shadow) = (session b sid).bind (·.shadow) := by
  rw [session_liftGivenUp, if_pos rfl, Option.bind_map]
  rfl

/-- Where there is no shadow slot, only the lift is given up. -/
theorem dropShadow_of_none {sid : Nat} {b : Block} (h : (session b sid).bind (·.shadow) = none) :
    dropShadow sid b = liftGivenUp sid b := by
  rw [← shadow_liftGivenUp, liftGivenUp] at h
  rw [dropShadow, h]
  rfl

/-- The frames of a shadow slot go back, and it counts as dropped. -/
theorem dropShadow_of_some {sid : Nat} {b : Block} {sh : Shadow} (h : (session b sid).bind (·.shadow) = some sh) :
    dropShadow sid b = (updSession sid (fun x => { x with shadow := none })
      (sh.frames.foldl (fun b k => returnFrame k b) (liftGivenUp sid b))).bump F.PNE_CNT_SPEC_spec_drop := by
  rw [← shadow_liftGivenUp, liftGivenUp] at h
  rw [dropShadow, h]
  rfl

theorem session_foldl_returnFrame (ks : List Nat) (n : Nat) (b : Block) :
    session (ks.foldl (fun b k => returnFrame k b) b) n = session b n := by
  obtain ⟨fs, sbs, hframes⟩ := foldl_returnFrame_frame ks b
  rw [hframes]
  rfl

/-- Of the sessions, a dropped shadow slot changes its own alone. -/
theorem session_dropShadow (sid n : Nat) (b : Block) : session (dropShadow sid b) n =
    if n = sid then (session b n).map fun x => { x with shadow := none, liftWait := none } else session b n := by
  cases h : (session b sid).bind (·.shadow) with
  | none =>
    rw [dropShadow_of_none h, session_liftGivenUp]
    split
    · next hn =>
      rw [hn]
      refine Option.map_congr fun x hx => ?_
      have hshadow : x.shadow = none := by rwa [hx] at h
      rw [← hshadow]
    · rfl
  | some sh =>
    rw [dropShadow_of_some h, session_congr (congrArg _ (bump_ses _ _)), session_updSession, session_foldl_returnFrame,
      session_liftGivenUp]
    split
    · rw [Option.map_map]; rfl
    · rfl

@[simp] theorem dropShadow_cmem (sid : Nat) (b : Block) : (dropShadow sid b).cmem = b.cmem := by
  obtain ⟨_, _, _, _, _, h, -⟩ := dropShadow_frame sid b
  rw [h]

/-- A session without a shadow slot has none that counts as dropped. -/
theorem dropShadow_flds {sid : Nat} {b : Block} {x : Session} (hx : session b sid = some x) (hshadow : x.shadow = none) :
    (dropShadow sid b).flds = b.flds := by
  rw [dropShadow_of_none (by rw [hx]; exact hshadow), liftGivenUp, updSession_flds, dropFetches_flds]

/-- An argument is read from companion memory alone (R54). -/
theorem ctxArg_congr (c : Ctx) {b b' : Block} (lo n : Nat) (h : b'.cmem = b.cmem) : c.arg b' lo n = c.arg b lo n := by
  rw [Ctx.arg, Ctx.arg, Block.peekLe, Block.peekLe, Block.peek, Block.peek, h]

/-! ### DEPTH with its hint bit (R76) -/

/-- The expected-resume time that a DEPTH's block gives, where it has one. -/
def resumeTaken (c : Ctx) (sid : Nat) (b : Block) : Block :=
  if c.e.ptr then updSession sid (fun x => { x with resumeHintNs := c.arg b 32 8, hintSpent := false }) b else b

/-- The module that a DEPTH with its hint bit leaves. -/
def depthHinted (c : Ctx) (sid : Nat) (b : Block) : Block :=
  resumeTaken c sid (updSession sid (fun x => { x with hintDepth := bitsOf c.e.a 0 2, hintTier := bitsOf c.e.a 2 2 })
    (dropShadow sid b))

@[simp] theorem resumeTaken_flds (c : Ctx) (sid : Nat) (b : Block) : (resumeTaken c sid b).flds = b.flds := by
  unfold resumeTaken; split <;> rfl

@[simp] theorem resumeTaken_cmem (c : Ctx) (sid : Nat) (b : Block) : (resumeTaken c sid b).cmem = b.cmem := by
  unfold resumeTaken; split <;> rfl

theorem session_resumeTaken (c : Ctx) (sid n : Nat) (b : Block) :
    session (resumeTaken c sid b) n = if n = sid then (session b n).map fun x => { x with
      resumeHintNs := if c.e.ptr then c.arg b 32 8 else x.resumeHintNs
      hintSpent := if c.e.ptr then false else x.hintSpent } else session b n := by
  unfold resumeTaken
  split
  · exact session_updSession _ _ _ _
  · simp

/-- A DEPTH with its hint bit completes at once, with the depth held. -/
theorem depthHint_done {c : Ctx} {b : Block} {sid : Nat} {x : Session} (hon : OnSession c b sid x)
    (hadm : Admitted c b sid x .any) :
    depthHint c b = .done St.ok (some [BitVec.ofNat 8 x.depth]) (depthHinted c sid b) := by
  rw [depthHint, withSession_on _ _ hon]
  obtain ⟨-, -, -, -, -, -, -, -, -, hopen⟩ := hon
  simp only [hopen, admitted_of hadm, Bool.false_eq_true, Bool.true_eq_false, and_false, if_false]
  rfl

/-- Of the sessions, such a DEPTH changes the one it names alone. -/
theorem session_depthHinted_ne (c : Ctx) {sid n : Nat} (b : Block) (hn : n ≠ sid) :
    session (depthHinted c sid b) n = session b n := by
  rw [depthHinted, session_resumeTaken, if_neg hn, session_updSession, if_neg hn, session_dropShadow, if_neg hn]

/-- The one it names has its hints, and its expected-resume time where the block gives one, and no shadow slot. -/
theorem session_depthHinted (c : Ctx) {sid : Nat} {b : Block} {x : Session} (hx : session b sid = some x) :
    session (depthHinted c sid b) sid = some { x with
      hintDepth := bitsOf c.e.a 0 2, hintTier := bitsOf c.e.a 2 2
      resumeHintNs := if c.e.ptr then c.arg b 32 8 else x.resumeHintNs
      hintSpent := if c.e.ptr then false else x.hintSpent
      shadow := none, liftWait := none } := by
  rw [depthHinted, session_resumeTaken, if_pos rfl, session_updSession, if_pos rfl, session_dropShadow, if_pos rfl, hx,
    ctxArg_congr c 32 8 (show _ = b.cmem by rw [updSession_cmem, dropShadow_cmem])]
  rfl

/-! ### PARK and DEPTH to a lower depth (R41, R75, R76) -/

/-- The module in which the park of a HOT session to depth `d` and tier `t` is ordered. -/
def parkOrdered (c : Ctx) (sid d t : Nat) (f : Bool) (b : Block) : Block :=
  orderMotion sid .park 3 d t (some c.rid) (admitDepth c sid (countFallback f b))

/-- From HOT, every lower depth that R41 chooses is reached by a park (Table 4.1). -/
theorem motionKindTo_lower {x : Session} {d : Nat} (t : Nat) (hhot : x.depth = dHot) (hd : d ≠ dHot) :
    motionKindTo x d t = some .park := by
  rw [motionKindTo, if_neg hd, if_pos hhot]

/-- A HOT session goes to the lower depth that R41 chooses by a park in class 3, which the instruction waits for. -/
theorem toDepth_lower {c : Ctx} {b : Block} {x : Session} {d t : Nat} {f park : Bool} (sid : Nat) (hhot : x.depth = dHot)
    (hchoice : chooseTarget b x (bitsOf c.e.a 0 2) (bitsOf c.e.a 2 2) park = .go d t f) (hd : d ≠ dHot) :
    toDepth c park sid x b = .wait (.motion (waitsOnLower (parkOrdered c sid d t f b) sid)) (parkOrdered c sid d t f b) := by
  have hcold : ¬(x.depth = dCold ∧ bitsOf c.e.a 0 2 = dWarm) := by rw [hhot]; rintro ⟨h, -⟩; cases h
  have hstays : ¬(park = true ∧ x.depth ≠ dHot) := fun h => h.2 hhot
  simp only [toDepth, if_neg hcold, if_neg hstays, hchoice, motionKindTo_lower t hhot hd]
  rfl

/-- A PARK that names a depth and is admitted heads for what R41 chooses. -/
theorem park_toDepth {c : Ctx} {b : Block} {sid : Nat} {x : Session} (hdepth : bitsOf c.e.a 0 2 ≠ 0) (hon : OnSession c b sid x)
    (hadm : Admitted c b sid x .idle) : park c b = toDepth c true sid x b := by
  rw [park, if_neg hdepth, withSession_on _ _ hon]
  obtain ⟨-, -, -, -, -, -, -, -, -, hopen⟩ := hon
  simp only [hopen, admitted_of hadm, Bool.false_eq_true, Bool.true_eq_false, and_false, if_false]

/-- So does a DEPTH that is admitted. -/
theorem depth_toDepth {c : Ctx} {b : Block} {sid : Nat} {x : Session} (hon : OnSession c b sid x)
    (hadm : Admitted c b sid x .idle) : depth c b = toDepth c false sid x b := by
  rw [depth, withSession_on _ _ hon]
  obtain ⟨-, -, -, -, -, -, -, -, -, hopen⟩ := hon
  simp only [hopen, admitted_of hadm, Bool.false_eq_true, Bool.true_eq_false, and_false, if_false]

/-- Settles O3: a hint changes its session and orders nothing; from HOT, PARK and DEPTH order the same motion, since every lower
depth is reached by a park. -/
theorem depthRowsOrderMotions : Obligations.DepthRowsOrderMotions := by
  unfold Obligations.DepthRowsOrderMotions
  refine ⟨fun s rid c b sid x hrun hon hfirst => ?_, fun s rid c b sid x d t f hrun hdepth hon hadm hhot hchoice hd => ?_,
    fun s rid c b sid x d t f hrun hon hadm hhot hchoice hd => ?_⟩
  · obtain ⟨-, -, -, hx, -⟩ := id hon
    rw [← runs_rid hrun] at hfirst
    refine ⟨depthHinted c sid b, ?_, session_depthHinted c hx, fun n hn => session_depthHinted_ne c b hn, ?_, fun hshadow => ?_⟩
    · rw [exec_depthHint]
      exact exec_ends hrun (depthHint_done hon ⟨rfl, hfirst⟩)
    · rw [depthHinted, resumeTaken_cmem, updSession_cmem, dropShadow_cmem]
    · rw [depthHinted, resumeTaken_flds, updSession_flds, dropShadow_flds hx hshadow]
  · have hbody := (park_toDepth hdepth hon hadm).trans (toDepth_lower sid hhot hchoice hd)
    rw [parkOrdered, runs_rid hrun] at hbody
    rw [exec_park]
    exact exec_waits hrun hbody
  · have hbody := (depth_toDepth hon hadm).trans (toDepth_lower sid hhot hchoice hd)
    rw [parkOrdered, runs_rid hrun] at hbody
    rw [exec_depth]
    exact exec_waits hrun hbody

/-! ### The destination of a MOVE (R86, R87) -/

/-- The module that holds a reservation for a header offered to it. -/
def offerReserved (src : Nat) (h : Bytes) (b : Block) : Block :=
  { b with ses := { b.ses with inbound := tset b.ses.inbound (hdrMoveId h) ⟨src, h, [], none, none, none⟩ } }

/-- A header offered that no READY has answered is reserved for where it passes the checks. -/
theorem takeOffer_passes {src : Nat} {h : Bytes} {b : Block} (hopen : ((tget b.ses.inbound (hdrMoveId h)).bind (·.ready)) = none)
    (hcheck : arriveCheck b src h = none) : takeOffer src h b = offerReserved src h b := by
  simp only [takeOffer, hopen, Option.isSome_none, Bool.false_eq_true, if_false, hcheck]
  rfl

/-- Else it is refused with the status of the check it fails. -/
theorem takeOffer_fails {src st : Nat} {h : Bytes} {b : Block} (hopen : ((tget b.ses.inbound (hdrMoveId h)).bind (·.ready)) = none)
    (hcheck : arriveCheck b src h = some st) : takeOffer src h b = refuseMove src (hdrMoveId h) st b := by
  simp only [takeOffer, hopen, Option.isSome_none, Bool.false_eq_true, if_false, hcheck]

section Inbound
variable {id : Nat} {b : Block} {e : InboundMove} (he : tget b.ses.inbound id = some e)
include he

/-- A section joins the body of a pannier that no READY has answered. -/
theorem takeSection_open (bs : Bytes) (hopen : e.ready = none) :
    takeSection id bs b =
      { b with ses := { b.ses with inbound := tset b.ses.inbound id { e with body := e.body ++ bs } } } := by
  simp only [takeSection, he, hopen, Option.isSome_none, Bool.false_eq_true, if_false]

/-- A trailer whose wrapping or digest does not match is refused with INTEGRITY. -/
theorem takeTrailer_mismatch {bs : Bytes} {ok : Bool} (hopen : e.ready = none)
    (hbad : ok = false ∨ bs.take 32 ≠ sha256 (e.header ++ e.body)) :
    takeTrailer id bs ok b = refuseMove e.src id St.integrity b := by
  simp only [takeTrailer, he, hopen, Option.isSome_none, Bool.false_eq_true, if_false, if_pos hbad]

/-- COMMIT activates the session, where no tandem partner has still to hold it (R377). -/
theorem takeCommit_held (hheld : e.waitDelta = none) : takeCommit id b = activateInbound id b := by
  simp only [takeCommit, he, hheld, Option.isSome_none, Bool.false_eq_true, if_false]

end Inbound

/-- The module once an inbound session's slot is taken: its new handle, and the copy of it that a tandem partner is to hold. -/
def slotTaken (id sid gen : Nat) (e : InboundMove) (x : Session) (b : Block) : Block :=
  let d := takeFree b
  { d with ses := { d.ses with inbound := tset d.ses.inbound id { e with
      ready := some (sid, gen), held := some (copySession b { x with state := stateOfDepth dCold }) } } }

/-- A slot taken leaves the registers. -/
@[simp] theorem slotTaken_flds (id sid gen : Nat) (e : InboundMove) (x : Session) (b : Block) :
    (slotTaken id sid gen e x b).flds = b.flds := takeFree_flds b

/-- Whether a tandem copy is valid is a register's matter. -/
theorem tandemValid_congr {b b' : Block} (h : b'.flds = b.flds) : tandemValid b' = tandemValid b := by
  rw [tandemValid, tandemValid, Block.getF, Block.getF, Block.getFi, Block.getFi, h]

/-- A trailer that matches, of a header that passes its checks again, takes the slot FREE longest; READY goes at once, where the
module has no valid tandem copy. -/
theorem takeTrailer_match {id : Nat} {b : Block} {e : InboundMove} {bs : Bytes} {slot sid g : Nat} {m : ModelSlot}
    (he : tget b.ses.inbound id = some e) (hopen : e.ready = none) (hdigest : bs.take 32 = sha256 (e.header ++ e.body))
    (hpass : arriveCheck b e.src e.header = none) (hmodel : headerModel b e.header = some (slot, m))
    (hfree : oldestFree b = some (sid, g)) (hpair : tandemValid b = false) :
    takeTrailer id bs true b = sendReady id (noteDelta
      (slotTaken id sid (nextGen g) e (arriveSession b (nextGen g) slot m.cls e.header e.body) b)) := by
  have hgood : ¬(true = false ∨ bs.take 32 ≠ sha256 (e.header ++ e.body)) := by simp [hdigest]
  have hpair' := (tandemValid_congr (slotTaken_flds id sid (nextGen g) e
    (arriveSession b (nextGen g) slot m.cls e.header e.body) b)).trans hpair
  rw [slotTaken] at hpair'
  simp only [takeTrailer, he, hopen, Option.isSome_none, Bool.false_eq_true, if_false, if_neg hgood, hpass, hmodel, hfree, hpair']
  rfl

/-! ### The source of a MOVE (R86, R88) -/

/-- A motion's end has no instruction to end where none ordered it. -/
@[simp] theorem motionEnds_none (sid : Nat) (x : Session) (status : Nat) (result : Option Bytes) (b : Block) :
    motionEnds sid x none status result b = b := rfl

section Outbound
variable {sid : Nat} {b : Block} {x : Session} {mo : MoveOut} (hx : session b sid = some x) (hmo : x.moveOut = some mo)
include hx hmo

/-- In mirror mode READY ends the motion, and the session is again in the state of its depth. -/
theorem moveReady_mirror {m : Motion} (handle : Nat) (dt : Bool) (hm : x.motion = some m) (hkind : m.kind = .moveOut)
    (hsent : mo.stage = .sent) (hmirror : singleHome b = false) :
    moveReady sid handle dt b = updSession sid (fun x => { x with
      moveOut := some { mo with dstHandle := handle, dstTandem := dt }, motion := none, state := stateOfDepth x.depth }) b := by
  have hdue : ¬(mo.stage ≠ .sent ∨ m.kind ≠ .moveOut) := by simp [hsent, hkind]
  simp only [moveReady, hx, hmo, hm, if_neg hdue, hmirror, Bool.false_eq_true, if_false]

/-- DONE counts the move, and ends it as its stage says, where it answers READY and no restored copy's ring holds it. -/
theorem moveDone_counted (hready : mo.dstHandle ≠ 0) (hdelta : mo.commitDelta = none) (hrestored : b.tdm.restored = [])
    (hrid : mo.rid = none) :
    moveDone sid b =
      let d := b.bump F.PNE_CNT_MOTION_moves
      if mo.stage = .committed then enterScrubbing sid (updSession sid (fun x => { x with moveOut := none, motion := none }) d)
      else updSession sid (fun x => { x with moveOut := none }) d := by
  have hends : ¬(mo.dstHandle = 0 ∨ mo.commitDelta.isSome = true ∨
      (b.tdm.restored.any fun e => decide (some e.1 = mo.rid)) = true) := by simp [hready, hdelta, hrestored]
  simp only [moveDone, hx, hmo, if_neg hends]
  simp only [passOwnership, hrid, motionEnds_none]

/-- With no path left, a move that is not committed ends, and the session stays (Table 4.4). -/
theorem destinationLost_uncommitted (hopen : mo.stage ≠ .committed) (hstill : x.motion = none) (hrid : mo.rid = none) :
    destinationLost sid b = updSession sid (fun x => { x with moveOut := none }) b := by
  simp only [destinationLost, moveFails, hx, hmo, hopen, hstill, hrid, false_and, if_false, Option.any_none, Bool.false_eq_true,
    motionEnds_none]

end Outbound

/-- Settles O32: each message of a move meets one branch of its meaning at the destination or at the source, which the lemma of
that branch states. -/
theorem movesHandSessionsOver : Obligations.MovesHandSessionsOver := by
  unfold Obligations.MovesHandSessionsOver
  refine ⟨⟨fun s src h hw hopen => ?_, fun s id bs e hw he hopen => ?_, fun s id bs ok e hw he hopen hbad => ?_,
    fun s id bs e slot sid g m hw he hopen hdigest hpass hmodel hfree hpair _ => ?_, fun s id e hw he hheld => ?_⟩,
    fun s sid x mo m handle dt hw hsid hx hmo hm hkind hsent hmirror => ?_,
    fun s sid x mo hw hsid hx hmo hready hdelta hrestored hrid => ?_,
    fun s sid x mo hw hsid hx hmo hopen hstill hrid => ?_⟩
  · rw [exec_moveOffer, actC_works _ UnitRef.none_wf hw]
    cases hcheck : arriveCheck s.toBlock src.toNat h with
    | none => rw [takeOffer_passes hopen hcheck]; rfl
    | some st => rw [takeOffer_fails hopen hcheck]
  · rw [exec_moveSection, actC_works _ UnitRef.none_wf hw, takeSection_open he bs hopen]
  · rw [exec_moveTrailer, actC_works _ UnitRef.none_wf hw, takeTrailer_mismatch he hopen hbad]
  · rw [exec_moveTrailer, actC_works _ UnitRef.none_wf hw, takeTrailer_match he hopen hdigest hpass hmodel hfree hpair]
    rfl
  · rw [exec_moveCommit, actC_works _ UnitRef.none_wf hw, takeCommit_held he hheld]
  · rw [exec_moveReady, actC_slot _ hw hsid, moveReady_mirror hx hmo _ dt hm hkind hsent hmirror]
  · rw [exec_moveDone, actC_slot _ hw hsid, moveDone_counted hx hmo hready hdelta hrestored hrid]
  · rw [exec_poolTimeout, actC_slot _ hw hsid, destinationLost_uncommitted hx hmo hopen hstill hrid]

end Sys2Proof.Machine

/-! PROOFS of the family 05_kv_paging: prefixes pinned, attached and dropped (O5). -/

namespace Sys2Proof.Machine

/-! ### PFXPIN (R128) -/

/-- A PFXPIN that passes its checks pins the prefix, and its result is the digest. -/
theorem pfxpin_pins {c : Ctx} {b : Block} {sid : Nat} {x : Session} {t : PageTable} (hon : OnSession c b sid x)
    (hadm : Admitted c b sid x .hot) (hname : c.arg b 32 8 ≠ 0) (hfirst : c.arg b 40 4 = 0) (hcount : c.arg b 44 4 ≠ 0)
    (hfree : boundPrefix b c.tenant (c.arg b 32 8) = none) (halone : x.prefixHandle = 0)
    (hheld : c.arg b 44 4 ≤ privatePositions x) (hgroup : endsGroup 0 (c.arg b 44 4) x.log = true)
    (hmodel : (modelSlot b x.modelSlot).map (·.state) = some slReady) (hroom : prefixRoom b c.tenant = true)
    (hlog : unitRead sid [2] b = none) (hkv : kvRead sid b = none) (ht : x.table = some t) (hrows : c.arg b 44 4 ≤ t.rows) :
    pfxpin c b = .done St.ok (some (pinPrefix sid x t (c.arg b 32 8) (c.arg b 44 4) b).1)
      (pinPrefix sid x t (c.arg b 32 8) (c.arg b 44 4) b).2 := by
  have hform : ¬(c.arg b 32 8 = 0 ∨ c.arg b 40 4 ≠ 0 ∨ c.arg b 44 4 = 0) := by simp [hname, hfirst, hcount]
  have hrange : ¬((boundPrefix b c.tenant (c.arg b 32 8)).isSome = true ∨ x.prefixHandle ≠ 0 ∨
      privatePositions x < c.arg b 44 4 ∨ endsGroup 0 (c.arg b 44 4) x.log = false ∨
      ((modelSlot b x.modelSlot).map (·.state)).getD 0 ≠ 1) := by
    simp [hfree, halone, hheld, hgroup, hmodel, slReady]
  rw [pfxpin, withSession_on _ _ hon]
  simp only [if_neg hform, admitted_of hadm, if_neg hrange, hroom, hlog, hkv, ht, if_neg (Nat.not_lt.2 hrows),
    Bool.true_eq_false, if_false]

/-- The digest of a pinned prefix is that of its weights and its part of the log. -/
theorem pinPrefix_digest (sid : Nat) (x : Session) (t : PageTable) (handle count : Nat) (b : Block) :
    (pinPrefix sid x t handle count b).1 = sha256 (weightsOf b x ++ logBytes (logPrefix count x.log)) := rfl

/-! ### PFXFORK (R129) -/

theorem session_attachPrefix (sid key n : Nat) (p : Prefix) (b : Block) : session (attachPrefix sid key p b) n =
    if n = sid then (session b n).map fun x => { x with prefixHandle := p.handle, prefixTokens := p.tokens }
    else session b n := by
  rw [attachPrefix, session_updSession]
  rfl

/-- The record counts one more attachment. -/
theorem prefix_attachPrefix (sid key : Nat) (p : Prefix) (b : Block) :
    tget (attachPrefix sid key p b).ses.prefixes key = some { p with attach := p.attach + 1 } :=
  tget_tset_self _ key _

@[simp] theorem attachPrefix_cmem (sid key : Nat) (p : Prefix) (b : Block) : (attachPrefix sid key p b).cmem = b.cmem := rfl
@[simp] theorem attachPrefix_flds (sid key : Nat) (p : Prefix) (b : Block) : (attachPrefix sid key p b).flds = b.flds := rfl

section Fork
variable {c : Ctx} {b : Block} {sid key : Nat} {x : Session} {p : Prefix} (hon : OnSession c b sid x)
  (hadm : Admitted c b sid x .any) (hbound : boundPrefix b c.tenant (c.arg b 32 8) = some (key, p)) (hpinned : p.pstate = 1)
  (hsound : p.damaged = false) (hpair : p.badPair = false) (htable : p.badTable = false)
include hon hadm hbound hpinned hsound hpair htable

/-- A session that holds a damaged prefix of the same digest leaves it for the one named. -/
theorem pfxfork_reattaches (hmay : mayReattach b x p = true) :
    pfxfork c b = .done St.ok none (attachPrefix sid key p (detachPrefix sid b)) := by
  have husable : ¬(p.pstate ≠ 1 ∨ p.damaged = true) := by simp [hpinned, hsound]
  rw [pfxfork, withSession_on _ _ hon]
  simp only [admitted_of hadm, hbound, if_neg husable, hpair, htable, hmay, Bool.true_eq_false, Bool.or_self,
    Bool.false_eq_true, if_false, if_true]

/-- An empty session of the same weights that has room for the prefix is attached to it; its table starts where the prefix's
last frame is not full (R103). -/
theorem pfxfork_attaches (hmay : mayReattach b x p = false) (hempty : x.log = []) (hnone : x.prefixHandle = 0)
    (hweights : weightsOf b x = p.weights) (hroom : p.tokens ≤ x.maxContext) :
    let b1 := attachPrefix sid key p b
    let started := startTable b1 { x with prefixHandle := p.handle, prefixTokens := p.tokens }
    pfxfork c b = .done St.ok none (if (pageOf p.tokens p.table.cap).2 = 0 then b1
      else updSession sid (fun x => { x with table := some started.1 }) started.2) := by
  obtain ⟨-, -, -, hx, -⟩ := id hon
  have husable : ¬(p.pstate ≠ 1 ∨ p.damaged = true) := by simp [hpinned, hsound]
  have hfits : ¬(x.log ≠ [] ∨ x.prefixHandle ≠ 0 ∨ weightsOf b x ≠ p.weights ∨ x.maxContext < p.tokens) := by
    simp [hempty, hnone, hweights, hroom]
  rw [pfxfork, withSession_on _ _ hon]
  simp only [admitted_of hadm, hbound, if_neg husable, hpair, htable, hmay, if_neg hfits, session_attachPrefix, hx,
    Option.map_some, Option.getD_some, Bool.true_eq_false, Bool.or_self, Bool.false_eq_true, if_false, if_true,
    decide_eq_true_eq, ne_eq, ite_not]

end Fork

/-! ### PFXDROP (R130) -/

/-- A name of a PINNED record is released, and the record with it where nothing is attached. -/
theorem pfxdrop_releases {c : Ctx} {b : Block} {key : Nat} {p : Prefix} (hbound : boundPrefix b c.tenant c.opB = some (key, p))
    (hpinned : p.pstate = 1) :
    let dropped := { b with ses := { b.ses with prefixes := tset b.ses.prefixes key { p with pstate := 2 } } }
    pfxdrop c b = .done St.ok none (if p.attach = 0 then releasePrefix key dropped else dropped) := by
  simp only [pfxdrop, hbound, hpinned, ne_eq, not_true_eq_false, if_false]

/-- Settles O5: each of the three passes its checks and has one outcome; of the sessions, an attachment changes its own alone. -/
theorem prefixRowsPinForkDrop : Obligations.PrefixRowsPinForkDrop := by
  unfold Obligations.PrefixRowsPinForkDrop
  refine ⟨?_, fun s rid c b sid key x p hrun hon hfirst hbound hpinned hsound hpair htable => ?_,
    fun s rid c b key p hrun hbound hpinned => ?_⟩
  · intro s rid c b sid x t hrun hon hadm hname hfirst hcount hfree halone hheld hgroup hmodel hroom hlog hkv ht hrows
    rw [exec_pfxpin, ← pinPrefix_digest sid x t (c.arg b 32 8)]
    exact exec_ends hrun
      (pfxpin_pins hon hadm hname hfirst hcount hfree halone hheld hgroup hmodel hroom hlog hkv ht hrows)
  · rw [← runs_rid hrun] at hfirst
    have hadm : Admitted c b sid x .any := ⟨rfl, hfirst⟩
    rw [exec_pfxfork]
    refine ⟨fun hmay => exec_ends hrun (pfxfork_reattaches hon hadm hbound hpinned hsound hpair htable hmay),
      fun hmay hempty hnone hweights hroom => ?_⟩
    obtain ⟨-, -, -, hx, -⟩ := id hon
    refine ⟨exec_ends hrun
      (pfxfork_attaches hon hadm hbound hpinned hsound hpair htable hmay hempty hnone hweights hroom),
      prefix_attachPrefix sid key p b, ?_, fun n hn => ?_, attachPrefix_cmem sid key p b, attachPrefix_flds sid key p b⟩
    · rw [session_attachPrefix, if_pos rfl, hx, Option.map_some]
    · rw [session_attachPrefix, if_neg hn]
  · rw [exec_pfxdrop]
    exact exec_ends hrun (pfxdrop_releases hbound hpinned)

end Sys2Proof.Machine

/-! PROOFS of the family 06_steps: STEP and PREFILL (O10), overlays (O15), tiles (O24), places of pelotons (O25). -/

namespace Sys2Proof.Machine

/-! ### STEP and PREFILL (R138, R144) -/

/-- A body that has itself seen to its instruction. -/
theorem exec_handles {s : State} {rid : Nat} {row : CRow} {c : Ctx} {b b' : Block} {body : Ctx → Block → Ans}
    (h : Runs s rid row c b) (hb : body c b = .handled b') : actC .none (runRow row body rid) s = .next (s.put (rest b')) := by
  rw [exec_runs body h, hb]; rfl

/-- No sequence of the request is in hand, and no other work holds the session: no STEP or PREFILL of another request, and no
closing pass in flight (R137, R164). -/
structure SessionFree (c : Ctx) (b : Block) (sid : Nat) : Prop where
  own : ((allSeqs b).any fun y => decide (y.rid = some c.rid)) = false
  others : otherStepRuns b c.rid sid = false
  closing : closingFlies b sid = false

/-- A STEP whose starting checks are met hands its sequence to the step engine (R138, R144). -/
theorem step_starts {c : Ctx} {b : Block} {sid : Nat} {x : Session} {run : StepRun} {off : Bool} (hon : OnSession c b sid x)
    (hadm : Admitted c b sid x .hot) (hfree : SessionFree c b sid) (hstart : startStep b c.req c.tenant c.blk x = .ok run off) :
    step_ c b = .handled (startSeq c sid x (.step (c.req.redo.getD run)) (imageRead (updReq c.rid (fun q => { q with
      clistDg := some (((runList b run).map (·.digest)).getD []), redo := none })
      (if off then b.bump F.STE_DRAFT_CNT_draft_off else b)))) := by
  have hlist : runList (if off then b.bump F.STE_DRAFT_CNT_draft_off else b) run = runList b run := by cases off <;> rfl
  simp only [step_, hfree.own, withSession_on _ _ hon, admitted_of hadm, hfree.others, hfree.closing, hstart, hlist,
    Bool.false_eq_true, Bool.true_eq_false, or_self, if_false]

/-- A PREFILL with nothing pending ends with 0 positions; another hands its sequence to the step engine (R138, R140). -/
theorem prefill_starts {c : Ctx} {b : Block} {sid : Nat} {x : Session} {m : ModelSlot} (hon : OnSession c b sid x)
    (hadm : Admitted c b sid x .hot) (hfree : SessionFree c b sid) (hm : modelSlot b x.modelSlot = some m)
    (hready : m.state = slReady) (hsound : m.damaged = false) :
    prefill c b = if pendingPositions x = 0 then .done St.ok (some (leBytes 4 0)) b
      else .handled (startSeq c sid x
        (.prefill (if bitsOf c.e.a 0 16 = 0 then defaultChunk b else bitsOf c.e.a 0 16) 0) b) := by
  simp only [prefill, hfree.own, withSession_on _ _ hon, admitted_of hadm, hfree.others, hfree.closing, hm, hready, hsound,
    Bool.false_eq_true, Bool.true_eq_false, or_self, if_false, ne_eq, not_true_eq_false]

/-- Settles O10: each passes its starting checks; a PREFILL then has its two outcomes by what is pending. -/
theorem stepAndPrefillStart : Obligations.StepAndPrefillStart := by
  unfold Obligations.StepAndPrefillStart
  refine ⟨fun s rid c b sid x run off hrun hon hadm hown hothers hclosing hstart => ?_,
    fun s rid c b sid x m hrun hon hadm hown hothers hclosing hm hready hsound => ?_⟩
  all_goals
    obtain rfl := runs_rid hrun
    have hfree : SessionFree c b sid := ⟨hown, hothers, hclosing⟩
  · rw [exec_step]
    exact exec_handles hrun (step_starts hon hadm hfree hstart)
  · have hprefill := prefill_starts hon hadm hfree hm hready hsound
    rw [exec_prefill]
    by_cases hpending : pendingPositions x = 0
    · rw [if_pos hpending] at hprefill ⊢
      exact exec_ends hrun hprefill
    · rw [if_neg hpending] at hprefill ⊢
      exact exec_handles hrun hprefill

/-! ### OVERLAY (R350) -/

/-- Behind an overlay that is not yet applied, or an OVERLAY decoded earlier, an OVERLAY waits its turn. -/
theorem overlay_waitsTurn {c : Ctx} {b : Block} (h : b.ten.overlay.isSome = true ∨ earlierOverlay b c = true) :
    overlay c b = .wait .retry b := by
  simp only [overlay, h, if_true]

section OverlayTurn

variable {c : Ctx} {b : Block} (hnone : b.ten.overlay = none) (hfirst : earlierOverlay b c = false)
include hnone hfirst

/-- In its turn, an OVERLAY whose image is not where R54 reaches, or whose module has no key, is malformed. -/
theorem overlay_unreadable (h : c.opB % 64 ≠ 0 ∨ c.reads b c.opB (c.arg b 32 4) = false ∨ b.rtp.overlayKey = none) :
    overlay c b = .done St.malformed none b := by
  simp only [overlay, hnone, hfirst, Option.isSome_none, Bool.false_eq_true, or_self, if_false]
  split
  · rfl
  · next hreach => rw [(or_assoc.2 h).resolve_left hreach]; rfl

/-- In its turn, an OVERLAY whose image the checks refuse is malformed. -/
theorem overlay_refused {key : Bytes} (hkey : b.rtp.overlayKey = some key)
    (hparse : parseOverlay (b.peek c.opB (c.arg b 32 4)) key c.rid = none) : overlay c b = .done St.malformed none b := by
  simp only [overlay, hnone, hfirst, hkey, hparse, Option.isSome_none, Bool.false_eq_true, or_self, if_false]
  split <;> rfl

/-- In its turn, an OVERLAY whose image is admitted stops dispatch and waits for the derailleur (R148). -/
theorem overlay_admitted {key : Bytes} {o : Overlay} (haligned : c.opB % 64 = 0)
    (hreads : c.reads b c.opB (c.arg b 32 4) = true) (hkey : b.rtp.overlayKey = some key)
    (hparse : parseOverlay (b.peek c.opB (c.arg b 32 4)) key c.rid = some o) :
    overlay c b = .wait .overlay { b with
      ten := { b.ten with overlay := some o }
      ste := { b.ste with stopped := true } } := by
  simp only [overlay, hnone, hfirst, haligned, hreads, hkey, hparse, Option.isSome_none, Bool.false_eq_true, Bool.true_eq_false,
    ne_eq, not_true_eq_false, or_self, if_false]

end OverlayTurn

/-! ### What an overlay puts in force (R148, R331, R350) -/

/-- The settings of the step engine that an overlay gives, by their fields. -/
def overlaySettings (o : Overlay) : List (Fld × Nat) :=
  [(F.STE_STAT_role, o.role), (F.STE_CFG_max_seq, o.maxSeq), (F.STE_CFG_prefill_chunk, o.prefillChunk),
   (F.STE_CFG_mixed_budget, o.mixedBudget), (F.STE_CFG_catchup_max, o.catchupMax), (F.STE_CFG_accept_wait_10us, o.acceptWait)]

/-- Fields set one after another. -/
def setFields (vs : List (Fld × Nat)) (b : Block) : Block := vs.foldl (fun b e => b.setF e.1 e.2) b

/-- The settings of one shaper entry of an overlay; an entry that selects no shaper sets nothing. -/
def setShaperEntry (b : Block) (e : Nat × Nat) : Block :=
  match shaperOfSel e.1 with
  | some i => shaperSet i e.2 b
  | none => b

theorem putOverlay_eq (o : Overlay) (b : Block) :
    let set := o.shapers.foldl setShaperEntry (setFields (overlaySettings o) b)
    putOverlay o b = { set with
      ten := { set.ten with overlayDg := some o.digest, lendGib := o.lendGib, overlay := none, sram := sramDivision o.role }
      ste := { set.ste with stopped := false } } := rfl

theorem setFields_frame (vs : List (Fld × Nat)) (b : Block) : ∃ t, setFields vs b = { b with flds := t } := by
  induction vs generalizing b with
  | nil => exact ⟨b.flds, rfl⟩
  | cons e vs ih =>
    obtain ⟨t, ht⟩ := ih (b.setF e.1 e.2)
    exact ⟨t, ht⟩

theorem getF_setFields_ne {vs : List (Fld × Nat)} {f : Fld} (b : Block) (h : f.key ∉ vs.map (·.1.key)) :
    (setFields vs b).getF f = b.getF f := by
  induction vs generalizing b with
  | nil => rfl
  | cons e vs ih =>
    obtain ⟨hne, hvs⟩ := not_or.1 (List.mem_cons.not.1 h)
    exact (ih _ hvs).trans (getF_setF_ne _ _ _ _ hne)

/-- Where fields of different places are set, each reads the value it was given. -/
theorem getF_setFields {vs : List (Fld × Nat)} {f : Fld} {v : Nat} (b : Block) (hnd : (vs.map (·.1.key)).Nodup)
    (hmem : (f, v) ∈ vs) : (setFields vs b).getF f = v % 2 ^ f.width := by
  induction vs generalizing b with
  | nil => cases hmem
  | cons e vs ih =>
    obtain ⟨hfresh, hnd⟩ := List.nodup_cons.1 hnd
    rcases List.mem_cons.1 hmem with rfl | hmem
    · exact (getF_setFields_ne _ hfresh).trans (getF_setF_self _ _ _)
    · exact ih _ hnd hmem

/-- The register fields of the shapers that their settings and tokens stand in. -/
def shaperFields : List Fld :=
  [F.TSH_CFG_rate_mbs, F.TSH_CFG_burst_kib, F.TSH_CFG_overhead, F.TSH_CFG_mode, F.TSH_CFG_reset_to, F.TSH_STAT_tokens]

theorem getFi_shaperSet_ne (i v : Nat) (b : Block) {g : Fld} (j : Nat) (h : g.key ∉ shaperFields.map (·.key)) :
    (shaperSet i v b).getFi g j = b.getFi g j := by
  have hne : ∀ f ∈ shaperFields, (g.key, j) ≠ (f.key, i) := fun f hf he =>
    h ((Prod.mk.inj he).1 ▸ List.mem_map_of_mem hf)
  simp only [shaperSet, setTokens]
  rw [getFi_setFi_ne _ _ _ _ _ _ (hne F.TSH_STAT_tokens (by decide)),
    getFi_setFi_ne _ _ _ _ _ _ (hne F.TSH_CFG_reset_to (by decide)), getFi_setFi_ne _ _ _ _ _ _ (hne F.TSH_CFG_mode (by decide)),
    getFi_setFi_ne _ _ _ _ _ _ (hne F.TSH_CFG_overhead (by decide)),
    getFi_setFi_ne _ _ _ _ _ _ (hne F.TSH_CFG_burst_kib (by decide)),
    getFi_setFi_ne _ _ _ _ _ _ (hne F.TSH_CFG_rate_mbs (by decide))]

/-- The settings of a shaper that is set (Table 13.20). -/
theorem getFi_shaperSet (i v : Nat) (b : Block) :
    (shaperSet i v b).getFi F.TSH_CFG_rate_mbs i = bitsOf v 0 24 ∧ (shaperSet i v b).getFi F.TSH_CFG_burst_kib i = bitsOf v 24 16 ∧
    (shaperSet i v b).getFi F.TSH_CFG_overhead i = bitsOf v 40 8 ∧ (shaperSet i v b).getFi F.TSH_CFG_mode i = bitsOf v 48 1 := by
  have hother : ∀ {f g : Fld}, g.key ≠ f.key → ∀ (b : Block) (x : Nat), (b.setFi f i x).getFi g i = b.getFi g i :=
    fun hne b x => getFi_setFi_ne b _ _ i i x fun he => hne (Prod.mk.inj he).1
  have hset : ∀ (f : Fld) (b : Block) (lo : Nat), (b.setFi f i (bitsOf v lo f.width)).getFi f i = bitsOf v lo f.width :=
    fun f b lo => (getFi_setFi_self b f i _).trans (Nat.mod_mod _ _)
  simp only [shaperSet, setTokens]
  refine ⟨?_, ?_, ?_, ?_⟩
  · rw [hother (by decide), hother (by decide), hother (by decide), hother (by decide), hother (by decide)]
    exact hset F.TSH_CFG_rate_mbs _ 0
  · rw [hother (by decide), hother (by decide), hother (by decide), hother (by decide)]
    exact hset F.TSH_CFG_burst_kib _ 24
  · rw [hother (by decide), hother (by decide), hother (by decide)]
    exact hset F.TSH_CFG_overhead _ 40
  · rw [hother (by decide), hother (by decide)]
    exact hset F.TSH_CFG_mode _ 48

theorem getFi_setShaperEntries_ne (es : List (Nat × Nat)) (b : Block) {g : Fld} (j : Nat) (h : g.key ∉ shaperFields.map (·.key)) :
    (es.foldl setShaperEntry b).getFi g j = b.getFi g j := by
  induction es generalizing b with
  | nil => rfl
  | cons e es ih =>
    rw [List.foldl_cons, ih]
    unfold setShaperEntry
    split
    · exact getFi_shaperSet_ne _ _ _ _ h
    · rfl

theorem setShaperEntries_frame (es : List (Nat × Nat)) (b : Block) : ∃ t, es.foldl setShaperEntry b = { b with flds := t } := by
  induction es generalizing b with
  | nil => exact ⟨b.flds, rfl⟩
  | cons e es ih =>
    obtain ⟨t, ht⟩ := ih (setShaperEntry b e)
    refine ⟨t, ht.trans ?_⟩
    unfold setShaperEntry
    split <;> rfl

/-- Of the module's records an overlay changes the tenants' and the step engine's. -/
theorem putOverlay_frame (o : Overlay) (b : Block) : ∃ t, putOverlay o b = { b with
    flds := t
    ten := { b.ten with overlayDg := some o.digest, lendGib := o.lendGib, overlay := none, sram := sramDivision o.role }
    ste := { b.ste with stopped := false } } := by
  obtain ⟨t, ht⟩ := setFields_frame (overlaySettings o) b
  obtain ⟨u, hu⟩ := setShaperEntries_frame o.shapers (setFields (overlaySettings o) b)
  exact ⟨u, by rw [putOverlay_eq, hu, ht]⟩

/-- A setting of the step engine is in force. -/
theorem getF_putOverlay (o : Overlay) (b : Block) {f : Fld} {v : Nat} (h : (f, v) ∈ overlaySettings o) :
    (putOverlay o b).getF f = v % 2 ^ f.width := by
  have hnd : ((overlaySettings o).map (·.1.key)).Nodup := by
    simp only [overlaySettings, List.map_cons, List.map_nil]
    decide
  have hkeys : ∀ k ∈ (overlaySettings o).map (·.1.key), k ∉ shaperFields.map (·.key) := by
    simp only [overlaySettings, List.map_cons, List.map_nil]
    decide
  rw [← getF_setFields b hnd h]
  exact getFi_setShaperEntries_ne o.shapers _ 0 (hkeys _ (List.mem_map_of_mem h))

/-- The fields of the shaper that the last entry selects read as that entry leaves them. -/
theorem getFi_putOverlay_last {o : Overlay} {pre : List (Nat × Nat)} {e : Nat × Nat} {i : Nat} (b : Block)
    (hlast : o.shapers = pre ++ [e]) (hsel : shaperOfSel e.1 = some i) (f : Fld) :
    (putOverlay o b).getFi f i = (shaperSet i e.2 (pre.foldl setShaperEntry (setFields (overlaySettings o) b))).getFi f i := by
  rw [putOverlay_eq, hlast, List.foldl_append, List.foldl_cons, List.foldl_nil, setShaperEntry, hsel]
  rfl

/-! ### OVERLAY_APPLY (R148) -/

theorem applyOverlay_none {b : Block} (h : b.ten.overlay = none) : applyOverlay b = b := by
  simp only [applyOverlay, h]

/-- While a peloton stands between dispatch and boundary, no overlay is applied. -/
theorem applyOverlay_busy {b : Block} (h : (b.ste.pelotons.any fun e => decide (e.2.phase ≠ .ready)) = true) :
    applyOverlay b = b := by
  unfold applyOverlay
  split
  · rfl
  · rw [if_pos h]

/-- With every peloton at its boundary, the admitted overlay is put in force, and the OVERLAY that waits for it ends. -/
theorem applyOverlay_applies {o : Overlay} {b : Block} (ho : b.ten.overlay = some o)
    (h : (b.ste.pelotons.any fun e => decide (e.2.phase ≠ .ready)) = false) :
    (o.rid = none → applyOverlay b = putOverlay o b) ∧
    ∀ r, o.rid = some r → applyOverlay b =
      if (req (putOverlay o b) r).any fun q => decide (q.wait = .overlay) then instrDone r St.ok (some o.digest) (putOverlay o b)
      else putOverlay o b := by
  constructor
  · intro hrid
    simp only [applyOverlay, ho, h, hrid, Bool.false_eq_true, if_false]
  · intro r hrid
    simp only [applyOverlay, ho, h, hrid, Bool.false_eq_true, if_false]

/-- Settles O15: an OVERLAY by its checks in order; OVERLAY_APPLY by whether a peloton is in flight, and then by the request that
waits for the overlay. -/
theorem overlaysAreAdmittedAndApplied : Obligations.OverlaysAreAdmittedAndApplied := by
  unfold Obligations.OverlaysAreAdmittedAndApplied
  refine ⟨fun s rid c b hrun => ?_, fun s o hworks ho hrest => ?_, fun s hworks hidle => ?_⟩
  · obtain rfl := runs_rid hrun
    rw [exec_overlay]
    exact ⟨fun hturn => exec_waits hrun (overlay_waitsTurn hturn), fun hnone hfirst =>
      ⟨fun key o haligned hreads hkey hparse => exec_waits hrun (overlay_admitted hnone hfirst haligned hreads hkey hparse),
        fun key hkey hparse => exec_ends hrun (overlay_refused hnone hfirst hkey hparse),
        fun hbad => exec_ends hrun (overlay_unreadable hnone hfirst hbad)⟩⟩
  · rw [exec_overlayApply, actC_works _ UnitRef.none_wf hworks]
    obtain ⟨happlies, hends⟩ := applyOverlay_applies ho hrest
    obtain ⟨t, hframe⟩ := putOverlay_frame o s.toBlock
    refine ⟨fun hrid => by rw [happlies hrid], fun r hrid hwaits => ?_, fun r hrid hwaits => ?_,
      by rw [hframe], by rw [hframe], by rw [hframe], by rw [hframe], by rw [hframe], by rw [hframe], by rw [hframe],
      ?_, ?_, ?_, ?_, ?_, ?_, fun pre e i hlast hsel => ?_⟩
    · rw [hends r hrid, if_pos hwaits]
    · rw [hends r hrid, if_neg (Bool.eq_false_iff.1 hwaits)]
    iterate 6 exact getF_putOverlay o s.toBlock (by simp only [overlaySettings, List.mem_cons, true_or, or_true])
    · simp only [getFi_putOverlay_last s.toBlock hlast hsel]
      exact getFi_shaperSet i e.2 _
  · rw [exec_overlayApply, actC_works _ UnitRef.none_wf hworks]
    rcases hidle with hnone | hbusy
    · rw [applyOverlay_none hnone]
    · rw [applyOverlay_busy hbusy]

/-! ### A tile fault whose interrupt message falls in companion memory (R231, R400, R407) -/

/-- A booted module whose Spoke 0 runs a tile of a peloton that is not resident. The interrupt source SPOKE_FAULT is enabled towards
companion target 8, whose messages are the word 1 at 0. -/
def strayTile : State :=
  let b : Block := { Block.reset with
    rtp := { RtpState.reset with ready := true }
    spk := ⟨[(0, { Spoke.reset with ctx := some (1, 0, 0), chain := some 3, running := true, pc := 1 })], []⟩
    intr := ⟨[(Src.spokeFault, ⟨true, 8, 0, false, false, false, 0, 0⟩)], [], [], [], [], []⟩ }
  ⟨b.setFi F.INT_TGT_MSI_DATA_data 8 1, []⟩

/-- What O24 asks of a running tile of no step holds there. -/
theorem strayTile_meets :
    strayTile.toBlock.up = true ∧ spokesRun strayTile.toBlock = true ∧ (spoke strayTile.toBlock 0).running = true ∧
    stepOfSpoke strayTile.toBlock (spoke strayTile.toBlock 0) = none := by
  decide +kernel

/-- The fault of the tile fires SPOKE_FAULT, and the message stands in companion memory, which held nothing. -/
theorem strayTile_message : strayTile.cmem = [] ∧ (tileFault 0 0x05 strayTile.toBlock).cmem = [(0, 1)] := by
  decide +kernel

/-- Refutes O24: the overrun of a tile of no step fires SPOKE_FAULT (R231), and where a companion target is signalled for it, the
message is written to companion memory (R407), of which the statement says that no byte changes. -/
theorem not_tilesAreDispatchedAndStopped : ¬ Obligations.TilesAreDispatchedAndStopped := by
  unfold Obligations.TilesAreDispatchedAndStopped
  rintro ⟨hoverrun, -⟩
  obtain ⟨hup, hrun, hrunning, hstep⟩ := strayTile_meets
  obtain ⟨-, hfaults⟩ := hoverrun strayTile 0 (by decide) hup hrun
  obtain ⟨-, hstray, -⟩ := hfaults hrunning
  obtain ⟨-, -, -, -, -, -, -, -, hkept⟩ := hstray hstep
  obtain ⟨hempty, hmessage⟩ := strayTile_message
  rw [hmessage, hempty] at hkept
  exact absurd hkept (by decide)

/-! ### Places of pelotons (R136, R161, R346) -/

theorem actC_place {s : State} {place : Nat} (f : Block → Block) (hworks : s.works) (hplace : place < numPlaces) :
    actC (.place place) f s = .next (s.put (rest (f s.toBlock))) :=
  actC_works f (decide_eq_true hplace) hworks

/-- The resident peloton at a place, once it is set. -/
@[simp] theorem tget_setPel_self (place : Nat) (q : Option Peloton) (b : Block) : tget (setPel place q b).ste.pelotons place = q := by
  cases q with
  | none => exact tget_tdel_self _ _
  | some p => exact tget_tset_self _ _ _

section Grant

variable {place tiles : Nat} {p : Peloton} {b : Block} (hnext : nextForPlace b = some (place, p)) (hroom : inFlight b < 4)
  (hactive : tenantState b p.tenant = tsActive) (hwhole : tget b.ten.tearing p.tenant = none)
include hnext hroom hactive hwhole

/-- The interrupted step of the peloton whose turn it is goes on. -/
theorem grantPlace_preempted (hphase : p.phase = .preempted) :
    grantPlace place tiles b = setPel place (some { p with phase := .flight, regained := true }) b := by
  simp only [grantPlace, hnext, hactive, hwhole, hphase, Nat.not_le.2 hroom, ne_eq, not_true_eq_false, Option.isSome_none,
    Bool.false_eq_true, or_self, if_false]

/-- The step of the peloton whose turn it is is dispatched. -/
theorem grantPlace_ready (hphase : p.phase = .ready) : grantPlace place tiles b = dispatch place tiles b := by
  simp only [grantPlace, hnext, hactive, hwhole, hphase, Nat.not_le.2 hroom, ne_eq, not_true_eq_false, Option.isSome_none,
    Bool.false_eq_true, or_self, if_false]

end Grant

/-- After its dispatch a peloton has its step in flight, no tile of it started or faulted, or is gone, where no sequence was left to
step. -/
theorem dispatch_sends {place : Nat} {p : Peloton} {b : Block} (tiles : Nat) (hp : tget b.ste.pelotons place = some p) :
    tget (dispatch place tiles b).ste.pelotons place = none ∨
    ∃ p', tget (dispatch place tiles b).ste.pelotons place = some p' ∧ p'.phase = .flight ∧ p'.tenant = p.tenant ∧
      p'.slot = p.slot ∧ p'.tiles = max 1 tiles ∧ p'.tilesLeft = max 1 tiles ∧ p'.tilesOut = 0 ∧ p'.fault = none := by
  simp only [dispatch, hp]
  split
  · exact .inl (tget_setPel_self _ _ _)
  · exact .inr ⟨_, tget_setPel_self _ _ _, rfl, rfl, rfl, rfl, rfl, rfl, rfl⟩

/-- The gather of a boundary ends, and the boundary goes on (R161). -/
theorem acceptWaitEnd_gather {place : Nat} {p : Peloton} {b : Block} (tiles : Nat) (hp : tget b.ste.pelotons place = some p)
    (hphase : p.phase = .gather) : acceptWaitEnd place tiles b = grantPlace place tiles (finishBoundary place b) := by
  simp only [acceptWaitEnd, hp, hphase, if_true]

/-- A preempted peloton that holds no Spoke gives its place up (R346). -/
theorem preemptDone_gives {place : Nat} {p : Peloton} {b : Block} (hp : tget b.ste.pelotons place = some p)
    (hphase : p.phase = .flight) (hpreempting : p.preempting = true) (hout : p.tilesOut = 0)
    (hleft : (b.spk.spokes.any fun e => decide (e.2.ctx = some (p.tenant, p.slot, place)) &&
      (e.2.running || e.2.swapping || e.2.chain.isSome)) = false) :
    preemptDone place b =
      (setPel place (some { p with phase := .preempted, preempting := false }) b).bump F.STE_SCHED_preempt_pel := by
  simp only [preemptDone, hp, hphase, hpreempting, hout, hleft, and_self, if_true]

/-- Settles O25: a grant by the phase of the peloton whose turn it is, then the end of a gather and of a preemption. -/
theorem pelotonsTakePlaces : Obligations.PelotonsTakePlaces := by
  unfold Obligations.PelotonsTakePlaces
  refine ⟨fun s place tiles p hworks hplace hnext hroom hactive hwhole hphase => ?_,
    fun s place tiles p hworks hplace hnext hp hroom hactive hwhole hphase => ?_,
    fun s place tiles p hworks hplace hp hphase => ?_, fun s place p hworks hplace hp hphase hpreempting hout hleft => ?_⟩
  · rw [exec_pelotonPlaceGrant, actC_place _ hworks hplace, grantPlace_preempted hnext hroom hactive hwhole hphase]
  · rw [exec_pelotonPlaceGrant, actC_place _ hworks hplace, grantPlace_ready hnext hroom hactive hwhole hphase]
    exact ⟨_, rfl, dispatch_sends tiles hp⟩
  · rw [exec_acceptWaitEnd, actC_place _ hworks hplace, acceptWaitEnd_gather tiles hp hphase]
  · rw [exec_preemptComplete, actC_place _ hworks hplace, preemptDone_gives hp hphase hpreempting hout hleft]

end Sys2Proof.Machine

/-! PROOFS of the family 08_spoke_arithmetic: vector rows and memory (O20), the matrix unit (O21). -/

namespace Sys2Proof.Machine

/-! ### An instruction that its Spoke issues (R212, R221, R224) -/

/-- An instruction that touches no local store and reads no accumulator row waits for no copy and meets no error. -/
theorem clear_registers (k : Spoke) : Clear k [] [] [] := by simp [Clear, conflicts, rangesMeet, upsetsIn]

/-- The word that a Spoke is to issue runs its own row's body. -/
theorem runSpoke_issued {s : State} {spk cls op : Nat} {w : BitVec 64} (body : Nat → Spoke → SpkAns)
    (hi : Issues s spk w cls op) :
    runSpoke cls op body spk w s.toBlock = runBody spk (spoke s.toBlock spk) (body w.toNat (spoke s.toBlock spk)) s.toBlock := by
  obtain ⟨-, -, hissue, hcls, hop, hplace, hreserved⟩ := hi
  simp only [runSpoke, runWord, hissue, hcls, hop, hplace, hreserved, ne_eq, not_true_eq_false, Bool.true_eq_false, or_self,
    if_false]
  rfl

/-- An effect that nothing holds up is taken, and the Spoke goes on to the next word. -/
theorem runBody_clear {k next : Spoke} {reads writes : List Range} {rows : List Nat} (spk : Nat) (b : Block)
    (hf : Follows k) (hc : Clear k reads writes rows) :
    runBody spk k (.run ⟨reads, writes, rows, next, k.pc + 1⟩) b = setSpoke spk { next with pc := k.pc + 1 } b := by
  obtain ⟨hconf, hups⟩ := hc
  have hpc : ¬((k.pc : Int) + 1 < 0 ∨ 8191 < (k.pc : Int) + 1 ∨ (k.code.length : Int) ≤ k.pc + 1) := by
    obtain ⟨h1, h2⟩ := hf
    omega
  simp only [runBody, hconf, hups, meetUpsets, List.find?_nil, List.foldl_nil, Option.map_none, if_neg hpc, Bool.false_eq_true,
    if_false]
  rfl

/-- An issued instruction with an effect that nothing holds up. -/
theorem actK_runs {s : State} {spk cls op : Nat} {w : BitVec 64} {body : Nat → Spoke → SpkAns} {next : Spoke}
    {reads writes : List Range} {rows : List Nat} (hi : Issues s spk w cls op) (hf : Follows (spoke s.toBlock spk))
    (hb : body w.toNat (spoke s.toBlock spk) = .run ⟨reads, writes, rows, next, (spoke s.toBlock spk).pc + 1⟩)
    (hc : Clear (spoke s.toBlock spk) reads writes rows) :
    actK spk (runSpoke cls op body spk w) s = .next (s.spokeAt spk next ((spoke s.toBlock spk).pc + 1)) := by
  have hwf : (UnitRef.spoke spk).wf = true := decide_eq_true hi.1
  rw [actK, actR_up _ hwf hi.2.1, runSpoke_issued body hi, hb, runBody_clear spk _ hf hc]
  rfl

/-! ### Vector instructions that move lanes (R206, R215) -/

theorem vecRed_listed {w : Nat} {k : Spoke} {f : BitVec 32 → BitVec 32 → BitVec 32} (h : reduceOp (fldMode w) = some f) :
    vecRed w k = .go (setVreg k (fldD w) (reduceTree f 9 (vreg k (fldA w)) :: List.replicate 511 0)) := by
  simp only [vecRed, h]
  rfl

/-- A first row that R215 admits. -/
theorem accFirst_admitted {w : Nat} {k : Spoke} (h4 : (sreg k (fldS w)).toNat % 4 = 0) (h124 : (sreg k (fldS w)).toNat ≤ 124) :
    accFirst w k = some (sreg k (fldS w)).toNat := if_pos ⟨h4, h124⟩

theorem vecAcr_admitted {w r : Nat} {k : Spoke} (h : accFirst w k = some r) :
    vecAcr w k = .run ⟨[], [], [0, 1, 2, 3].map fun i => 128 * (fldMode w % 4) + r + i,
      setVreg k (fldD w) (accRow k (fldMode w % 4) r ++ (accRow k (fldMode w % 4) (r + 1) ++
        (accRow k (fldMode w % 4) (r + 2) ++ accRow k (fldMode w % 4) (r + 3)))), k.pc + 1⟩ := by
  simp only [vecAcr, h, List.flatMap_cons, List.flatMap_nil, List.append_nil, Nat.add_zero]

/-! ### Accumulator rows written in turn (R210) -/

/-- Turn `i` of a run of writes that begins at row `r` of a tile: row `r + i` takes `new i`, where there is one. -/
def putRow (t r : Nat) (new : Nat → Option (List (BitVec 32))) (k : Spoke) (i : Nat) : Spoke :=
  match new i with
  | some v => setAccRow t (r + i) v k
  | none => k

theorem tget_putRow (t r : Nat) (new : Nat → Option (List (BitVec 32))) (k : Spoke) (i j : Nat) :
    tget (putRow t r new k i).acc j = if j = 128 * t + r + i then (new i).or (tget k.acc j) else tget k.acc j := by
  unfold putRow
  cases new i with
  | none => simp
  | some v => simp only [setAccRow, tget_tset, Nat.add_assoc, Option.some_or]

/-- Of all the rows of the four tiles, the run changes its own alone. -/
theorem tget_foldl_putRow (t r : Nat) (new : Nat → Option (List (BitVec 32))) (n : Nat) (k : Spoke) (j : Nat) :
    tget ((List.range n).foldl (putRow t r new) k).acc j =
      if 128 * t + r ≤ j ∧ j < 128 * t + r + n then (new (j - (128 * t + r))).or (tget k.acc j) else tget k.acc j := by
  induction n with
  | zero => rw [if_neg (by omega)]; rfl
  | succ n ih =>
    rw [List.range_succ, List.foldl_append, List.foldl_cons, List.foldl_nil, tget_putRow, ih]
    by_cases hj : j = 128 * t + r + n
    · rw [if_pos hj, if_neg (by omega), if_pos (by omega), show j - (128 * t + r) = n by omega]
    · rw [if_neg hj]
      exact if_congr (by omega) rfl rfl

theorem accRow_foldl_putRow (t r : Nat) (new : Nat → Option (List (BitVec 32))) {n i : Nat} (k : Spoke) (hi : i < n) :
    accRow ((List.range n).foldl (putRow t r new) k) t (r + i) = (new i).getD (accRow k t (r + i)) := by
  simp only [accRow, tgetD]
  rw [tget_foldl_putRow, if_pos (by omega), show 128 * t + (r + i) - (128 * t + r) = i by omega]
  cases new i <;> rfl

/-- Nothing but the accumulators is written. -/
theorem foldl_putRow_frame (t r : Nat) (new : Nat → Option (List (BitVec 32))) (is : List Nat) (k : Spoke) :
    ∃ acc, is.foldl (putRow t r new) k = { k with acc := acc } := by
  induction is generalizing k with
  | nil => exact ⟨_, rfl⟩
  | cons i is ih =>
    obtain ⟨acc, h⟩ := ih (putRow t r new k i)
    refine ⟨acc, h.trans ?_⟩
    unfold putRow
    cases new i <;> rfl

@[simp] theorem accRow_clearRows (rows : List Nat) (k : Spoke) (t r : Nat) : accRow (clearRows rows k) t r = accRow k t r := rfl

/-- The lanes of a vector register that VACW puts into row `i` of its four. -/
def laneRow (v : List (BitVec 32)) (i : Nat) : Option (List (BitVec 32)) := some ((v.drop (128 * i)).take 128)

theorem vecAcw_admitted {w r : Nat} {k : Spoke} (h : accFirst w k = some r) :
    vecAcw w k = .run ⟨[], [], [], clearRows ([0, 1, 2, 3].map fun i => 128 * (fldMode w % 4) + r + i)
      ((List.range 4).foldl (putRow (fldMode w % 4) r (laneRow (vreg k (fldA w)))) k), k.pc + 1⟩ := by
  obtain ⟨acc, hframe⟩ := foldl_putRow_frame (fldMode w % 4) r (laneRow (vreg k (fldA w))) (List.range 4) k
  have hpc : ((List.range 4).foldl (putRow (fldMode w % 4) r (laneRow (vreg k (fldA w)))) k).pc = k.pc := by rw [hframe]
  simp only [vecAcw, h]
  rw [← hpc]
  rfl

/-! ### Elements loaded, stored and converted (R198, R199, R215) -/

section Elements

variable {w : Nat} {k : Spoke}

/-- The lanes of a vector register as packed elements, with their scale bytes. -/
def packedLanes (w : Nat) (k : Spoke) : Bytes × Bytes :=
  writeElems (fldFmt w) (fldMx w) (fldSat w) ((vreg k (fldA w)).map num32)

/-- Elements widened to the lanes of a vector register. -/
def widened (w : Nat) (xs : List Num) : List (BitVec 32) := xs.map fun x => BitVec.ofNat 32 (fp32.encode (fldSat w) x)

theorem vecCvt_legal (hlegal : codeLegal k.isa (fldFmt w) (fldMx w) = true)
    (hscale : fldMx w = true → (sreg k (fldS w)).toNat + 16 ≤ lsBytes) :
    vecCvt w k = .run ⟨[], [((sreg k (fldS w)).toNat, scaleCount (fldMx w))], [],
      setVreg (lsWrite (sreg k (fldS w)).toNat (packedLanes w k).2 k) (fldD w)
        (widened w (readElems (fldFmt w) lanes (fldMx w) (packedLanes w k).1 (packedLanes w k).2)), k.pc + 1⟩ := by
  have hin : ¬(fldMx w = true ∧ lsBytes < (sreg k (fldS w)).toNat + 16) := fun h => absurd (hscale h.1) (Nat.not_le.2 h.2)
  simp only [vecCvt, hlegal, hin, Bool.true_eq_false, if_false]
  rfl

variable (hlegal : codeLegal k.isa (fldFmt w) (fldMx w) = true)
  (hlanes : lanesAddr w k + elemBytes (fldFmt w) lanes ≤ lsBytes) (hscale : fldMx w = true → scaleAddr w k + 16 ≤ lsBytes)
include hlanes hscale

/-- The elements and their scale bytes lie inside the local store. -/
theorem lanes_inside :
    ¬(lsBytes < lanesAddr w k + elemBytes (fldFmt w) lanes ∨ (fldMx w = true ∧ lsBytes < scaleAddr w k + 16)) := by
  rintro (h | ⟨hmx, h⟩)
  · exact absurd hlanes (Nat.not_le.2 h)
  · exact absurd (hscale hmx) (Nat.not_le.2 h)

include hlegal

theorem vecLd_legal : vecLd w k =
    .run ⟨[(lanesAddr w k, elemBytes (fldFmt w) lanes), (scaleAddr w k, scaleCount (fldMx w))], [], [],
      setVreg k (fldD w) (widened w (readElems (fldFmt w) lanes (fldMx w) (lsRead k (lanesAddr w k) (elemBytes (fldFmt w) lanes))
        (lsRead k (scaleAddr w k) (scaleCount (fldMx w))))), k.pc + 1⟩ := by
  simp only [vecLd, hlegal, lanes_inside hlanes hscale, Bool.true_eq_false, if_false]
  rfl

theorem vecSt_legal : vecSt w k =
    .run ⟨[], [(lanesAddr w k, elemBytes (fldFmt w) lanes), (scaleAddr w k, scaleCount (fldMx w))], [],
      lsWrite (scaleAddr w k) (packedLanes w k).2 (lsWrite (lanesAddr w k) (packedLanes w k).1 k), k.pc + 1⟩ := by
  simp only [vecSt, hlegal, lanes_inside hlanes hscale, Bool.true_eq_false, if_false]
  rfl

end Elements

/-- Settles O20: each instruction passes its checks and has one effect; that of VACW is four writes of rows in turn. -/
theorem vectorRowsAndMemory : Obligations.VectorRowsAndMemory := by
  unfold Obligations.VectorRowsAndMemory
  refine ⟨fun s spk w => ?_, fun s spk w => ?_⟩
  · intro k a t r puts hf
    have reduces : ∀ f, Issues s spk w 1 0x20 → reduceOp (fldMode w.toNat) = some f →
        exec (.vred spk w) s = puts (reduceTree f 9 a :: List.replicate 511 0) := fun f hi hop => by
      rw [exec_vred]
      exact actK_runs hi hf (vecRed_listed hop) (clear_registers k)
    refine ⟨fun hi hm => reduces _ hi (by rw [hm]; rfl), fun hi hm => reduces _ hi (by rw [hm]; rfl),
      fun hi hm => reduces _ hi (by rw [hm]; rfl), fun hi h4 h124 hups => ?_, fun hi h4 h124 => ?_⟩
    · rw [exec_vacr]
      exact actK_runs hi hf (vecAcr_admitted (accFirst_admitted h4 h124)) ⟨(clear_registers k).1, hups⟩
    · obtain ⟨acc, hframe⟩ := foldl_putRow_frame t r (laneRow a) (List.range 4) k
      refine ⟨_, (exec_vacw spk w s).trans (actK_runs hi hf (vecAcw_admitted (accFirst_admitted h4 h124)) (clear_registers k)),
        fun i hi4 => ?_, fun n hn => ?_, (congrArg Spoke.sregs hframe :), (congrArg Spoke.vregs hframe :),
        (congrArg Spoke.ls hframe :), (congrArg Spoke.copies hframe :)⟩
      · exact (accRow_clearRows _ _ t (r + i)).trans (accRow_foldl_putRow t r (laneRow a) k hi4)
      · exact (tget_foldl_putRow t r (laneRow a) 4 k n).trans (if_neg (by omega))
  · intro k code mx n a sa sc widen packed hf hlegal hlanes hscale
    refine ⟨fun hi hc => ?_, fun hi hc => ?_, fun hi hcvt hc => ?_⟩
    · rw [exec_vld]
      exact actK_runs hi hf (vecLd_legal hlegal hlanes hscale) hc
    · rw [exec_vst]
      exact actK_runs hi hf (vecSt_legal hlegal hlanes hscale) hc
    · rw [exec_vcvt]
      exact actK_runs hi hf (vecCvt_legal hlegal hcvt) hc

/-! ### The matrix unit (R200, R201, R217) -/

/-- What an MMA puts into row `r` of its tile, where it puts something. -/
def mmaNewRow (m : MmaArgs) (g : Nat) (k : Spoke) (r : Nat) : Option (List (BitVec 32)) :=
  if r < m.rows then
    some (mmaRow m g (mmaVector k m.fa m.kDim (m.addrA + r * m.strideA) m.mxa (m.scaleA + r * (m.kDim / 32)))
      ((List.range m.cols).map fun c =>
        mmaVector k m.fb m.kDim (m.addrB + c * m.strideB) m.mxb (m.scaleB + c * (m.kDim / 32))) (accRow k m.acc r))
  else if m.zero then some (List.replicate 128 0) else none

/-- The rows of the tile are written in turn, each from what the Spoke held before. -/
theorem mmaTile_putRow (m : MmaArgs) (g : Nat) (k : Spoke) :
    mmaTile m g k = (List.range 128).foldl (putRow m.acc 0 (mmaNewRow m g k)) k := by
  unfold mmaTile
  refine List.foldl_ext _ _ _ fun acc r _ => ?_
  unfold putRow mmaNewRow
  split
  · rw [Nat.zero_add]
  · split
    · rw [Nat.zero_add]
    · rfl

/-- An element of a row that an MMA computes: the columns of the product take their sums, the others their start value. -/
theorem mmaRow_getElem? (m : MmaArgs) (g : Nat) (x : List Num) (vec : Nat → List Num) {old : List (BitVec 32)} {c : Nat}
    (hc : c < old.length) :
    (mmaRow m g x ((List.range m.cols).map vec) old)[c]? =
      let start := if m.zero then some 0 else old[c]?
      if c < m.cols then start.map fun e => mmaElement e (groupSums (decide (m.fa = 10)) m.b1dot g m.kDim x (vec c))
      else start := by
  by_cases hn : c < m.cols <;> by_cases hz : m.zero = true <;>
    simp [mmaRow, List.getElem?_eq_getElem hc, hn, hz]

/-- An element of the tile after an MMA (R201). -/
theorem mmaNewRow_getElem? (m : MmaArgs) (g : Nat) (k : Spoke) {r c : Nat} (hlen : (accRow k m.acc r).length = 128)
    (hc : c < 128) :
    ((mmaNewRow m g k r).getD (accRow k m.acc r))[c]? =
      let start := if m.zero then some 0 else (accRow k m.acc r)[c]?
      if r < m.rows ∧ c < m.cols then
        start.map fun e => mmaElement e (groupSums (decide (m.fa = 10)) m.b1dot g m.kDim
          (mmaVector k m.fa m.kDim (m.addrA + r * m.strideA) m.mxa (m.scaleA + r * (m.kDim / 32)))
          (mmaVector k m.fb m.kDim (m.addrB + c * m.strideB) m.mxb (m.scaleB + c * (m.kDim / 32))))
      else start := by
  unfold mmaNewRow
  by_cases hr : r < m.rows
  · rw [if_pos hr, Option.getD_some, mmaRow_getElem? m g _ _ (by rw [hlen]; exact hc)]
    simp only [hr, true_and]
  · rw [if_neg hr]
    by_cases hz : m.zero = true
    · simp [hr, hz, hc, -List.reduceReplicate]
    · simp [hr, hz]

/-- The Spoke after an MMA: a tile started from +0 holds no error any more. -/
def afterMma (m : MmaArgs) (g : Nat) (k : Spoke) : Spoke :=
  if m.zero then clearRows ((List.range 128).map fun r => 128 * m.acc + r) (mmaTile m g k) else mmaTile m g k

/-- Clearing the errors changes nothing else. -/
theorem afterMma_eq (m : MmaArgs) (g : Nat) (k : Spoke) : ∃ us, afterMma m g k = { mmaTile m g k with upsets := us } := by
  unfold afterMma
  split <;> exact ⟨_, rfl⟩

theorem afterMma_acc (m : MmaArgs) (g : Nat) (k : Spoke) :
    (afterMma m g k).acc = ((List.range 128).foldl (putRow m.acc 0 (mmaNewRow m g k)) k).acc := by
  obtain ⟨us, h⟩ := afterMma_eq m g k
  rw [h, ← mmaTile_putRow]

/-- An MMA changes the accumulators and the errors that lie in them alone. -/
theorem afterMma_frame (m : MmaArgs) (g : Nat) (k : Spoke) :
    ∃ acc us, afterMma m g k = { k with acc := acc, upsets := us } := by
  obtain ⟨us, h⟩ := afterMma_eq m g k
  obtain ⟨acc, htile⟩ := foldl_putRow_frame m.acc 0 (mmaNewRow m g k) (List.range 128) k
  exact ⟨acc, us, by rw [h, mmaTile_putRow, htile]⟩

/-- An MMA that passes its checks reads its operands and, unless it starts from +0, its tile. -/
theorem matrixMma_legal {w g : Nat} {k : Spoke} {m : MmaArgs} (hm : mmaArgs w k = m) (hlegal : mmaIllegal k.isa m = false)
    (hg : groupOf m.fa m.fb = some g) (haddrA : m.addrA % 8 = 0) (haddrB : m.addrB % 8 = 0) (hstrideA : m.strideA % 8 = 0)
    (hstrideB : m.strideB % 8 = 0) (hin : ∀ r ∈ mmaReads m, r.1 + r.2 ≤ lsBytes) :
    matrixMma w k = .run ⟨mmaReads m, [], if m.zero then [] else (List.range 128).map fun r => 128 * m.acc + r,
      afterMma m g k, k.pc + 1⟩ := by
  have hrange : (mmaReads m).any (fun r => decide (lsBytes < r.1 + r.2)) = false :=
    List.any_eq_false.2 fun r hr => by simpa using hin r hr
  simp only [matrixMma, hm, hlegal, haddrA, haddrB, hstrideA, hstrideB, hrange, hg, ne_eq, not_true_eq_false, or_self, if_false,
    Bool.false_eq_true, Option.getD_some]
  rfl

/-- Settles O21: the MMA passes its checks; its tile is 128 rows written in turn, each from its own old row. -/
theorem matrixMultiplyAccumulates : Obligations.MatrixMultiplyAccumulates := by
  unfold Obligations.MatrixMultiplyAccumulates
  intro s spk w g k m rows vecA vecB hi hf hlegal hg haddrA haddrB hstrideA hstrideB hin hc hlen
  obtain ⟨acc, us, hframe⟩ := afterMma_frame m g k
  refine ⟨afterMma m g k, ?_, fun r c hr hcol => ?_, fun n hn => ?_, (congrArg Spoke.sregs hframe :),
    (congrArg Spoke.vregs hframe :), (congrArg Spoke.ls hframe :)⟩
  · rw [exec_mma]
    exact actK_runs hi hf (matrixMma_legal rfl hlegal hg haddrA haddrB hstrideA hstrideB hin) hc
  · have hrow := accRow_foldl_putRow m.acc 0 (mmaNewRow m g k) k hr
    rw [Nat.zero_add] at hrow
    rw [accRow, afterMma_acc, ← accRow, hrow]
    exact mmaNewRow_getElem? m g k (hlen r hr) hcol
  · rw [afterMma_acc, tget_foldl_putRow, if_neg (by omega)]

end Sys2Proof.Machine

/-! PROOFS of the family 09_spoke_isa: scalar instructions (O17, O18), vector instructions on registers (O19), copies (O22), sync
instructions and the ends of a tile (O23). -/

namespace Sys2Proof.Machine

/-! ### An issued word, by what its body answers (R212, R213, R224) -/

theorem actK_up {s : State} {spk : Nat} (f : Block → Block) (hspk : spk < numSpokes) (hup : s.toBlock.up = true) :
    actK spk f s = .next (s.put (rest (f s.toBlock))) :=
  actR_up f (decide_eq_true hspk) hup

/-- The word that a Spoke is to issue runs its own row. -/
theorem actK_issued {s : State} {spk cls op : Nat} {w : BitVec 64} (body : Nat → Spoke → Block → Block)
    (hi : Issues s spk w cls op) :
    actK spk (runWord cls op body spk w) s = .next (s.put (rest (body w.toNat (spoke s.toBlock spk) s.toBlock))) := by
  obtain ⟨hspk, hup, hissue, hcls, hop, hplace, hreserved⟩ := hi
  rw [actK_up _ hspk hup]
  simp only [runWord, hissue, hcls, hop, hplace, hreserved, ne_eq, not_true_eq_false, Bool.true_eq_false, or_self, if_false]
  rfl

/-- An issued instruction that answers a fault. -/
theorem actK_faults {s : State} {spk cls op : Nat} {w : BitVec 64} {body : Nat → Spoke → SpkAns} {code : Nat}
    (hi : Issues s spk w cls op) (hb : body w.toNat (spoke s.toBlock spk) = .fault code) :
    actK spk (runSpoke cls op body spk w) s = .next (s.put (rest (tileFault spk code s.toBlock))) := by
  have hrun := actK_issued (fun w k b => runBody spk k (body w k) b) hi
  simp only [hb] at hrun
  exact hrun

/-- An effect that nothing holds up is taken where the program counter stays within the code, and is a fault where it does not. -/
theorem runBody_unheld {k : Spoke} {o : SpkOp} (spk : Nat) (b : Block) (hc : Clear k o.reads o.writes o.rows) :
    runBody spk k (.run o) b =
      if o.pc < 0 ∨ 8191 < o.pc ∨ (k.code.length : Int) ≤ o.pc then
        tileFault spk Ft.pcRange (setSpoke spk { o.next with pc := k.pc } b)
      else setSpoke spk { o.next with pc := o.pc.toNat } b := by
  obtain ⟨hconf, hups⟩ := hc
  simp only [runBody, hconf, hups, meetUpsets, List.find?_nil, List.foldl_nil, Option.map_none, Bool.false_eq_true, if_false]

/-! ### Scalar instructions on registers (R211, Table 9.3) -/

@[simp] theorem setSreg_pc (k : Spoke) (i : Nat) (v : BitVec 64) : (setSreg k i v).pc = k.pc := by
  unfold setSreg
  split <;> rfl

/-- An instruction whose one effect is a scalar register. -/
theorem actK_setsSreg {s : State} {spk cls op : Nat} {w : BitVec 64} {body : Nat → Spoke → SpkAns} {v : BitVec 64}
    (hi : Issues s spk w cls op) (hf : Follows (spoke s.toBlock spk))
    (hb : body w.toNat (spoke s.toBlock spk) = .go (setSreg (spoke s.toBlock spk) (fldD w.toNat) v)) :
    actK spk (runSpoke cls op body spk w) s =
      .next (s.spokeAt spk (setSreg (spoke s.toBlock spk) (fldD w.toNat) v) ((spoke s.toBlock spk).pc + 1)) := by
  rw [SpkAns.go, setSreg_pc] at hb
  exact actK_runs hi hf hb (clear_registers _)

/-- MFS by the number of the special register (R211). -/
theorem scalarMfs_argument {w : Nat} (k : Spoke) (h : bitsOf w 32 32 < 16) :
    scalarMfs w k = .go (setSreg k (fldD w) ((k.targs[bitsOf w 32 32]?).getD 0)) := if_pos h

theorem scalarMfs_resumed {w : Nat} (k : Spoke) (h : bitsOf w 32 32 = 16) :
    scalarMfs w k = .go (setSreg k (fldD w) (if k.resumed then 1 else 0)) := by
  simp only [scalarMfs, h, Nat.lt_irrefl, if_false, if_true]

theorem scalarMfs_unlisted {w : Nat} (k : Spoke) (h : 16 < bitsOf w 32 32) : scalarMfs w k = .fault Ft.illegal := by
  simp only [scalarMfs, Nat.lt_asymm h, Nat.ne_of_gt h, if_false]

/-- Settles O17: each instruction sets its destination alone; MFS by the number of the special register. -/
theorem scalarRegisterInstructions : Obligations.ScalarRegisterInstructions := by
  unfold Obligations.ScalarRegisterInstructions
  intro s spk w k a b imm n puts hf
  have sets : ∀ {op : Nat} {body : Nat → Spoke → SpkAns} {v : BitVec 64}, Issues s spk w 0 op →
      body w.toNat k = .go (setSreg k (fldD w.toNat) v) → actK spk (runSpoke 0 op body spk w) s = puts v :=
    fun hi => actK_setsSreg hi hf
  refine ⟨fun hi => (exec_add spk w s).trans (sets hi rfl),
    fun hi => (exec_addi spk w s).trans (sets hi rfl), fun hi => (exec_sub spk w s).trans (sets hi rfl),
    fun hi => (exec_mul spk w s).trans (sets hi rfl), fun hi => (exec_sand spk w s).trans (sets hi rfl),
    fun hi => (exec_sor spk w s).trans (sets hi rfl), fun hi => (exec_sxor spk w s).trans (sets hi rfl),
    fun hi => (exec_shl spk w s).trans (sets hi rfl), fun hi => (exec_shr spk w s).trans (sets hi rfl),
    fun hi => (exec_sar spk w s).trans (sets hi rfl), fun hi => (exec_lui spk w s).trans (sets hi rfl), fun hi hn => ?_,
    fun hi hn => ?_, fun hi hn => ?_⟩
  · exact (exec_mfs spk w s).trans (sets hi (scalarMfs_argument k hn))
  · exact (exec_mfs spk w s).trans (sets hi (scalarMfs_resumed k hn))
  · exact (exec_mfs spk w s).trans (actK_faults hi (scalarMfs_unlisted k hn))

/-! ### Scalar loads, stores and branches (R213) -/

section Access

variable {w : Nat} {k : Spoke}

theorem access8_inside (hmul : addrOf (sreg k (fldA w)) (fldImm w) % 8 = 0)
    (hin : addrOf (sreg k (fldA w)) (fldImm w) + 8 ≤ lsBytes) : access8 k w = .inl (addrOf (sreg k (fldA w)) (fldImm w)) := by
  simp only [access8, hmul, Nat.not_lt.2 hin, ne_eq, not_true_eq_false, if_false]

/-- An address off its multiple of 8 is that fault, also where it is past the local store as well. -/
theorem access8_bad
    (hbad : addrOf (sreg k (fldA w)) (fldImm w) % 8 ≠ 0 ∨ lsBytes < addrOf (sreg k (fldA w)) (fldImm w) + 8) :
    access8 k w = .inr (if addrOf (sreg k (fldA w)) (fldImm w) % 8 ≠ 0 then Ft.align else Ft.lsRange) := by
  by_cases hmul : addrOf (sreg k (fldA w)) (fldImm w) % 8 = 0
  · simp only [access8, hmul, hbad.resolve_left (not_not.2 hmul), ne_eq, not_true_eq_false, if_false, if_true]
  · simp only [access8, hmul, ne_eq, not_false_eq_true, if_true]

theorem scalarLd_inside {a : Nat} (h : access8 k w = .inl a) :
    scalarLd w k = .run ⟨[(a, 8)], [], [], setSreg k (fldD w) (BitVec.ofNat 64 (leVal (lsRead k a 8))), k.pc + 1⟩ := by
  simp only [scalarLd, h]

theorem scalarLd_bad {c : Nat} (h : access8 k w = .inr c) : scalarLd w k = .fault c := by
  simp only [scalarLd, h]

theorem scalarSt_inside {a : Nat} (h : access8 k w = .inl a) :
    scalarSt w k = .run ⟨[], [(a, 8)], [], lsWrite a (leBytes 8 (sreg k (fldB w)).toNat) k, k.pc + 1⟩ := by
  simp only [scalarSt, h]

theorem scalarSt_bad {c : Nat} (h : access8 k w = .inr c) : scalarSt w k = .fault c := by
  simp only [scalarSt, h]

end Access

/-- Where a branch sends its Spoke; one that leaves the code is the fault PC_RANGE (R213, R224). -/
theorem actK_branches {s : State} {spk op : Nat} {w : BitVec 64} (f : BitVec 64 → BitVec 64 → Bool) (hi : Issues s spk w 0 op) :
    let k := spoke s.toBlock spk
    let t : Int := k.pc + if f (sreg k (fldA w.toNat)) (sreg k (fldB w.toNat)) then fldImm w.toNat else 1
    actK spk (runSpoke 0 op (scalarBranch f) spk w) s =
      if t < 0 ∨ 8191 < t ∨ (k.code.length : Int) ≤ t then
        .next (s.put (rest (tileFault spk Ft.pcRange (setSpoke spk k s.toBlock))))
      else .next (s.spokeAt spk k t.toNat) := by
  intro k t
  refine (actK_issued (fun w k b => runBody spk k (scalarBranch f w k) b) hi).trans ?_
  simp only [scalarBranch, SpkAns.jump]
  rw [runBody_unheld spk s.toBlock (clear_registers k)]
  exact apply_ite (fun b => Host.Outcome.next (s.put (rest b))) _ _ _

/-- Settles O18: an access by its address, a branch by its condition. -/
theorem scalarMemoryAndBranches : Obligations.ScalarMemoryAndBranches := by
  unfold Obligations.ScalarMemoryAndBranches
  refine ⟨fun s spk w => ?_, fun s spk w => ?_⟩
  · intro k a
    refine ⟨fun hi hf hmul hin hc => ?_, fun hi hf hmul hin hc => ?_, fun hi hbad => ?_, fun hi hbad => ?_⟩
    · exact (exec_ld spk w s).trans (actK_runs hi hf (scalarLd_inside (access8_inside hmul hin)) hc)
    · exact ⟨_, (exec_st spk w s).trans (actK_runs hi hf (scalarSt_inside (access8_inside hmul hin)) hc), rfl, rfl, rfl, rfl, rfl⟩
    · exact (exec_ld spk w s).trans (actK_faults hi (scalarLd_bad (access8_bad hbad)))
    · exact (exec_st spk w s).trans (actK_faults hi (scalarSt_bad (access8_bad hbad)))
  · intro k a b goes
    have hbge : decide (b.toInt ≤ a.toInt) = !a.slt b := by
      rw [BitVec.slt, ← decide_not]
      exact decide_eq_decide.2 not_lt.symm
    refine ⟨fun hi => (exec_beq spk w s).trans (actK_branches _ hi), fun hi => (exec_bne spk w s).trans (actK_branches _ hi),
      fun hi => (exec_blt spk w s).trans (actK_branches _ hi), fun hi => ?_,
      fun hi => (exec_jmp spk w s).trans (actK_branches _ hi)⟩
    rw [hbge]
    exact (exec_bge spk w s).trans (actK_branches _ hi)

/-! ### Vector instructions on registers (R214, Table 9.4) -/

/-- An instruction whose one effect is a vector register. -/
theorem execVector_sets {s : State} {spk op : Nat} {w : BitVec 64} {body : Nat → Spoke → SpkAns} {v : List (BitVec 32)}
    (hi : Issues s spk w 1 op) (hf : Follows (spoke s.toBlock spk))
    (hb : body w.toNat (spoke s.toBlock spk) = .go (setVreg (spoke s.toBlock spk) (fldD w.toNat) v)) :
    execVector op body spk w s =
      .next (s.spokeAt spk (setVreg (spoke s.toBlock spk) (fldD w.toNat) v) ((spoke s.toBlock spk).pc + 1)) :=
  actK_runs hi hf hb (clear_registers _)

/-- A comparison that Table 9.4 lists. -/
theorem vecCmp_listed {w : Nat} (k : Spoke) (h : fldMode w ≤ 5) :
    vecCmp w k = vec2 (fun x y => if (fCompare (fldMode w) x y).getD false then 1 else 0) w k :=
  if_neg (Nat.not_lt.2 h)

/-- Settles O19: each instruction sets its destination alone, lane by lane. -/
theorem vectorRegisterInstructions : Obligations.VectorRegisterInstructions := by
  unfold Obligations.VectorRegisterInstructions
  intro s spk w k a b c puts v1 v2 v3 hf
  have sets : ∀ {op : Nat} {body : Nat → Spoke → SpkAns} {v : List (BitVec 32)}, Issues s spk w 1 op →
      body w.toNat k = .go (setVreg k (fldD w.toNat) v) → execVector op body spk w s = puts v :=
    fun hi => execVector_sets hi hf
  refine ⟨fun hi => (exec_vadd spk w s).trans (sets hi rfl),
    fun hi => (exec_vsub spk w s).trans (sets hi rfl), fun hi => (exec_vmul spk w s).trans (sets hi rfl),
    fun hi => (exec_vdiv spk w s).trans (sets hi rfl), fun hi => (exec_vsqrt spk w s).trans (sets hi rfl),
    fun hi => (exec_vfma spk w s).trans (sets hi rfl), fun hi => (exec_vrcp spk w s).trans (sets hi rfl),
    fun hi => (exec_vrsq spk w s).trans (sets hi rfl), fun hi => (exec_vexp2 spk w s).trans (sets hi rfl),
    fun hi => (exec_vlog2 spk w s).trans (sets hi rfl), fun hi => (exec_vexp spk w s).trans (sets hi rfl),
    fun hi => (exec_vmin spk w s).trans (sets hi rfl), fun hi => (exec_vmax spk w s).trans (sets hi rfl),
    fun hi hmode => ?_, fun hi => (exec_vsel spk w s).trans (sets hi rfl),
    fun hi => (exec_viadd spk w s).trans (sets hi rfl), fun hi => (exec_visub spk w s).trans (sets hi rfl),
    fun hi => (exec_vimul spk w s).trans (sets hi rfl), fun hi => (exec_vand spk w s).trans (sets hi rfl),
    fun hi => (exec_vor spk w s).trans (sets hi rfl), fun hi => (exec_vxor spk w s).trans (sets hi rfl),
    fun hi => (exec_vshl spk w s).trans (sets hi rfl), fun hi => (exec_vshr spk w s).trans (sets hi rfl),
    fun hi => (exec_vpop spk w s).trans (sets hi rfl), fun hi => (exec_vbcast spk w s).trans (sets hi rfl),
    fun hi => (exec_vidx spk w s).trans (sets hi rfl)⟩
  exact (exec_vcmp spk w s).trans (sets hi (vecCmp_listed k hmode))

/-! ### Copies (R219 to R221) -/

/-- A copy that passes its checks is issued (R219, R221). -/
theorem issueCopy_legal {w : Nat} {k : Spoke} (hlegal : copyIllegal k.isa (copyOf w k) = false)
    (haligned : copyMisaligned (copyOf w k) = false)
    (hin : ∀ r ∈ (copyOf w k).reads ++ (copyOf w k).writes, r.1 + r.2 ≤ lsBytes) :
    issueCopy w k = .run ⟨(copyOf w k).reads, (copyOf w k).writes, [],
      { k with copies := k.copies ++ [copyOf w k], nextCopy := k.nextCopy + 1 }, k.pc + 1⟩ := by
  have hrange : ((copyOf w k).reads ++ (copyOf w k).writes).any (fun r => decide (lsBytes < r.1 + r.2)) = false :=
    List.any_eq_false.2 fun r hr => by simpa using hin r hr
  simp only [issueCopy, hlegal, haligned, hrange, Bool.false_eq_true, if_false]

/-- An event of the copies of a Spoke, while the Spokes run. -/
theorem actK_copyEvent {s : State} {spk : Nat} (f : Block → Block) (hspk : spk < numSpokes) (hup : s.toBlock.up = true)
    (hrun : spokesRun s.toBlock = true) :
    actK spk (fun b => if spokesRun b then f b else b) s = .next (s.put (rest (f s.toBlock))) := by
  rw [actK_up _ hspk hup, if_pos hrun]

/-- A Spoke whose copy `num` is no longer outstanding. -/
def copyGone (num : Nat) (k : Spoke) : Spoke := { k with copies := k.copies.filter fun x => decide (x.num ≠ num) }

theorem padTo_of_length {n : Nat} {bs : Bytes} (h : bs.length = n) : padTo n bs = bs := by
  simp [padTo, ← h]

section Completion

variable {b : Block} {spk num : Nat} {c : CopyOp} (hout : outstanding b spk num = some c)
include hout

theorem outstanding_num : c.num = num := of_decide_eq_true (List.find?_some hout :)

/-- An outstanding copy that meets no error moves its bytes. -/
theorem copyDone_sound (hups : upsetsIn (spoke b spk) c.reads [] = []) : copyDone spk num b = moveCopy spk c b := by
  simp only [copyDone, hout, hups, meetUpsets, List.find?_nil, List.foldl_nil, Option.map_none]

theorem copyLate_faults (hop : c.op ≠ 3) (hrun : (spoke b spk).running = true) :
    copyLate spk num b = tileFault spk Ft.copyTimeout b := by
  simp only [copyLate, hout, hop, hrun, ne_eq, not_false_eq_true, and_self, if_true]

theorem copyFails_faults (hrun : (spoke b spk).running = true) :
    copyFails spk num b = tileFault spk Ft.copyErr (setSpoke spk (copyGone num (spoke b spk)) b) := by
  simp only [copyFails, hout]
  exact if_pos hrun

end Completion

section Move

variable {c : CopyOp} (hcvt : c.cvt = false) (spk : Nat) (b : Block)
include hcvt

/-- A copy between two ranges of the local store. -/
theorem moveCopy_local (hop : c.op = 3) :
    moveCopy spk c b =
      setSpoke spk (lsWrite c.off (lsRead (spoke b spk) c.ls c.len) (copyGone c.num (spoke b spk))) b := by
  simp [moveCopy, copySource, convertBytes, logCopy, copyGone, hop, hcvt]

/-- A copy into the local store whose bytes lie in a segment that may be read, no block of HBM failing. -/
theorem moveCopy_in (hop : c.op = 1) (hreads : segReads (segmentOf (spoke b spk) c.seg).kind = true)
    (hin : c.off + c.len ≤ (segmentOf (spoke b spk) c.seg).size) (hsound : b.mem.poisoned = []) :
    moveCopy spk c b =
      setSpoke spk (lsWrite c.ls (cellRead b.hbm ((segmentOf (spoke b spk) c.seg).base + c.off) c.len)
        (copyGone c.num (spoke b spk))) b := by
  have hbytes : bytesInside (segmentOf (spoke b spk) c.seg) true c.off c.len = c.len := Nat.min_eq_left (by omega)
  simp [moveCopy, copySource, convertBytes, logCopy, copyGone, hbmRead, hop, hcvt, hreads, hbytes, hsound, padTo_of_length]

/-- A copy out of the local store into a segment of HBM that may be written (Table 9.7). -/
theorem moveCopy_out (hop : c.op = 2)
    (hkind : (segmentOf (spoke b spk) c.seg).kind = 3 ∨ (segmentOf (spoke b spk) c.seg).kind = 4 ∨
      (segmentOf (spoke b spk) c.seg).kind = 5)
    (hin : c.off + c.len ≤ (segmentOf (spoke b spk) c.seg).size) :
    moveCopy spk c b = hbmWrite ((segmentOf (spoke b spk) c.seg).base + c.off) (lsRead (spoke b spk) c.ls c.len)
      (setSpoke spk (copyGone c.num (spoke b spk)) b) := by
  have hwrites : mayWrite 2 (segmentOf (spoke b spk) c.seg) = true := by
    rcases hkind with h | h | h <;> simp [mayWrite, segWrites, h]
  have hpeer : (segmentOf (spoke b spk) c.seg).kind ≠ 6 := by omega
  have hlen : (lsRead (spoke b spk) c.ls c.len).length = c.len := cellRead_length _ _ _
  have hbytes : bytesInside (segmentOf (spoke b spk) c.seg) true c.off c.len = c.len := Nat.min_eq_left (by omega)
  simp [moveCopy, copySource, convertBytes, logCopy, segPut, copyGone, hop, hcvt, hwrites, hpeer, hlen, hbytes,
    List.take_of_length_le]

end Move

/-- Settles O22: a copy that passes its checks is issued; each event of an outstanding copy by the copy's direction. -/
theorem copiesAreIssuedAndEnd : Obligations.CopiesAreIssuedAndEnd := by
  unfold Obligations.CopiesAreIssuedAndEnd
  refine ⟨fun s spk w => ?_, fun s spk num c => ?_⟩
  · intro k c issued hf hlegal haligned hin hc
    have joins : ∀ {op : Nat}, Issues s spk w 3 op → actK spk (runSpoke 3 op issueCopy spk w) s = issued := fun hi =>
      actK_runs hi hf (issueCopy_legal hlegal haligned hin) hc
    exact ⟨fun hi => (exec_cpin spk w s).trans (joins hi), fun hi => (exec_cpout spk w s).trans (joins hi),
      fun hi => (exec_cpls spk w s).trans (joins hi), fun hi => (exec_cppeer spk w s).trans (joins hi)⟩
  · intro k gone seg hspk hup hrun hout
    obtain rfl := outstanding_num hout
    refine ⟨fun hop hcvt _ hups => ?_, fun hop hcvt _ hups hreads hin hsound => ?_, fun hop hcvt _ hups hkind hin => ?_,
      fun hop hrunning => ?_, fun hrunning => ?_⟩
    · rw [exec_copyComplete, actK_copyEvent _ hspk hup hrun, copyDone_sound hout hups, moveCopy_local hcvt spk _ hop]
      rfl
    · rw [exec_copyComplete, actK_copyEvent _ hspk hup hrun, copyDone_sound hout hups,
        moveCopy_in hcvt spk _ hop hreads hin hsound]
      rfl
    · rw [exec_copyComplete, actK_copyEvent _ hspk hup hrun, copyDone_sound hout hups, moveCopy_out hcvt spk _ hop hkind hin]
      rfl
    · rw [exec_copyTimeout, actK_copyEvent _ hspk hup hrun, copyLate_faults hout hop hrunning]
      rfl
    · rw [exec_copyErr, actK_copyEvent _ hspk hup hrun, copyFails_faults hout hrunning]
      rfl

/-! ### Sync instructions (R223) -/

/-- An instruction that changes nothing: the Spoke goes on to the word after it. -/
theorem runBody_goes {k : Spoke} (spk : Nat) (b : Block) (hf : Follows k) :
    runBody spk k (.go k) b = setSpoke spk { k with pc := k.pc + 1 } b :=
  runBody_clear spk b hf (clear_registers k)

theorem spokeFence_waits {k : Spoke} (spk w : Nat) (b : Block) (h : k.copies ≠ []) : spokeFence spk w k b = b := if_pos h

theorem spokeFence_goes {k : Spoke} (spk w : Nat) (b : Block) (h : k.copies = []) (hf : Follows k) :
    spokeFence spk w k b = setSpoke spk { k with pc := k.pc + 1 } b :=
  (if_neg (not_not.2 h)).trans (runBody_goes spk b hf)

theorem spokeSignal_waits {k : Spoke} (spk w : Nat) (b : Block) (h : k.copies ≠ []) : spokeSignal spk w k b = b := if_pos h

/-- A violation is written to its log; no Spoke changes. -/
@[simp] theorem violation_spk (kind tenant place detail : Nat) (b : Block) :
    (violation kind tenant place detail b).spk = b.spk := by
  unfold violation
  split
  · split
    · rfl
    · dsimp only
      split <;> rfl
  · rfl

theorem spoke_violation (kind tenant place detail : Nat) (b : Block) (i : Nat) :
    spoke (violation kind tenant place detail b) i = spoke b i := by
  rw [spoke, violation_spk, ← spoke]

/-- A signal of the tenant's own counter (R223). -/
theorem spokeSignal_own {k : Spoke} (spk w : Nat) (b : Block) (h : k.copies = [])
    (hown : counterOwner b (bitsOf (sreg k (fldD w)).toNat 0 16) = spokeTenant k) :
    let b' := signalCounter (bitsOf (sreg k (fldD w)).toNat 0 16) (w.testBit 22) (sreg k (fldA w)).toNat b
    spokeSignal spk w k b = runBody spk (spoke b' spk) (.go (spoke b' spk)) b' := by
  simp only [spokeSignal, h, hown, ne_eq, not_true_eq_false, if_false, if_true]

/-- A signal of another tenant's counter (R223, R412). -/
theorem spokeSignal_foreign {k : Spoke} (spk w : Nat) (b : Block) (h : k.copies = [])
    (hother : counterOwner b (bitsOf (sreg k (fldD w)).toNat 0 16) ≠ spokeTenant k) :
    spokeSignal spk w k b = runBody spk (spoke b spk) (.go (spoke b spk))
      (violation 8 (spokeTenant k) spk (bitsOf (sreg k (fldD w)).toNat 0 16) b) := by
  simp only [spokeSignal, h, hother, ne_eq, not_true_eq_false, if_false, spoke_violation]

/-! ### TEND (R225) -/

/-- The Spoke as the TEND `w` leaves its tile. -/
def tileEnded (w : Nat) (k : Spoke) : Spoke :=
  { k with
    running := false, resumed := false, live := w, draftOf := []
    chain := if tendLast w then none else k.chain, deferred := k.deferred && !tendLast w }

theorem tileEnd_illegal {w : Nat} (spk : Nat) (k : Spoke) (b : Block) (h : tendBad w = true) :
    tileEnd spk w k b = tileFault spk Ft.liveLimit b := if_pos h

theorem tileEnd_waits {w : Nat} {k : Spoke} (spk : Nat) (b : Block) (h : tendBad w = false) (hcopies : k.copies ≠ []) :
    tileEnd spk w k b = b := by
  simp only [tileEnd, h, hcopies, Bool.false_eq_true, ne_eq, not_false_eq_true, if_false, if_true]

section Ends

variable {w spk : Nat} {k : Spoke} {b : Block} (hgood : tendBad w = false) (hcopies : k.copies = [])
include hgood hcopies

/-- A TEND that is legal, with no copy outstanding, ends its tile, which is of the step that it was of. -/
theorem tileEnd_ofStep {place : Nat} {p : Peloton} (hstep : stepOfSpoke b k = some (place, p)) :
    tileEnd spk w k b = tileOver place p (afterTend spk p (setSpoke spk (tileEnded w k) b)) := by
  unfold tileEnd
  rw [if_neg (Bool.eq_false_iff.1 hgood), if_neg (not_not.2 hcopies)]
  dsimp only
  split
  · next hnone => cases hstep.symm.trans hnone
  · next hsome =>
    cases hstep.symm.trans hsome
    rfl

theorem tileEnd_ofNoStep (hstep : stepOfSpoke b k = none) :
    tileEnd spk w k b = settleSpoke spk (setSpoke spk (tileEnded w k) b) := by
  unfold tileEnd
  rw [if_neg (Bool.eq_false_iff.1 hgood), if_neg (not_not.2 hcopies)]
  dsimp only
  split
  · rfl
  · next hsome => cases hstep.symm.trans hsome

end Ends

/-- A Spoke that does not drain is settled as it stands. -/
theorem settleSpoke_keeps {i : Nat} {b : Block} (h : spkState b i ≠ spDraining) : settleSpoke i b = b :=
  if_neg fun hall => h hall.1

/-- A chain stays where its peloton is not preempted and the Spoke does not drain. -/
theorem afterTend_stays {spk : Nat} {p : Peloton} {b : Block} (hpre : p.preempting = false)
    (hstate : spkState b spk ≠ spDraining) : afterTend spk p b = b := by
  simp only [afterTend, leaves, hpre, hstate, settleSpoke_keeps hstate, decide_false, Bool.or_false, Bool.false_eq_true,
    false_and, if_false]

/-- The end of a tile that is not the last of its step is counted, where the step has no fault and is not torn down. -/
theorem tileOver_counts {p : Peloton} (place : Nat) (b : Block) (hfault : p.fault = none) (htorn : p.torn = false)
    (habandon : p.abandon = false) (hleft : 2 ≤ p.tilesLeft) :
    tileOver place p b = setPel place (some { p with tilesOut := p.tilesOut - 1, tilesLeft := p.tilesLeft - 1 }) b := by
  have hmore : p.tilesLeft - 1 ≠ 0 := by omega
  simp only [tileOver, hfault, htorn, habandon, hmore, Option.isSome_none, Bool.false_eq_true, or_self, false_and, if_false]

/-- An issued TEND. -/
theorem exec_tend_issued {s : State} {spk : Nat} {w : BitVec 64} (hi : Issues s spk w 5 0x02) :
    exec (.tend spk w) s = .next (s.put (rest (tileEnd spk w.toNat (spoke s.toBlock spk) s.toBlock))) := by
  have hlisted : rowListed w.toNat = true := by
    obtain ⟨-, -, -, hcls, hop, -⟩ := hi
    simp [rowListed, hcls, hop]
  rw [exec_tend]
  simp only [hlisted, if_true]
  exact actK_issued (tileEnd spk) hi

/-- Settles O23: a sync instruction by what is outstanding and whose the counter is; a TEND by its checks and its tile's step. -/
theorem tilesBeginAndEnd : Obligations.TilesBeginAndEnd := by
  unfold Obligations.TilesBeginAndEnd
  refine ⟨fun s spk w => ?_, fun s spk w => ?_⟩
  · intro k n t hf
    refine ⟨fun hi hcopies => ?_, fun hi hcopies => ?_, fun hi hcopies => ?_, fun hi hcopies hother => ⟨_, ?_, rfl⟩, ?_⟩
    · rw [exec_cfence, actK_issued _ hi, spokeFence_goes spk _ _ hcopies hf]
      rfl
    · rw [exec_cfence, actK_issued _ hi, spokeFence_waits spk _ _ hcopies]
    · rw [exec_scsig, actK_issued _ hi, spokeSignal_waits spk _ _ hcopies]
    · rw [exec_scsig, actK_issued _ hi, spokeSignal_foreign spk _ _ hcopies hother, runBody_goes spk _ hf]
    · intro hi hcopies hown b' _ hfollows
      rw [exec_scsig, actK_issued _ hi, spokeSignal_own spk _ _ hcopies hown, runBody_goes spk _ hfollows]
  · intro k ended
    refine ⟨fun hi hpc hcode => ?_, fun place p hi hgood hcopies hstep => ?_, fun hi hgood hcopies hstep => ?_,
      fun place p hi hgood hcopies hstep hpre hfault htorn habandon hleft hstate => ?_, fun hi hgood hcopies => ?_,
      fun hi hbad => ?_⟩
    · have hf : Follows k := ⟨by omega, by omega⟩
      have hnext : k.pc + 1 = 1 := by omega
      rw [← hnext]
      exact (exec_tbegin spk w s).trans (actK_runs hi hf rfl (clear_registers k))
    · rw [exec_tend_issued hi, tileEnd_ofStep hgood hcopies hstep]
      rfl
    · rw [exec_tend_issued hi, tileEnd_ofNoStep hgood hcopies hstep]
      rfl
    · have hstays : afterTend spk p (setSpoke spk ended s.toBlock) = setSpoke spk ended s.toBlock := afterTend_stays hpre hstate
      rw [exec_tend_issued hi, tileEnd_ofStep hgood hcopies hstep, ← tileOver_counts place _ hfault htorn habandon hleft,
        ← hstays]
      rfl
    · rw [exec_tend_issued hi, tileEnd_waits spk _ hgood hcopies]
    · rw [exec_tend_issued hi, tileEnd_illegal spk _ _ hbad]
      rfl

end Sys2Proof.Machine

/-! PROOFS of the family 10_text_unit: images (O7), TOKIN and TOKOUT (O8), CONSTRAIN, DRAFT and ACCEPT (O9). -/

namespace Sys2Proof.Machine

/-! ### Images loaded and unloaded (R240, R243, R257, R342) -/

/-- A well-formed cog in an empty slot makes it ready, and its digest is the result (R240, R241). -/
theorem mloadCog_loads {c : Ctx} {b b' : Block} {img : Bytes} {g : Cog} {run : Nat} (hform : textFormBad c true 16 b = false)
    (hempty : cogOf b (textSlot c.e) = none) (himg : loadImage c b = some img)
    (hparse : parseCog img c.tenant (c.e.a.testBit 11) b.now = some g)
    (hroom : takeExtents 0 (extentsFor img.length) c.tenant (.cog (textSlot c.e)) b = some (run, b')) :
    mloadCog c b = .done St.ok (some g.digest) (setCog (textSlot c.e) (some g) b') := by
  simp only [mloadCog, hform, hempty, himg, hparse, hroom, Option.isSome_none, Bool.false_eq_true, if_false]

section LoadedList
variable {c : Ctx} {b : Block} {img : Bytes} {l : CList} (hform : textFormBad c true emptyList b = false)
  (hempty : listOf b (textSlot c.e) = none) (himg : loadImage c b = some img)
  (hparse : parseList img c.tenant (c.e.a.testBit 11) b.now = some l)
include hform hempty himg hparse

/-- A well-formed constraint list whose image and automaton have room is loaded (R257). -/
theorem mloadList_loads {run : Nat} {b' : Block}
    (hroom : takeExtents 0 (extentsFor (img.length + Config.automatonBytes l.states)) c.tenant (.clist (textSlot c.e)) b =
      some (run, b')) :
    mloadList c b = .done St.ok (some l.digest) (setList (textSlot c.e) (some l) b') := by
  simp only [mloadList, hform, hempty, himg, hparse, hroom, Option.isSome_none, Bool.false_eq_true, if_false]

/-- One that has no room ends with QUOTA (R340; log entry 100). -/
theorem mloadList_noRoom
    (hroom : takeExtents 0 (extentsFor (img.length + Config.automatonBytes l.states)) c.tenant (.clist (textSlot c.e)) b =
      none) :
    mloadList c b = .done St.quota none b := by
  simp only [mloadList, hform, hempty, himg, hparse, hroom, Option.isSome_none, Bool.false_eq_true, if_false]

end LoadedList

/-- A ring of the tenant that loaded an image may unload it (R243, R342). -/
theorem mayUnload_owner {c : Ctx} {owner : Nat} (b : Block) (h : owner = c.tenant) : mayUnload c owner b = true := by
  rw [mayUnload, decide_eq_true h, Bool.true_or]

theorem munloadModel_drains {c : Ctx} {b : Block} {m : ModelSlot} (hm : modelSlot b (bitsOf c.e.a 0 8) = some m)
    (hready : m.state = slReady) (howner : m.owner = c.tenant) :
    munloadModel c b = .done St.ok none (setModel (bitsOf c.e.a 0 8) (some { m with state := slDraining }) b) := by
  have hfull : slReady ≠ slEmpty := by decide
  simp only [munloadModel, hm, if_neg hfull, mayUnload_owner b howner, hready, ne_eq, not_true_eq_false, Bool.true_eq_false,
    if_false]

theorem munloadCog_drains {c : Ctx} {b : Block} {g : Cog} (hform : textFormBad c false 16 b = false)
    (hg : cogOf b (textSlot c.e) = some g) (hready : g.state = slReady) (howner : g.owner = c.tenant) :
    munloadCog c b = .done St.ok none (setCog (textSlot c.e) (some { g with state := slDraining }) b) := by
  simp only [munloadCog, hform, hg, mayUnload_owner b howner, hready, ne_eq, not_true_eq_false, Bool.true_eq_false,
    Bool.false_eq_true, if_false]

theorem munloadList_drains {c : Ctx} {b : Block} {l : CList} (hform : textFormBad c false emptyList b = false)
    (hl : listOf b (textSlot c.e) = some l) (hready : l.state = slReady) (howner : l.owner = c.tenant) :
    munloadList c b = .done St.ok none (setList (textSlot c.e) (some { l with state := slDraining }) b) := by
  simp only [munloadList, hform, hl, mayUnload_owner b howner, hready, ne_eq, not_true_eq_false, Bool.true_eq_false,
    Bool.false_eq_true, if_false]

/-- Settles O7: each of the five rows passes its checks and has one outcome, but that a list's load has two, by the room. -/
theorem textImagesLoadAndUnload : Obligations.TextImagesLoadAndUnload := by
  unfold Obligations.TextImagesLoadAndUnload
  refine ⟨⟨?_, ?_⟩, ?_, ?_, ?_⟩
  · intro s rid c b b' img g run hrun hform hempty himg hparse hroom
    rw [exec_mloadCog]
    exact exec_ends hrun (mloadCog_loads hform hempty himg hparse hroom)
  · intro s rid c b img l hrun hform hempty himg hparse
    rw [exec_mloadList]
    split
    · next hroom => exact exec_ends hrun (mloadList_noRoom hform hempty himg hparse hroom)
    · next hroom => exact exec_ends hrun (mloadList_loads hform hempty himg hparse hroom)
  · intro s rid c b m hrun hm hready howner
    rw [exec_munloadModel]
    exact exec_ends hrun (munloadModel_drains hm hready howner)
  · intro s rid c b g hrun hform hg hready howner
    rw [exec_munloadCog]
    exact exec_ends hrun (munloadCog_drains hform hg hready howner)
  · intro s rid c b l hrun hform hl hready howner
    rw [exec_munloadList]
    exact exec_ends hrun (munloadList_drains hform hl hready howner)

/-! ### What the text unit counts, and what it leaves (R246, R247, Tables 10.12 and 10.14) -/

/-- The counters that an instruction of the text unit raises before it looks at its session again. -/
def textCounters : List Fld := [F.TXU_MEM_cache_miss, F.TXU_CNT_TEXT_invalid_bytes, F.TXU_CNT_TEXT_nomatch_bytes]

/-- `b'` is `b` once the text unit has read and counted, and request `rid` has noted its part: no other field of the registers
differs, and what never holds of that request holds of some request as it did. -/
structure TextNotes (rid : Nat) (b b' : Block) : Prop where
  frame : b' = { b with flds := b'.flds, fresh := b'.fresh, fe := { b.fe with reqs := b'.fe.reqs } }
  fields : ∀ (g : Fld) (j : Nat), g.key ∉ textCounters.map (·.key) → b'.getFi g j = b.getFi g j
  others : ∀ p : Nat × Req → Bool, (∀ q, p (rid, q) = false) → b'.fe.reqs.any p = b.fe.reqs.any p

namespace TextNotes

theorem trans {rid : Nat} {a b c : Block} (h : TextNotes rid a b) (h' : TextNotes rid b c) : TextNotes rid a c where
  frame := by rw [h'.frame, h.frame]
  fields g j hg := (h'.fields g j hg).trans (h.fields g j hg)
  others p hp := (h'.others p hp).trans (h.others p hp)

variable {rid : Nat} {b b' : Block} (h : TextNotes rid b b')
include h

theorem cmem : b'.cmem = b.cmem := by rw [h.frame]
theorem ses : b'.ses = b.ses := by rw [h.frame]
theorem ste : b'.ste = b.ste := by rw [h.frame]
theorem ten : b'.ten = b.ten := by rw [h.frame]
theorem link : b'.link = b.link := by rw [h.frame]
theorem rings : b'.fe.rings = b.fe.rings := by rw [h.frame]

theorem peek_eq (a n : Nat) : b'.peek a n = b.peek a n := by rw [Block.peek, Block.peek, h.cmem]

theorem arg_eq (c : Ctx) (lo n : Nat) : c.arg b' lo n = c.arg b lo n := ctxArg_congr c lo n h.cmem

/-- The io windows stand as they were. -/
theorem ioReach_eq (t : Option Nat) (a n : Nat) : ioReach b' t a n = ioReach b t a n := by
  have hwindow (w : Nat) : ioWindow b' t w = ioWindow b t w := by
    unfold ioWindow
    rw [h.fields F.MEM_HWIN_ADDR_base w (by decide), h.fields F.MEM_HWIN_CFG_size_2m w (by decide),
      h.fields F.MEM_HWIN_CFG_all_tenants w (by decide), h.fields F.MEM_HWIN_CFG_tenant w (by decide),
      h.fields F.MEM_HWIN_CFG_enable w (by decide), h.fields F.MEM_HWIN_CFG_tier w (by decide)]
  rw [ioReach, ioReach, ioWindows, ioWindows, funext hwindow]

theorem ioRead_eq (t : Option Nat) (a n : Nat) : ioRead b' t a n = ioRead b t a n := by
  have hmarks : marksPoison b' = marksPoison b := by
    have hversion (p : Nat) := h.fields F.FLL_PORT_STAT_version p (by decide)
    have hstate (p : Nat) := h.fields F.FLL_PORT_STAT_state p (by decide)
    simp only [marksPoison, hversion, hstate]
  simp only [ioRead, h.ioReach_eq, readsPoison, hmarks, h.link]

theorem reads_eq (c : Ctx) (a n : Nat) : c.reads b' a n = c.reads b a n := h.ioRead_eq _ a n

theorem ringOf_eq (r : Nat) : ringOf b' r = ringOf b r := by rw [ringOf, ringOf, h.rings]

theorem reqTenant_eq (q : Req) : reqTenant b' q = reqTenant b q := by
  have howner : ringTenant b' q.ring = ringTenant b q.ring :=
    h.fields { F.CFE_RING_CFG_tenant with reset := q.ring / 16 } q.ring
      (show F.CFE_RING_CFG_tenant.key ∉ textCounters.map (·.key) by decide)
  rw [reqTenant, reqTenant, h.ringOf_eq, howner]

theorem entryHandle_eq (t : Nat) (e : Entry) : entryHandle b' t e = entryHandle b t e := by
  have hblock : blockOk b' t e = blockOk b t e := by simp only [blockOk, h.ioRead_eq]
  have hoperand : entryB b' e = entryB b e := by simp only [entryB, Block.peekLe, h.peek_eq]
  rw [entryHandle, entryHandle, hblock, hoperand]

theorem allSeqs_eq : allSeqs b' = allSeqs b := by rw [allSeqs, allSeqs, h.ste]

/-- No other instruction has come to wait for the session (R33). -/
theorem earlierWaiter_eq (order hd : Nat) (x : Session) : earlierWaiter b' rid order hd x = earlierWaiter b rid order hd x := by
  unfold earlierWaiter
  simp only [h.allSeqs_eq, h.reqTenant_eq, h.entryHandle_eq]
  exact h.others _ (by simp)

theorem stepsInProgress_eq (sid : Nat) : stepsInProgress b' sid = stepsInProgress b sid := by
  rw [stepsInProgress, stepsInProgress, h.allSeqs_eq]

theorem unitTier_eq (p : Option Place) : unitTier b' p = unitTier b p := by
  cases p with
  | none => rfl
  | some p => rw [unitTier, unitTier, h.ses]

theorem sessionFormat_eq (x : Session) : sessionFormat b' x = sessionFormat b x := by
  rw [sessionFormat, sessionFormat, modelSlot, modelSlot, h.ten]

end TextNotes

theorem textNotes_bumpN {f : Fld} (rid n : Nat) (b : Block) (hf : f ∈ textCounters) : TextNotes rid b (b.bumpN f n) where
  frame := rfl
  fields g j hg := getFi_setFi_ne b f g 0 j _ fun hkey => hg ((Prod.mk.inj hkey).1 ▸ List.mem_map_of_mem hf)
  others _ _ := rfl

/-- What holds of no entry under a key holds of some entry of the table exactly where it did before that entry was set. -/
theorem any_tset {α : Type} {p : Nat × α → Bool} {k : Nat} (hp : ∀ v, p (k, v) = false) (t : Tab α) (v : α) :
    (tset t k v).any p = t.any p := by
  induction t with
  | nil => simp [tset, hp]
  | cons e t ih =>
    obtain ⟨k', v'⟩ := e
    simp only [tset]
    split
    · next hk => subst hk; simp [hp]
    · split
      · simp [hp]
      · simp [ih]

theorem any_tupd {α : Type} {p : Nat × α → Bool} {k : Nat} (hp : ∀ v, p (k, v) = false) (t : Tab α) (f : α → α) :
    (tupd t k f).any p = t.any p := by
  unfold tupd
  split
  · exact any_tset hp t _
  · rfl

theorem textNotes_updReq (rid : Nat) (f : Req → Req) (b : Block) : TextNotes rid b (updReq rid f b) where
  frame := rfl
  fields _ _ _ := rfl
  others _ hp := any_tupd hp b.fe.reqs f

theorem textNotes_imageRead (rid : Nat) (b : Block) : TextNotes rid b (imageRead b) :=
  TextNotes.trans (b := b.takeFresh.2) ⟨rfl, fun _ _ _ => rfl, fun _ _ => rfl⟩ (textNotes_bumpN rid _ _ (by simp [textCounters]))

theorem textNotes_badBytes (rid invalid unmatched : Nat) (b : Block) : TextNotes rid b
    ((b.bumpN F.TXU_CNT_TEXT_invalid_bytes invalid).bumpN F.TXU_CNT_TEXT_nomatch_bytes unmatched) :=
  (textNotes_bumpN rid invalid b (by simp [textCounters])).trans (textNotes_bumpN rid unmatched _ (by simp [textCounters]))

@[simp] theorem imageRead_cmem (b : Block) : (imageRead b).cmem = b.cmem := rfl
@[simp] theorem imageRead_ses (b : Block) : (imageRead b).ses = b.ses := rfl


/-! ### A session's log stored again (R252, R300) -/

/-- A fold keeps the session table where each of its steps does. -/
theorem ses_foldl {α : Type} {f : Block → α → Block} (h : ∀ b a, (f b a).ses = b.ses) (l : List α) (b : Block) :
    (l.foldl f b).ses = b.ses := by
  induction l generalizing b with
  | nil => rfl
  | cons a l ih => rw [List.foldl_cons, ih, h]

@[simp] theorem emit_ses (m : OutMsg) (b : Block) : (emit m b).ses = b.ses := by
  unfold emit
  dsimp only
  split <;> rfl

theorem admitPacket_ses (inst bytes : Nat) (always : Bool) (b : Block) :
    (admitPacket inst bytes always b).block.ses = b.ses := by
  unfold admitPacket
  dsimp only
  split
  · rfl
  · split
    · rfl
    · split <;> rfl

@[simp] theorem sendMsg_ses (dest cls stream : Nat) (body : MsgBody) (b : Block) :
    (sendMsg dest cls stream body b).ses = b.ses := by
  unfold sendMsg
  dsimp only
  split
  · rfl
  · split
    · rfl
    · split
      · rfl
      · next p _ =>
        have hshaped := admitPacket_ses (65536 + 8 * p + cls) body.payload false b
        split
        · exact emit_ses _ b
        · split
          · rfl
          · split
            · next hgo => rw [emit_ses]; rwa [hgo] at hshaped
            · next hhold => rwa [hhold] at hshaped
            · next hdrop => rwa [hdrop] at hshaped

/-- Blocks written to a lower tier go to companion memory or to a donor. -/
@[simp] theorem writeBlocks_ses (e : ExtentRun) (first : Nat) (bytes : Bytes) (b : Block) :
    (writeBlocks e first bytes b).ses = b.ses := by
  refine ses_foldl (fun b p => ?_) _ b
  dsimp only
  split
  · rfl
  · split
    · split
      · rw [sendMsg_ses]
      · rfl
    · rfl

@[simp] theorem writeUnit_ses (sid kind : Nat) (b : Block) : (writeUnit sid kind b).ses = b.ses := by
  unfold writeUnit
  split
  · rfl
  · refine ses_foldl (fun b u => ?_) _ b
    split
    · exact writeBlocks_ses _ _ _ b
    · rfl

@[simp] theorem freeUnit_slots (p : Option Place) (b : Block) : (freeUnit p b).ses.slots = b.ses.slots := by
  unfold freeUnit
  split
  · rfl
  · dsimp only
    split
    · split <;> rfl
    · rfl

theorem takeSerials_slots {n serial : Nat} {b b' : Block} (h : takeSerials n b = some (serial, b')) :
    b'.ses.slots = b.ses.slots := by
  unfold takeSerials at h
  split at h
  · cases h; rfl
  · cases h

theorem takeExtents_slots {tier count tenant run : Nat} {use : ExtentUse} {b b' : Block}
    (h : takeExtents tier count tenant use b = some (run, b')) : b'.ses.slots = b.ses.slots := by
  unfold takeExtents at h
  split at h
  · obtain ⟨⟨serial, b1⟩, htaken, hrun⟩ := Option.map_eq_some_iff.1 h
    obtain ⟨-, rfl⟩ := Prod.mk.inj hrun
    exact (takeSerials_slots htaken :)
  · cases h

theorem placeUnit_slots {tier tenant n : Nat} {p : Option Place} {b b' : Block}
    (h : placeUnit tier tenant n b = some (p, b')) : b'.ses.slots = b.ses.slots := by
  unfold placeUnit at h
  dsimp only at h
  split at h
  · cases h; rfl
  · split at h
    · cases h; rfl
    · obtain ⟨⟨run, b1⟩, htake, hplace⟩ := Option.map_eq_some_iff.1 h
      obtain ⟨-, rfl⟩ := Prod.mk.inj hplace
      exact (takeExtents_slots htake :)

theorem storeUnit_slots {tier tenant n : Nat} {old p : Option Place} {b b' : Block}
    (h : storeUnit tier tenant n old b = some (p, b')) : b'.ses.slots = b.ses.slots := by
  have hanew (h : ((placeUnit tier tenant n b).map fun (p, b) => (p, freeUnit old b)) = some (p, b')) :
      b'.ses.slots = b.ses.slots := by
    obtain ⟨⟨p1, b1⟩, hplace, hfree⟩ := Option.map_eq_some_iff.1 h
    cases hfree
    rw [freeUnit_slots, placeUnit_slots hplace]
  unfold storeUnit at h
  dsimp only at h
  split at h
  · exact hanew h
  · split at h
    · exact hanew h
    · split at h
      · cases h; rfl
      · exact hanew h

/-- A log stored again leaves every session as it was, but for the place of that log. -/
theorem session_growLog (sid : Nat) (b : Block) : ∃ place : Session → Option Place, ∀ n, session (growLog sid b) n =
    if n = sid then (session b n).map fun x => { x with logPlace := place x } else session b n := by
  have hsame : ∃ place : Session → Option Place, ∀ n, session b n =
      if n = sid then (session b n).map fun x => { x with logPlace := place x } else session b n :=
    ⟨(·.logPlace), fun n => by simp⟩
  unfold growLog
  cases hgrown : tryGrowLog sid b with
  | none => exact hsame
  | some b' =>
    unfold tryGrowLog at hgrown
    split at hgrown
    · cases hgrown
      exact hsame
    · obtain ⟨⟨p, b1⟩, hstore, hwritten⟩ := Option.map_eq_some_iff.1 hgrown
      cases hwritten
      refine ⟨fun _ => p, fun n => ?_⟩
      rw [Option.getD_some, session_congr (congrArg _ (writeUnit_ses _ _ _)), session_updSession,
        session_congr (storeUnit_slots hstore)]

/-- Entries appended to a session's log join it; no other session changes (R252). -/
theorem session_appendLog (rid sid : Nat) (toks : List (BitVec 32)) (b : Block) :
    (∀ n, n ≠ sid → session (appendLog rid sid toks b) n = session b n) ∧
    (session (appendLog rid sid toks b) sid).map (·.log) = (session b sid).map (·.log ++ toks) := by
  obtain ⟨place, hgrown⟩ := session_growLog sid (updSession sid (fun x => { x with log := x.log ++ toks }) b)
  have hnoted (n : Nat) : session (appendLog rid sid toks b) n =
      session (growLog sid (updSession sid (fun x => { x with log := x.log ++ toks }) b)) n := by
    unfold appendLog
    dsimp only
    split
    · rfl
    · split <;> rfl
  constructor
  · intro n hn
    rw [hnoted, hgrown, if_neg hn, session_updSession, if_neg hn]
  · rw [hnoted, hgrown, if_pos rfl, session_updSession, if_pos rfl, Option.map_map, Option.map_map]
    rfl

/-! ### TOKIN (R246 to R250, R252, R253) -/

/-- A session takes an input at once: it is settled, no STEP or PREFILL runs on it, and its log lies in HBM (R252). -/
structure TakesInput (c : Ctx) (b : Block) (sid : Nat) (x : Session) : Prop where
  settled : admitted b c sid x .settled = true
  still : x.state ≠ ssMotion
  alone : stepsInProgress b sid = false
  inHbm : ¬(x.logPlace.isSome = true ∧ unitTier b x.logPlace ≠ 0)

theorem TakesInput.noted {c : Ctx} {b b' : Block} {sid : Nat} {x : Session} (h : TakesInput c b sid x)
    (hnotes : TextNotes c.rid b b') : TakesInput c b' sid x where
  settled := by rw [admitted, hnotes.earlierWaiter_eq]; exact h.settled
  still := h.still
  alone := by rw [hnotes.stepsInProgress_eq]; exact h.alone
  inHbm := by rw [hnotes.unitTier_eq]; exact h.inHbm

theorem takesInput_of_tokinReady {c : Ctx} {b : Block} {sid : Nat} {x : Session} {g : Cog} (h : TokinReady c b sid x g) :
    TakesInput c b sid x := by
  obtain ⟨-, hadm, hstill, halone, hhbm, -⟩ := h
  refine ⟨admitted_of hadm, hstill, halone, fun ⟨hplaced, hlower⟩ => ?_⟩
  rcases hhbm with hnone | hzero
  · rw [hnone] at hplaced
    cases hplaced
  · exact hlower hzero

/-- Entries of a whole input appended, of which the request then carries nothing (R252). -/
def inputAppended (c : Ctx) (sid : Nat) (toks : List (BitVec 32)) (b : Block) : Block :=
  appendLog c.rid sid toks (updReq c.rid (fun q => { q with carry := none }) b)

/-- The same of the entries that the policy keeps of an input of `toks`, a cut input being counted (R253, R254); `b` is the
module as the TOKIN found it. -/
def textAppended (c : Ctx) (b : Block) (sid : Nat) (x : Session) (g : Cog) (toks : List (BitVec 32)) (b' : Block) : Block :=
  if inputRoom c b x < logTokens toks then
    (inputAppended c sid (keptTokens c b x g toks) b').bump F.TXU_CNT_TEXT_truncated
  else inputAppended c sid (keptTokens c b x g toks) b'

section Append
variable {c : Ctx} {b b' : Block} {sid : Nat} {x : Session} {g : Cog} {y : Carry} (htakes : TakesInput c b' sid x)
  (hlimit : y.limit = c.arg b 44 4) (hroom : inputRoom c b x ≠ 0)
include htakes hlimit hroom

/-- An input of bytes is appended as its policy cuts it (R253). -/
theorem tokinAppend_text {mode : TokMode} (hmode : mode ≠ .ids) : tokinAppend c mode g sid x y b' =
    .done (tokinStatus c b x y.tokens) (some (tokinResult c b x g y.tokens y.invalid))
      (textAppended c b sid x g y.tokens b') := by
  obtain ⟨hsettled, hstill, halone, hhbm⟩ := htakes
  have hinput : min (if c.arg b 44 4 = 0 then x.maxContext else c.arg b 44 4) (x.maxContext - tokensOf x) =
    inputRoom c b x := rfl
  by_cases hcut : inputRoom c b x < logTokens y.tokens <;>
    simp only [tokinAppend, hsettled, hstill, halone, hhbm, hlimit, hinput, hroom, hmode, hcut, tokinStatus, tokinResult,
      textAppended, inputAppended, keptTokens, Bool.true_eq_false, Bool.false_eq_true, Bool.and_eq_true, decide_eq_true_eq,
      or_self, true_and, false_and, if_true, if_false]

/-- An `ids` input that has room is appended whole (R250). -/
theorem tokinAppend_ids (hfits : logTokens y.tokens ≤ inputRoom c b x)
    (hmarks : y.tokens.head? = some depthMark → x.log.getLast? ≠ some depthMark) :
    tokinAppend c .ids g sid x y b' =
      .done St.ok (some (leBytes 4 (logTokens y.tokens))) (inputAppended c sid y.tokens b') := by
  obtain ⟨hsettled, hstill, halone, hhbm⟩ := htakes
  have htwice : ¬(y.tokens.head? = some depthMark ∧ x.log.getLast? = some depthMark) := fun h => hmarks h.1 h.2
  have hinput : min (if c.arg b 44 4 = 0 then x.maxContext else c.arg b 44 4) (x.maxContext - tokensOf x) =
    inputRoom c b x := rfl
  simp only [tokinAppend, hsettled, hstill, halone, hhbm, hlimit, hinput, hroom, Nat.not_lt.2 hfits, htwice, inputAppended,
    Bool.true_eq_false, Bool.false_eq_true, or_self, if_false, if_true]

end Append

/-- What R250 and R253 refuse of operand A of a TOKIN. -/
def inputFormBad (c : Ctx) (mode : TokMode) (x : Session) (g : Cog) (b : Block) : Bool :=
  if mode = .ids then decide (ringIsa b c.ring ≠ 0x31) || decide (bitsOf c.e.a 5 3 ≠ 0) || decide (bitsOf c.e.a 8 16 ≠ 0)
  else decide (bitsOf c.e.a 5 2 = 3) || (decide (bitsOf c.e.a 5 2 = 2) &&
    (decide ((if c.arg b 44 4 = 0 then x.maxContext else c.arg b 44 4) ≤ bitsOf c.e.a 8 16) || g.marker.isNone))

theorem inputFormBad_text {c : Ctx} {mode : TokMode} {x : Session} {g : Cog} {b : Block} (hmode : mode ≠ .ids)
    (hpolicy : PolicyGood c b x g) : inputFormBad c mode x g b = false := by
  obtain ⟨hknown, hmarker⟩ := hpolicy
  rw [inputFormBad, if_neg hmode, decide_eq_false hknown, Bool.false_or]
  by_cases htwo : bitsOf c.e.a 5 2 = 2
  · obtain ⟨hhead, hsome⟩ := hmarker htwo
    rw [decide_eq_false (Nat.not_le.2 hhead), Option.isNone_eq_false_iff.2 hsome, Bool.or_self, Bool.and_false]
  · rw [decide_eq_false htwo, Bool.false_and]

theorem inputFormBad_ids {c : Ctx} {x : Session} {g : Cog} {b : Block} (hisa : ringIsa b c.ring = 0x31)
    (hpolicy : bitsOf c.e.a 5 3 = 0) (hhead : bitsOf c.e.a 8 16 = 0) : inputFormBad c .ids x g b = false := by
  simp only [inputFormBad, hisa, hpolicy, hhead, if_true, ne_eq, not_true_eq_false, decide_false, Bool.or_self]

theorem inputFormBad_noted {c : Ctx} {b b' : Block} (h : TextNotes c.rid b b') (mode : TokMode) (x : Session) (g : Cog) :
    inputFormBad c mode x g b' = inputFormBad c mode x g b := by
  rw [inputFormBad, inputFormBad, ringIsa, ringIsa, h.ringOf_eq, h.arg_eq]

/-- What a TOKIN carries of its input: the tokens, the bytes held back and the number of invalid bytes. -/
def inputCarry (c : Ctx) (b : Block) (toks : List (BitVec 32)) (held : Bytes) (invalid : Nat) : Carry :=
  ⟨chunkKey c.e.a, c.opB % 2 ^ 48, c.arg b 44 4, held, toks, invalid⟩

/-- What a TOKIN with no chunk before it starts from. -/
def noCarry (c : Ctx) (b : Block) : Carry := inputCarry c b [] [] 0

/-- The cog that a TOKIN names (R244). -/
def inputCog (c : Ctx) (x : Session) : Nat := if c.e.a.testBit 4 then x.cog else bitsOf c.e.a 0 4

/-- A cog that is held and sound is read, and the body goes on with it (R242, R243). -/
theorem withCog_held {c : Ctx} {b : Block} {x : Session} {n : Nat} {g : Cog} (k : Cog → Block → Ans)
    (hheld : cogHeld b c x n = true) (hg : cogOf b n = some g) (hsound : g.damaged = false) (hnew : c.req.wait = .none) :
    withCog c x n k b = k g (imageRead b) := by
  simp only [withCog, hheld, hg, hsound, hnew, ne_eq, not_true_eq_false, Bool.true_eq_false, Bool.false_eq_true, if_false]

/-- The chunk of a whole input is tokenised, then appended. -/
theorem tokinRun_whole {mode : TokMode} {c : Ctx} {b b' : Block} {sid n : Nat} {x : Session} {g : Cog} {y : Carry}
    (hform : inputFormBad c mode x g b = false) (hsize : c.arg b 40 4 ≤ 16777216)
    (hreads : c.reads b (c.arg b 32 8) (c.arg b 40 4) = true) (hcarry : c.req.carry = none)
    (hwhole : c.e.a.testBit 24 = false)
    (hchunk : tokinChunk c mode g x (noCarry c b) (b.peek (c.arg b 32 8) (c.arg b 40 4)) b = some (y, b')) :
    tokinRun c mode sid x n g b = tokinAppend c mode g sid x y (updReq c.rid (fun q => { q with cog := some n }) b') := by
  unfold inputFormBad ringIsa at hform
  unfold noCarry inputCarry at hchunk
  simp only [tokinRun, hform, Nat.not_lt.2 hsize, hreads, hcarry, hwhole, hchunk, Option.getD_none, Bool.false_eq_true,
    Bool.true_eq_false, or_self, if_false]

/-- A TOKIN of a whole input reads its cog, tokenises, and appends. -/
theorem tokin_whole {mode : TokMode} {c : Ctx} {b b' : Block} {sid : Nat} {x : Session} {g : Cog} {y : Carry}
    (hready : TokinReady c b sid x g) (hform : inputFormBad c mode x g b = false)
    (hchunk : tokinChunk c mode g x (noCarry c b) (b.peek (c.arg b 32 8) (c.arg b 40 4)) (imageRead b) = some (y, b')) :
    tokin mode c b = tokinAppend c mode g sid x y (updReq c.rid (fun q => { q with cog := some (inputCog c x) }) b') := by
  obtain ⟨hon, -, -, -, -, hcarry, hnew, hwhole, hheld, hg, hsound, hsize, hreads⟩ := hready
  have hnotes := textNotes_imageRead c.rid b
  rw [tokin, withSession_on _ _ hon, withCog_held _ hheld hg hsound hnew, hcarry]
  refine tokinRun_whole ?_ hsize ?_ hcarry hwhole hchunk
  · rw [inputFormBad_noted hnotes, hform]
  · rw [hnotes.reads_eq]
    exact hreads

/-- The sessions after an input of `toks` was appended: its own session's log has them, and no other changed. -/
theorem session_inputAppended {c : Ctx} {b b' : Block} {sid : Nat} {x : Session} (hx : session b sid = some x)
    (hnotes : TextNotes c.rid b b') (toks : List (BitVec 32)) :
    (session (inputAppended c sid toks b') sid).map (·.log) = some (x.log ++ toks) ∧
    (∀ n, n ≠ sid → session (inputAppended c sid toks b') n = session b n) := by
  have hkept (n : Nat) : session (updReq c.rid (fun q => { q with carry := none }) b') n = session b n :=
    session_congr (congrArg _ hnotes.ses) n
  obtain ⟨hothers, hown⟩ := session_appendLog c.rid sid toks (updReq c.rid (fun q => { q with carry := none }) b')
  refine ⟨?_, fun n hn => ?_⟩
  · rw [inputAppended, hown, hkept, hx, Option.map_some]
  · rw [inputAppended, hothers n hn, hkept]

theorem session_textAppended (c : Ctx) (b : Block) (sid : Nat) (x : Session) (g : Cog) (toks : List (BitVec 32)) (b' : Block)
    (n : Nat) : session (textAppended c b sid x g toks b') n = session (inputAppended c sid (keptTokens c b x g toks) b') n := by
  unfold textAppended
  split <;> rfl

/-- In native mode a last chunk is tokenised to its end, and what is invalid or has no entry is counted (R246 to R248). -/
theorem tokinChunk_native {c : Ctx} (g : Cog) (x : Session) (data : Bytes) (b b' : Block) (hwhole : c.e.a.testBit 24 = false) :
    let r := tokenise g.fbBase g.entries true data.length data
    tokinChunk c .native g x (noCarry c b) data b' = some (inputCarry c b r.toks r.held r.invalid,
      (b'.bumpN F.TXU_CNT_TEXT_invalid_bytes r.invalid).bumpN F.TXU_CNT_TEXT_nomatch_bytes r.unmatched) := by
  simp only [tokinChunk, noCarry, inputCarry, hwhole, List.length_nil, Nat.zero_add, List.nil_append, Bool.not_false]

/-- In byte mode each byte gives its token (R249). -/
theorem tokinChunk_byte (c : Ctx) (g : Cog) (x : Session) (data : Bytes) (b b' : Block) :
    tokinChunk c .byte g x (noCarry c b) data b' = some (inputCarry c b (data.map (byteToken g.fbBase)) [] 0, b') := by
  simp only [tokinChunk, noCarry, inputCarry, List.nil_append]

/-- In `ids` mode each word gives its entry (R250). -/
theorem tokinChunk_ids {c : Ctx} {g : Cog} {x : Session} {data : Bytes} (b : Block) {b' : Block} (hwords : data.length % 4 = 0)
    (hok : idsOk g.entries.length (hasWarmForm (sessionFormat b' x)) none (idsEntries data) = true) :
    tokinChunk c .ids g x (noCarry c b) data b' = some (inputCarry c b (idsEntries data) [] 0, b') := by
  simp only [tokinChunk, noCarry, inputCarry, hwords, List.getLast?_nil, List.nil_append, hok, ne_eq, not_true_eq_false,
    Bool.true_eq_false, or_self, if_false]

/-- A TOKIN of bytes, once its chunk gives `toks`: what it answers, and what it leaves of the sessions. -/
theorem tokin_text {mode : TokMode} (hmode : mode ≠ .ids) {c : Ctx} {b b' : Block} {sid : Nat} {x : Session} {g : Cog}
    {toks : List (BitVec 32)} {held : Bytes} {invalid : Nat} (hready : TokinReady c b sid x g) (hpolicy : PolicyGood c b x g)
    (hroom : inputRoom c b x ≠ 0) (hnotes : TextNotes c.rid b b')
    (hchunk : tokinChunk c mode g x (noCarry c b) (b.peek (c.arg b 32 8) (c.arg b 40 4)) (imageRead b) =
      some (inputCarry c b toks held invalid, b')) :
    ∃ b1, tokin mode c b = .done (tokinStatus c b x toks) (some (tokinResult c b x g toks invalid)) b1 ∧
      (session b1 sid).map (·.log) = some (x.log ++ keptTokens c b x g toks) ∧
      (∀ n, n ≠ sid → session b1 n = session b n) := by
  have hcog := hnotes.trans (textNotes_updReq c.rid (fun q => { q with cog := some (inputCog c x) }) b')
  have htakes := (takesInput_of_tokinReady hready).noted hcog
  obtain ⟨⟨-, -, -, hx, -⟩, -⟩ := id hready
  have hanswer := tokin_whole hready (inputFormBad_text hmode hpolicy) hchunk
  rw [tokinAppend_text htakes rfl hroom hmode] at hanswer
  refine ⟨_, hanswer, ?_⟩
  simp only [session_textAppended]
  exact session_inputAppended hx hcog _

/-- A TOKIN of IDs that are tokens or depth marks, and fit (R250). -/
theorem tokin_ids {c : Ctx} {b : Block} {sid : Nat} {x : Session} {g : Cog} {es : List (BitVec 32)}
    (hready : TokinReady c b sid x g) (hisa : ringIsa b c.ring = 0x31) (hpolicy : bitsOf c.e.a 5 3 = 0)
    (hhead : bitsOf c.e.a 8 16 = 0) (hroom : inputRoom c b x ≠ 0) (hfits : logTokens es ≤ inputRoom c b x)
    (hmarks : es.head? = some depthMark → x.log.getLast? ≠ some depthMark)
    (hchunk : tokinChunk c .ids g x (noCarry c b) (b.peek (c.arg b 32 8) (c.arg b 40 4)) (imageRead b) =
      some (inputCarry c b es [] 0, imageRead b)) :
    ∃ b1, tokin .ids c b = .done St.ok (some (leBytes 4 (logTokens es))) b1 ∧
      (session b1 sid).map (·.log) = some (x.log ++ es) ∧ (∀ n, n ≠ sid → session b1 n = session b n) := by
  have hcog := (textNotes_imageRead c.rid b).trans
    (textNotes_updReq c.rid (fun q => { q with cog := some (inputCog c x) }) (imageRead b))
  have htakes := (takesInput_of_tokinReady hready).noted hcog
  obtain ⟨⟨-, -, -, hx, -⟩, -⟩ := id hready
  have hanswer := tokin_whole hready (inputFormBad_ids hisa hpolicy hhead) hchunk
  rw [tokinAppend_ids htakes rfl hroom hfits hmarks] at hanswer
  exact ⟨_, hanswer, session_inputAppended hx hcog _⟩

/-! ### TOKOUT (R255) -/

/-- A TOKOUT that passes its checks writes the bytes of its run to the buffer. -/
theorem tokout_writes {c : Ctx} {b : Block} {sid : Nat} {x : Session} {g : Cog} {run : List (BitVec 32)}
    {out : Bytes × Nat × Bool} (hrun : run = tokoutRun b c sid x (c.arg b 44 4))
    (hout : out = detokenise g.entries (c.arg b 40 4) run) (hon : OnSession c b sid x)
    (hreach : c.reach b (c.arg b 32 8) (c.arg b 40 4) = true) (hadm : Admitted c b sid x .settled) (hstill : x.state ≠ ssMotion)
    (hg : cogOf b (requestCog c.req x) = some g) (hown : foreignCog b c.tenant (requestCog c.req x) = false)
    (hfrom : c.arg b 44 4 = 0xFFFFFFFF ∨ c.arg b 44 4 ≤ tokensOf x) (hsound : g.damaged = false)
    (hlog : unitRead sid [2] b = none) (hprefix : x.prefixTokens ≤ c.arg b 44 4 ∨ prefixRead x b = none) :
    tokout c b = .done (if out.2.2 then St.malformed else St.ok)
      (some (leBytes 4 out.1.length ++ leBytes 4 out.2.1 ++ leBytes 4 (run.length - out.2.1)))
      ((imageRead b).pokeBytes (c.arg b 32 8) out.1) := by
  have hrange : ¬(c.arg b 44 4 ≠ 0xFFFFFFFF ∧ tokensOf x < c.arg b 44 4) := fun h =>
    hfrom.elim h.1 (Nat.not_le.2 h.2)
  have hread : (if c.arg b 44 4 < x.prefixTokens then prefixRead x b else none) = none := by
    rcases hprefix with hpast | hnone
    · rw [if_neg (Nat.not_lt.2 hpast)]
    · rw [hnone, ite_self]
  subst hrun hout
  rw [tokout]
  simp only [withSession_on _ _ hon, hreach, admitted_of hadm, hstill, hown, hg, if_neg hrange, hsound, hlog, hread,
    Bool.true_eq_false, Bool.false_eq_true, or_self, if_false]

/-- Settles O8: TOKIN's three modes differ in what their chunk gives, which is then appended; TOKOUT writes its run's bytes. -/
theorem textGoesInAndOut : Obligations.TextGoesInAndOut := by
  unfold Obligations.TextGoesInAndOut
  refine ⟨⟨?_, ?_, ?_⟩, ?_⟩
  · intro s rid c b sid x g data r hrun hready hpolicy hroom
    have hnotes := (textNotes_imageRead c.rid b).trans (textNotes_badBytes c.rid r.invalid r.unmatched (imageRead b))
    obtain ⟨-, -, -, -, -, -, -, hwhole, -⟩ := id hready
    obtain ⟨b', hbody, hsessions⟩ := tokin_text (by decide) hready hpolicy hroom hnotes
      (tokinChunk_native g x data b (imageRead b) hwhole)
    rw [exec_tokinNative]
    exact ⟨b', exec_ends hrun hbody, hsessions⟩
  · intro s rid c b sid x g toks hrun hready hpolicy hroom
    obtain ⟨b', hbody, hsessions⟩ := tokin_text (by decide) hready hpolicy hroom (textNotes_imageRead c.rid b)
      (tokinChunk_byte c g x _ b (imageRead b))
    rw [exec_tokinByte]
    exact ⟨b', exec_ends hrun hbody, hsessions⟩
  · intro s rid c b sid x g data hrun hready hisa hpolicy hhead hwords hok hroom hfits hmarks
    rw [← (textNotes_imageRead c.rid b).sessionFormat_eq] at hok
    obtain ⟨b', hbody, hsessions⟩ := tokin_ids hready hisa hpolicy hhead hroom hfits hmarks (tokinChunk_ids b hwords hok)
    rw [exec_tokinIds]
    exact ⟨b', exec_ends hrun hbody, hsessions⟩
  · intro s rid c b sid x g addr cap p0 run out hrun hon hreach hadm hstill hg hown hfrom hsound hlog hprefix
    rw [exec_tokout]
    refine ⟨_, exec_ends hrun (tokout_writes rfl rfl hon hreach hadm hstill hg hown hfrom hsound hlog hprefix), ?_, ?_⟩
    · rw [pokeBytes_cmem, imageRead_cmem]
    · rw [pokeBytes_ses, imageRead_ses]

/-! ### CONSTRAIN and DRAFT (R173, R256, R258) -/

/-- What R243 and R258 ask of a list that CONSTRAIN may name: it is the tenant's or shared, ready or already the session's,
sound, and made for the request's cog. -/
structure ListFits (c : Ctx) (b : Block) (x : Session) (n : Nat) (l : CList) : Prop where
  listed : listOf b n = some l
  own : foreignList b c.tenant n = false
  usable : l.state = slReady ∨ x.clist = n
  sound : l.damaged = false
  cog : (cogOf b (requestCog c.req x)).map (·.digest) = some l.cogDg

section Constrain
variable {c : Ctx} {b : Block} {sid : Nat} {x : Session} (hon : OnSession c b sid x) (hadm : Admitted c b sid x .any)
include hon hadm

/-- CONSTRAIN to the empty list reads nothing (R256). -/
theorem constrain_empty (hlist : bitsOf c.e.a 0 12 = emptyList) :
    constrain c b = .done St.ok none (updSession sid (fun x => { x with clist := bitsOf c.e.a 0 12 }) b) := by
  rw [constrain, withSession_on _ _ hon]
  simp only [admitted_of hadm, hlist, Bool.true_eq_false, if_false, if_true]

/-- CONSTRAIN to another list reads it (R258). -/
theorem constrain_list {l : CList} (hlist : bitsOf c.e.a 0 12 ≠ emptyList) (hfits : ListFits c b x (bitsOf c.e.a 0 12) l) :
    constrain c b = .done St.ok none
      (updSession sid (fun x => { x with clist := bitsOf c.e.a 0 12 }) (imageRead b)) := by
  have husable : ¬(l.state ≠ slReady ∧ x.clist ≠ bitsOf c.e.a 0 12) := fun h => hfits.usable.elim h.1 h.2
  rw [constrain, withSession_on _ _ hon]
  simp only [admitted_of hadm, if_neg hlist, hfits.listed, hfits.own, if_neg husable, hfits.cog, hfits.sound, ne_eq,
    not_true_eq_false, Bool.true_eq_false, Bool.false_eq_true, if_false]

/-- A DRAFT of a depth of at most 8 that names no slot, or one that holds a draft for the session's model, is taken (R173). -/
theorem draft_sets (hdepth : bitsOf c.e.a 8 4 ≤ 8)
    (hslot : bitsOf c.e.a 0 8 = 0xFF ∨ draftHeld b x (bitsOf c.e.a 0 8) = true) :
    draft c b = .done St.ok none (updReq c.rid (fun q => { q with draftDepth := some (bitsOf c.e.a 8 4) })
      (updSession sid (fun x => { x with draftSlot := bitsOf c.e.a 0 8 }) b)) := by
  have hgood : ¬(8 < bitsOf c.e.a 8 4 ∨ (bitsOf c.e.a 0 8 ≠ 0xFF ∧ draftHeld b x (bitsOf c.e.a 0 8) = false)) := by
    rintro (hdeep | ⟨hnamed, hnone⟩)
    · exact Nat.not_lt.2 hdepth hdeep
    · exact hslot.elim hnamed (by simp [hnone])
  rw [draft, withSession_on _ _ hon]
  simp only [admitted_of hadm, if_neg hgood, Bool.true_eq_false, if_false]

end Constrain

/-! ### ACCEPT (R64, R162) -/

section Accept
variable {ring : Nat} {e : Entry} {b : Block} {k : Ring} (hring : ringOf b ring = some k) (hptr : e.ptr = true)
  (hblock : blockOk b k.tenant e = true) (htenant : hTenant (acceptArgs b e).handle = k.tenant)
include hring hptr hblock htenant

/-- An ACCEPT that names no awaiting list of its ring is a stray (R64). -/
theorem accept_stray (hnone : awaiting (readPairs (hSlot (acceptArgs b e).handle) b) ring (acceptArgs b e) = none) :
    accept ring e b = (readPairs (hSlot (acceptArgs b e).handle) b).bump F.CFE_STAT_stray_count := by
  simp only [accept, hring, hptr, hblock, htenant, hnone, Bool.true_eq_false, or_self, ne_eq, not_true_eq_false, if_false]

/-- An ACCEPT whose tokens pass R162 for the list that awaits it is taken. -/
theorem accept_taken {b' : Block} {rid : Nat} {q : Seqn} {r : StepRun} {w : Await} {x : Session} {toks : List Nat}
    (hb' : b' = readPairs (hSlot (acceptArgs b e).handle) b)
    (htoks : toks = tokenWords (acceptArgs b e).count (b'.peek (acceptArgs b e).addr (4 * (acceptArgs b e).count)))
    (hawait : awaiting b' ring (acceptArgs b e) = some (rid, q, r, w)) (hx : session b' q.sid = some x)
    (hsome : 1 ≤ (acceptArgs b e).count) (hfew : (acceptArgs b e).count ≤ w.drafts.length + 1)
    (haligned : (acceptArgs b e).addr % 4 = 0)
    (hread : ioRead b' (some k.tenant) (acceptArgs b e).addr (4 * (acceptArgs b e).count) = true)
    (hallowed : tokensOk (runList b' r) (runVocab b' r) r.h r.force w.drafts toks = true) :
    accept ring e b = takeAccept rid q r w x (acceptArgs b e) toks b' := by
  subst hb' htoks
  simp only [accept, hring, hptr, hblock, htenant, hawait, hx, Nat.ne_of_gt hsome, Nat.not_lt.2 hfew, haligned, hread, hallowed,
    Bool.true_eq_false, or_self, ne_eq, not_true_eq_false, if_false]

end Accept

/-- Settles O9: CONSTRAIN by whether it names the empty list; DRAFT; ACCEPT by whether a list awaits it. -/
theorem sessionTextSettings : Obligations.SessionTextSettings := by
  unfold Obligations.SessionTextSettings
  refine ⟨?_, ?_, ?_, ?_⟩
  · intro s rid c b sid x hrun hon hfirst hlist
    obtain rfl := runs_rid hrun
    have hadm : Admitted c b sid x .any := ⟨rfl, hfirst⟩
    rw [exec_constrain]
    by_cases hempty : bitsOf c.e.a 0 12 = emptyList
    · rw [if_pos hempty]
      exact exec_ends hrun (constrain_empty hon hadm hempty)
    · obtain ⟨l, hl, hown, husable, hsound, hcog⟩ := hlist.resolve_left hempty
      rw [if_neg hempty]
      exact exec_ends hrun (constrain_list hon hadm hempty ⟨hl, hown, husable, hsound, hcog⟩)
  · intro s rid c b sid x hrun hon hfirst hdepth hslot
    obtain rfl := runs_rid hrun
    rw [exec_draft]
    exact exec_ends hrun (draft_sets hon ⟨rfl, hfirst⟩ hdepth hslot)
  · intro s ring lo hi k rid q r w x e a b toks hw hring hptr hblock htenant hawait hx hsome hfew haligned hread hallowed
    rw [exec_accept, actC_works _ UnitRef.none_wf hw]
    rw [accept_taken hring hptr hblock htenant rfl rfl hawait hx hsome hfew haligned hread hallowed]
  · intro s ring lo hi k e b hw hring hptr hblock htenant hnone
    rw [exec_accept, actC_works _ UnitRef.none_wf hw, accept_stray hring hptr hblock htenant hnone]

end Sys2Proof.Machine

/-! PROOFS of the family 11_vector_search: SEARCH and its shards (O11), the commands of an index and its merges (O12). -/

namespace Sys2Proof.Machine

/-! ### Bringing a module without sessions to rest (R400, R407) -/

/-- From `b` to `b'` companion memory and the session slots are as they were. -/
structure MemoryAndSlotsKept (b b' : Block) : Prop where
  cmem : b'.cmem = b.cmem
  slots : b'.ses.slots = b.ses.slots

namespace MemoryAndSlotsKept

theorem refl (b : Block) : MemoryAndSlotsKept b b := ⟨rfl, rfl⟩

theorem of_ses {b b' : Block} (hmem : b'.cmem = b.cmem) (hses : b'.ses = b.ses) : MemoryAndSlotsKept b b' :=
  ⟨hmem, by rw [hses]⟩

theorem trans {a b c : Block} (h : MemoryAndSlotsKept a b) (h' : MemoryAndSlotsKept b c) : MemoryAndSlotsKept a c :=
  ⟨h'.cmem.trans h.cmem, h'.slots.trans h.slots⟩

theorem foldl {α : Type} {f : Block → α → Block} (h : ∀ b a, MemoryAndSlotsKept b (f b a)) (l : List α) (b : Block) :
    MemoryAndSlotsKept b (l.foldl f b) := by
  induction l generalizing b with
  | nil => exact .refl b
  | cons a l ih => exact (h b a).trans (ih _)

end MemoryAndSlotsKept

theorem dropExtents_kept (key : Nat) (b : Block) : MemoryAndSlotsKept b (dropExtents key b) := ⟨rfl, rfl⟩

theorem dropExtentsWith_kept (p : ExtentRun → Bool) (b : Block) : MemoryAndSlotsKept b (dropExtentsWith p b) :=
  .foldl (fun b k => dropExtents_kept k b) _ b

theorem txuTidy_kept (b : Block) : MemoryAndSlotsKept b (txuTidy b) := by
  unfold txuTidy
  refine .trans (.foldl (fun b e => ?_) _ b) (.foldl (fun b e => ?_) _ _)
  · split
    · exact .trans (.of_ses (setCog_cmem b _ _) (setCog_ses b _ _)) (dropExtentsWith_kept _ _)
    · exact .refl b
  · split
    · exact .trans (.of_ses (setList_cmem b _ _) (setList_ses b _ _)) (dropExtentsWith_kept _ _)
    · exact .refl b

theorem setModel_kept (n : Nat) (m : Option ModelSlot) (b : Block) : MemoryAndSlotsKept b (setModel n m b) :=
  .of_ses (setModel_cmem b n m) (setModel_ses b n m)

theorem dropAdapters_kept (m : ModelSlot) (n : Nat) (b : Block) : MemoryAndSlotsKept b (dropAdapters m n b) := by
  unfold dropAdapters
  dsimp only
  split
  · exact .refl b
  · split
    · exact .refl b
    · exact .trans (.foldl (fun b (v : Bytes × Nat) => dropExtents_kept v.2 b) _ b) (setModel_kept _ _ _)

theorem classTidy_kept (b : Block) : MemoryAndSlotsKept b (classTidy b) := by
  unfold classTidy
  dsimp only
  split
  · exact .refl b
  · exact ⟨rfl, rfl⟩

theorem modelTidy_kept (b : Block) : MemoryAndSlotsKept b (modelTidy b) := by
  unfold modelTidy
  refine .trans (.foldl (fun b e => ?_) _ b) (classTidy_kept _)
  dsimp only
  split
  · exact (setModel_kept _ _ b).trans (dropExtentsWith_kept _ _)
  · split
    · exact setModel_kept _ _ b
    · exact dropAdapters_kept _ _ b

theorem releaseSlots_kept (s : Seqn) (b : Block) : MemoryAndSlotsKept b (releaseSlots s b) := by
  unfold releaseSlots
  split
  · exact .refl b
  · exact .of_ses (updRing_cmem b _ _) (updRing_ses b _ _)

theorem chainLeaves_kept (i : Nat) (b : Block) : MemoryAndSlotsKept b (chainLeaves i b) := by
  unfold chainLeaves
  dsimp only
  split
  · exact .refl b
  · split
    · exact .of_ses (setSpoke_cmem b _ _) (setSpoke_ses b _ _)
    · exact .of_ses (by rw [bump_cmem, setSpoke_cmem]) (by rw [bump_ses, setSpoke_ses])

theorem markPreempt_kept (b : Block) : MemoryAndSlotsKept b (markPreempt b) := by
  unfold markPreempt
  split
  · exact .refl b
  · split
    · exact .refl b
    · dsimp only
      split
      · exact .refl b
      · refine .trans ?_ (.foldl (fun b e => ?_) _ _)
        · exact .of_ses (by rw [setPel_cmem, nextTick]) (by rw [setPel_ses, nextTick])
        · split
          · exact chainLeaves_kept _ b
          · exact .refl b

theorem markVictim_kept (b : Block) : MemoryAndSlotsKept b (markVictim b) := by
  unfold markVictim
  split
  · exact .refl b
  · dsimp only
    split
    · exact .refl b
    · exact .of_ses (setPel_cmem b _ _) (setPel_ses b _ _)

theorem session_none_of_noSlots {b : Block} (h : b.ses.slots = []) (n : Nat) : session b n = none := by
  rw [session, h]
  rfl

/-- Without sessions, a sequence that waits is dropped. -/
theorem sweepSeq_kept {b : Block} (h : b.ses.slots = []) (s : Seqn) : MemoryAndSlotsKept b (sweepSeq s b) := by
  unfold sweepSeq
  simp only [session_none_of_noSlots h]
  exact .trans (.of_ses (setWaiting_cmem b _) (setWaiting_ses b _)) (releaseSlots_kept s _)

theorem foldl_sweepSeq_kept (ss : List Seqn) {b : Block} (h : b.ses.slots = []) :
    MemoryAndSlotsKept b (ss.foldl (fun b s => sweepSeq s b) b) := by
  induction ss generalizing b with
  | nil => exact .refl b
  | cons s ss ih =>
    have hswept := sweepSeq_kept h s
    exact hswept.trans (ih (hswept.slots.trans h))

/-- Without sessions no peloton forms. -/
theorem formPelotons_noSlots {b : Block} (h : b.ses.slots = []) : formPelotons b = b := by
  have hform (s : Seqn) : formPeloton s b = b := by
    rw [formPeloton, seqKey, session_none_of_noSlots h]
    rfl
  rw [formPelotons]
  exact List.foldl_fixed' hform b.ste.waiting

theorem steTidy_kept {b : Block} (h : b.ses.slots = []) : MemoryAndSlotsKept b (steTidy b) := by
  have hswept := foldl_sweepSeq_kept b.ste.waiting h
  have hslots := hswept.slots.trans h
  have hrevivals {b : Block} (h : b.ses.slots = []) : addRevivals b = b := by
    rw [addRevivals, h]
    rfl
  rw [steTidy, hrevivals hslots, formPelotons_noSlots hslots]
  exact hswept.trans ((markPreempt_kept _).trans (markVictim_kept _))

/-- A working module without sessions comes to rest by its tidying, which writes no companion memory, and by `settle`. -/
theorem rest_noSlots {b : Block} (hwork : working b = true) (h : b.ses.slots = []) :
    ∃ b', rest b = settle b' ∧ b'.cmem = b.cmem := by
  have hreap : reapClosing b = b := by
    rw [reapClosing, h]
    rfl
  have htidy : MemoryAndSlotsKept b (modelTidy (txuTidy b)) := (txuTidy_kept b).trans (modelTidy_kept _)
  have hslots := htidy.slots.trans h
  have hscrub : scrubItems (modelTidy (txuTidy b)) = modelTidy (txuTidy b) := by
    rw [scrubItems, hslots]
    rfl
  refine ⟨steTidy (modelTidy (txuTidy b)), ?_, (htidy.trans (steTidy_kept hslots)).cmem⟩
  simp only [rest, hwork, if_true, hreap, hscrub, hslots, List.length_nil, Nat.mul_zero, pump]

/-- Where no low-water mark has been signalled, a working module without sessions comes to rest with companion memory as it
was. -/
theorem rest_cmem_noSlots {b : Block} (hwork : working b = true) (h : b.ses.slots = [])
    (hlow : ∀ n ∈ lowMarks, tget (rest b).intr.srcs n = none) : (rest b).cmem = b.cmem := by
  obtain ⟨b', hrest, hmem⟩ := rest_noSlots hwork h
  rw [hrest] at hlow ⊢
  exact ((settle_messagesListed b').quiet hlow).trans hmem

/-! ### A shard behind a link of Stoty 1.0 (R282, R283, Table 13.5) -/

/-- A SEARCH with the sharded flag, by the argument block at 64. -/
def shardedEntry : Entry := ⟨0x20 + 512 + 2 * 2 ^ 32, 64, 1⟩

/-- Its request. -/
def shardedReq : Req := { newReq 0 .normal shardedEntry ⟨7, 0, 0, 0⟩ 0 0 with started := true }

/-- A ready index without items. -/
def emptyShard : Index := ⟨ixReady, false, 0, [], [], [], 0, none, 0, false, none, none⟩

/-- What the SEARCH asks: one entry near a code of zeros, by a flat search. -/
def shardedArgs : SearchArgs := ⟨1, false, List.replicate 32 0, [], []⟩

/-- The booted module 1 of a domain whose live member 2 it reaches by port 4, which is up and runs Stoty 1.0. Index 0, whose
shard set is module 2 alone, is ready. Request 1 is at a SEARCH that asks for one entry, its code at 0 and its result buffer
at 128. -/
def oldLinkSearch : State :=
  let b : Block := { Block.reset with
    rtp := { RtpState.reset with ready := true }
    cmem := [(96, 1), (120, 128)]
    nms := { Block.reset.nms with indexes := [(0, emptyShard)] }
    cmp := { Block.reset.cmp with members := [(2, ⟨1, 0, false, 0x10⟩)] }
    link := { Block.reset.link with ports := [(4, { Port.reset with peer := [0x4C, 0x43, 0x41, 0x50, 1, 1, 2] })] }
    fe := { Block.reset.fe with reqs := [(1, shardedReq)], order := 2 } }
  ⟨(((((((b.setF F.MEM_HWIN_CFG_enable 1).setF F.MEM_HWIN_CFG_all_tenants 1).setF F.MEM_HWIN_CFG_size_2m 1).setF
    F.CMP_ID_in_domain 1).setF F.CMP_ID_module_id 1).setFi F.FLL_PORT_STAT_state 4 2).setFi F.FLL_PORT_STAT_version 4 0x10).setF
    F.NMS_IDX_SHARD_shards 4, []⟩

/-- What the instruction is given there, and the module as it finds it. -/
def oldLinkCtx : Ctx := dueCtx oldLinkSearch.toBlock 1 shardedReq shardedEntry
def oldLinkFound : Block := dueBlock oldLinkSearch.toBlock 1 shardedReq shardedEntry

theorem oldLinkSearch_runs : Runs oldLinkSearch 1 .searchSharded oldLinkCtx oldLinkFound := by
  have hworks : oldLinkSearch.works := by decide +kernel
  have hdue : Due oldLinkSearch.toBlock 1 .searchSharded shardedReq shardedEntry := by decide +kernel
  exact ⟨hworks, shardedReq, shardedEntry, hdue, rfl, rfl⟩

/-- What the statement asks of a sharded SEARCH of one other member holds there. -/
theorem oldLinkSearch_meets :
    SearchReady oldLinkCtx oldLinkFound emptyShard shardedArgs ∧ shardMembers oldLinkFound oldLinkCtx.opB = [2] ∧
    2 ≠ ownModule oldLinkFound ∧ liveMember oldLinkFound 2 = true := by
  decide +kernel

/-- The module that the instruction leaves. -/
def oldLinkAnswered : Block := applyAns 1 (searchWith scansShard searchShards oldLinkCtx oldLinkFound)

/-- The shard is missing: its bit stands in the result buffer, where the SEARCH had found 0. -/
theorem oldLinkAnswered_spec :
    working oldLinkAnswered = true ∧ oldLinkFound.ses.slots = [] ∧ oldLinkFound.peekLe (128 + 16) 1 = 0 ∧
    (rest oldLinkAnswered).peekLe (128 + 16) 1 = 4 ∧ (∀ n ∈ lowMarks, tget (rest oldLinkAnswered).intr.srcs n = none) := by
  decide +kernel

/-- Refutes O11: a live member whose link runs Stoty 1.0 is not sent shard queries and counts as missing (R283, Table 13.5), so
the SEARCH that has no other shard ends with PARTIAL and writes its result buffer, where the statement has it wait with companion
memory as it was. -/
theorem not_searchAnswers : ¬ Obligations.SearchAnswers := by
  unfold Obligations.SearchAnswers
  rintro ⟨-, ⟨-, hremote⟩, -⟩
  obtain ⟨hready, hmembers, hother, hlive⟩ := oldLinkSearch_meets
  obtain ⟨hwork, hslots, hbefore, hafter, hlow⟩ := oldLinkAnswered_spec
  obtain ⟨b', hexec, hses, hmem⟩ := hremote oldLinkSearch 1 oldLinkCtx oldLinkFound emptyShard shardedArgs 2 oldLinkSearch_runs
    hready hmembers hother hlive
  rw [exec_searchSharded, exec_runs _ oldLinkSearch_runs] at hexec
  have hrest : rest oldLinkAnswered = rest (instrWait 1 .shards _) := congrArg State.toBlock (Host.Outcome.next.inj hexec)
  have hkept := rest_cmem_noSlots ((working_eq_of_rest_eq hrest.symm).trans hwork)
    (by rw [instrWait, updReq_ses, updReq_ses, hses, hslots]) (by rw [← hrest]; exact hlow)
  rw [← hrest, instrWait, updReq_cmem, updReq_cmem, hmem] at hkept
  rw [Block.peekLe, Block.peek, hkept] at hafter
  rw [Block.peekLe, Block.peek, hafter] at hbefore
  exact absurd hbefore (by decide)

/-! ### VINSERT, VDELETE and VMERGE (R267, R268, R280) -/

/-- A ready index of the tenant is the one named (R264). -/
theorem namedIndex_ready {c : Ctx} {n : Nat} {b : Block} {x : Index} (hx : indexOf b n = some x)
    (htenant : indexTenant b n = c.tenant) (hready : x.state = ixReady) : namedIndex c n b = (some x, b) := by
  simp only [namedIndex, hx, htenant, hready, ne_eq, not_true_eq_false, if_false]

/-- A VINSERT of an item that no session owns, with room for its record and its slot (R267). -/
theorem vinsert_inserts {c : Ctx} {b : Block} {x : Index} (hx : indexOf b c.opB = some x)
    (htenant : indexTenant b c.opB = c.tenant) (hready : x.state = ixReady) (howner : c.arg b 32 8 % 2 ^ 48 = 0)
    (haligned : c.arg b 40 8 % 64 = 0) (hid : c.arg b 56 8 ≠ noId)
    (hreads : c.reads b (c.arg b 40 8) (codeBits b c.opB / 8) = true) (hside : x.side.length < sideMax)
    (hslots : slotsInUse x.slots + waitingInserts x + 1 ≤ slotLimit b c.opB) :
    vinsert c b = .done St.ok none
      (insertItem c.opB x ⟨b.peek (c.arg b 40 8) (codeBits b c.opB / 8), c.arg b 48 8, c.arg b 56 8, 0⟩ b) := by
  simp only [vinsert, namedIndex_ready hx htenant hready, haligned, hid, hreads, howner, if_neg (Nat.not_le.2 hside),
    if_neg (Nat.not_lt.2 hslots), ne_eq, not_true_eq_false, Bool.true_eq_false, or_self, if_false, if_true]

section Delete
variable {c : Ctx} {b : Block} {x : Index} (hx : indexOf b c.e.a = some x) (htenant : indexTenant b c.e.a = c.tenant)
  (hready : x.state = ixReady)
include hx htenant hready

/-- A VDELETE of an ID that no visible item has is counted (R268). -/
theorem vdelete_misses (hnone : findItem x c.opB = none) : vdelete c b = .done St.ok none (b.bump F.NMS_CNT2_del_miss) := by
  simp only [vdelete, namedIndex_ready hx htenant hready, hnone]

/-- A VDELETE of a visible item appends its record. -/
theorem vdelete_deletes {e : VItem × SideLoc} (hfound : findItem x c.opB = some e) (hroom : x.side.length < sideMax) :
    vdelete c b = .done St.ok none (deleteItem c.e.a x e b) := by
  simp only [vdelete, namedIndex_ready hx htenant hready, hfound, if_neg (Nat.not_le.2 hroom)]

/-- A side list that is full takes no record: the VDELETE waits (the model's choice, log entry 21). -/
theorem vdelete_waits {e : VItem × SideLoc} (hfound : findItem x c.opB = some e) (hfull : ¬x.side.length < sideMax) :
    vdelete c b = .wait .retry b := by
  simp only [vdelete, namedIndex_ready hx htenant hready, hfound, if_pos (Nat.not_lt.1 hfull)]

/-- A VMERGE of a sound index that runs no merge starts one, and waits for its publication (R280). -/
theorem vmerge_starts (hsound : x.damaged = false) (hidle : x.merge = none) :
    vmerge c b = .wait (.merge c.e.a (x.started + 1)) (startMerge c.e.a x b) := by
  simp only [vmerge, namedIndex_ready hx htenant hready, hsound, hidle, Bool.false_eq_true, if_false]

end Delete

/-! ### Creating and destroying an index (R264, R285) -/

theorem isMgmt_mgmt : Caller.mgmt.isMgmt = true := rfl

/-- The selected index is created where it is empty. -/
theorem indexCommand_create {b : Block} (hnone : indexOf b (b.getF F.NMS_IDX_SEL_index) = none) :
    indexCommand 1 b = setIndex (b.getF F.NMS_IDX_SEL_index) (some newIndex) b := by
  simp only [indexCommand, hnone]

/-- A ready index that is selected becomes DESTROYING. -/
theorem indexCommand_destroy {b : Block} {x : Index} (hx : indexOf b (b.getF F.NMS_IDX_SEL_index) = some x)
    (hready : x.state = ixReady) :
    indexCommand 2 b = setIndex (b.getF F.NMS_IDX_SEL_index) (some { x with state := ixDestroying }) b := by
  simp only [indexCommand, hx, hready, if_true]

section Gone
variable {n : Nat} {b : Block} {x : Index} (hx : indexOf b n = some x)
include hx

/-- The scrub of an index in DESTROYING ends where no merge and no search holds it. -/
theorem indexGone_empties (hdestroying : x.state = ixDestroying) (hidle : x.merge = none) (hquiet : searching b n = false) :
    indexGone n b = emptyIndex n x b := by
  simp only [indexGone, hx, hdestroying, hidle, hquiet, and_self, if_true]

/-- An index with a merge or a search on it stays. -/
theorem indexGone_held (hheld : x.merge ≠ none ∨ searching b n = true) : indexGone n b = b := by
  have hstays : ¬(x.state = ixDestroying ∧ x.merge = none ∧ searching b n = false) := by
    rintro ⟨-, hidle, hquiet⟩
    exact hheld.elim (· hidle) (by simp [hquiet])
  simp only [indexGone, hx, if_neg hstays]

end Gone

/-! ### MERGE_COMPLETE (R272, R281) -/

/-- The KV region or the tenant's HOT limit has no room for a new version of these slots (R281); `b1` is the
module once the version is made. -/
def MergeHasNoRoom (n : Nat) (x : Index) (slots : List VSlot) (b b1 : Block) : Prop :=
  kvFree b1 < mergeNeeds b n x.slots slots ∨
  hotLimit b1 (indexTenant b n) < hotBytes b1 (indexTenant b n) + mergeNeeds b n x.slots slots * extentBytes

section Merge
variable {n : Nat} {b : Block} {x : Index} {m : Nat} (hx : indexOf b n = some x) (hm : x.merge = some m)
include hx hm

/-- A merge that read a bad block ends with INTEGRITY, and its index is damaged (R272). -/
theorem completeMerge_bad {poisoned : Bool} (hbad : indexBad x (hasGraph b n) = some poisoned) :
    completeMerge n b = endMerges n (x.started + 1) St.integrity
      (damageIndex n { x with merge := none, again := false } poisoned b) := by
  simp only [completeMerge, hx, hm, hbad]

variable {skips : Nat} {slots : List VSlot} {entries : List Nat} {placed : List (Nat × Nat)}
  (hsound : indexBad x (hasGraph b n) = none)
  (hmerged : mergedVersion (hasGraph b n) (graphBeam b n) (graphDegree b n) x m = (slots, entries, placed, skips))
include hsound hmerged

/-- A merge whose extents find room publishes its version, and what came after its snapshot stays in the side list. -/
theorem completeMerge_publishes {b1 b2 : Block} (hb1 : b1 = b.bumpN F.NMS_CNT_gen_skip skips)
    (hroom : ¬MergeHasNoRoom n x slots b b1) (hgrown : growIndex n x.slots slots b1 = some b2) :
    completeMerge n b = nextMerge n true (endMerges n x.started St.ok
      ((layIndex n slots (setIndex n (some { x with
        version := (x.version + 1) % 2 ^ 32, slots := slots, entrySlots := entries, merge := none,
        side := (x.side.drop m).map (translateLoc placed) }) b2)).bump F.NMS_CNT2_merges)) := by
  subst hb1
  unfold MergeHasNoRoom at hroom
  simp only [completeMerge, hx, hm, hsound, hmerged, if_neg hroom, hgrown]

/-- A merge whose extents find no room ends with QUOTA, and its index is as it was. -/
theorem completeMerge_noRoom {b1 : Block} (hb1 : b1 = b.bumpN F.NMS_CNT_gen_skip skips)
    (hfull : MergeHasNoRoom n x slots b b1 ∨ growIndex n x.slots slots b1 = none) :
    completeMerge n b = nextMerge n false (endMerges n x.started St.quota (setIndex n (some { x with merge := none }) b1)) := by
  subst hb1
  simp only [completeMerge, hx, hm, hsound, hmerged]
  split
  · rfl
  · next hroom => simp only [hfull.resolve_left hroom]

end Merge

/-- Settles O12: each command meets one branch of its meaning, which the lemma of that branch states; a merge has three, by
whether it read a bad block and found room. -/
theorem indexesFollowTheirCommands : Obligations.IndexesFollowTheirCommands := by
  unfold Obligations.IndexesFollowTheirCommands
  refine ⟨⟨?_, ?_, ?_⟩, ⟨?_, ?_, ?_, ?_, ?_⟩, ?_⟩
  · intro s rid c b x hrun hx htenant hready howner haligned hid hreads hside hslots
    rw [exec_vinsert]
    exact exec_ends hrun (vinsert_inserts hx htenant hready howner haligned hid hreads hside hslots)
  · intro s rid c b x hrun hx htenant hready
    rw [exec_vdelete]
    cases hitem : findItem x c.opB with
    | none => exact exec_ends hrun (vdelete_misses hx htenant hready hitem)
    | some e =>
      dsimp only
      split
      · next hroom => exact exec_ends hrun (vdelete_deletes hx htenant hready hitem hroom)
      · next hfull => exact exec_waits hrun (vdelete_waits hx htenant hready hitem hfull)
  · intro s rid c b x hrun hx htenant hready hsound hidle
    rw [exec_vmerge]
    exact exec_waits hrun (vmerge_starts hx htenant hready hsound hidle)
  · intro s hup hnone
    rw [exec_indexCreate, actR_up _ UnitRef.none_wf hup, if_pos isMgmt_mgmt, indexCommand_create hnone]
    rfl
  · intro s x hup hx hready
    rw [exec_indexDestroy, actR_up _ UnitRef.none_wf hup, if_pos isMgmt_mgmt, indexCommand_destroy hx hready]
  · intro s t hup
    rw [exec_indexCreate, exec_indexDestroy, actR_up _ UnitRef.none_wf hup, actR_up _ UnitRef.none_wf hup]
    exact ⟨rfl, rfl⟩
  · intro s n x hw hx hdestroying hidle hquiet
    rw [exec_indexDestroyDone, actC_works _ UnitRef.none_wf hw, indexGone_empties hx hdestroying hidle hquiet]
  · intro s n x hw hx hheld
    rw [exec_indexDestroyDone, actC_works _ UnitRef.none_wf hw, indexGone_held hx hheld]
  · intro s n x m hw hx hm b t
    rw [exec_mergeComplete, actC_works _ UnitRef.none_wf hw]
    constructor
    · intro skips slots entries placed b1 needs noRoom hsound hmerged
      refine ⟨fun b2 hroom hgrown => ?_, fun hfull => ?_⟩
      · rw [completeMerge_publishes hx hm hsound hmerged rfl hroom hgrown]
      · rw [completeMerge_noRoom hx hm hsound hmerged rfl hfull]
    · intro poisoned hbad
      rw [completeMerge_bad hx hm hbad]

end Sys2Proof.Machine

/-! PROOFS of the module as a whole: the frames of all commands (O59, O57), steps (O56), reset (O58). -/

namespace Sys2Proof.Machine

/-! ### The frames of all commands (Tables 15.3, 19.5, R326, R379, R429, R431) -/

/-- A meaning waits for the boot: it is one of the blocks that are held in reset until then. -/
def heldInReset (u : UnitRef) (m : State → Host.Outcome State Fault Refusal) : Prop := ∃ f, ∀ s, m s = act u f s

section
variable {m : State → Host.Outcome State Fault Refusal} {u : UnitRef} {f : Block → Block}

theorem heldInReset_act (h : ∀ s, m s = act u f s) : heldInReset u m := ⟨f, h⟩
theorem heldInReset_actR (h : ∀ s, m s = actR u f s) : heldInReset u m := ⟨_, h⟩
theorem heldInReset_actC (h : ∀ s, m s = actC u f s) : heldInReset u m := ⟨_, h⟩
theorem heldInReset_actK {k : Nat} (h : ∀ s, m s = actK k f s) : heldInReset (.spoke k) m := heldInReset_actR h
theorem heldInReset_execVector {op k : Nat} {body : Nat → Spoke → SpkAns} {w : BitVec 64}
    (h : ∀ s, m s = execVector op body k w s) : heldInReset (.spoke k) m := heldInReset_actK h

end

/-- Every command but those of the board and the snoop waits for the boot. -/
theorem exec_heldInReset (c : Instr) (hboard : onBoard c = false) (hsnoop : ∀ a bs, c ≠ .faloloSnoop a bs) :
    heldInReset c.unit (exec c) := by
  cases c with
  | sopen | sclose | park | revive | move | depth | depthHint | pfxpin | pfxfork | pfxdrop | mloadModel | mloadCog
  | mloadList | munloadModel | munloadCog | munloadList | tokinNative | tokinByte | tokinIds | tokout | constrain | step
  | draft | accept | prefill | searchFlat | searchGraph | searchSharded | vinsert | vdelete | vmerge | swait | ssignal
  | fence | cadence | overlay | ckpt | tandem | tandemRelease | complete | tileStart | acceptWaitEnd | pelotonPlaceGrant
  | preemptComplete | duplicateReplay | cqSpaceReread | trailer | hotIdleExpiry | warmIdleExpiry | specReviveStart
  | motionComplete | tierTimeout | tierError | moveOffer | moveSection | moveTrailer | moveReady | moveCommit | moveDone
  | poolTimeout | rotatePassEnd | mergeComplete | shardQuery | shardAnswer | shardTimeout | nbrTierAccess | donorScrub
  | rangeDrained | tandemDelta | ckptComplete | tdmRestore | tdmFollow | tdmCkRestore | tdmRestoreOne | tdmCkpt | tdmRelease
  | restoreComplete | overlayApply | indexDestroyDone => exact heldInReset_actC fun _ => rfl
  | shadowHoldExpiry sid => exact heldInReset_actC (exec_shadowHoldExpiry sid)
  | tierLate sid => exact heldInReset_actC (exec_tierLate sid)
  | ringEnable | ringDisable | ringDrained | tailLineInvalidate | ringService | timeLineUpdate | regWrite | shaperAdmit
  | mapPrepare | mapAck | mapPrepTimeout | mapCommit | mapAbort | mapHandover | peerUnreachable | trainingStageDone
  | capabilityBlock | linkHandshake | linkUp | trainingRetry | flitReceive | laneSwapDone | stotyMessage | tandemAck
  | spokeTestRotate | laneTestRotate | hubTestRotate | channelTestRotate | bistComplete | bistOverdue | tenantAutoRestart
  | scrubComplete | rtpStage | rtpActivate | rtpRatchet | claim | setOvlKey | confOpen | ownerRelease | debugUnlock
  | dkExport | dkImport | tenantKey | dkRotate | fwSwapSwitch | fwSwapAccept | fwSwapTimeout | syncCntWrite | leaveComplete
  | wake | sessionScrubDone | lossOfWidth | fwSwapLoadDone => exact heldInReset_actR fun _ => rfl
  | fuseCommit who => exact heldInReset_actR (exec_fuseCommit who)
  | homingWrite who val => exact heldInReset_actR (exec_homingWrite who val)
  | hwinConfig who val => exact heldInReset_actR (exec_hwinConfig who val)
  | indexCreate who => exact heldInReset_actR (exec_indexCreate who)
  | indexDestroy who => exact heldInReset_actR (exec_indexDestroy who)
  | lendStream range blocks => exact heldInReset_actR (exec_lendStream range blocks)
  | mapForm who => exact heldInReset_actR (exec_mapForm who)
  | mapPropose who => exact heldInReset_actR (exec_mapPropose who)
  | patrol addr finding => exact heldInReset_actR (exec_patrol addr finding)
  | portEnable who stoty val => exact heldInReset_actR (exec_portEnable who stoty val)
  | portRetrain who stoty val => exact heldInReset_actR (exec_portRetrain who stoty val)
  | standby who => exact heldInReset_actR (exec_standby who)
  | tenantActivate who => exact heldInReset_actR (exec_tenantActivate who)
  | tenantReset who => exact heldInReset_actR (exec_tenantReset who)
  | tenantRestart who => exact heldInReset_actR (exec_tenantRestart who)
  | testNow who => exact heldInReset_actR (exec_testNow who)
  | timelineStaleCount | descSelect | pfxSelect | ceHourWindow | heartbeat | reportRequest | sealBatch | rtpOpComplete
  | intClaim | intEoi | intSrcConfig | intSoft | watchArm | syncOwnWrite | pmcSample | energyUpdate | cadenceWindowStart
  | cadenceWindowEnd | throttleStepDown | throttleStepUp | brakedEnter => exact heldInReset_act fun _ => rfl
  | cancelGo who val => exact heldInReset_act (exec_cancelGo who val)
  | keyRotate who => exact heldInReset_act (exec_keyRotate who)
  | mapClear who => exact heldInReset_act (exec_mapClear who)
  | reserial who => exact heldInReset_act (exec_reserial who)
  | shaperConfig who val => exact heldInReset_act (exec_shaperConfig who val)
  | supplyDroop spk => exact heldInReset_act (exec_supplyDroop spk)
  | timelineDisable who val => exact heldInReset_act (exec_timelineDisable who val)
  | timelineEnable who val => exact heldInReset_act (exec_timelineEnable who val)
  | unbrake who => exact heldInReset_act (exec_unbrake who)
  | add | addi | sub | mul | sand | sor | sxor | shl | shr | sar | lui | ld | st | beq | bne | blt | bge | jmp | mfs | mma
  | cpin | cpout | cpls | cppeer | scsig | cfence | tbegin | tileOverrun => exact heldInReset_actK fun _ => rfl
  | copyComplete spk copy => exact heldInReset_actK (exec_copyComplete spk copy)
  | copyTimeout spk copy => exact heldInReset_actK (exec_copyTimeout spk copy)
  | copyErr spk copy => exact heldInReset_actK (exec_copyErr spk copy)
  | tend spk w => exact heldInReset_actK (exec_tend spk w)
  | contextSwapDone spk => exact heldInReset_actK (exec_contextSwapDone spk)
  | vadd | vsub | vmul | vdiv | vsqrt | vfma | vrcp | vrsq | vexp2 | vlog2 | vexp | vmin | vmax | vcmp | vsel | viadd | visub
  | vimul | vand | vor | vxor | vshl | vshr | vpop | vred | vld | vst | vcvt | vacr | vacw | vbcast | vidx => exact heldInReset_execVector fun _ => rfl
  | faloloSnoop a bs => exact absurd rfl (hsnoop a bs)
  | _ => cases hboard

/-- The commands that are work of the blocks are done only by a module that works. -/
theorem exec_isWork (c : Instr) (hwork : isWork c = true) : ∃ f, ∀ s, exec c s = actC c.unit f s := by
  cases c with
  | sopen | sclose | park | revive | move | depth | depthHint | pfxpin | pfxfork | pfxdrop | mloadModel | mloadCog
  | mloadList | munloadModel | munloadCog | munloadList | tokinNative | tokinByte | tokinIds | tokout | constrain | step
  | draft | accept | prefill | searchFlat | searchGraph | searchSharded | vinsert | vdelete | vmerge | swait | ssignal
  | fence | cadence | overlay | ckpt | tandem | tandemRelease | complete | tileStart | acceptWaitEnd | pelotonPlaceGrant
  | preemptComplete | duplicateReplay | cqSpaceReread | trailer | hotIdleExpiry | warmIdleExpiry | specReviveStart
  | motionComplete | tierTimeout | tierError | moveOffer | moveSection | moveTrailer | moveReady | moveCommit | moveDone
  | poolTimeout | rotatePassEnd | mergeComplete | shardQuery | shardAnswer | shardTimeout | nbrTierAccess | donorScrub
  | rangeDrained | tandemDelta | ckptComplete | restoreComplete | overlayApply | indexDestroyDone =>
    exact ⟨_, fun _ => rfl⟩
  | shadowHoldExpiry sid => exact ⟨_, (exec_shadowHoldExpiry sid)⟩
  | tierLate sid => exact ⟨_, (exec_tierLate sid)⟩
  | _ => cases hwork

/-- The board's commands act whether or not the module has booted. -/
theorem exec_onBoard (c : Instr) (hboard : onBoard c = true) : ∃ f, ∀ s, exec c s = actB c.unit f s := by
  cases c with
  | throttleSet | sensorTrip | thermTripNLow | coolantOkFall | vinApply | pwrEnRise | railStageDone | pwrEnFall | powerLoss
  | modResetNFall | resetRelease | bootComplete | refclkChange | i3cAddressAssign | busRead | busWrite | recData | recCommit
  | jtagInstruction | coolantOkRise | thermTripNRise | sensorBelowThrottle | railWarn | overvoltageRestart | testLogicReset => exact ⟨_, fun _ => rfl⟩

  | _ => cases hboard


/-- A meaning that waits for the boot does nothing before it. -/
theorem heldInReset_down {u : UnitRef} {m : State → Host.Outcome State Fault Refusal} {s : State} (h : heldInReset u m)
    (hu : u.wf = true) (hdown : s.toBlock.up = false) : m s = .next s := by
  obtain ⟨f, hf⟩ := h
  rw [hf, act_down f hu hdown]

theorem exec_faloloSnoop_down {a : BitVec 52} {bs : Bytes} {s : State} (hdown : s.toBlock.up = false) :
    exec (.faloloSnoop a bs) s = .next (s.put (s.toBlock.pokeBytes a.toNat (bs.take (64 - a.toNat % 64)))) := by
  have hpoked : (s.toBlock.pokeBytes a.toNat (bs.take (64 - a.toNat % 64))).up = false := hdown
  rw [exec_faloloSnoop, actB_wf _ rfl]
  simp only [hpoked, Bool.false_eq_true, if_false]

/-- A module that is fenced or out of RUN does not work (R379, R429, R431). -/
theorem not_working_of {b : Block} (h : b.isSet F.CMP_ID_isolated = true ∨ b.getF F.PMC_STAT_pstate ≠ psRun) :
    working b = false := by
  rw [Bool.eq_false_iff, ne_eq, working_iff]
  rintro ⟨hrun, hfree⟩
  rcases h with hfenced | hp
  · rw [hfree] at hfenced
    cases hfenced
  · exact hp hrun

/-- Settles O59: a command but the board's is a meaning held in reset, and one of the work is a meaning of a module at work. -/
theorem nothingRunsWhereItMayNot : Obligations.NothingRunsWhereItMayNot := by
  refine ⟨⟨fun c s hdown hboard hsnoop hwf => ?_, fun a bs s hdown => exec_faloloSnoop_down hdown⟩, fun c s hstill hwork hwf => ?_⟩
  · exact heldInReset_down (exec_heldInReset c hboard hsnoop) hwf hdown
  · obtain ⟨f, hf⟩ := exec_isWork c hwork
    rw [hf, actC_idle f hwf (not_working_of hstill)]

/-- Every command is an effect on the module, of the unit that it names. -/
theorem exec_isEffect (c : Instr) : ∃ f, ∀ s, exec c s = actB c.unit f s := by
  by_cases hsnoop : ∃ a bs, c = .faloloSnoop a bs
  · obtain ⟨a, bs, rfl⟩ := hsnoop
    exact ⟨_, exec_faloloSnoop a bs⟩
  · cases hboard : onBoard c with
    | true => exact exec_onBoard c hboard
    | false =>
      obtain ⟨f, hf⟩ := exec_heldInReset c hboard fun a bs h => hsnoop ⟨a, bs, h⟩
      exact ⟨_, hf⟩

/-- A command of a unit that the module has ends in a next state whose queue is as it was. -/
theorem exec_next {c : Instr} (s : State) (hwf : c.wf = true) : ∃ b, exec c s = .next (s.put b) := by
  obtain ⟨f, hf⟩ := exec_isEffect c
  exact ⟨f s.toBlock, by rw [hf, actB_wf f hwf]⟩

theorem exec_noUnit {c : Instr} (s : State) (hno : c.wf = false) : exec c s = .fault .noSuchUnit := by
  obtain ⟨f, hf⟩ := exec_isEffect c
  rw [hf, actB_noUnit f hno]

/-! ### Steps and runs -/

theorem step_empty {s : State} (h : s.pending = []) : step s = .next s := by
  unfold step
  rw [h]

theorem step_cons {s : State} {c : Instr} {cs : List Instr} (h : s.pending = c :: cs) :
    step s = exec c { s with pending := cs } := by
  unfold step
  rw [h]

/-- A step of a state that waits for safe commands alone leaves the rest of them (R2). -/
theorem step_safe {s : State} (hs : s.safe) : ∃ t, step s = .next t ∧ t.safe ∧ t.pending = s.pending.tail := by
  cases hp : s.pending with
  | nil => exact ⟨s, step_empty hp, hs, hp⟩
  | cons c cs =>
    have hc : c.wf = true := hs c (by simp [hp])
    obtain ⟨b, hb⟩ := exec_next { s with pending := cs } hc
    refine ⟨_, (step_cons hp).trans hb, fun d hd => hs d ?_, rfl⟩
    simp only [State.put_pending] at hd
    simp [hp, hd]

theorem safeRun_of_safe {s : State} (hs : s.safe) (n : Nat) : safeRun n s := by
  induction n generalizing s with
  | zero => trivial
  | succ n ih =>
    obtain ⟨t, hstep, ht, -⟩ := step_safe hs
    exact ⟨t, hstep, ih ht⟩

/-- Settles O56: `step` looks at the front of the queue alone. -/
theorem stepRunsFrontCommand : Obligations.StepRunsFrontCommand :=
  ⟨fun _ _ _ => step_cons, fun _ => step_empty⟩

/-- Settles O57: every command is an effect of a unit, so that a safe queue stays safe and every run goes on. -/
theorem everyCommandCompletes : Obligations.EveryCommandCompletes := by
  refine ⟨fun c s => ⟨exec_next s, exec_noUnit s⟩, fun s t hs hstep => ?_, fun s n hs => safeRun_of_safe hs n⟩
  obtain ⟨t', hstep', ht', hp⟩ := step_safe hs
  cases hstep.symm.trans hstep'
  exact ⟨ht', hp⟩

/-- Settles O58: the reset state computes to the values of the tables. -/
theorem resetLeavesResetValues : Obligations.ResetLeavesResetValues := by
  have hempty : State.reset.ses.slots = [] := rfl
  refine ⟨rfl, fun c hc => absurd hc (List.not_mem_nil), hempty, rfl, rfl, rfl, rfl, fun sid => ?_, fun t => ?_, fun r => ?_, fun k => ?_,
    rfl, rfl, rfl, rfl, rfl, rfl, rfl, rfl⟩
  · unfold session
    rw [hempty]
    rfl
  · rfl
  · rfl
  · rfl

end Sys2Proof.Machine

/-! PROOFS: what the shared operations leave as it was, for the families below: register fields, signals, messages. -/

namespace Sys2Proof.Machine

/-! ### Fields of other registers -/

/-- A field of another register or place is as it was. -/
theorem getFi_setFi_other {f g : Fld} (h : g.key ≠ f.key) (b : Block) (i v j : Nat) : (b.setFi f i v).getFi g j = b.getFi g j :=
  getFi_setFi_ne b f g i j v fun he => h (Prod.mk.inj he).1

theorem getFi_setF_other {f g : Fld} (h : g.key ≠ f.key) (b : Block) (v j : Nat) : (b.setF f v).getFi g j = b.getFi g j :=
  getFi_setFi_other h b 0 v j

theorem getF_setF_other {f g : Fld} (h : g.key ≠ f.key) (b : Block) (v : Nat) : (b.setF f v).getF g = b.getF g :=
  getFi_setFi_other h b 0 v 0

theorem getFi_bumpFi_other {f g : Fld} (h : g.key ≠ f.key) (b : Block) (i n j : Nat) :
    (b.bumpFi f i n).getFi g j = b.getFi g j := getFi_setFi_other h b i _ j

/-- Bits of a value as wide as the field read back whole. -/
theorem getFi_setFi_bits (b : Block) (f : Fld) (i v lo : Nat) : (b.setFi f i (bitsOf v lo f.width)).getFi f i = bitsOf v lo f.width :=
  (getFi_setFi_self b f i _).trans (Nat.mod_mod _ _)

theorem bitsOf_lt (v lo w : Nat) : bitsOf v lo w < 2 ^ w := Nat.mod_lt _ (Nat.two_pow_pos w)

theorem bitsOf_zero (v w : Nat) : bitsOf v 0 w = v % 2 ^ w := by simp [bitsOf]

/-- A fold keeps what each of its steps keeps. -/
theorem foldl_keeps {σ α β : Type} {f : σ → α → σ} (p : σ → β) (h : ∀ s a, p (f s a) = p s) (l : List α) (s : σ) :
    p (l.foldl f s) = p s := by
  induction l generalizing s with
  | nil => rfl
  | cons a l ih => rw [List.foldl_cons, ih, h]

/-! ### Signals (R400, R407) -/

theorem signalTargets_signalsOnly (b : Block) : SignalsOnly b (signalTargets b) := foldl_signalTarget_signalsOnly _ b

theorem setIntSrc_signalsOnly (n : Nat) (x : IntSrc) (b : Block) : SignalsOnly b (setIntSrc n x b) := signalsOnly_intr _ b

/-- An edge that fires is work of the interrupt controller alone. -/
theorem fire_signalsOnly (n : Nat) (b : Block) : SignalsOnly b (fire n b) := by
  unfold fire
  split
  · exact .refl b
  · split
    · split
      · exact signalsOnly_intr _ b
      · exact .refl b
    · exact (setIntSrc_signalsOnly _ _ b).trans (signalTargets_signalsOnly _)

namespace SignalsOnly
variable {b b' : Block} (h : SignalsOnly b b')
include h

theorem hbm : b'.hbm = b.hbm := by rw [h.frame]
theorem fresh : b'.fresh = b.fresh := by rw [h.frame]
theorem rtp : b'.rtp = b.rtp := by rw [h.frame]
theorem ten : b'.ten = b.ten := by rw [h.frame]
theorem ste : b'.ste = b.ste := by rw [h.frame]
theorem mem : b'.mem = b.mem := by rw [h.frame]
theorem cmp : b'.cmp = b.cmp := by rw [h.frame]
theorem link : b'.link = b.link := by rw [h.frame]
theorem tdm : b'.tdm = b.tdm := by rw [h.frame]
theorem pmc : b'.pmc = b.pmc := by rw [h.frame]
theorem mod : b'.mod = b.mod := by rw [h.frame]

theorem getF {g : Fld} (hg : g.key ≠ F.INT_TGT_STAT_msg_prio.key) : b'.getF g = b.getF g := h.fields g 0 hg

end SignalsOnly

/-! ### Messages that leave the module (R315, R316, R328) -/

/-- `b'` is `b` after work of the links: of the module only the links, the shapers' fields and the counter of free values
differ. -/
structure LinksOnly (b b' : Block) : Prop where
  frame : b' = { b with flds := b'.flds, fresh := b'.fresh, link := b'.link }
  fields : ∀ (g : Fld) (j : Nat), g.key ∉ [F.TSH_STAT_tokens.key, F.TSH_STAT_drops.key, F.TSH_STAT_held.key] →
    b'.getFi g j = b.getFi g j

namespace LinksOnly

theorem refl (b : Block) : LinksOnly b b := ⟨rfl, fun _ _ _ => rfl⟩

theorem trans {a b c : Block} (h : LinksOnly a b) (h' : LinksOnly b c) : LinksOnly a c where
  frame := by rw [h'.frame, h.frame]
  fields g j hg := (h'.fields g j hg).trans (h.fields g j hg)

variable {b b' : Block} (h : LinksOnly b b')
include h

theorem cmem : b'.cmem = b.cmem := by rw [h.frame]
theorem intr : b'.intr = b.intr := by rw [h.frame]
theorem rtp : b'.rtp = b.rtp := by rw [h.frame]
theorem ses : b'.ses = b.ses := by rw [h.frame]
theorem ten : b'.ten = b.ten := by rw [h.frame]
theorem ste : b'.ste = b.ste := by rw [h.frame]
theorem mem : b'.mem = b.mem := by rw [h.frame]
theorem cmp : b'.cmp = b.cmp := by rw [h.frame]
theorem tdm : b'.tdm = b.tdm := by rw [h.frame]
theorem pmc : b'.pmc = b.pmc := by rw [h.frame]

end LinksOnly

theorem emit_linksOnly (m : OutMsg) (b : Block) : LinksOnly b (emit m b) := by
  unfold emit
  dsimp only
  split
  · exact ⟨rfl, fun _ _ _ => rfl⟩
  · exact ⟨rfl, fun _ _ _ => rfl⟩

theorem admitPacket_linksOnly (inst bytes : Nat) (always : Bool) (b : Block) :
    LinksOnly b (admitPacket inst bytes always b).block := by
  have hne : ∀ {f g : Fld}, f ∈ [F.TSH_STAT_tokens, F.TSH_STAT_drops, F.TSH_STAT_held] →
      g.key ∉ [F.TSH_STAT_tokens.key, F.TSH_STAT_drops.key, F.TSH_STAT_held.key] → g.key ≠ f.key := fun hf hg he =>
    hg (he ▸ List.mem_map_of_mem (f := Fld.key) hf)
  unfold admitPacket
  dsimp only
  split
  · exact .refl b
  · split
    · exact ⟨rfl, fun g j hg => getFi_setFi_other (hne (f := F.TSH_STAT_tokens) (by decide) hg) _ _ _ _⟩
    · split
      · exact ⟨rfl, fun g j hg => getFi_bumpFi_other (hne (f := F.TSH_STAT_drops) (by decide) hg) _ _ _ _⟩
      · exact ⟨rfl, fun g j hg => getFi_bumpFi_other (hne (f := F.TSH_STAT_held) (by decide) hg) _ _ _ _⟩

/-- Sending a message is work of the links alone. -/
theorem sendMsg_linksOnly (dest cls stream : Nat) (body : MsgBody) (b : Block) :
    LinksOnly b (sendMsg dest cls stream body b) := by
  have hheld : ∀ (t : Tab (List OutMsg)) (b : Block), LinksOnly b { b with link := { b.link with held := t } } :=
    fun _ _ => ⟨rfl, fun _ _ _ => rfl⟩
  unfold sendMsg
  dsimp only
  split
  · exact .refl b
  · split
    · exact .refl b
    · split
      · exact .refl b
      · next p _ =>
        have hshaped := admitPacket_linksOnly (65536 + 8 * p + cls) body.payload false b
        split
        · exact emit_linksOnly _ b
        · split
          · refine LinksOnly.trans ⟨rfl, fun g j hg => getFi_bumpFi_other (f := F.TSH_STAT_held) ?_ b _ _ _⟩ (hheld _ _)
            rintro he
            simp [he] at hg
          · split
            · next hgo => rw [hgo] at hshaped; exact hshaped.trans (emit_linksOnly _ _)
            · next hhold => rw [hhold] at hshaped; exact hshaped.trans (hheld _ _)
            · next hdrop => rwa [hdrop] at hshaped

end Sys2Proof.Machine

/-! PROOFS of the family 12_memory_tiers: shapers and windows (O35), keys (O36), patrol and lending (O37). -/

namespace Sys2Proof.Machine

/-! ### Shapers (R328, R331) -/

/-- A token count within its register's range reads back (Table 13.20). -/
theorem tokens_setTokens {i : Nat} {v : Int} (b : Block) (hlo : -(2 ^ 31) ≤ v) (hhi : v < 2 ^ 31) :
    tokens (setTokens i v b) i = v := by
  have hwidth : F.TSH_STAT_tokens.width = 32 := rfl
  rw [tokens, setTokens, getFi_setFi_self, hwidth, signed32]
  omega

/-- A bucket is written full or empty (R331). -/
theorem tokens_shaperSet (i v : Nat) (b : Block) :
    tokens (shaperSet i v b) i = if bitsOf v 49 1 = 1 then max 1 (bitsOf v 24 16 : Int) * 1024 else 0 := by
  have hburst := bitsOf_lt v 24 16
  unfold shaperSet
  dsimp only
  have hsize : ∀ b' : Block, b'.getFi F.TSH_CFG_burst_kib i = bitsOf v 24 16 →
      bucketSize b' i = max 1 (bitsOf v 24 16 : Int) * 1024 := fun b' h => by rw [bucketSize, h, Nat.cast_max, Nat.cast_one]

  rw [hsize]
  · split
    · exact tokens_setTokens _ (by omega) (by omega)
    · exact tokens_setTokens _ (by omega) (by omega)
  · simp (disch := decide) only [getFi_setFi_other]
    exact getFi_setFi_bits _ F.TSH_CFG_burst_kib i v 24

/-- A write of a shaper's settings by management space. -/
theorem exec_shaperConfig_selected {s : State} (v : BitVec 64) {i : Nat} (hup : s.toBlock.up = true)
    (hsel : shaperInst (s.getF F.TSH_SEL_kind) (s.getF F.TSH_SEL_index) = some i) :
    exec (.shaperConfig .mgmt v) s = .next (s.put (shaperSet i v.toNat s.toBlock)) := by
  rw [exec_shaperConfig, act_up _ rfl hup, if_pos isMgmt_mgmt, shaperWrite, hsel]

/-- A ring's shaper stands at the number of the ring. -/
theorem shaperInst_ring {n : Nat} (h : n < 65536) : shaperInst 0 n = some n := by
  simp [shaperInst, h]

/-- A ring that has nothing waiting at its shaper only gets its refill. -/
theorem shaperAdmit_idleRing {n amount : Nat} {r : Ring} {b : Block} (hn : n < 65536) (hr : ringOf b n = some r)
    (hidle : r.admitted ≠ 1) : shaperAdmit 0 n amount b = refillBucket n amount b := by
  have hr' : ringOf (refillBucket n amount b) n = some r := hr
  rw [shaperAdmit, shaperInst_ring hn]
  simp only [if_true, admitWaiting, hr', hidle, ne_eq, not_false_eq_true]

/-! ### Host windows (R298) -/

/-- The window once a write has given it its settings. -/
def windowSet (w v : Nat) (b : Block) : Block :=
  let b := (b.setFi F.MEM_HWIN_CFG_tier w (bitsOf v 1 1)).setFi F.MEM_HWIN_CFG_all_tenants w (bitsOf v 2 1)
  let b := (b.setFi F.MEM_HWIN_CFG_tenant w (bitsOf v 4 12)).setFi F.MEM_HWIN_CFG_size_2m w (min (bitsOf v 16 22) 0x200000)
  b.setFi F.MEM_HWIN_CFG_enable w (bitsOf v 0 1)

theorem windowWrite_enabled {w v : Nat} {b : Block} (hon : b.getFi F.MEM_HWIN_CFG_enable w = 1) :
    windowWrite w v b = if ¬ v % 2 = 1 ∧ windowInUse b w = 0 then b.setFi F.MEM_HWIN_CFG_enable w 0 else b := by
  simp [windowWrite, hon, bitsOf]

/-- A tier window that would take the tier past 2^21 units is refused. -/
theorem windowWrite_tooLarge {w v : Nat} {b : Block} (hoff : b.getFi F.MEM_HWIN_CFG_enable w ≠ 1) (hon : v % 2 = 1)
    (htier : bitsOf v 1 1 = 1) (hlarge : 0x200000 < tierWindowUnits b w + bitsOf v 16 22) : windowWrite w v b = b := by
  simp [windowWrite, hoff, bitsOf_zero, hon, htier, hlarge]

theorem windowWrite_fits {w v : Nat} {b : Block} (hoff : b.getFi F.MEM_HWIN_CFG_enable w ≠ 1)
    (hfits : ¬ (v % 2 = 1 ∧ bitsOf v 1 1 = 1 ∧ 0x200000 < tierWindowUnits b w + bitsOf v 16 22)) :
    windowWrite w v b = windowSet w v b := by
  have hon : (decide (bitsOf v 0 1 = 1) = true) = (v % 2 = 1) := by simp [bitsOf_zero]
  simp only [windowWrite, hoff, if_false, hon, hfits]
  rfl

theorem getFi_windowSet (w v : Nat) (b : Block) :
    (windowSet w v b).getFi F.MEM_HWIN_CFG_enable w = v % 2 ∧ (windowSet w v b).getFi F.MEM_HWIN_CFG_tier w = bitsOf v 1 1 ∧
    (windowSet w v b).getFi F.MEM_HWIN_CFG_all_tenants w = bitsOf v 2 1 ∧
    (windowSet w v b).getFi F.MEM_HWIN_CFG_tenant w = bitsOf v 4 12 ∧
    (windowSet w v b).getFi F.MEM_HWIN_CFG_size_2m w = min (bitsOf v 16 22) 0x200000 := by
  have hsize : min (bitsOf v 16 22) 0x200000 % 2 ^ 22 = min (bitsOf v 16 22) 0x200000 := by omega
  unfold windowSet
  dsimp only
  refine ⟨?_, ?_, ?_, ?_, ?_⟩
  · exact (getFi_setFi_bits _ F.MEM_HWIN_CFG_enable w v 0).trans (bitsOf_zero v 1)
  · simp (disch := decide) only [getFi_setFi_other]
    exact getFi_setFi_bits _ F.MEM_HWIN_CFG_tier w v 1
  · simp (disch := decide) only [getFi_setFi_other]
    exact getFi_setFi_bits _ F.MEM_HWIN_CFG_all_tenants w v 2
  · simp (disch := decide) only [getFi_setFi_other]
    exact getFi_setFi_bits _ F.MEM_HWIN_CFG_tenant w v 4
  · simp (disch := decide) only [getFi_setFi_other]
    exact (getFi_setFi_self _ F.MEM_HWIN_CFG_size_2m w _).trans hsize

theorem exec_hwinConfig_mgmt {s : State} (v : BitVec 64) (hup : s.toBlock.up = true) :
    exec (.hwinConfig .mgmt v) s =
      .next (s.put (rest (windowWrite (s.getF F.MEM_HWIN_SEL_window) v.toNat s.toBlock))) := by
  rw [exec_hwinConfig, actR_up _ rfl hup, if_pos isMgmt_mgmt]

/-- Settles O35: a shaper and a window take their settings field by field; a refill is bounded by the bucket's size. -/
theorem shapersAndHostWindows : Obligations.ShapersAndHostWindows := by
  refine ⟨⟨fun s v i hup hsel => ?_, fun s index n r hup hr hidle => ?_⟩, fun s v => ?_⟩
  · obtain ⟨hrate, hburst, hoverhead, hmode⟩ := getFi_shaperSet i v.toNat s.toBlock
    exact ⟨_, exec_shaperConfig_selected v hup hsel, hrate, hburst, hoverhead, hmode, tokens_shaperSet i v.toNat s.toBlock, rfl⟩
  · rw [exec_shaperAdmit, actR_up _ rfl hup]
    have hidle' := shaperAdmit_idleRing (amount := n) index.isLt hr hidle
    exact congrArg (fun b => Host.Outcome.next (s.put (rest b))) hidle'
  · dsimp only
    intro hup
    rw [exec_hwinConfig_mgmt v hup]
    refine ⟨fun hon => by rw [windowWrite_enabled hon], fun hoff hon htier hlarge => ?_, fun hoff hfits => ?_⟩
    · rw [windowWrite_tooLarge hoff hon htier hlarge]
    · obtain ⟨henable, htier, hall, htenant, hsize⟩ := getFi_windowSet (s.getF F.MEM_HWIN_SEL_window) v.toNat s.toBlock
      exact ⟨_, by rw [windowWrite_fits hoff hfits], henable, htier, hall, htenant, hsize, rfl⟩

/-! ### Tenant keys (R304, R306, R309) -/

theorem exec_keyRotate_commanded {s : State} {who : Caller} (hwho : mayCommandKeys who = true) (hup : s.toBlock.up = true) :
    exec (.keyRotate who) s = .next (s.put (rotateKey (s.getF F.MEM_KEY_SEL_tenant) s.toBlock)) := by
  rw [exec_keyRotate, act_up _ rfl hup, if_pos hwho]

theorem exec_reserial_commanded {s : State} {who : Caller} (hwho : mayCommandKeys who = true) (hup : s.toBlock.up = true) :
    exec (.reserial who) s = .next (s.put (reserialise s.toBlock)) := by
  rw [exec_reserial, act_up _ rfl hup, if_pos hwho]

/-- The key commands of any other caller do nothing. -/
theorem exec_keyCommands_refused {s : State} {who : Caller} (hwho : mayCommandKeys who = false) :
    exec (.keyRotate who) s = .next s ∧ exec (.reserial who) s = .next s := by
  simp only [exec_keyRotate, exec_reserial, hwho, Bool.false_eq_true, if_false, act_id, and_self]

/-- A version that follows another keeps the number of that one's data keys while it retires. -/
theorem installKey_over {t v old units : Nat} {k : KeyEntry} {b : Block} (hk : tget b.mem.keys t = some k) (hold : old ≠ 0) :
    installKey t v old units b = { b with
      fresh := b.fresh + 1
      mem := { b.mem with keys := tset b.mem.keys t ⟨v, old, units, b.fresh, k.keyNo⟩ } } := by
  simp only [installKey, Block.takeFresh, hk, if_neg hold, Option.map_some, Option.getD_some]

/-- A key in use takes its next version, the one before it retiring over the tenant's units. -/
theorem rotateKey_current {t : Nat} {k : KeyEntry} {b : Block} (hk : tget b.mem.keys t = some k) (hcur : k.current ≠ 0)
    (hret : k.retiring = 0) :
    rotateKey t b = { b with
      fresh := b.fresh + 1
      mem := { b.mem with
        keys := tset b.mem.keys t
          ⟨if k.current = 255 then 1 else k.current + 1, k.current, tenantUnits b t, b.fresh, k.keyNo⟩ } } := by
  have hidle : ¬ (k.current = 0 ∨ k.retiring ≠ 0) := by simp [hcur, hret]
  simp only [rotateKey, hk, if_neg hidle, installKey_over hk hcur, nextVersion]

theorem rotateKey_left {t : Nat} {k : KeyEntry} {b : Block} (hk : tget b.mem.keys t = some k)
    (hleft : k.current = 0 ∨ k.retiring ≠ 0) : rotateKey t b = b := by
  simp only [rotateKey, hk, if_pos hleft]

/-- The tenant's units as the pass reads them (R304). -/
def unitsRead (t : Nat) (b : Block) : Block :=
  b.ses.slots.foldl (fun b e =>
    if e.2.tenant = t ∧ e.2.state ≠ ssQuarantine ∧ e.2.state ≠ ssScrubbing then passReads e.1 b else b) b

theorem endPass_idle {t : Nat} {k : KeyEntry} {b : Block} (hk : tget b.mem.keys t = some k) (hret : k.retiring = 0) :
    endPass t b = b := by
  simp only [endPass, hk, if_pos hret]

/-- A pass over a retiring version: it goes on while anything stands under that version, else the version is gone. -/
theorem endPass_retiring {t : Nat} {k : KeyEntry} {b : Block} (hk : tget b.mem.keys t = some k) (hret : k.retiring ≠ 0) :
    endPass t b =
      let b' := rewriteUnits t k (unitsRead t b)
      if standsUnder b' t k.retiring then b'
      else { b' with mem := { b'.mem with keys := tset b'.mem.keys t { k with retiring := 0, unitsLeft := 0, oldNo := 0 } } } := by
  simp only [endPass, hk, if_neg hret]
  rfl

theorem reserialise_held {b : Block} (h : holdsData b = true) : reserialise b = b := by simp only [reserialise, h, if_true]

/-- Settles O36, by the outcomes of a rotation, of the end of its pass and of `reserial`. -/
theorem keysRotate : Obligations.KeysRotate := by
  refine ⟨fun s who hwho => exec_keyCommands_refused hwho, fun s who k hwho hup hk => ?_, fun s t k hw hk => ?_,
    fun s who hwho hup => ?_⟩
  · rw [exec_keyRotate_commanded hwho hup]
    refine ⟨fun hcur hret => ?_, fun hleft => ?_⟩
    · rw [rotateKey_current hk hcur hret]
    · rw [rotateKey_left hk hleft, State.put_self]
  · dsimp only
    rw [exec_rotatePassEnd, actC_works _ rfl hw]
    refine ⟨fun hret => ?_, fun hret hstands => ?_, fun hret hgone => ?_⟩
    · rw [endPass_idle hk hret]
    · exact congrArg (fun b => Host.Outcome.next (s.put (rest b))) ((endPass_retiring hk hret).trans (if_pos hstands))
    · exact congrArg (fun b => Host.Outcome.next (s.put (rest b)))
        ((endPass_retiring hk hret).trans (if_neg (by rw [Bool.not_eq_true]; exact hgone)))
  · dsimp only
    rw [exec_reserial_commanded hwho hup]
    refine ⟨fun hempty => ?_, fun hheld => ?_⟩
    · rw [reserialise, if_neg (by rw [hempty]; exact Bool.false_ne_true)]
      rfl
    · rw [reserialise_held hheld, State.put_self]

/-! ### Patrol (R293 to R296) -/

theorem patrolRead_stale {a : Nat} {f : EccFinding} {b : Block} (h : b.stale = true) : patrolRead a f b = b := by
  simp only [patrolRead, h, if_true]

/-- Below the last block of a stack the patrol reads its block, and that is all. -/
theorem patrolRead_block {a : Nat} {f : EccFinding} {b : Block} (hfresh : b.stale = false) (hlast : a / 64 % 2 ^ 30 ≠ 2 ^ 30 - 1) :
    patrolRead a f b = patrolBlock a f b := by
  simp only [patrolRead, hfresh, Bool.false_eq_true, if_false, if_neg hlast]

theorem loseReplica_good {b : Block} (h : b.cmp.badReplica = false) : loseReplica b = b := by
  simp only [loseReplica, h, Bool.false_eq_true, false_and, if_false]

/-- What the patrol makes of a block, as the code answers for its bad bytes (R293). -/
theorem patrolBlock_errors (a n : Nat) (b : Block) :
    patrolBlock a (.errors n) b =
      match eccAnswer n b.fresh with
      | .clean => { b with fresh := b.fresh + 1 }
      | .corrected => correctedErrors (channelOf a) 1 { b with fresh := b.fresh + 1 }
      | .detected => spoilUnit (Config.hbmUnit a b.fresh) true (uncorrectable a { b with fresh := b.fresh + 1 })
      | .miscorrected =>
        spoilUnit (Config.hbmUnit a b.fresh) false (correctedErrors (channelOf a) 1 { b with fresh := b.fresh + 1 }) := rfl

theorem eccAnswer_corrected {n m : Nat} (h1 : 1 ≤ n) (h3 : n ≤ 3) : eccAnswer n m = .corrected := by
  rw [eccAnswer, if_neg (by omega), if_pos h3]

theorem eccAnswer_miscorrected {n m : Nat} (h6 : 6 ≤ n) (hmis : Config.miscorrects m = true) : eccAnswer n m = .miscorrected := by
  rw [eccAnswer, if_neg (by omega), if_neg (by omega), if_neg (by omega), if_pos hmis]

theorem eccAnswer_detected {n m : Nat} (h4 : 4 ≤ n) (h : n ≤ 5 ∨ Config.miscorrects m = false) : eccAnswer n m = .detected := by
  rw [eccAnswer, if_neg (by omega), if_neg (by omega)]
  rcases h with h5 | hmis
  · rw [if_pos h5]
  · rw [hmis, if_neg Bool.false_ne_true, ite_self]

/-- Without a warning threshold, corrected errors are counted, and that is all. -/
theorem correctedErrors_unwarned {ch n : Nat} {b : Block} (hwarn : b.getF F.MEM_CFG_ce_warn = 0) :
    correctedErrors ch n b =
      ((b.bumpFi F.MEM_CH_STAT_ce_hour ch n).bumpFi F.MEM_CH_STAT_ce_total ch n).bumpN F.MEM_CNT_ECC_ce_total n := by
  have hkept : (((b.bumpFi F.MEM_CH_STAT_ce_hour ch n).bumpFi F.MEM_CH_STAT_ce_total ch n).bumpN F.MEM_CNT_ECC_ce_total n).getF
      F.MEM_CFG_ce_warn = 0 := by
    rw [← hwarn]
    simp (disch := decide) only [Block.bumpN, Block.getF, getFi_bumpFi_other]
  unfold correctedErrors
  dsimp only
  rw [hkept, if_neg (by simp)]

/-- The counts of the channel where errors were corrected. -/
theorem getFi_correctedErrors {ch n : Nat} {b : Block} (hwarn : b.getF F.MEM_CFG_ce_warn = 0) :
    (correctedErrors ch n b).getFi F.MEM_CH_STAT_ce_hour ch =
      min (b.getFi F.MEM_CH_STAT_ce_hour ch + n) (2 ^ F.MEM_CH_STAT_ce_hour.width - 1) ∧
    (correctedErrors ch n b).getFi F.MEM_CH_STAT_ce_total ch =
      min (b.getFi F.MEM_CH_STAT_ce_total ch + n) (2 ^ F.MEM_CH_STAT_ce_total.width - 1) := by
  rw [correctedErrors_unwarned hwarn, Block.bumpN]
  constructor
  · rw [getFi_bumpFi_other (by decide), getFi_bumpFi_other (by decide), getFi_bumpFi_self]
  · rw [getFi_bumpFi_other (by decide), getFi_bumpFi_self, getFi_bumpFi_other (by decide)]

/-! ### What a checkpoint begun on an event leaves of the memory (R294, R386) -/

theorem captureSession_mem (r : CkptRun) (sid : Nat) (x : Session) (b : Block) : (captureSession r sid x b).2.mem = b.mem :=
  foldl_keeps (f := fun b k => addLease k b) Block.mem (fun _ _ => rfl) _ _

theorem captureReady_mem (b : Block) : (captureReady b).mem = b.mem := by
  unfold captureReady
  split
  · rfl
  · next r _ =>
    refine foldl_keeps (fun a : CkptRun × Block => a.2.mem) (fun a sid => ?_) r.toCapture (r, b)
    dsimp only
    split
    · split
      · rfl
      · split
        · rfl
        · exact captureSession_mem _ _ _ _
    · rfl

@[simp] theorem poolWrite_mem (r : CkptRun) (off : Nat) (bs : Bytes) (b : Block) : (poolWrite r off bs b).mem = b.mem := by
  unfold poolWrite
  split
  · rfl
  · exact (sendMsg_linksOnly _ _ _ _ b).mem

theorem beginCkpt_mem {d : PoolDesc} {rid : Option Nat} {b b' : Block} (h : beginCkpt d rid b = some b') : b'.mem = b.mem := by
  unfold beginCkpt at h
  split at h
  · cases h
  · cases h
    rw [captureReady_mem, poolWrite_mem]
    rfl

@[simp] theorem autoCkpt_mem (event : Nat) (b : Block) : (autoCkpt event b).mem = b.mem := by
  unfold autoCkpt
  split
  · rfl
  · split
    · rfl
    · split
      · rfl
      · split
        · rfl
        · next b' hbegun =>
          obtain ⟨d, -, hd⟩ := Option.bind_eq_some_iff.1 hbegun
          exact beginCkpt_mem hd

/-- A block that could not be corrected stands poisoned (R294). -/
theorem uncorrectable_poisons (a : Nat) (b : Block) : (uncorrectable a b).mem.poisoned.contains (a / 64 * 64) = true := by
  unfold uncorrectable
  dsimp only
  rw [autoCkpt_mem, (fire_signalsOnly _ _).mem]
  by_cases hknown : b.mem.poisoned.contains (a / 64 * 64) = true
  · rw [if_pos hknown]
    exact hknown
  · simp only [hknown, Bool.false_eq_true, if_false, setF_mem, bump_mem, bumpFi_mem, List.contains_eq_mem, List.mem_append,
      List.mem_singleton, or_true, decide_true]

/-! ### The hour's counts (R296) -/

theorem getFi_clearHour (cs : List Nat) (b : Block) (c : Nat) :
    (cs.foldl (fun b c => b.setFi F.MEM_CH_STAT_ce_hour c 0) b).getFi F.MEM_CH_STAT_ce_hour c =
      if c ∈ cs then 0 else b.getFi F.MEM_CH_STAT_ce_hour c := by
  induction cs generalizing b with
  | nil => simp
  | cons d cs ih =>
    rw [List.foldl_cons, ih, getFi_setFi _ _ _ _ _ _ fun _ => rfl]
    by_cases hcs : c ∈ cs <;> by_cases hd : c = d <;> simp [hcs, hd]

theorem getFi_clearHour_total (cs : List Nat) (b : Block) (c : Nat) :
    (cs.foldl (fun b c => b.setFi F.MEM_CH_STAT_ce_hour c 0) b).getFi F.MEM_CH_STAT_ce_total c =
      b.getFi F.MEM_CH_STAT_ce_total c :=
  foldl_keeps (fun b : Block => b.getFi F.MEM_CH_STAT_ce_total c) (fun b d => getFi_setFi_other (by decide) b d 0 c) cs b

theorem hourEnds_stale {b : Block} (h : b.stale = true) : hourEnds b = b := by simp only [hourEnds, h, if_true]

theorem hourEnds_fresh {b : Block} (h : b.stale = false) :
    hourEnds b = (List.range 256).foldl (fun b c => b.setFi F.MEM_CH_STAT_ce_hour c 0) b := by
  simp only [hourEnds, h, Bool.false_eq_true, if_false]

/-- What the end of an hour leaves of the channels' counts. -/
theorem getFi_hourEnds (b : Block) :
    (b.stale = false → ∀ c, c < 256 → (hourEnds b).getFi F.MEM_CH_STAT_ce_hour c = 0) ∧
    (∀ c, (hourEnds b).getFi F.MEM_CH_STAT_ce_total c = b.getFi F.MEM_CH_STAT_ce_total c) := by
  refine ⟨fun hfresh c hc => ?_, fun c => ?_⟩
  · rw [hourEnds_fresh hfresh, getFi_clearHour, if_pos (List.mem_range.2 hc)]
  · cases hstale : b.stale with
    | true => rw [hourEnds_stale hstale]
    | false => rw [hourEnds_fresh hstale, getFi_clearHour_total]

/-! ### Lent blocks (R302, R303, R327, R370) -/

/-- A block stored by the borrower of a range that does not stream. -/
theorem nbrAccess_store {src r n : Nat} {data : Bytes} {tag : BitVec 64} {x : NbrRange} {b : Block} (hx : lentRange b r = some x)
    (hn : n < x.size * 32768) (hheir : x.heir = none) (hstate : x.state = 1) (hsource : x.source = none) (hown : x.module = src) :
    nbrAccess src (.store r n data tag) b = putLent r n data tag b := by
  simp only [nbrAccess, hx, if_neg (Nat.not_le.2 hn), hheir, hstate, hsource, hown, ne_eq, not_true_eq_false, reduceCtorEq,
    if_false, if_true]

/-- A fetch by the borrower is answered with the block, an unwritten one with zeros (log entries 1 and 123). -/
theorem nbrAccess_fetch {src r n : Nat} {x : NbrRange} {b : Block} (hx : lentRange b r = some x)
    (hn : n < x.size * 32768) (hheir : x.heir = none) (hstate : x.state = 1) (hsource : x.source = none) (hgap : x.gap = false)
    (hown : x.module = src) :
    nbrAccess src (.fetch r n) b =
      let v := (lentBlock b r n).getD (List.replicate 64 0, 0)
      sendMsg x.module 3 r (.block r n v.1 v.2) b := by
  have hfetched : fetchLent b x r n = some ((lentBlock b r n).getD (List.replicate 64 0, 0)) := by
    unfold fetchLent
    cases hheld : lentBlock b r n with
    | none => simp [hsource, hgap]
    | some v => rfl
  simp only [nbrAccess, hx, if_neg (Nat.not_le.2 hn), hheir, hstate, hown, ne_eq, not_true_eq_false, if_false, if_true,
    nbrAccess.serve, hfetched]

theorem donorScrub_range {src r : Nat} {x : NbrRange} {b : Block} (hx : lentRange b r = some x) :
    donorScrub src [r] b = if x.module = src then scrubLent r b else b := by
  simp only [donorScrub, List.foldl_cons, List.foldl_nil, hx]

/-- A stream that does not come to its end goes on by the blocks given. -/
theorem lendStream_goesOn {r n heir : Nat} {x : NbrRange} {b : Block} (hx : lentRange b r = some x) (hheir : x.heir = some heir)
    (hroom : x.pos + n < x.size * 32768) :
    lendStream r n b = updLent r (fun x => { x with pos := x.pos + n }) (streamBlocks r heir n x.pos b) := by
  have hall : min n (x.size * 32768 - x.pos) = n := by omega
  simp only [lendStream, hx, hheir, hall, if_neg (Nat.not_le.2 hroom)]

/-- PATROL of a module that is up. -/
theorem exec_patrol_up {s : State} (a : BitVec 39) (f : EccFinding) (hup : s.toBlock.up = true) :
    exec (.patrol a f) s = .next (s.put (rest (loseReplica (patrolRead a.toNat f s.toBlock)))) := by
  rw [exec_patrol, actR_up _ rfl hup]

/-- Settles O37, by what the code answers to a number of bad bytes, and by the blocks that each access to a lent range names. -/
theorem memoryIsPatrolledAndLent : Obligations.MemoryIsPatrolledAndLent := by
  refine ⟨⟨fun s a f hup hstale => ?_, fun s a n hup hfresh hgood hlast => ?_, fun s hup => ?_⟩,
    fun s src r n data tag x hw hx hn hheir hstate hsource hown => ?_,
    fun s src r n x hw hx hn hheir hstate hsource hgap hown => ?_, fun s src r x hw hx => ?_,
    fun s r n heir x hw hx hheir hroom => ?_⟩
  · rw [exec_patrol_up a f hup, patrolRead_stale hstale]
  · have hread : ∀ f, exec (.patrol a f) s = .next (s.put (rest (loseReplica (patrolBlock a.toNat f s.toBlock)))) := fun f => by
      rw [exec_patrol_up a f hup, patrolRead_block hfresh hlast]
    dsimp only
    simp only [hread, patrolBlock_errors]
    refine ⟨fun h0 => ?_, fun h1 h3 hwarn => ?_, fun h6 hmis => ?_, fun h4 hdet => ?_, rfl, uncorrectable_poisons _ _⟩
    · subst h0
      exact congrArg (fun b => Host.Outcome.next (s.put (rest b)))
        (loseReplica_good (b := { s.toBlock with fresh := s.fresh + 1 }) hgood)
    · rw [eccAnswer_corrected h1 h3]
      have hcounted := getFi_correctedErrors (ch := channelOf a.toNat) (n := 1) (b := { s.toBlock with fresh := s.fresh + 1 }) hwarn
      have honly := correctedErrors_unwarned (ch := channelOf a.toNat) (n := 1) (b := { s.toBlock with fresh := s.fresh + 1 }) hwarn
      obtain ⟨hhour, htotal⟩ := hcounted
      refine ⟨_, congrArg (fun b => Host.Outcome.next (s.put (rest b))) (loseReplica_good ?_), hhour, htotal, ?_, ?_⟩
      · rw [honly]
        exact hgood
      · rw [honly]
        rfl
      · rw [honly]
        rfl
    · rw [eccAnswer_miscorrected h6 hmis]
    · rw [eccAnswer_detected h4 hdet]
  · obtain ⟨hcleared, hkept⟩ := getFi_hourEnds s.toBlock
    exact ⟨_, by rw [exec_ceHourWindow, act_up _ rfl hup], hourEnds_stale, hcleared, hkept⟩
  · rw [exec_nbrTierAccess, actC_works _ rfl hw, nbrAccess_store hx hn hheir hstate hsource hown]
    rfl
  · rw [exec_nbrTierAccess, actC_works _ rfl hw, nbrAccess_fetch hx hn hheir hstate hsource hgap hown]
    rfl
  · rw [exec_donorScrub, actC_works _ rfl hw, donorScrub_range hx]
    rfl
  · rw [exec_lendStream, actR_up _ rfl hw.1, if_pos hw.2, lendStream_goesOn hx hheir hroom]

end Sys2Proof.Machine

/-! PROOFS of the family 13_links_composition: the map (O38), ranges and peers (O39), ports (O40), traffic (O41). -/

namespace Sys2Proof.Machine

/-! ### The map formed and proposed (R319, R322, R332) -/

/-- The commands of the map, given by the root of trust to a module that is up. -/
theorem exec_mapForm_rtp {s : State} (hup : s.toBlock.up = true) :
    exec (.mapForm .rtp) s = .next (s.put (rest (mapForm s.toBlock))) := by
  rw [exec_mapForm, actR_up _ rfl hup]
  rfl

theorem exec_mapPropose_rtp {s : State} (hup : s.toBlock.up = true) :
    exec (.mapPropose .rtp) s = .next (s.put (rest (mapPropose s.toBlock))) := by
  rw [exec_mapPropose, actR_up _ rfl hup]
  rfl

theorem exec_mapClear_rtp {s : State} (hup : s.toBlock.up = true) :
    exec (.mapClear .rtp) s = .next (s.put { s.toBlock with cmp := { s.cmp with staged := [], stagedMembers := [] } }) := by
  rw [exec_mapClear, act_up _ rfl hup]
  rfl

/-- From an aperture none of them does anything. -/
theorem exec_mapCommands_aperture {s : State} (t : BitVec 12) (hup : s.toBlock.up = true) :
    exec (.mapForm (.aperture t)) s = .next (s.put (rest s.toBlock)) ∧
    exec (.mapPropose (.aperture t)) s = .next (s.put (rest s.toBlock)) ∧ exec (.mapClear (.aperture t)) s = .next s := by
  rw [exec_mapForm, exec_mapPropose, exec_mapClear, actR_up _ rfl hup, actR_up _ rfl hup, act_up _ rfl hup]
  exact ⟨rfl, rfl, rfl⟩

theorem mapForm_inDomain {b : Block} (h : b.isSet F.CMP_ID_in_domain = true) : mapForm b = b.setF F.CMP_STAT_err 2 := by
  simp only [mapForm, h, if_true]

theorem mapForm_notLowest {b : Block} (hout : b.isSet F.CMP_ID_in_domain = false)
    (hhead : (liveIn b.cmp.stagedMembers).head? ≠ some (ownModule b)) : mapForm b = b.setF F.CMP_STAT_err 1 := by
  simp only [mapForm, hout, Bool.false_eq_true, if_false, if_pos hhead]

/-- The map that the lowest staged live member commits as epoch 1. -/
def formedMap (b : Block) : Proposal :=
  ⟨1, formEntries b.cmp.staged (liveIn b.cmp.stagedMembers), b.cmp.stagedMembers.filter fun e => decide (e.2.mstate = 1),
    dkVersion b + 1⟩

theorem mapForm_commits {b : Block} (hout : b.isSet F.CMP_ID_in_domain = false)
    (hhead : (liveIn b.cmp.stagedMembers).head? = some (ownModule b))
    (hgood : changeErr { b with cmp := { b.cmp with entries := [], members := [] } }
      (formEntries b.cmp.staged (liveIn b.cmp.stagedMembers)) b.cmp.stagedMembers = 0) :
    mapForm b = switchMap (formedMap b) (broadcast (liveIn b.cmp.stagedMembers) (.mapCommit 1)
      (broadcast (liveIn b.cmp.stagedMembers) (.prepare (formedMap b))
        { b with cmp := { b.cmp with entries := [], members := [] } })) := by
  have hlowest : ¬ (liveIn b.cmp.stagedMembers).head? ≠ some (ownModule b) := not_not.2 hhead
  simp only [mapForm, hout, Bool.false_eq_true, if_false, if_neg hlowest, hgood]
  rfl

theorem mapPropose_eq (b : Block) :
    mapPropose b = if proposeErr b = 0 then supersede b.cmp.staged b.cmp.stagedMembers b
      else b.setF F.CMP_STAT_err (proposeErr b) := by
  unfold mapPropose
  split
  · next h0 => rw [if_pos h0]
  · next hne => rw [if_neg hne]

/-! ### The two-phase change (R322, Table 13.9) -/

/-- A member of the domain with a sound replica holds a live member's proposal of a later epoch that it agrees to. -/
theorem takePrepare_member {src : Nat} {p : Proposal} {b : Block} (hin : b.isSet F.CMP_ID_in_domain = true)
    (hgood : b.cmp.badReplica = false) :
    takePrepare src p b =
      if b.getF F.CMP_EPOCH_epoch < p.epoch ∧ liveMember b src = true ∧ donorAgrees b p = true then
        sendCtrl src (.ack p.epoch true) { b with cmp := { b.cmp with held := some (src, p) } }
      else sendCtrl src (.ack p.epoch false) b := by
  simp only [takePrepare, hin, hgood, Bool.not_true, Bool.false_or, Bool.or_false, Bool.and_eq_true, decide_eq_true_eq, and_assoc]

theorem takeMapAck_counted {src epoch : Nat} {c : MapChange} {b : Block} (hc : b.cmp.change = some c) (hopen : c.committed = false)
    (he : c.proposal.epoch = epoch) :
    takeMapAck src epoch true b =
      judgeChange (setChange (some { c with acks := if c.acks.contains src then c.acks else c.acks ++ [src] }) b) := by
  simp only [takeMapAck, hc, hopen, he, ne_eq, not_true_eq_false, or_self, if_false, Bool.false_eq_true, Bool.true_eq_false]

theorem takeMapAck_refused {src epoch : Nat} {c : MapChange} {b : Block} (hc : b.cmp.change = some c) (hopen : c.committed = false)
    (he : c.proposal.epoch = epoch) : takeMapAck src epoch false b = abortChange b := by
  simp only [takeMapAck, hc, hopen, he, ne_eq, not_true_eq_false, or_self, if_false, Bool.false_eq_true, if_true]

theorem abortChange_open {c : MapChange} {b : Block} (hc : b.cmp.change = some c) (hopen : c.committed = false) :
    abortChange b = fire Src.cmpEvent ((setChange (if c.handovers = [] then none else some { c with committed := true })
      (broadcast (changeTargets b c.proposal) (.mapAbort c.proposal.epoch) b)).bump F.CMP_CNT_aborts) := by
  simp only [abortChange, hc, hopen, Bool.false_eq_true, if_false]

theorem takeMapCommit_held {src epoch m : Nat} {p : Proposal} {b : Block} (hheld : b.cmp.held = some (m, p)) (he : p.epoch = epoch) :
    takeMapCommit src epoch b = switchMap p b := by
  simp only [takeMapCommit, hheld, if_pos he]

theorem takeMapCommit_missed {src epoch : Nat} {b : Block} (hheld : b.cmp.held = none) (he : b.getF F.CMP_EPOCH_epoch < epoch) :
    takeMapCommit src epoch b = sendCtrl src .fetchMap b := by
  simp only [takeMapCommit, hheld, if_pos he]

theorem takeMapAbort_held {epoch m : Nat} {p : Proposal} {b : Block} (hheld : b.cmp.held = some (m, p)) (he : p.epoch = epoch) :
    takeMapAbort epoch b = fire Src.cmpEvent (Block.bump { b with cmp := { b.cmp with held := none } } F.CMP_CNT_aborts) := by
  simp only [takeMapAbort, hheld, if_pos he]

/-- Settles O38, by the outcomes of the commands of CMP_CMD and of the messages of a change. -/
theorem mapIsFormedAndAgreed : Obligations.MapIsFormedAndAgreed := by
  refine ⟨⟨fun s hup hin => ?_, fun s hup hout hhead => ?_, fun s hup hout hhead => ?_, fun s hup => ?_,
      fun s hup => exec_mapClear_rtp hup, fun s t hup => exec_mapCommands_aperture t hup⟩,
    fun s src p hup hin hgood => ?_, fun s src e c hup hc hopen he => ⟨?_, ?_⟩, fun s c hup hc hopen => ?_,
    fun s src e m p hup hheld he => ⟨?_, ?_⟩, fun s src e hup hheld he => ?_⟩
  · rw [exec_mapForm_rtp hup, mapForm_inDomain hin]
  · rw [exec_mapForm_rtp hup, mapForm_notLowest hout hhead]
  · intro live entries empty p hgood
    rw [exec_mapForm_rtp hup, mapForm_commits hout hhead hgood]
    rfl
  · rw [exec_mapPropose_rtp hup, mapPropose_eq]
  · rw [exec_mapPrepare, actR_up _ rfl hup, takePrepare_member hin hgood]
  · rw [exec_mapAck, actR_up _ rfl hup, takeMapAck_counted hc hopen he]
  · rw [exec_mapAck, actR_up _ rfl hup, takeMapAck_refused hc hopen he]
  · rw [exec_mapPrepTimeout, actR_up _ rfl hup, abortChange_open hc hopen]
  · rw [exec_mapCommit, actR_up _ rfl hup, takeMapCommit_held hheld he]
  · rw [exec_mapAbort, actR_up _ rfl hup, takeMapAbort_held hheld he]
  · rw [exec_mapCommit, actR_up _ rfl hup, takeMapCommit_missed hheld he]

/-! ### Handover of a range (R326) -/

/-- The module once the range has drained to the owner `e`: HANDOVER sent and reported, its sessions scrubbed. -/
def rangeLeft (e : RangeEntry) (b : Block) : Block :=
  let base := b.cmp.range.getD 0
  let told := tellCoordinator base ((sendCtrl e.owner (.handover base) b).bump F.CMP_CNT_handovers)
  told.ses.slots.foldl (fun b e => if e.2.state = ssScrubbing then b else enterScrubbing e.1 b) told

/-- Without a tandem pair the old owner leaves its range as soon as it has drained. -/
theorem rangeDrained_leaves {e : RangeEntry} {b : Block} (hdep : departingRange b = true) (hdrained : drainCount b = 0)
    (hentry : servedEntry b = some e) (hpair : tandemOn b = false) :
    rangeDrained b = takeRange (fun _ => 0) { rangeLeft e b with cmp := { (rangeLeft e b).cmp with serving := false } } := by
  have hgo : ¬ (departingRange b = false ∨ drainCount b ≠ 0) := by simp [hdep, hdrained]
  simp only [rangeDrained, if_neg hgo, hentry, hpair, Bool.false_eq_true, false_and, if_false]
  rfl

/-- The new owner that awaits a range, with nothing lent and no copy kept, serves it from its HANDOVER on. -/
theorem takeHandover_awaited {src base : Nat} {b : Block} (hmember : b.isSet F.CMP_ID_coordinator = false) (hlent : b.mem.lent = [])
    (hawait : b.cmp.awaiting = true) (hrange : b.cmp.range = some base) (hkept : b.tdm.kept = none)
    (hmine : ((entryAtBase b.cmp.entries 1 base).any fun e => decide (e.owner = ownModule b)) = true) :
    takeHandover src base b = startServing (clearDeparting base (b.bump F.CMP_CNT_handovers)) := by
  have hkept' : (clearDeparting base (b.bump F.CMP_CNT_handovers)).tdm.kept = none := hkept
  simp only [takeHandover, hmember, Bool.false_eq_true, if_false, hlent, List.find?_nil, hawait, hrange, hmine, and_self, if_true,
    takeService, hkept']

/-! ### Heartbeats (R318) -/

/-- What a message leaves of the ports: it takes the next number of its own port, and no other port changes. -/
theorem emit_ports (m : OutMsg) (b : Block) :
    (emit m b).link.sent = b.link.sent ++ [{ m with key := (portOf b m.port).linkKey, number := (portOf b m.port).next }] ∧
    (portOf (emit m b) m.port).next = (portOf b m.port).next + 1 ∧ (∀ q, q ≠ m.port → portOf (emit m b) q = portOf b q) := by
  unfold emit
  dsimp only
  split
  · refine ⟨rfl, ?_, fun q hq => ?_⟩
    · simp [sayHello, showPort, portOf, setPort, Block.takeFresh, tgetD_tset]
    · simp [sayHello, showPort, portOf, setPort, Block.takeFresh, tgetD_tset, hq]
  · refine ⟨rfl, ?_, fun q hq => ?_⟩
    · simp [portOf, setPort, tgetD_tset]
    · simp [portOf, setPort, tgetD_tset, hq]

/-- Sending changes no field, session or record of the map. -/
theorem emit_keeps (m : OutMsg) (b : Block) : (emit m b).flds = b.flds ∧ (emit m b).ses = b.ses ∧ (emit m b).cmp = b.cmp :=
  ⟨emit_flds m b, emit_ses m b, (emit_linksOnly m b).cmp⟩

/-- The heartbeat that goes out on a port: where it is up and joins a module (R318). -/
def heartbeatOn (b : Block) (p : Nat) : Option OutMsg :=
  if portUp b p then
    (peerModule b p).map fun m => ⟨m, clsCtrl, .heartbeat, p, (portOf b p).linkKey, (portOf b p).next⟩
  else none

/-- The module once the heartbeat of one port has gone out. -/
def beatPort (b : Block) (p : Nat) : Block :=
  if portUp b p then match peerModule b p with
    | some m => emit ⟨m, clsCtrl, .heartbeat, p, [], 0⟩ b
    | none => b
  else b

theorem beatPort_spec (b : Block) (p : Nat) :
    (beatPort b p).link.sent = b.link.sent ++ (heartbeatOn b p).toList ∧
    ((beatPort b p).flds = b.flds ∧ (beatPort b p).ses = b.ses ∧ (beatPort b p).cmp = b.cmp) ∧
    (∀ q, q ≠ p → portOf (beatPort b p) q = portOf b q) ∧
    (portUp b p = true → (peerModule b p).isSome = true → (portOf (beatPort b p) p).next = (portOf b p).next + 1) := by
  unfold beatPort heartbeatOn
  cases hup : portUp b p with
  | false => simp
  | true =>
    cases hpeer : peerModule b p with
    | none => simp
    | some m =>
      obtain ⟨hsent, hnext, hothers⟩ := emit_ports ⟨m, clsCtrl, .heartbeat, p, [], 0⟩ b
      exact ⟨hsent, emit_keeps _ b, hothers, fun _ _ => hnext⟩

/-- What a port would send depends on its state and its port alone. -/
theorem heartbeatOn_congr {b b' : Block} {p : Nat} (hf : b'.flds = b.flds) (hp : portOf b' p = portOf b p) :
    heartbeatOn b' p = heartbeatOn b p ∧ portUp b' p = portUp b p ∧ peerModule b' p = peerModule b p := by
  have hup : portUp b' p = portUp b p := by rw [portUp, portUp, Block.getFi, Block.getFi, hf]
  have hpeer : peerModule b' p = peerModule b p := by simp only [peerModule, hp]
  exact ⟨by simp only [heartbeatOn, hup, hpeer, hp], hup, hpeer⟩

/-- Heartbeats of ports that differ: each goes out as its port stood. -/
theorem foldl_beatPort_spec {ps : List Nat} (hps : ps.Nodup) (b : Block) :
    (ps.foldl beatPort b).link.sent = b.link.sent ++ ps.filterMap (heartbeatOn b) ∧
    ((ps.foldl beatPort b).flds = b.flds ∧ (ps.foldl beatPort b).ses = b.ses ∧ (ps.foldl beatPort b).cmp = b.cmp) ∧
    (∀ q, q ∉ ps → portOf (ps.foldl beatPort b) q = portOf b q) ∧
    (∀ p ∈ ps, portUp b p = true → (peerModule b p).isSome = true →
      (portOf (ps.foldl beatPort b) p).next = (portOf b p).next + 1) := by
  induction ps generalizing b with
  | nil => simp
  | cons p ps ih =>
    obtain ⟨hp, hnd⟩ := List.nodup_cons.1 hps
    obtain ⟨hsent, ⟨hflds, hses, hcmp⟩, hothers, hnext⟩ := beatPort_spec b p
    obtain ⟨ihsent, ⟨ihflds, ihses, ihcmp⟩, ihothers, ihnext⟩ := ih hnd (beatPort b p)
    have hsame : ∀ q ∈ ps, portOf (beatPort b p) q = portOf b q := fun q hq => hothers q fun he => hp (he ▸ hq)
    have hlist : ps.filterMap (heartbeatOn (beatPort b p)) = ps.filterMap (heartbeatOn b) :=
      List.filterMap_congr fun q hq => (heartbeatOn_congr hflds (hsame q hq)).1
    rw [List.foldl_cons]
    refine ⟨?_, ⟨ihflds.trans hflds, ihses.trans hses, ihcmp.trans hcmp⟩, fun q hq => ?_, fun q hq hup hpeer => ?_⟩
    · rw [ihsent, hsent, hlist, List.append_assoc]
      cases hb : heartbeatOn b p <;> simp [hb]
    · obtain ⟨hqp, hqs⟩ := not_or.1 (List.mem_cons.not.1 hq)
      rw [ihothers q hqs, hothers q hqp]
    · rcases List.mem_cons.1 hq with rfl | hq
      · rw [ihothers q hp, hnext hup hpeer]
      · obtain ⟨-, hupq, hpeerq⟩ := heartbeatOn_congr hflds (hsame q hq)
        rw [ihnext q hq (hupq.trans hup) ((congrArg Option.isSome hpeerq).trans hpeer), hsame q hq]

theorem sendHeartbeats_eq (b : Block) : sendHeartbeats b = stotyPorts.foldl beatPort b := rfl

/-! ### A peer that is lost (R323) -/

/-- The module once it has noted that it does not reach a module. -/
def peerNoted (m : Nat) (b : Block) : Block :=
  tandemMemberLost m { b with cmp := { b.cmp with unreachable := b.cmp.unreachable ++ [m] } }

theorem peerLost_known {m : Nat} {b : Block} (h : b.cmp.unreachable.contains m = true) : peerLost m b = b := by
  simp only [peerLost, h, if_true]

theorem peerLost_stranger {m : Nat} {b : Block} (h : b.cmp.unreachable.contains m = false)
    (hlive : liveMember (peerNoted m b) m = false) : peerLost m b = peerNoted m b := by
  unfold peerNoted at hlive ⊢
  simp only [peerLost, h, Bool.false_eq_true, if_false, hlive, true_or, if_true]

/-- Half of the live members or fewer reached, this module among them (log entry 120): it fences itself. -/
theorem peerLost_isolates {m : Nat} {b : Block} (h : b.cmp.unreachable.contains m = false)
    (hlive : liveMember (peerNoted m b) m = true) (hfree : (peerNoted m b).isSet F.CMP_ID_isolated = false)
    (hhalf : 2 * ((liveMembers (peerNoted m b)).filter fun n => !(peerNoted m b).cmp.unreachable.contains n).length ≤
      (liveMembers (peerNoted m b)).length) : peerLost m b = isolate (peerNoted m b) := by
  unfold peerNoted at hlive hfree hhalf ⊢
  simp only [peerLost, h, Bool.false_eq_true, if_false, hlive, hfree, Bool.true_eq_false, or_self, hhalf, if_true]

/-- Settles O39, by what the old and the new owner of a range do, and by the modules that a lost peer leaves in reach. -/
theorem rangesAndPeers : Obligations.RangesAndPeers := by
  refine ⟨⟨fun s e hw hdep hdrained hentry hpair => ?_, fun s src base hup hmember hlent hawait hrange hkept hmine => ?_⟩,
    fun s hup => ?_, fun s m hup hnew => ?_, fun s m hup hknown => ?_⟩
  · rw [exec_rangeDrained, actC_works _ rfl hw, rangeDrained_leaves hdep hdrained hentry hpair]
    rfl
  · rw [exec_mapHandover, actR_up _ rfl hup, takeHandover_awaited hmember hlent hawait hrange hkept hmine]
  · obtain ⟨hsent, ⟨hflds, hses, hcmp⟩, -, hnext⟩ := foldl_beatPort_spec (ps := stotyPorts) (by decide) s.toBlock
    exact ⟨_, by rw [exec_heartbeat, act_up _ rfl hup, sendHeartbeats_eq], hsent, hflds, hses, hcmp, hnext⟩
  · rw [exec_peerUnreachable, actR_up _ rfl hup]
    refine ⟨fun hlive => ?_, fun hlive hfree hhalf => ?_⟩
    · rw [peerLost_stranger hnew hlive]
      rfl
    · rw [peerLost_isolates hnew hlive hfree hhalf]
      rfl
  · rw [exec_peerUnreachable, actR_up _ rfl hup, peerLost_known hknown]

/-! ### States of a port (Tables 13.3, 13.14) -/

/-- The fields that a change of a port's state may write. -/
def portStateKeys : List Nat := [F.FLL_PORT_STAT_state.key, F.INT_TGT_STAT_msg_prio.key]

/-- A port takes a state other than the degraded one, which may start a checkpoint: PORT_EVENT may fire, and that is all. -/
theorem setPortState_spec {p st : Nat} (b : Block) (hst : st < 8) (hwidth : st ≠ psDegraded) :
    (setPortState p st b).getFi F.FLL_PORT_STAT_state p = st ∧ (setPortState p st b).link = b.link ∧
    (setPortState p st b).ses = b.ses ∧
    (∀ (g : Fld) (j : Nat), g.key ∉ portStateKeys → (setPortState p st b).getFi g j = b.getFi g j) := by
  unfold setPortState
  split
  · next hsame => exact ⟨hsame, rfl, rfl, fun _ _ _ => rfl⟩
  · have hfire := fire_signalsOnly Src.portEvent (b.setFi F.FLL_PORT_STAT_state p st)
    refine ⟨?_, hfire.link, hfire.ses, fun g j hg => ?_⟩
    · rw [hfire.fields _ _ (by decide), getFi_setFi_self]
      exact Nat.mod_eq_of_lt hst
    · obtain ⟨hstate, hprio⟩ := not_or.1 (List.mem_cons.not.1 hg)
      rw [hfire.fields g j fun he => hprio (he ▸ List.mem_singleton_self _), getFi_setFi_other hstate]

/-- The fields that the start of a port's training may write. -/
def trainingKeys : List Nat := F.FLL_PORT_STAT_err.key :: F.FLL_PORT_STAT_spare_for.key :: portStateKeys

theorem not_mem_cons_key {k j : Nat} {ks : List Nat} (h : k ∉ j :: ks) : k ≠ j ∧ k ∉ ks := not_or.1 (List.mem_cons.not.1 h)

/-- A port whose reference clock is good starts its training (Table 13.3, order 1). -/
theorem startTraining_spec {p : Nat} {b : Block} (hclock : clockOk b p = true) :
    (startTraining p b).getFi F.FLL_PORT_STAT_state p = psTraining ∧ (portOf (startTraining p b) p).stage = 2 ∧
    (portOf (startTraining p b) p).spare = 8 ∧ (startTraining p b).ses = b.ses ∧
    (∀ (g : Fld) (j : Nat), g.key ∉ trainingKeys → (startTraining p b).getFi g j = b.getFi g j) := by
  let set := setPort p { portOf b p with stage := 2, swapping := none, spare := 8 } b
  have hstart : startTraining p b =
      setPortState p psTraining ((set.setFi F.FLL_PORT_STAT_err p 0).setFi F.FLL_PORT_STAT_spare_for p 15) := by
    simp only [startTraining, hclock, if_true]
    rfl
  obtain ⟨hstate, hlink, hses, hfields⟩ := setPortState_spec (p := p) (st := psTraining)
    ((set.setFi F.FLL_PORT_STAT_err p 0).setFi F.FLL_PORT_STAT_spare_for p 15) (by decide) (by decide)
  rw [← hstart] at hstate hlink hses hfields
  have hport : portOf (startTraining p b) p = { portOf b p with stage := 2, swapping := none, spare := 8 } := by
    rw [portOf, hlink]
    exact portOf_setPort_self p _ b
  refine ⟨hstate, by rw [hport], by rw [hport], hses, fun g j hg => ?_⟩
  obtain ⟨herr, hg⟩ := not_mem_cons_key hg
  obtain ⟨hspare, hg⟩ := not_mem_cons_key hg
  rw [hfields g j hg, getFi_setFi_other hspare, getFi_setFi_other herr]
  rfl

/-- A port that goes down (Table 13.14). -/
theorem portStops_down (p err : Nat) (b : Block) :
    (portStops p psDown err b).getFi F.FLL_PORT_STAT_state p = psDown ∧
    (∀ (g : Fld) (j : Nat), g.key ∉ trainingKeys → (portStops p psDown err b).getFi g j = b.getFi g j) := by
  obtain ⟨hstate, -, -, hfields⟩ := setPortState_spec (p := p) (st := psDown)
    ((setPort p { portOf b p with stage := 0, swapping := none } b).setFi F.FLL_PORT_STAT_err p err) (by decide) (by decide)
  refine ⟨hstate, fun g j hg => ?_⟩
  obtain ⟨herr, hg⟩ := not_mem_cons_key hg
  obtain ⟨-, hg⟩ := not_mem_cons_key hg
  rw [portStops, hfields g j hg, getFi_setFi_other herr]
  rfl

/-- The settings that a write of a port's control register gives (Table 13.15). -/
def portSet (p v : Nat) (b : Block) : Block :=
  ((b.setFi F.FLL_PORT_CTRL_retry_ms p (bitsOf v 8 16)).setFi F.FLL_PORT_CTRL_swap_thresh p (bitsOf v 24 16)).setFi
    F.FLL_PORT_CTRL_enable p (bitsOf v 0 1)

theorem getFi_portSet_enable (p v : Nat) (b : Block) : (portSet p v b).getFi F.FLL_PORT_CTRL_enable p = bitsOf v 0 1 :=
  getFi_setFi_bits _ F.FLL_PORT_CTRL_enable p v 0

theorem getFi_portSet_other {g : Fld} (h : g.key ∉
    [F.FLL_PORT_CTRL_retry_ms.key, F.FLL_PORT_CTRL_swap_thresh.key, F.FLL_PORT_CTRL_enable.key]) (p v j : Nat) (b : Block) :
    (portSet p v b).getFi g j = b.getFi g j := by
  obtain ⟨hretry, h⟩ := not_mem_cons_key h
  obtain ⟨hswap, h⟩ := not_mem_cons_key h
  obtain ⟨henable, -⟩ := not_mem_cons_key h
  rw [portSet, getFi_setFi_other henable, getFi_setFi_other hswap, getFi_setFi_other hretry]

theorem clockOk_portSet (p v q : Nat) (b : Block) : clockOk (portSet p v b) q = clockOk b q := by
  rw [clockOk, clockOk, Block.getF, Block.getF, getFi_portSet_other (by decide)]

/-- What a write of the control register of a Falolo port does, by the enable bit before and after (R313). -/
theorem portCtrlWrite_falolo {p v : Nat} {b : Block} (hp : p = b.getF F.FLL_PORT_SEL_port) (h4 : p < 4) :
    portCtrlWrite false v b =
      if v.testBit 0 = false then
        (if b.getFi F.FLL_PORT_CTRL_enable p = 1 then portStops p psDown 0 (portSet p v b) else portSet p v b)
      else if ¬ b.getFi F.FLL_PORT_CTRL_enable p = 1 then startTraining p (portSet p v b)
      else if v.testBit 1 ∧ (portSet p v b).getFi F.FLL_PORT_STAT_state p ≠ psError then retrain p (portSet p v b)
      else portSet p v b := by
  have hmine : ¬ (18 ≤ p ∨ isStoty p ≠ false) := by simp [isStoty]; omega
  simp only [portCtrlWrite, Bool.false_eq_true, if_false, ← hp, if_neg hmine]
  simp only [eq_iff_iff, iff_false]
  rfl

theorem bitsOf_one_of_testBit {v : Nat} (h : v.testBit 0 = true) : bitsOf v 0 1 = 1 := by
  rw [bitsOf_zero]
  simpa using h

theorem bitsOf_zero_of_testBit {v : Nat} (h : v.testBit 0 = false) : bitsOf v 0 1 = 0 := by
  rw [bitsOf_zero]
  simpa using h

/-- The port commands of management space. -/
theorem exec_portEnable_mgmt {s : State} (v : BitVec 64) (hup : s.toBlock.up = true) :
    exec (.portEnable .mgmt false v) s = .next (s.put (rest (portCtrlWrite false v.toNat s.toBlock))) := by
  rw [exec_portEnable, actR_up _ rfl hup, if_pos isMgmt_mgmt]

theorem exec_portRetrain_mgmt {s : State} (v : BitVec 64) (hup : s.toBlock.up = true) :
    exec (.portRetrain .mgmt false v) s = .next (s.put (rest (portCtrlWrite false v.toNat s.toBlock))) := by
  rw [exec_portRetrain, actR_up _ rfl hup, if_pos isMgmt_mgmt]

theorem portUnit_wf {p : Nat} (hp : p < numPorts) : (UnitRef.port p).wf = true := decide_eq_true hp

/-- A peer is refused as R362 says. -/
theorem peerRefused_iff (b : Block) (c : PeerCert) :
    peerRefused b c = true ↔ c.chainOk = false ∨ c.ownerDg ≠ keyDigest b.rtp.ownerKey ∨ c.conf ≠ b.rtp.conf := by
  simp [peerRefused, or_assoc]

/-- The handshake of order 7 on a Stoty port. -/
theorem takeHandshake_training {p : Nat} {c : PeerCert} {b : Block} (h4 : 4 ≤ p) (hstage : (portOf b p).stage = 7) :
    takeHandshake p c b =
      if b.rtp.ready = false then b
      else if c.chainOk = false ∨ c.ownerDg ≠ keyDigest b.rtp.ownerKey ∨ c.conf ≠ b.rtp.conf then portStops p psError 4 b
      else { b with rtp := { b.rtp with queue := b.rtp.queue ++ [.handshake p c] } } := by
  have hstoty : isStoty p = true := decide_eq_true h4
  have hrefused := peerRefused_iff b c
  simp only [takeHandshake, hstoty, hstage, Bool.true_eq_false, ne_eq, not_true_eq_false, false_and, or_false, false_or, if_true,
    hrefused]

/-- The capability block of a port in order 6: the version both blocks mark, or error 3 (R314). -/
theorem takeCapability_order6 {p : Nat} {blk : Bytes} {b : Block} (hstage : (portOf b p).stage = 6) :
    takeCapability p blk b =
      let k := padTo 64 blk
      let own := b.getF (if 4 ≤ p then F.STL_CAPS_proto else F.FLL_CAPS_proto)
      let b := setPort p { portOf b p with peer := k } b
      match (if bytesAt k 0 4 = 0x5041434C ∧ bytesAt k 4 1 = (if 4 ≤ p then 1 else 0) then
          commonVersion (isStoty p) own (bytesAt k 5 1) else none) with
      | none => portStops p psError 3 b
      | some v => if 4 ≤ p then sayHello p (setPort p { portOf b p with stage := 7 } (b.setFi F.FLL_PORT_STAT_version p v))
        else setPort p { portOf b p with stage := 8 } (b.setFi F.FLL_PORT_STAT_version p v) := by
  have hstoty : (isStoty p = true) = (4 ≤ p) := by simp [isStoty]
  simp only [takeCapability, hstage, ne_eq, not_true_eq_false, if_false, hstoty, Bool.and_eq_true, decide_eq_true_eq]
  rfl

/-- Training completes in order 8: the port is up, or degraded with fewer than eight good lanes. -/
theorem linkUp_order8 {p : Nat} {b : Block} (hstage : (portOf b p).stage = 8) :
    linkUp p b =
      let b' := setPortState p (if 8 ≤ (goodLanes b p).length then psUp else psDegraded)
        (setPort p { portOf b p with stage := 0 } (b.setFi F.FLL_PORT_STAT_up_s p (b.now / 1000000000)))
      if 4 ≤ p then b' else rereadLines b' := by
  have hstoty : (isStoty p = true) = (4 ≤ p) := by simp [isStoty]
  simp only [linkUp, hstage, ne_eq, not_true_eq_false, if_false, hstoty]

/-- Settles O40: a start of training keeps every other field (`startTraining_spec`); then one lemma for each order of
Table 13.3. -/
theorem portsTrain : Obligations.PortsTrain := by
  refine ⟨⟨fun s v p hup hp h4 hwas hon hclock => ?_, fun s v p hup hp h4 hwas hon hretrain hstate hclock => ?_,
      fun s v p hup hp h4 hwas hoff => ?_, fun s p hup hport hon hdown => ?_⟩,
    fun s p l hup hport => ?_, fun s p blk hup hport hstage => ?_, fun s p c hup h4 hport hstage => ?_, fun s p hup hport hstage => ?_⟩
  · have henable : ¬ s.getFi F.FLL_PORT_CTRL_enable p = 1 := by rw [hwas]; decide
    obtain ⟨htraining, hstage, hspare, hses, hfields⟩ :=
      startTraining_spec (p := p) (b := portSet p v.toNat s.toBlock) ((clockOk_portSet p v.toNat p s.toBlock).trans hclock)
    refine ⟨_, ?_, htraining, ?_, hstage, hspare, hses⟩
    · rw [exec_portEnable_mgmt v hup, portCtrlWrite_falolo hp h4, if_neg (by rw [hon]; decide), if_pos henable]
    · rw [hfields _ _ (by decide), getFi_portSet_enable, bitsOf_one_of_testBit hon]
  · have hkept : (portSet p v.toNat s.toBlock).getFi F.FLL_PORT_STAT_state p ≠ psError := by
      rwa [getFi_portSet_other (by decide)]
    have hcounted : clockOk ((portSet p v.toNat s.toBlock).bumpFi F.FLL_PORT_CNT_retrains p 1) p = true := by
      rw [← hclock, ← clockOk_portSet p v.toNat p s.toBlock, clockOk, clockOk, Block.getF, Block.getF,
        getFi_bumpFi_other (by decide)]
    obtain ⟨htraining, hstage, -, -, hfields⟩ := startTraining_spec hcounted
    refine ⟨_, ?_, htraining, hstage, ?_⟩
    · rw [exec_portRetrain_mgmt v hup, portCtrlWrite_falolo hp h4, if_neg (by rw [hon]; decide), if_neg (not_not.2 hwas),
        if_pos ⟨hretrain, hkept⟩, retrain]
    · rw [hfields _ _ (by decide), getFi_bumpFi_self, getFi_portSet_other (by decide)]
  · obtain ⟨hdown, hfields⟩ := portStops_down p 0 (portSet p v.toNat s.toBlock)
    refine ⟨_, ?_, hdown, ?_⟩
    · rw [exec_portEnable_mgmt v hup, portCtrlWrite_falolo hp h4, if_pos hoff, if_pos hwas]
    · rw [hfields _ _ (by decide), getFi_portSet_enable, bitsOf_zero_of_testBit hoff]
  · rw [exec_trainingRetry, actR_up _ (portUnit_wf hport) hup, trainingRetry, if_pos ⟨hon, hdown⟩]
  · dsimp only
    rw [exec_trainingStageDone, actR_up _ (portUnit_wf hport) hup]
    refine ⟨fun h => ?_, fun h => ?_, fun h => ?_, fun h => ?_⟩
    all_goals simp only [stageDone, h]
  · rw [exec_capabilityBlock, actR_up _ (portUnit_wf hport) hup]
    exact congrArg (fun b => Host.Outcome.next (s.put (rest b))) (takeCapability_order6 hstage)
  · rw [exec_linkHandshake, actR_up _ (portUnit_wf hport) hup, takeHandshake_training h4 hstage]
  · rw [exec_linkUp, actR_up _ (portUnit_wf hport) hup, linkUp_order8 hstage]

/-! ### Flits, lanes and lines (R311, R312, R315) -/

/-- A flit on a port that joins no known module, whose lane is below its swap threshold (R311). -/
theorem flitReceive_unknown {p : Nat} {f : FlitInfo} {b : Block} (hup : portUp b p = true) (hpeer : peerModule b p = none)
    (hlane : f.corrPerBillion ≤ b.getFi F.FLL_PORT_CTRL_swap_thresh p) :
    (f.fecOk = true → f.crcOk = true → flitReceive p f b = b) ∧
    (f.fecOk = true → f.crcOk = false → f.sixteenth = false → flitReceive p f b = b.bumpFi F.FLL_PORT_CNT_replays p 1) ∧
    (f.fecOk = false → f.sixteenth = true →
      flitReceive p f b = retrain p ((b.bumpFi F.FLL_PORT_CNT_fec_uncorr p 1).bumpFi F.FLL_PORT_CNT_replays p 1)) := by
  refine ⟨fun hfec hcrc => ?_, fun hfec hcrc h16 => ?_, fun hfec h16 => ?_⟩
  · simp [flitReceive, hup, hpeer, hfec, hcrc, Nat.not_lt.2 hlane]
  · have hkept : (b.bumpFi F.FLL_PORT_CNT_replays p 1).getFi F.FLL_PORT_CTRL_swap_thresh p =
        b.getFi F.FLL_PORT_CTRL_swap_thresh p := getFi_bumpFi_other (by decide) _ _ _ _
    simp [flitReceive, hup, hpeer, hfec, hcrc, h16, hkept, Nat.not_lt.2 hlane]
  · simp [flitReceive, hup, hpeer, hfec, h16]

theorem laneSwapDone_swapping {p l : Nat} {b : Block} (h : (portOf b p).swapping = some l) :
    laneSwapDone p b = (setPort p { portOf b p with swapping := none } (b.setFi F.FLL_PORT_STAT_spare_for p l)).bumpFi
      F.FLL_PORT_CNT_lane_swaps p 1 := by
  simp only [laneSwapDone, h]

theorem lossOfWidth_up {p good : Nat} {b : Block} (h : portUp b p = true) :
    lossOfWidth p good b =
      retrain p ((List.range 9).foldl (fun b l => if good.testBit l then b else markLane p l b) b) := by
  simp only [lossOfWidth, h, if_true]

/-- The module with other lines in the shared state. -/
def withShared (l : List Nat) (b : Block) : Block := { b with link := { b.link with shared := l } }

/-- Of some members of the watch table, those that stand for a line leave the shared state. -/
theorem foldl_unwatch (a : Nat) (ns l : List Nat) (b : Block) :
    ns.foldl (fun b n => if watchedLine b n = some a then watchLine n false b else b) (withShared l b) =
      withShared (l.filter fun n => decide (¬ (n ∈ ns ∧ watchedLine b n = some a))) b := by
  induction ns generalizing l with
  | nil => simp
  | cons m ns ih =>
    have hwatched : watchedLine (withShared l b) m = watchedLine b m := rfl
    rw [List.foldl_cons, hwatched]
    by_cases hm : watchedLine b m = some a
    · have hunwatch : watchLine m false (withShared l b) = withShared (l.filter (· ≠ m)) b := rfl
      rw [if_pos hm, hunwatch, ih, List.filter_filter]
      refine congrArg (withShared · b) (List.filter_congr fun n _ => ?_)
      by_cases hn : n = m <;> simp [hn, hm]
    · rw [if_neg hm, ih]
      refine congrArg (withShared · b) (List.filter_congr fun n _ => ?_)
      by_cases hn : n = m <;> simp [hn, hm]

/-- A snoop takes the members that stand for its line out of the shared state, and changes nothing else (R315). -/
theorem faloloSnoop_eq (a : Nat) (b : Block) :
    faloloSnoop a b = withShared (b.link.shared.filter fun n => decide (watchedLine b n ≠ some (a / 64))) b := by
  refine (foldl_unwatch (a / 64) b.link.shared b.link.shared b).trans ?_
  exact congrArg (withShared · b) (List.filter_congr fun n hn => by simp only [hn, true_and])

/-! ### The order of messages (R317) -/

/-- With nothing waiting, a message whose turn it is is delivered. -/
theorem takeMessage_next {src cls : Nat} {pl : Bytes} {b : Block} (hcls : cls < 5) (hports : portsTo b src ≠ [])
    (hearly : b.link.early = []) :
    takeMessage src cls (tgetD b.link.expect (8 * src + cls) 0) pl b =
      deliverEarly src cls 1 (deliver ⟨src, cls, tgetD b.link.expect (8 * src + cls) 0, pl⟩
        { b with link := { b.link with
          expect := tset b.link.expect (8 * src + cls) (tgetD b.link.expect (8 * src + cls) 0 + 1) } }) := by
  have htaken : ¬ (tgetD b.link.expect (8 * src + cls) 0 < tgetD b.link.expect (8 * src + cls) 0 ∨ 5 ≤ cls ∨
      portsTo b src = []) := by simp [Nat.not_le.2 hcls, hports]
  simp only [takeMessage, if_neg htaken, hearly, List.nil_append, List.length_singleton]
  rw [deliverEarly]
  simp only [List.find?_cons, decide_true, Bool.and_self, List.erase_cons_head, ← hearly]

/-- One that comes before its turn waits. -/
theorem takeMessage_early {src cls seq : Nat} {pl : Bytes} {b : Block} (hcls : cls < 5) (hports : portsTo b src ≠ [])
    (hearly : b.link.early = []) (hseq : tgetD b.link.expect (8 * src + cls) 0 < seq) :
    takeMessage src cls seq pl b = { b with link := { b.link with early := [⟨src, cls, seq, pl⟩] } } := by
  have htaken : ¬ (seq < tgetD b.link.expect (8 * src + cls) 0 ∨ 5 ≤ cls ∨ portsTo b src = []) := by
    simp [Nat.not_le.2 hcls, hports, Nat.le_of_lt hseq]
  have hturn : ¬ seq = tgetD b.link.expect (8 * src + cls) 0 := (Nat.ne_of_lt hseq).symm
  simp only [takeMessage, if_neg htaken, hearly, List.nil_append, List.length_singleton]
  rw [deliverEarly]
  simp only [List.find?_cons, List.find?_nil, decide_true, hturn, decide_false, Bool.and_false]

theorem takeMessage_late {src cls seq : Nat} {pl : Bytes} {b : Block} (hseq : seq < tgetD b.link.expect (8 * src + cls) 0) :
    takeMessage src cls seq pl b = b := by
  simp only [takeMessage, hseq, true_or, if_true]

/-- Settles O41: the outcomes of a flit, the swap of a lane, a snoop's line, and a message by its place in its stream. -/
theorem portsCarryTraffic : Obligations.PortsCarryTraffic := by
  refine ⟨⟨fun s p f hup hport hportUp hpeer hlane => ?_, fun s p l hup hport hswap => ?_, fun s p good hup hport hportUp => ?_⟩,
    fun s a bytes hup => ?_, fun s a bytes hdown => exec_faloloSnoop_down hdown,
    fun s src cls stream seq pl hup hcls hports => ?_⟩
  · obtain ⟨hclean, hcrc, hlost⟩ := flitReceive_unknown hportUp hpeer hlane
    rw [exec_flitReceive, actR_up _ (portUnit_wf hport) hup]
    exact ⟨fun h h' => by rw [hclean h h'], fun h h' h'' => by rw [hcrc h h' h''], fun h h' => by rw [hlost h h']⟩
  · rw [exec_laneSwapDone, actR_up _ (portUnit_wf hport) hup, laneSwapDone_swapping hswap]
  · rw [exec_lossOfWidth, actR_up _ (portUnit_wf hport) hup, lossOfWidth_up hportUp]
  · have hpoked : (s.toBlock.pokeBytes a.toNat (bytes.take (64 - a.toNat % 64))).up = true := hup
    rw [exec_faloloSnoop, actB_wf _ rfl]
    simp only [hpoked, if_true, faloloSnoop_eq]
    rfl
  · dsimp only
    rw [exec_stotyMessage, actR_up _ rfl hup]
    refine ⟨fun hseq hearly => ?_, fun hseq hearly => ?_, fun hseq => ?_⟩
    · rw [hseq, takeMessage_next hcls hports hearly]
    · rw [takeMessage_early hcls hports hearly hseq]
    · rw [takeMessage_late hseq]

end Sys2Proof.Machine

/-! PROOFS of the family 14_tenancy_scheduling: model images (O6), tenants (O45). -/

namespace Sys2Proof.Machine

/-! ### MLOAD of a model (R340, R342) -/

/-- What `loadModel` puts into its slot. -/
def loadedModel (c : Ctx) (owner cls loadNs : Nat) (weights program : Bytes) (h : ProgramHeader) : ModelSlot :=
  { state := slReady, draft := h.draft, tuning := h.tuning, shared := c.e.a.testBit 11, owner := owner, cls := cls,
    kvFormat := h.kvFormat, layers := h.layers, elems := h.elems, vocab := h.vocab, isa := h.isa,
    targetDg := h.targetDg, weightsDg := sha256 weights, programDg := sha256 program,
    bytes := weights.length + program.length, adapters := [], loadNs := loadNs, adapterNs := loadNs, damaged := false }

/-- The slot takes an image for `owner`: it holds no model, or one unloaded while sessions name it, of the same weights and
geometry (R342). -/
def slotTakes (b : Block) (n tenant owner w : Nat) (h : ProgramHeader) (dg : Bytes) : Prop :=
  (modelSlot b n = none ∧ owner = tenant) ∨ ∃ m, modelSlot b n = some m ∧ owner = m.owner ∧ refillOk m h w dg = true

section
variable {b : Block} {n tenant owner w : Nat} {h : ProgramHeader} {dg : Bytes} (hslot : slotTakes b n tenant owner w h dg)
include hslot

theorem slotTakes_owner : ((modelSlot b n).map (·.owner)).getD tenant = owner := by
  rcases hslot with ⟨hnone, ho⟩ | ⟨m, hm, ho, -⟩
  · rw [hnone, ho]; rfl
  · rw [hm, ho]; rfl

theorem slotTakes_refill : ¬ ((modelSlot b n).map fun m => refillOk m h w dg) = some false := by
  rcases hslot with ⟨hnone, -⟩ | ⟨m, hm, -, hok⟩
  · simp [hnone]
  · simp [hm, hok]

theorem slotTakes_empty : ¬ ((modelSlot b n).map fun m => decide (m.state ≠ slEmpty)) = some true := by
  rcases hslot with ⟨hnone, -⟩ | ⟨m, hm, -, hok⟩
  · simp [hnone]
  · have hempty : m.state = slEmpty := by
      simp only [refillOk, Bool.and_eq_true, decide_eq_true_eq] at hok
      exact hok.1.1
    simp [hm, hempty]

end

/-- An image that its slot takes, with room under `model_gib`, a geometry class and extents, makes the slot ready. -/
theorem loadModel_fills {c : Ctx} {n w cls run owner : Nat} {weights program : Bytes} {h : ProgramHeader} {b b1 b2 : Block}
    (hslot : slotTakes b n c.tenant owner w h (sha256 weights))
    (hroom : tenantModelBytes b owner + (weights.length + program.length) ≤ b.getFi F.STE_TQ_SCHED_model_gib owner * 2 ^ 30)
    (hcls : (if h.draft then some (0, b) else takeClass h.layers w h.elems b) = some (cls, b1))
    (hext : takeExtents 0 (extentsFor weights.length + extentsFor program.length) owner (.model n) b1 = some (run, b2)) :
    loadModel c n weights program h w b = .done St.ok (some (sha256 weights))
      (putClass n cls (setModel n (some (loadedModel c owner cls b2.now weights program h)) b2)) := by
  unfold loadModel
  dsimp only
  rw [if_neg (slotTakes_refill hslot), slotTakes_owner hslot, if_neg (Nat.not_lt.2 hroom), hcls]
  dsimp only
  rw [hext]
  rfl

/-- The checks of R340 lead an MLOAD of a good image to its load, with the row width of its geometry (0 for a draft's). -/
theorem mloadModel_loads {c : Ctx} {b : Block} {h : ProgramHeader} {w owner : Nat}
    (hwa : c.arg b 32 8 % 64 = 0) (hpa : c.arg b 48 8 % 64 = 0) (hwr : c.reads b (c.arg b 32 8) (c.arg b 40 8) = true)
    (hpr : c.reads b (c.arg b 48 8) (c.arg b 56 8) = true)
    (hslot : slotTakes b (bitsOf c.e.a 0 8) c.tenant owner w h (sha256 (b.peek (c.arg b 32 8) (c.arg b 40 8))))
    (hhead : programHeader (b.peek (c.arg b 48 8) (c.arg b 56 8)) = some h) (hdraft : h.draft = c.e.a.testBit 8)
    (htarget : leVal h.targetDg = 0 ↔ h.draft = false)
    (hwidth : if h.draft then w = 0 else rowWidth h.kvFormat h.layers h.elems = some w) :
    mloadModel c b = loadModel c (bitsOf c.e.a 0 8) (b.peek (c.arg b 32 8) (c.arg b 40 8))
      (b.peek (c.arg b 48 8) (c.arg b 56 8)) h w b := by
  have hform : ¬ (c.arg b 32 8 % 64 ≠ 0 ∨ c.arg b 48 8 % 64 ≠ 0 ∨ c.reads b (c.arg b 32 8) (c.arg b 40 8) = false ∨
      c.reads b (c.arg b 48 8) (c.arg b 56 8) = false) := by simp [hwa, hpa, hwr, hpr]
  have hkind : ¬ (h.draft ≠ c.e.a.testBit 8 ∨ h.draft = decide (leVal h.targetDg = 0)) := by
    rw [not_or, not_not]
    refine ⟨hdraft, ?_⟩
    cases hd : h.draft <;> simp [htarget, hd]
  unfold mloadModel
  dsimp only
  rw [if_neg hform, if_neg (slotTakes_empty hslot), hhead]
  dsimp only
  rw [if_neg hkind]
  cases hd : h.draft with
  | true =>
    rw [hd, if_pos rfl] at hwidth
    rw [if_pos rfl, hwidth]
  | false =>
    rw [hd, if_neg Bool.false_ne_true] at hwidth
    rw [if_neg Bool.false_ne_true, hwidth]

/-- Settles O6: the chain's checks are met in turn, and `loadModel` fills the slot that `mloadModel` finds. -/
theorem mloadModelFillsSlot : Obligations.MloadModelFillsSlot := by
  intro s rid c b b1 b2 h w cls run owner n weights program hrun hwa hpa hwr hpr hslot hhead hdraft htarget hwidth hroom hcls hext
  refine exec_ends hrun ?_
  rw [mloadModel_loads hwa hpa hwr hpr hslot hhead hdraft htarget hwidth, loadModel_fills hslot hroom hcls hext]
  rfl

/-! ### States of tenants (Table 14.2, R334) -/

theorem activateTenant_ready {t : Nat} {b : Block} (habsent : tenantState b t = tsAbsent) (hkey : hasKey b t = true) :
    activateTenant t b = setTenant t tsActive b := by
  simp only [activateTenant, habsent, hkey, and_self, if_true]

theorem activateTenant_left {t : Nat} {b : Block} (h : tenantState b t ≠ tsAbsent ∨ hasKey b t = false) :
    activateTenant t b = b := by
  rw [activateTenant, if_neg]
  rintro ⟨habsent, hkey⟩
  rcases h with h | h
  · exact h habsent
  · rw [hkey] at h
    cases h

theorem restartTenant_held {t : Nat} {b : Block} (h : tenantState b t = tsHeld) : restartTenant t b = setTenant t tsActive b := by
  simp only [restartTenant, h, if_true]

/-- A held tenant restarts by itself once `restart_ms` has passed since its teardown. -/
theorem autoRestart_due {t ns : Nat} {b : Block} (hheld : tenantState b t = tsHeld)
    (hauto : b.getFi F.STE_TQ_SCHED_auto_restart t = 1) (hfresh : b.stale = false) (hns : tget b.ten.teardownNs t = some ns)
    (hdue : ns + b.getFi F.STE_TQ_SCHED_restart_ms t * 1000000 ≤ b.now) : autoRestart t b = setTenant t tsActive b := by
  simp only [autoRestart, hauto, hfresh, hns, hdue, decide_true, and_self, if_true, restartTenant_held hheld]

/-- The commands of a tenant's state, by management space and through an aperture. -/
theorem exec_tenantActivate_mgmt {s : State} (hup : s.toBlock.up = true) :
    exec (.tenantActivate .mgmt) s = .next (s.put (rest (activateTenant (s.getF F.MOD_TEN_SEL_tenant) s.toBlock))) := by
  rw [exec_tenantActivate, actR_up _ rfl hup, if_pos isMgmt_mgmt]
  rfl

theorem exec_tenantRestart_mgmt {s : State} (hup : s.toBlock.up = true) :
    exec (.tenantRestart .mgmt) s = .next (s.put (rest (restartTenant (s.getF F.MOD_TEN_SEL_tenant) s.toBlock))) := by
  rw [exec_tenantRestart, actR_up _ rfl hup, if_pos isMgmt_mgmt]
  rfl

theorem exec_tenantReset_mgmt {s : State} (hup : s.toBlock.up = true) :
    exec (.tenantReset .mgmt) s = .next (s.put (rest (resetTenant (s.getF F.MOD_TEN_SEL_tenant) s.toBlock))) := by
  rw [exec_tenantReset, actR_up _ rfl hup, if_pos isMgmt_mgmt]
  rfl

theorem exec_tenantCommands_aperture {s : State} (t : BitVec 12) (hup : s.toBlock.up = true) :
    exec (.tenantActivate (.aperture t)) s = .next (s.put (rest s.toBlock)) ∧
    exec (.tenantRestart (.aperture t)) s = .next (s.put (rest s.toBlock)) ∧
    exec (.tenantReset (.aperture t)) s = .next (s.put (rest s.toBlock)) := by
  rw [exec_tenantActivate, exec_tenantRestart, exec_tenantReset, actR_up _ rfl hup, actR_up _ rfl hup, actR_up _ rfl hup]
  exact ⟨rfl, rfl, rfl⟩

/-! ### Tenant reset (R338, R370, Table 14.4) -/

theorem resetTenant_refused {t : Nat} {b : Block} (hstate : tenantState b t = tsActive ∨ tenantState b t = tsHeld)
    (hused : resetRefused b t = true) : resetTenant t b = b.setFi F.MOD_TEN_STAT_reset_refused t 1 := by
  have hmay : ¬ (tenantState b t ≠ tsActive ∧ tenantState b t ≠ tsHeld) := by rw [not_and_or, not_not, not_not]; exact hstate
  simp only [resetTenant, if_neg hmay, hused, if_true]

/-- The module as a reset begins: the tenant RESETTING, its teardown and its saved chains gone. -/
def resetBegun (t : Nat) (b : Block) : Block :=
  let b1 := setTenant t tsResetting b
  let b2 := { b1 with ten := { b1.ten with tearing := tdel b1.ten.tearing t, resetting := b1.ten.resetting ++ [t] } }
  setSaved (b2.spk.saved.filter fun c => decide (c.tenant ≠ t)) b2

theorem resetTenant_begins {t : Nat} {b : Block} (hstate : tenantState b t = tsActive ∨ tenantState b t = tsHeld)
    (hfree : resetRefused b t = false) :
    resetTenant t b = settleResets (dropTenantChains t ([0, 1, 2, 3, 4, 5, 6, 7].foldl (fun b k => resetPeloton t k b)
      (resetBegun t b))) := by
  have hmay : ¬ (tenantState b t ≠ tsActive ∧ tenantState b t ≠ tsHeld) := by rw [not_and_or, not_not, not_not]; exact hstate
  simp only [resetTenant, if_neg hmay, hfree, Bool.false_eq_true, if_false]
  rfl

theorem freeSlot_session {sid : Nat} {x : Session} {b : Block} (hx : session b sid = some x) :
    freeSlot sid b = { b with ses := { b.ses with slots := tdel b.ses.slots sid, freed := b.ses.freed ++ [(sid, x.gen)] } } := by
  simp only [freeSlot, hx]

/-- A scrubbed slot with no owned items left, whose move is over, becomes FREE (row 22 of Table 2.5). -/
theorem scrubDone_frees {sid : Nat} {x : Session} {b : Block} (hx : session b sid = some x) (hscrub : x.state = ssScrubbing)
    (hitems : x.vecItems = 0) (hmove : x.moveOut = none) : scrubDone sid b = freeSlot sid b := by
  simp only [scrubDone, hx, hscrub, hitems, hmove, and_self, if_true]

theorem scrubComplete_absent {t : Nat} {b : Block} (hstate : tenantState b t = tsResetting)
    (hgone : b.ten.resetting.contains t = false)
    (hitems : (b.ses.slots.any fun e => decide (e.2.tenant = t ∧ e.2.vecItems ≠ 0)) = false) :
    scrubComplete t b = absentTenant t (b.ses.slots.foldl (fun b e => if e.2.tenant = t then freeSlot e.1 b else b) b) := by
  simp only [scrubComplete, hstate, hgone, hitems, ne_eq, not_true_eq_false, Bool.false_eq_true, or_self, if_false]

/-- The fields of a tenant that becomes ABSENT (R425, Table 14.4, order 7). -/
def tenantCleared (t : Nat) (b : Block) : Block :=
  let b := b.setFi F.PMC_E_TEN_energy_uj t 0
  let b := { b with ten := { b.ten with teardownNs := tdel b.ten.teardownNs t } }
  let b := ((b.setFi F.MOD_TEN_STAT_reset_refused t 0).setFi F.MOD_TEN_STAT_last_fault t 0).setFi F.MOD_TEN_STAT_ctx_faults t 0
  setTenant t tsAbsent (b.setFi F.MOD_TEN_STAT_fault_s t 0)

theorem getFi_tenantCleared (t : Nat) (b : Block) :
    tenantState (tenantCleared t b) t = tsAbsent ∧ (tenantCleared t b).getFi F.PMC_E_TEN_energy_uj t = 0 ∧
    (tenantCleared t b).getFi F.MOD_TEN_STAT_reset_refused t = 0 ∧ (tenantCleared t b).getFi F.MOD_TEN_STAT_last_fault t = 0 := by
  unfold tenantCleared tenantState setTenant
  dsimp only
  refine ⟨getFi_setFi_self _ F.MOD_TEN_STAT_tstate t tsAbsent, ?_, ?_, ?_⟩
  · simp (disch := decide) only [getFi_setFi_other]
    exact getFi_setFi_self b F.PMC_E_TEN_energy_uj t 0
  · simp (disch := decide) only [getFi_setFi_other]
    exact getFi_setFi_self _ F.MOD_TEN_STAT_reset_refused t 0
  · simp (disch := decide) only [getFi_setFi_other]
    exact getFi_setFi_self _ F.MOD_TEN_STAT_last_fault t 0

theorem absentTenant_clears (t : Nat) (b : Block) : ∃ b', absentTenant t b = tenantCleared t b' := ⟨_, rfl⟩

theorem slotUnit_wf {sid : Nat} (h : sid < numSlots) : (UnitRef.slot sid).wf = true := decide_eq_true h

/-- Settles O45: each command by the state of the tenant it finds, and the end of a scrub by what its tenant still owns. -/
theorem tenantsAreActivatedAndReset : Obligations.TenantsAreActivatedAndReset := by
  refine ⟨⟨fun s hup => ?_, fun s t ns hup hheld hauto hfresh hns hdue => ?_, fun s t hup => exec_tenantCommands_aperture t hup⟩,
    fun s hup => ?_, fun s sid x hup hsid hx hscrub hitems hmove => ?_, fun s t hup hstate hgone hitems => ?_⟩
  · intro t
    rw [exec_tenantActivate_mgmt hup, exec_tenantRestart_mgmt hup]
    refine ⟨fun habsent hkey => ?_, fun hleft => ?_, fun hheld => ?_⟩
    · rw [activateTenant_ready habsent hkey]
      rfl
    · rw [activateTenant_left hleft]
    · rw [restartTenant_held hheld]
      rfl
  · rw [exec_tenantAutoRestart, actR_up _ rfl hup, autoRestart_due hheld hauto hfresh hns hdue]
    rfl
  · intro b t hstate
    rw [exec_tenantReset_mgmt hup]
    refine ⟨fun hused => ?_, fun hfree => ?_⟩
    · rw [resetTenant_refused hstate hused]
    · intro b1 b2 b3
      rw [resetTenant_begins hstate hfree]
      rfl
  · rw [exec_sessionScrubDone, actR_up _ (slotUnit_wf hsid) hup, scrubDone_frees hx hscrub hitems hmove, freeSlot_session hx]
  · obtain ⟨b', hcleared⟩ := absentTenant_clears t.toNat
      (s.ses.slots.foldl (fun b e => if e.2.tenant = t.toNat then freeSlot e.1 b else b) s.toBlock)
    refine ⟨_, ?_, getFi_tenantCleared t.toNat b'⟩
    rw [exec_scrubComplete, actR_up _ rfl hup, scrubComplete_absent hstate hgone hitems, hcleared]

end Sys2Proof.Machine

/-! PROOFS of the family 15_security: firmware images (O44), the owner and keys (O46), reports and seals (O47). -/

namespace Sys2Proof.Machine

/-! ### RTP_CMD (Table 15.18) -/

theorem ready_of_up {b : Block} (hup : b.up = true) : b.rtp.ready = true := ((up_iff b).1 hup).2

theorem rtpCommand_aperture {t : BitVec 12} {v : Nat} {b : Block} : rtpCommand (.aperture t) v b = b := by
  have hmay : (Caller.aperture t).isMgmt = false ∨ b.rtp.ready = false := Or.inl rfl
  rw [rtpCommand]
  exact if_pos hmay

section RtpCommand

variable {v : Nat} {b : Block} (hup : b.up = true)

include hup

theorem mgmt_mayCommand : ¬ (Caller.mgmt.isMgmt = false ∨ b.rtp.ready = false) := by simp [isMgmt_mgmt, ready_of_up hup]

theorem rtpCommand_stage (h : bitsOf v 0 3 = 1) : rtpCommand .mgmt v b = rtpStage (bitsOf v 3 2) (64 * bitsOf v 32 24) b := by
  simp only [rtpCommand, if_neg (mgmt_mayCommand hup), h]

theorem rtpCommand_activate (h : bitsOf v 0 3 = 2) : rtpCommand .mgmt v b = rtpActivate (bitsOf v 3 2) b := by
  simp only [rtpCommand, if_neg (mgmt_mayCommand hup), h]

theorem rtpCommand_ratchet (h : bitsOf v 0 3 = 3) : rtpCommand .mgmt v b = rtpRatchet (bitsOf v 3 2) b := by
  simp only [rtpCommand, if_neg (mgmt_mayCommand hup), h]

theorem rtpCommand_claim (h : bitsOf v 0 3 = 4) : rtpCommand .mgmt v b = rtpClaim (64 * bitsOf v 32 24) b := by
  simp only [rtpCommand, if_neg (mgmt_mayCommand hup), h]

theorem rtpCommand_owner (h : bitsOf v 0 3 = 5) : rtpCommand .mgmt v b = ownerCommand (64 * bitsOf v 32 24) b := by
  simp only [rtpCommand, if_neg (mgmt_mayCommand hup), h]

theorem rtpCommand_tenantKey (h : bitsOf v 0 3 = 6) : rtpCommand .mgmt v b = rtpTenantKey (bitsOf v 8 12) b := by
  simp only [rtpCommand, if_neg (mgmt_mayCommand hup), h]

theorem rtpCommand_dkRotate (h : bitsOf v 0 3 = 7) : rtpCommand .mgmt v b = rtpDkRotate b := by
  simp only [rtpCommand, if_neg (mgmt_mayCommand hup), h]

end RtpCommand

/-! ### Firmware images (R357 to R359) -/

theorem rtpStage_reached {comp len : Nat} {b : Block} (hcomp : comp < 3) (hreach : cmdReach b 0 len = true) :
    rtpStage comp len b =
      if imageErr b comp (b.peek (cmdAddr b) len) = 0 then
        cmdEnds 0 (writeInactive comp (slotOf (b.peek (cmdAddr b) len)) b)
      else cmdEnds (imageErr b comp (b.peek (cmdAddr b) len)) b := by
  unfold rtpStage
  dsimp only
  rw [if_neg (Nat.ne_of_lt hcomp), if_neg (by rw [hreach]; decide)]
  split
  · next h0 => rw [if_pos h0]
  · next hne => rw [if_neg hne]

theorem rtpActivate_nextBoot {comp : Nat} {b : Block} (hcomp : comp < 3) (hswap : comp ≠ 1)
    (hvalid : (inactiveSlot b comp).valid = true) :
    rtpActivate comp b = cmdEnds 0 { b with rtp := { b.rtp with activeB := b.rtp.activeB.modify comp (!·) } } := by
  have hmay : ¬ (comp = 3 ∨ (inactiveSlot b comp).valid = false) := by simp [Nat.ne_of_lt hcomp, hvalid]
  rw [rtpActivate, if_neg hmay, if_neg hswap]
  rfl

/-- The step engine's firmware is activated by the live swap. -/
theorem rtpActivate_swap {b : Block} (hvalid : (inactiveSlot b 1).valid = true) (hidle : b.getF F.BRP_STAT_swap = 0)
    (hsvn : ratchet b 1 ≤ (inactiveSlot b 1).svn) : rtpActivate 1 b = cmdEnds 0 (b.setF F.BRP_STAT_swap 1) := by
  simp only [rtpActivate, hvalid, hidle, if_neg (Nat.not_lt.2 hsvn), Bool.true_eq_false, or_false, OfNat.one_ne_ofNat,
    OfNat.zero_ne_ofNat, zero_ne_one, if_true, if_false]

theorem rtpRatchet_component {comp : Nat} {b : Block} (hcomp : comp < 3) :
    rtpRatchet comp b = cmdEnds 0 { b with rtp := { b.rtp with
      ratchets := b.rtp.ratchets.modify comp fun r => max r (min 127 (runningImage b comp).svn) } } := by
  rw [rtpRatchet, if_neg (Nat.ne_of_lt hcomp)]
  rfl

/-- Component 3 is none: each of the three commands ends with error 4. -/
theorem rtpCommand_noComponent {v : Nat} {b : Block} (hup : b.up = true) (hcomp : bitsOf v 3 2 = 3) (h1 : 1 ≤ bitsOf v 0 3)
    (h3 : bitsOf v 0 3 ≤ 3) : rtpCommand .mgmt v b = cmdEnds 4 b := by
  obtain h | h | h : bitsOf v 0 3 = 1 ∨ bitsOf v 0 3 = 2 ∨ bitsOf v 0 3 = 3 := by omega
  · rw [rtpCommand_stage hup h, hcomp]
    rfl
  · rw [rtpCommand_activate hup h, hcomp]
    exact if_pos (Or.inl rfl)
  · rw [rtpCommand_ratchet hup h, hcomp]
    rfl

/-! ### The live swap (R398) -/

/-- The step engine's firmware as an accepted swap leaves it: from the slot that was inactive. -/
theorem swapAccept_runs {b : Block} (hswitched : b.brp.switched = true) (hrunB : b.rtp.runB.length = 3)
    (hrunning : b.rtp.running.length = 3) :
    (swapAccept b).brp.switched = false ∧ (swapAccept b).getF F.BRP_STAT_swap = 0 ∧
    (swapAccept b).rtp.runB[1]? = some (!activeIsB b 1) ∧
    (swapAccept b).rtp.running[1]? = some (imageIn b (!activeIsB b 1) 1) := by
  unfold swapAccept
  dsimp only
  rw [hswitched, if_neg (by decide)]
  refine ⟨rfl, ?_, ?_, ?_⟩
  · exact (getFi_bumpFi_other (f := F.BRP_CNT_fw_swaps) (by decide) _ 0 1 0).trans (getF_setF_self _ F.BRP_STAT_swap 0)
  · exact List.getElem?_set_self (by rw [hrunB]; decide)
  · exact List.getElem?_set_self (by rw [hrunning]; decide)

theorem swapReverts_switched {b : Block} (hswitched : b.brp.switched = true) :
    swapReverts b =
      (Block.setF { b with brp := { b.brp with switched := false } } F.BRP_STAT_swap 3).bump F.BRP_CNT_swap_err := by
  rw [swapReverts, if_neg (by rw [hswitched]; decide)]
  rfl

/-- Settles O44: each command of RTP_CMD and each event of the live swap by its outcome. -/
theorem firmwareIsManaged : Obligations.FirmwareIsManaged := by
  refine ⟨⟨fun s hup hloading => ?_, fun s hup hloaded hidle => ?_, fun s hup hswitched _ hrunB hrunning => ?_,
      fun s hup hswitched => ?_⟩,
    fun s v c hrtp hcomp hreach => ?_, fun s v c hrtp hswap hcomp hvalid => ?_, fun s v hrtp hvalid hidle hsvn => ?_,
    fun s v c hrtp hcomp => ?_, fun s v cmd hrtp h1 h3 => ?_, fun s t v hup => ?_⟩
  · rw [exec_fwSwapLoadDone, actR_up _ rfl hup, swapLoaded, if_pos hloading]
  · rw [exec_fwSwapSwitch, actR_up _ rfl hup, swapSwitch, if_pos ⟨hloaded, hidle⟩]
    rfl
  · exact ⟨_, by rw [exec_fwSwapAccept, actR_up _ rfl hup], swapAccept_runs hswitched hrunB hrunning⟩
  · rw [exec_fwSwapTimeout, actR_up _ rfl hup, swapReverts_switched hswitched]
  · obtain ⟨hup, hcmd, hc⟩ := hrtp
    rw [exec_rtpStage, actR_up _ rfl hup, rtpCommand_stage hup hcmd, hc, rtpStage_reached hcomp hreach]
  · obtain ⟨hup, hcmd, hc⟩ := hrtp
    rw [exec_rtpActivate, actR_up _ rfl hup, rtpCommand_activate hup hcmd, hc, rtpActivate_nextBoot hcomp hswap hvalid]
  · obtain ⟨hup, hcmd, hc⟩ := hrtp
    rw [exec_rtpActivate, actR_up _ rfl hup, rtpCommand_activate hup hcmd, hc, rtpActivate_swap hvalid hidle hsvn]
  · obtain ⟨hup, hcmd, hc⟩ := hrtp
    rw [exec_rtpRatchet, actR_up _ rfl hup, rtpCommand_ratchet hup hcmd, hc, rtpRatchet_component hcomp]
  · obtain ⟨hup, rfl, hc⟩ := hrtp
    rw [exec_rtpStage, actR_up _ rfl hup, rtpCommand_noComponent hup hc h1 h3]
  · rw [exec_rtpStage, actR_up _ rfl hup, rtpCommand_aperture]

/-! ### The owner (R360, R361) -/

theorem rtpClaim_accepted {len : Nat} {b : Block} (hfree : b.rtp.ownerKey = none) (hreach : cmdReach b 0 len = true) :
    rtpClaim len b = cmdEnds 0 { b with rtp := { b.rtp with
      ownerKey := some (derOf (b.peek (cmdAddr b) len)), ratchets := b.rtp.ratchets.modify 3 fun r => min 127 (r + 1) } } := by
  simp only [rtpClaim, hfree, hreach, Option.isSome_none, Bool.false_eq_true, Bool.true_eq_false, if_false]
  rfl

theorem rtpClaim_owned {len : Nat} {b : Block} (howned : b.rtp.ownerKey ≠ none) : rtpClaim len b = cmdEnds 4 b := by
  rw [rtpClaim, if_pos (Option.isSome_iff_ne_none.2 howned)]

/-- The block of an owner command that its buffer holds. -/
def ownerBlock (len : Nat) (b : Block) : Bytes := b.peek (cmdAddr b) len

/-- What such a command asks for, by its `op` and argument. -/
def ownerAsks (len : Nat) (owner : Bytes) (b : Block) : Except Nat Block :=
  ownerOp owner (bytesAt (ownerBlock len b) 4 1) (((ownerBlock len b).drop 64).take (bytesAt (ownerBlock len b) 48 4)) b

/-- An owner command that passes the checks of R360 has its effect; a new nonce follows either way. -/
theorem ownerCommand_done {len : Nat} {owner : Bytes} {b b' : Block} (hreach : cmdReach b 0 len = true)
    (howner : b.rtp.ownerKey = some owner) (hasks : ownerAsks len owner b = .ok b') :
    ownerCommand len b = drawNonce (if ownerErr b owner (ownerBlock len b) = 0 then cmdEnds 0 b'
      else ownerRefused (bytesAt (ownerBlock len b) 4 1) (ownerErr b owner (ownerBlock len b)) b) := by
  have hblock : b.peek (cmdAddr b) len = ownerBlock len b := rfl
  rw [ownerAsks] at hasks
  simp only [ownerCommand, hreach, howner, hblock, hasks, Bool.true_eq_false, if_false]
  split
  · next h0 => rw [if_pos h0]
  · next hne => rw [if_neg hne]

/-- One whose `op` is not allowed now is refused with the error of its own. -/
theorem ownerCommand_notAllowed {len e : Nat} {owner : Bytes} {b : Block} (hreach : cmdReach b 0 len = true)
    (howner : b.rtp.ownerKey = some owner) (hasks : ownerAsks len owner b = .error e) :
    ownerCommand len b = drawNonce (if ownerErr b owner (ownerBlock len b) = 0 then
        ownerRefused (bytesAt (ownerBlock len b) 4 1) e b
      else ownerRefused (bytesAt (ownerBlock len b) 4 1) (ownerErr b owner (ownerBlock len b)) b) := by
  have hblock : b.peek (cmdAddr b) len = ownerBlock len b := rfl
  rw [ownerAsks] at hasks
  simp only [ownerCommand, hreach, howner, hblock, hasks, Bool.true_eq_false, if_false]
  split
  · next h0 => rw [if_pos h0]
  · next hne => rw [if_neg hne]

/-- An owner command of management space whose effect is a module `b'`. -/
theorem ownerCommand_effect {s : State} {v : BitVec 64} {op : Nat} {owner arg : Bytes} {b' : Block}
    (h : OwnerReady s v op owner arg) (hop : ownerOp owner op arg s.toBlock = .ok b') :
    actR .none (rtpCommand .mgmt v.toNat) s = .next (ownerOutcome s v owner op b') := by
  obtain ⟨hup, hcmd, hreach, howner, rfl, rfl⟩ := h
  rw [actR_up _ rfl hup, rtpCommand_owner hup hcmd, ownerCommand_done hreach howner hop]
  rfl

theorem ownerCommand_notNow {s : State} {v : BitVec 64} {op e : Nat} {owner arg : Bytes}
    (h : OwnerReady s v op owner arg) (hop : ownerOp owner op arg s.toBlock = .error e) :
    actR .none (rtpCommand .mgmt v.toNat) s = .next (s.put (rest (drawNonce
      (if ownerErr s.toBlock owner (s.peek (cmdAddr s.toBlock) (64 * bitsOf v.toNat 32 24)) = 0 then
        cmdEnds e (violation 10 mgmtTenant 0 op s.toBlock)
      else cmdEnds (ownerErr s.toBlock owner (s.peek (cmdAddr s.toBlock) (64 * bitsOf v.toNat 32 24)))
        (violation 10 mgmtTenant 0 op s.toBlock))))) := by
  obtain ⟨hup, hcmd, hreach, howner, rfl, rfl⟩ := h
  rw [actR_up _ rfl hup, rtpCommand_owner hup hcmd, ownerCommand_notAllowed hreach howner hop]
  rfl

/-! ### Keys (R356, R370) -/

theorem rtpTenantKey_first {t : Nat} {b : Block} (habsent : tenantState b t = tsAbsent) (hkey : hasKey b t = false) :
    rtpTenantKey t b = cmdEnds 0 { b with
      fresh := b.fresh + 1, mem := { b.mem with keys := tset b.mem.keys t ⟨1, 0, 0, b.fresh, 0⟩ } } := by
  rw [rtpTenantKey, if_neg (by simp [habsent, hkey])]
  rfl

theorem rtpTenantKey_refused {t : Nat} {b : Block} (h : tenantState b t ≠ tsAbsent ∨ hasKey b t = true) :
    rtpTenantKey t b = cmdEnds 4 b := by
  rw [rtpTenantKey, if_pos h]

/-- The module may carry a new domain key with a map change: it is the coordinator, unfenced, with no change under way (log
entry 113). -/
def mayRotateDk (b : Block) : Prop :=
  b.isSet F.CMP_ID_in_domain = true ∧ b.isSet F.CMP_ID_coordinator = true ∧ b.isSet F.CMP_ID_isolated = false ∧
  b.cmp.change = none ∧ b.getF F.CMP_EPOCH_epoch ≠ 0xFFFFFFFF

theorem mayRotateDk_iff (b : Block) :
    mayRotateDk b ↔ ¬ (b.isSet F.CMP_ID_in_domain = false ∨ b.isSet F.CMP_ID_coordinator = false ∨
      b.isSet F.CMP_ID_isolated = true ∨ b.cmp.change.isSome ∨ b.getF F.CMP_EPOCH_epoch = 0xFFFFFFFF) := by
  simp only [mayRotateDk, not_or, Bool.not_eq_false, Bool.not_eq_true, Option.isSome_eq_false_iff, Option.isNone_iff_eq_none, ne_eq]

theorem rtpDkRotate_begins {b : Block} (h : mayRotateDk b) :
    rtpDkRotate b = cmdEnds 0 (startChange ⟨b.getF F.CMP_EPOCH_epoch + 1, [], [], dkVersion b + 1⟩ [] b) := by
  rw [rtpDkRotate, if_neg ((mayRotateDk_iff b).1 h)]
  rfl

theorem rtpDkRotate_refused {b : Block} (h : ¬ mayRotateDk b) : rtpDkRotate b = cmdEnds 4 b := by
  rw [rtpDkRotate, if_pos (not_not.1 fun hno => h ((mayRotateDk_iff b).2 hno))]

/-- Settles O46: an owner command passes R360's checks, then has the effect of its `op`, the nonce being drawn anew. -/
theorem ownerAndKeys : Obligations.OwnerAndKeys := by
  refine ⟨fun s v c hrtp => ?_, fun s v owner arg => ⟨fun h => ?_, fun h => ?_, fun h hconf => ?_, fun h hconf => ?_,
    fun h hreach => ?_, fun h => ?_⟩, fun s v c hrtp => ?_, fun s v c hrtp => ?_⟩
  · obtain ⟨hup, hcmd, -⟩ := hrtp
    rw [exec_claim, actR_up _ rfl hup, rtpCommand_claim hup hcmd]
    exact ⟨fun hfree hreach => by rw [rtpClaim_accepted hfree hreach], fun howned => by rw [rtpClaim_owned howned]⟩
  · exact ownerCommand_effect h rfl
  · exact ownerCommand_effect h rfl
  · exact ownerCommand_effect h (if_neg (by rw [hconf]; decide))
  · exact ownerCommand_effect h (if_neg (by rw [hconf]; decide))
  · exact ownerCommand_effect h (by simp only [ownerOp, hreach, if_true])
  · rw [exec_dkImport]
    cases hkey : Config.unwrap Config.identityKey ((arg.drop 4).take 384) with
    | some k => exact ownerCommand_effect h (by simp only [ownerOp, hkey]; rfl)
    | none => exact ownerCommand_notNow h (by simp only [ownerOp, hkey])
  · obtain ⟨hup, hcmd, -⟩ := hrtp
    rw [exec_tenantKey, actR_up _ rfl hup, rtpCommand_tenantKey hup hcmd]
    exact ⟨fun habsent hkey => by rw [rtpTenantKey_first habsent hkey], fun hno => by rw [rtpTenantKey_refused hno]⟩
  · obtain ⟨hup, hcmd, -⟩ := hrtp
    rw [exec_dkRotate, actR_up _ rfl hup, rtpCommand_dkRotate hup hcmd]
    exact ⟨fun hmay => by rw [rtpDkRotate_begins hmay], fun hno => by rw [rtpDkRotate_refused hno]⟩

/-! ### Requests to the RTP (R363 to R365, Table 15.20) -/

section RtpRequest

variable {who : Caller} {v : Nat} {b : Block}

theorem rtpRequest_busy (hbusy : b.getFi F.RTP_REQ_CMD_state who.inst = 1) : rtpRequest who v b = b := if_pos (Or.inr hbusy)

theorem rtpRequest_report (hup : b.up = true) (hidle : b.getFi F.RTP_REQ_CMD_state who.inst ≠ 1) (hop : bitsOf v 0 2 = 1) :
    rtpRequest who v b = requestReport who v b := by
  have hgo : ¬ (b.rtp.ready = false ∨ b.getFi F.RTP_REQ_CMD_state who.inst = 1) := by simp [ready_of_up hup, hidle]
  rw [rtpRequest, if_neg hgo, if_pos hop]

theorem rtpRequest_seal (hup : b.up = true) (hidle : b.getFi F.RTP_REQ_CMD_state who.inst ≠ 1) (hop : bitsOf v 0 2 = 2) :
    rtpRequest who v b = sealBatch who v b := by
  have hgo : ¬ (b.rtp.ready = false ∨ b.getFi F.RTP_REQ_CMD_state who.inst = 1) := by simp [ready_of_up hup, hidle]
  rw [rtpRequest, if_neg hgo, if_neg (by rw [hop]; decide), if_pos hop]

/-- A report request by its scope (R363). -/
theorem requestReport_eq (who : Caller) (v : Nat) (b : Block) :
    requestReport who v b =
      if inOneWindow (ioWindows b who.tenant?) (reqAddr b who) (64 + 2 ^ 18) = false then reqFails who 1 b
      else if ((reportScope who v).map fun t => decide (tenantState b t = tsAbsent)) = some true then reqFails who 3 b
      else enqueueOp who (.report who (reqAddr b who) (reportScope who v)) b := by
  cases who <;> rfl

theorem requestReport_module (hscope : reportScope who v = none) :
    requestReport who v b =
      if inOneWindow (ioWindows b who.tenant?) (reqAddr b who) (64 + 2 ^ 18) = false then reqFails who 1 b
      else enqueueOp who (.report who (reqAddr b who) none) b := by
  simp only [requestReport_eq, hscope, Option.map_none, reduceCtorEq, if_false]

theorem requestReport_tenant {t : Nat} (hscope : reportScope who v = some t) :
    requestReport who v b =
      if inOneWindow (ioWindows b who.tenant?) (reqAddr b who) (64 + 2 ^ 18) = false then reqFails who 1 b
      else if tenantState b t = tsAbsent then reqFails who 3 b
      else enqueueOp who (.report who (reqAddr b who) (some t)) b := by
  simp only [requestReport_eq, hscope, Option.map_some, Option.some.injEq, decide_eq_true_eq]

/-- A seal is refused for the ring of a tenant other than the caller's. -/
theorem sealBatch_foreign_iff (ring : Nat) :
    (who.tenant?.map fun t => decide (ringTenant b ring = t)) = some false ↔ ∃ t, who.tenant? = some t ∧ ringTenant b ring ≠ t := by
  simp only [Option.map_eq_some_iff, decide_eq_false_iff_not, ne_eq]

end RtpRequest

/-! ### The operation served (R364) -/

/-- A handshake of the RTP's queue. -/
def RtpOp.isHandshake : RtpOp → Bool
  | .handshake _ _ => true
  | _ => false

theorem nextOp_eq (q : List RtpOp) : nextOp q = (q.find? RtpOp.isHandshake).or q.head? := rfl

theorem isHandshake_false {o : RtpOp} (h : ∀ p c, o ≠ .handshake p c) : o.isHandshake = false := by
  cases o with
  | handshake p c => exact absurd rfl (h p c)
  | report | statement => rfl

/-- The first handshake is served before every other operation. -/
theorem nextOp_handshake {q1 q2 : List RtpOp} {p : Nat} {c : PeerCert} (hfirst : ∀ o ∈ q1, ∀ p' c', o ≠ .handshake p' c') :
    nextOp (q1 ++ .handshake p c :: q2) = some (.handshake p c) := by
  have hnone : q1.find? RtpOp.isHandshake = none := by
    rw [List.find?_eq_none]
    exact fun o ho => by rw [isHandshake_false (hfirst o ho)]; decide
  rw [nextOp_eq, List.find?_append, hnone, Option.none_or]
  rfl

theorem erase_handshake {q1 q2 : List RtpOp} {p : Nat} {c : PeerCert} (hfirst : ∀ o ∈ q1, ∀ p' c', o ≠ .handshake p' c') :
    (q1 ++ .handshake p c :: q2).erase (.handshake p c) = q1 ++ q2 := by
  rw [List.erase_append_right _ fun hmem => hfirst _ hmem p c rfl, List.erase_cons_head]

/-- With no handshake waiting the oldest operation is served. -/
theorem nextOp_oldest {o : RtpOp} {q : List RtpOp} (hno : ∀ o' ∈ o :: q, ∀ p c, o' ≠ .handshake p c) :
    nextOp (o :: q) = some o := by
  have hnone : (o :: q).find? RtpOp.isHandshake = none := by
    rw [List.find?_eq_none]
    exact fun o' ho => by rw [isHandshake_false (hno o' ho)]; decide
  rw [nextOp_eq, hnone]
  rfl

theorem finishOp_report {who : Caller} {addr : Nat} {scope : Option Nat} {q : List RtpOp} {b : Block}
    (hq : b.rtp.queue = .report who addr scope :: q) (hno : ∀ o ∈ q, ∀ p c, o ≠ .handshake p c) :
    finishOp b =
      let b := { b with rtp := { b.rtp with queue := q } }
      rtpDone who (reqState who 2 0 (b.pokeBytes (addr + 64) (reportBytes b scope (b.peek addr 32)))) := by
  have hnext : nextOp (.report who addr scope :: q) = some (.report who addr scope) :=
    nextOp_oldest (List.forall_mem_cons.2 ⟨fun _ _ => RtpOp.noConfusion, hno⟩)
  simp only [finishOp, hq, hnext, List.erase_cons_head]

theorem finishOp_statement {who : Caller} {addr ring : Nat} {head : Bytes} {q : List RtpOp} {b : Block}
    (hq : b.rtp.queue = .statement who addr ring head :: q) (hno : ∀ o ∈ q, ∀ p c, o ≠ .handshake p c) :
    finishOp b =
      let b := { b with rtp := { b.rtp with queue := q } }
      rtpDone who (reqState who 2 0 (chainStatement ring (signStatement b ring head)
        (b.pokeBytes addr (signStatement b ring head)))) := by
  have hnext : nextOp (.statement who addr ring head :: q) = some (.statement who addr ring head) :=
    nextOp_oldest (List.forall_mem_cons.2 ⟨fun _ _ => RtpOp.noConfusion, hno⟩)
  simp only [finishOp, hq, hnext, List.erase_cons_head]

/-- The secret of a handshake: the lower-ID end draws it, the other opens the one it was sent (R362). -/
theorem agreeKey_spec (p : Nat) (c : PeerCert) (b : Block) :
    let own := ownModule b
    let peer := bytesAt (portOf b p).peer 6 1
    let nonces := lowerFirst own peer (portOf b p).nonce (padTo 32 c.nonce)
    let drawn := padTo 32 (Config.keyBytes b.fresh)
    let opened := (Config.unwrap (Config.akKey (akMeasurement b)) c.secret).getD drawn
    (agreeKey p c b).rtp = b.rtp ∧ (agreeKey p c b).cmem = b.cmem ∧ (portOf (agreeKey p c b) p).next = 0 ∧
    (own < peer → (portOf (agreeKey p c b) p).linkKey = kdf drawn "STOTY-LINK" nonces) ∧
    (¬own < peer → (portOf (agreeKey p c b) p).linkKey = kdf opened "STOTY-LINK" nonces) := by
  intro own peer nonces drawn opened
  unfold agreeKey
  dsimp only
  rw [portOf_setPort_self]
  by_cases hlower : own < peer
  · simp only [own, peer] at hlower
    rw [if_pos hlower, if_pos hlower]
    exact ⟨rfl, rfl, rfl, fun _ => rfl, fun hno => absurd hlower hno⟩
  · simp only [own, peer] at hlower
    rw [if_neg hlower, if_neg hlower]
    exact ⟨rfl, rfl, rfl, fun hyes => absurd hyes hlower, fun _ => rfl⟩

theorem finishOp_handshake {p : Nat} {c : PeerCert} {q1 q2 : List RtpOp} {b : Block}
    (hq : b.rtp.queue = q1 ++ .handshake p c :: q2) (hfirst : ∀ o ∈ q1, ∀ p' c', o ≠ .handshake p' c')
    (hstage : (portOf b p).stage = 7) :
    finishOp b =
      let b := agreeKey p c { b with rtp := { b.rtp with queue := q1 ++ q2 } }
      setPort p { portOf b p with stage := 8 } b := by
  simp only [finishOp, hq, nextOp_handshake hfirst, erase_handshake hfirst]
  exact if_pos hstage

/-- Settles O47: a request is queued or refused by its checks; the operation served is the first handshake, else the oldest. -/
theorem reportsAndSeals : Obligations.ReportsAndSeals := by
  refine ⟨fun s who v hidle => ?_, fun s who v hidle => ?_, fun s who v hup hbusy => ⟨?_, ?_⟩, fun s hup hempty => ?_,
    fun s p c q1 q2 hup hq hfirst hstage => ?_, fun s who addr scope q hup hq hno => ?_,
    fun s who addr ring head q hup hq hno => ?_⟩
  · obtain ⟨hup, hstate, hop⟩ := hidle
    rw [exec_reportRequest, act_up _ rfl hup, rtpRequest_report hup hstate hop]
    cases hscope : reportScope who v.toNat with
    | none => rw [requestReport_module hscope]
    | some t => rw [requestReport_tenant hscope]
  · obtain ⟨hup, hstate, hop⟩ := hidle
    rw [exec_sealBatch, act_up _ rfl hup, rtpRequest_seal hup hstate hop]
    simp only [sealBatch, sealBatch_foreign_iff]
  · rw [exec_reportRequest, act_up _ rfl hup, rtpRequest_busy hbusy]
    rfl
  · rw [exec_sealBatch, act_up _ rfl hup, rtpRequest_busy hbusy]
    rfl
  · rw [exec_rtpOpComplete, act_up _ rfl hup, finishOp, hempty]
    rfl
  · intro own peer nonces
    obtain ⟨hrtp, hcmem, hnext, hdrawn, hopened⟩ := agreeKey_spec p c { s.toBlock with rtp := { s.rtp with queue := q1 ++ q2 } }
    refine ⟨_, by rw [exec_rtpOpComplete, act_up _ rfl hup, finishOp_handshake hq hfirst hstage], ?_⟩
    dsimp only
    rw [portOf_setPort_self]
    exact ⟨congrArg RtpState.queue hrtp, rfl, hnext, hcmem, hdrawn, hopened⟩
  · rw [exec_rtpOpComplete, act_up _ rfl hup, finishOp_report hq hno]
  · rw [exec_rtpOpComplete, act_up _ rfl hup, finishOp_statement hq hno]

end Sys2Proof.Machine

/-! PROOFS of the family 16_availability: checkpoints and tandem pairs (O16), the commands of TDM_CMD (O42). -/

namespace Sys2Proof.Machine

/-! ### Checkpoints (R386 to R389) -/

section Ckpt

variable {c : Ctx} {b : Block} {d : PoolDesc}

theorem ckpt_tooSmall (hnone : b.tdm.ckpt = none) (hreads : c.reads b c.opB 64 = true) (hpool : readPool b c.opB = some d)
    (hbegin : beginCkpt d (some c.rid) b = none) : ckpt c b = .done St.quota none b := by
  simp only [ckpt, hnone, hreads, hpool, hbegin, Option.isSome_none, Bool.false_eq_true, Bool.true_eq_false, if_false]

theorem ckpt_begins {b' : Block} (hnone : b.tdm.ckpt = none) (hreads : c.reads b c.opB 64 = true)
    (hpool : readPool b c.opB = some d) (hbegin : beginCkpt d (some c.rid) b = some b') : ckpt c b = .wait .ckpt b' := by
  simp only [ckpt, hnone, hreads, hpool, hbegin, Option.isSome_none, Bool.false_eq_true, Bool.true_eq_false, if_false]

end Ckpt

/-- A write into the pool, to the host or to the peer, is none of TDM_CMD. -/
theorem poolWrite_cmdState (r : CkptRun) (off : Nat) (bs : Bytes) (b : Block) :
    (poolWrite r off bs b).getF F.TDM_CMD_state = b.getF F.TDM_CMD_state := by
  unfold poolWrite
  split
  · rfl
  · exact (sendMsg_linksOnly _ _ _ _ _).fields F.TDM_CMD_state 0 (by decide)

theorem writeShards_cmdState (r : CkptRun) (shards : List (ShardEntry × Bytes)) (b : Block) :
    (writeShards r shards b).getF F.TDM_CMD_state = b.getF F.TDM_CMD_state := by
  rw [writeShards, getF_setF_other (by decide)]
  exact foldl_keeps (fun b => b.getF F.TDM_CMD_state) (fun b x => poolWrite_cmdState r x.1.offset x.2 b) shards b

/-- A checkpoint that neither an instruction nor TDM_CMD asked for answers nobody. -/
theorem ckptAnswers_unasked {r : CkptRun} {b : Block} (status : Nat) (result : Option Bytes) (hrid : r.rid = none)
    (hidle : b.getF F.TDM_CMD_state ≠ 1) : ckptAnswers r status result b = b := by
  have hcmd : ¬ (b.getF F.TDM_CMD_state = 1 ∧ b.tdm.loading = none) := fun h => hidle h.1
  simp only [ckptAnswers, hrid, if_neg hcmd]

theorem failCkpt_unasked {r : CkptRun} {b : Block} (hrid : r.rid = none) (hidle : b.getF F.TDM_CMD_state ≠ 1) :
    failCkpt r b = (b.bump F.TDM_CNT_ckpt_fail).setF F.TDM_CKPT_state 3 := by
  refine ckptAnswers_unasked _ _ hrid ?_
  rw [getF_setF_other (by decide)]
  exact (getFi_bump_ne b 0 (by decide)).trans_ne hidle

theorem writeCkpt_unasked {r : CkptRun} {b : Block} (hrid : r.rid = none) (hidle : b.getF F.TDM_CMD_state ≠ 1) :
    writeCkpt r b =
      let shards := shardsOf b r.seq r.panniers
      let b := writeShards r shards b
      fire Src.ckptDone (((poolWrite r 0 (manifest b r (shards.map (·.1))) b).setF F.TDM_CKPT_seq r.seq).setF F.TDM_CKPT_state 2) := by
  unfold writeCkpt
  dsimp only
  rw [ckptAnswers_unasked _ _ hrid]
  rwa [getF_setF_other (by decide), getF_setF_other (by decide), poolWrite_cmdState, writeShards_cmdState]

/-- The module once the capture `r` is over. -/
def captured (r : CkptRun) (b : Block) : Block := endCapture r { b with tdm := { b.tdm with ckpt := none } }

/-- The shards of the checkpoint `r` fit behind its manifest. -/
abbrev shardsFitSlot (r : CkptRun) (b : Block) : Prop :=
  ((shardContents b r.panniers).map fun x => wrappedLength x.2).sum + 2 ^ 20 ≤ r.slotBytes

section EndCkpt

variable {b : Block} {r : CkptRun} (ok : Bool) (n : Nat) (hrun : (captureReady b).tdm.ckpt = some r)

theorem endCkpt_none (hnone : (captureReady b).tdm.ckpt = none) : endCkpt ok n b = captureReady b := by
  simp only [endCkpt, hnone]

include hrun

/-- CKPT_COMPLETE by its outcomes, with a checkpoint being written. -/
theorem endCkpt_running : endCkpt ok n b =
    if ok = true ∧ r.toCapture ≠ [] then captureReady b
    else if ok = true ∧ shardsFitSlot r (captured r (captureReady b)) then writeCkpt r (captured r (captureReady b))
    else failCkpt r (if shardsFitSlot r (captured r (captureReady b)) then
        writeShards r ((shardsOf (captured r (captureReady b)) r.seq r.panniers).take n) (captured r (captureReady b))
      else captured r (captureReady b)) := by
  unfold endCkpt
  dsimp only
  rw [hrun]
  rfl

theorem endCkpt_waits (hleft : r.toCapture ≠ []) : endCkpt true n b = captureReady b := by
  rw [endCkpt_running true n hrun, if_pos ⟨rfl, hleft⟩]

theorem endCkpt_written (hlast : r.toCapture = []) (hfits : shardsFitSlot r (captured r (captureReady b))) :
    endCkpt true n b = writeCkpt r (captured r (captureReady b)) := by
  rw [endCkpt_running true n hrun, if_neg fun h => h.2 hlast, if_pos ⟨rfl, hfits⟩]

theorem endCkpt_poolFailed (hfits : shardsFitSlot r (captured r (captureReady b))) :
    endCkpt false n b = failCkpt r (writeShards r
      ((shardsOf (captured r (captureReady b)) r.seq r.panniers).take n) (captured r (captureReady b))) := by
  rw [endCkpt_running false n hrun, if_neg fun h => absurd h.1 (by decide), if_neg fun h => absurd h.1 (by decide), if_pos hfits]

theorem endCkpt_outgrown (hover : ok = false ∨ r.toCapture = [])
    (hfits : ¬ shardsFitSlot r (captured r (captureReady b))) :
    endCkpt ok n b = failCkpt r (captured r (captureReady b)) := by
  have hgo : ¬ (ok = true ∧ r.toCapture ≠ []) := by
    rintro ⟨rfl, hleft⟩
    exact hover.elim (by decide) hleft
  rw [endCkpt_running ok n hrun, if_neg hgo, if_neg fun h => hfits h.2, if_neg hfits]

end EndCkpt

/-! ### Tandem pairs (R373 to R377) -/

theorem tandem_seeds {c : Ctx} {b : Block} (hother : bitsOf c.e.a 0 8 ≠ ownModule b) (hdomain : b.isSet F.CMP_ID_in_domain = true)
    (hfree : tandemOn b = false) (hlive : liveMember b (bitsOf c.e.a 0 8) = true) :
    tandem c b = .wait .seed (startSeeding (bitsOf c.e.a 0 8) b) := by
  simp only [tandem, hother, hdomain, hfree, hlive, Bool.false_eq_true, Bool.true_eq_false, or_false, if_false]

section Delta

variable {src n dk : Nat} {home : Bool} {d : TandemDelta} {b : Block}

/-- The first delta of a seeding that a partner with no copy admits (R373, R374). -/
theorem takeDelta_seed (hstart : d.start = some (home, dk)) (hfree : b.tdm.kept = none) (hhome : home = singleHome b)
    (hkey : holdsDk b dk = true) :
    takeDelta src n d b =
      let c := applyDelta TandemCopy.empty d
      if keepBytes b < coreBytes c then sendMsg src clsTandem 0 (.deltaAck 0 true) b
      else sendMsg src clsTandem 0 (.deltaAck n true)
        (setKept (some ⟨src, fitCopy b c, n, true, false, false, d.final, false⟩) b) := by
  simp only [takeDelta, hstart, takeSeed, hfree, hhome, hkey, Option.isSome_none, ne_eq, not_true_eq_false,
    Bool.false_eq_true, Bool.true_eq_false, or_false, if_false]

theorem takeDelta_otherHome (hstart : d.start = some (home, dk)) (hhome : home ≠ singleHome b) :
    takeDelta src n d b = sendMsg src clsTandem 0 (.deltaAck 0 false) b := by
  simp only [takeDelta, hstart]
  exact if_pos (Or.inr (Or.inl hhome))

variable {k : KeptCopy} (hnext : d.start = none) (hkept : b.tdm.kept = some k) (hsource : k.source = src)
  (hthawed : k.frozen = false) (hn : n ≠ 0)

include hnext hkept hsource hthawed hn

theorem takeDelta_applied (hturn : n = k.applied + 1) (hserves : (k.follow && (k.final || d.final) && k.handover) = false) :
    takeDelta src n d b = sendMsg src clsTandem 0 (.deltaAck n k.valid)
      (setKept (some { k with copy := fitCopy b (applyDelta k.copy d), applied := n, final := k.final || d.final }) b) := by
  have hmine : ¬ (k.source ≠ src ∨ k.frozen = true) := by simp [hsource, hthawed]
  simp only [takeDelta, hnext, hkept, if_neg hmine, if_neg hn, ne_eq, if_neg (not_not.2 hturn), hserves, Bool.false_eq_true, if_false]

theorem takeDelta_again (hold : n ≤ k.applied) :
    takeDelta src n d b = sendMsg src clsTandem 0 (.deltaAck k.applied k.valid) b := by
  have hmine : ¬ (k.source ≠ src ∨ k.frozen = true) := by simp [hsource, hthawed]
  have hturn : n ≠ k.applied + 1 := by omega
  simp only [takeDelta, hnext, hkept, if_neg hmine, if_neg hn, if_pos hturn, if_pos hold]

theorem takeDelta_early (hearly : k.applied + 1 < n) : takeDelta src n d b = b := by
  have hmine : ¬ (k.source ≠ src ∨ k.frozen = true) := by simp [hsource, hthawed]
  have hturn : n ≠ k.applied + 1 := by omega
  have hold : ¬ n ≤ k.applied := by omega
  simp only [takeDelta, hnext, hkept, if_neg hmine, if_neg hn, if_pos hturn, if_neg hold]

end Delta

/-- The source once it has noted how far its deltas are acknowledged (R377). -/
def ackRaised (n : Nat) (b : Block) : Block := if b.getF F.TDM_DELTA_acked < n then b.setF F.TDM_DELTA_acked n else b

theorem ackRaised_other {g : Fld} (hg : g.key ≠ F.TDM_DELTA_acked.key) (n : Nat) (b : Block) :
    (ackRaised n b).getF g = b.getF g := by
  unfold ackRaised
  split
  · exact getF_setF_other hg b n
  · rfl

theorem working_ackRaised (n : Nat) (b : Block) : working (ackRaised n b) = working b := by
  rw [working, working, Block.isSet, Block.isSet, ackRaised_other (by decide), ackRaised_other (by decide)]

section Ack

variable {src n : Nat} {v : Bool} {b : Block} (hon : tandemOn b = true) (hsrc : src = b.getF F.TDM_STAT_partner)
  (hsent : n ≤ b.getF F.TDM_DELTA_sent)

include hon hsrc hsent

/-- An acknowledgement of the partner, of deltas that were sent. -/
theorem ack_expected : ¬ (tandemOn b = false ∨ src ≠ b.getF F.TDM_STAT_partner ∨ b.getF F.TDM_DELTA_sent < n) := by
  simp [hon, hsrc, Nat.not_lt.2 hsent]

theorem takeAck_valid (hn : n ≠ 0) (hvalid : b.getF F.TDM_STAT_tstate = tdValid) (hworking : working b = true) :
    takeAck src n v b = releaseAcked (ackRaised n b) := by
  have hstate : ¬ ((ackRaised n b).getF F.TDM_STAT_tstate = tdSeeding ∧ v = true ∧ n = (ackRaised n b).getF F.TDM_DELTA_sent) := by
    rw [ackRaised_other (by decide), hvalid]
    exact fun h => absurd h.1 (by decide)
  rw [takeAck, if_neg (ack_expected hon hsrc hsent), if_neg hn]
  dsimp only
  rw [← ackRaised, if_neg hstate, if_pos ((working_ackRaised n b).trans hworking)]

theorem takeAck_seeded (hn : n ≠ 0) (hseeding : b.getF F.TDM_STAT_tstate = tdSeeding) (hall : n = b.getF F.TDM_DELTA_sent)
    (hworking : working (endSeeding St.ok ((ackRaised n b).setF F.TDM_STAT_tstate tdValid)) = true) :
    takeAck src n true b = releaseAcked (endSeeding St.ok ((ackRaised n b).setF F.TDM_STAT_tstate tdValid)) := by
  have hstate : (ackRaised n b).getF F.TDM_STAT_tstate = tdSeeding ∧ true = true ∧ n = (ackRaised n b).getF F.TDM_DELTA_sent := by
    rw [ackRaised_other (by decide), ackRaised_other (by decide)]
    exact ⟨hseeding, rfl, hall⟩
  rw [takeAck, if_neg (ack_expected hon hsrc hsent), if_neg hn]
  dsimp only
  rw [← ackRaised, if_pos hstate, if_pos hworking]

theorem takeAck_refused (hn : n = 0) (hseeding : b.getF F.TDM_STAT_tstate = tdSeeding) : takeAck src n v b = partnerRefuses v b := by
  rw [takeAck, if_neg (ack_expected hon hsrc hsent), if_pos hn, if_pos hseeding]

end Ack

/-- Settles O16: the outcomes of a checkpoint's end, of a delta by its number, and of an acknowledgement by the pair's state. -/
theorem checkpointsAndPairs : Obligations.CheckpointsAndPairs := by
  refine ⟨fun s rid c b d hrun hnone hreads hpool => ?_, fun s ok n hw => ⟨fun hnone => ?_, fun r hrun => ?_⟩,
    ⟨fun s rid c b hrun hother hdomain hfree hlive => ?_, fun s rid c b hrun => ?_⟩,
    ⟨fun s src n d home dk hw hstart hfree => ⟨fun hhome hkey => ?_, fun hhome => ?_⟩,
      fun s src n d k hw hstart hkept hsource hthawed hn => ⟨fun hturn hserves => ?_, fun hold => ?_, fun hearly => ?_⟩⟩,
    fun s src n v => ?_⟩
  · obtain rfl := runs_rid hrun
    cases hbegin : beginCkpt d (some c.rid) b with
    | none => exact exec_ends hrun (ckpt_tooSmall hnone hreads hpool hbegin)
    | some b' => exact exec_waits hrun (ckpt_begins hnone hreads hpool hbegin)
  · rw [exec_ckptComplete, actC_works _ rfl hw, endCkpt_none ok n hnone]
  · rw [exec_ckptComplete, actC_works _ rfl hw]
    refine ⟨fun hok hleft => ?_, fun hok hlast hfits hrid hidle => ?_, fun hok hfits hrid hidle => ?_,
      fun hover hfits hrid hidle => ?_⟩
    · subst hok
      rw [endCkpt_waits n hrun hleft]
    · subst hok
      rw [endCkpt_written n hrun hlast hfits, writeCkpt_unasked (b := captured r (captureReady s.toBlock)) hrid hidle]
      rfl
    · subst hok
      rw [endCkpt_poolFailed n hrun hfits, failCkpt_unasked hrid (by rwa [writeShards_cmdState])]
      rfl
    · rw [endCkpt_outgrown ok n hrun hover hfits, failCkpt_unasked (b := captured r (captureReady s.toBlock)) hrid hidle]
      rfl
  · exact exec_waits hrun (tandem_seeds hother hdomain hfree hlive)
  · exact exec_ends hrun rfl
  · rw [exec_tandemDelta, actC_works _ rfl hw, takeDelta_seed hstart hfree hhome hkey]
  · rw [exec_tandemDelta, actC_works _ rfl hw, takeDelta_otherHome hstart hhome]
  · rw [exec_tandemDelta, actC_works _ rfl hw, takeDelta_applied hstart hkept hsource hthawed hn hturn hserves]
  · rw [exec_tandemDelta, actC_works _ rfl hw, takeDelta_again hstart hkept hsource hthawed hn hold]
  · rw [exec_tandemDelta, actC_works _ rfl hw, takeDelta_early hstart hkept hsource hthawed hn hearly]
  · intro b raised hw hon hsrc hsent
    rw [exec_tandemAck, actR_up _ rfl hw.1, exec_tandemAck, actR_up _ rfl hw.1]
    refine ⟨fun hn hvalid => ?_, fun hn hseeding hall hworking => ?_, fun hn hseeding => ?_⟩
    · rw [takeAck_valid hon hsrc hsent hn hvalid hw.2]
      rfl
    · rw [takeAck_seeded hon hsrc hsent hn hseeding hall hworking]
      rfl
    · rw [takeAck_refused hon hsrc hsent hn hseeding]
      rfl

/-! ### TDM_CMD (R378, Table 16.16) -/

/-- `release` of the source whose copy is kept: the copy is dropped, and TDM_STAT shows that none is kept. -/
theorem tdmCommand_release {s : State} {v : BitVec 64} {k : KeptCopy} (h : TdmReady s v 6) (hkept : s.tdm.kept = some k)
    (hsource : k.source = bitsOf v.toNat 8 8) :
    tdmCommand .mgmt v.toNat none [] s.toBlock = tdmState 2 (setKept none (tdmNoted s v)) := by
  obtain ⟨-, hcmd, hidle, -⟩ := h
  have hmay : ¬ (Caller.mgmt.isMgmt = false ∨ bitsOf v.toNat 0 3 = 0 ∨ bitsOf v.toNat 0 3 = 7) := by
    rw [hcmd]
    decide
  have hfree : (tdmNoted s v).getF F.TDM_CMD_state ≠ 1 := by
    rwa [tdmNoted, getF_setF_other (by decide), getF_setF_other (by decide)]
  have hlate : ¬ (bitsOf v.toNat 0 3 ≤ 3 ∧ ((tdmNoted s v).tdm.kept.map (·.follow)).getD false = true) := by
    rw [hcmd]
    exact fun hle => absurd hle.1 (by decide)
  rw [tdmCommand, if_neg hmay]
  dsimp only
  rw [← tdmNoted, if_neg hfree, if_neg hlate, hcmd]
  have hnoted : (tdmNoted s v).tdm.kept = some k := hkept
  simp only [tdmRelease, hnoted, hsource, if_true]

/-- A valid copy of module 0, kept by its partner. -/
def heldCopy : KeptCopy := ⟨0, TandemCopy.empty, 0, true, false, false, false, false⟩

/-- The booted module that keeps it, and shows so in TDM_STAT. -/
def keepingModule : State := ⟨setKept (some heldCopy) { Block.reset with rtp := { RtpState.reset with ready := true } }, []⟩

/-- What O42 takes a release for: TDM_STAT as it was. -/
def releasedQuietly (s : State) (v : BitVec 64) : Block := tdmState 2 { tdmNoted s v with tdm := { s.tdm with kept := none } }

/-- What O42 asks of a release holds there, and the field `keeping` of TDM_STAT is set. -/
theorem keepingModule_meets :
    TdmReady keepingModule 6 6 ∧ keepingModule.tdm.kept = some heldCopy ∧ heldCopy.source = bitsOf (6 : BitVec 64).toNat 8 8 ∧
    (releasedQuietly keepingModule 6).getF F.TDM_STAT_keeping = 1 := by
  decide +kernel

/-- A release clears it. -/
theorem keepingModule_releases : (tdmState 2 (setKept none (tdmNoted keepingModule 6))).getF F.TDM_STAT_keeping = 0 := by
  decide +kernel

/-- Refutes O42: a release drops the kept copy and clears `keeping` of TDM_STAT, which shows it, where the statement's module
keeps that field as it was, so that TDM_STAT goes on to show a copy that is gone. -/
theorem not_copiesAreLoaded : ¬ Obligations.CopiesAreLoaded := by
  unfold Obligations.CopiesAreLoaded
  rintro ⟨-, -, -, -, hrelease, -⟩
  obtain ⟨hready, hkept, hsource, hshown⟩ := keepingModule_meets
  have hstep := hrelease keepingModule 6 heldCopy hready hkept hsource
  rw [exec_tdmRelease, actC_works _ rfl hready.1, tdmCommand_release hready hkept hsource] at hstep
  have hrest : rest (tdmState 2 (setKept none (tdmNoted keepingModule 6))) = rest (releasedQuietly keepingModule 6) :=
    congrArg State.toBlock (Host.Outcome.next.inj hstep)
  have hsame := getF_eq_of_rest_eq hrest (g := F.TDM_STAT_keeping) (by decide)
  rw [hshown, keepingModule_releases] at hsame
  exact absurd hsame (by decide)

end Sys2Proof.Machine

/-! PROOFS of the family 17_interrupts_sync: sync instructions (O13), the presented source and its claim (O48), the end of an
interrupt (O49), sources, counters and watch slots (O50). -/

namespace Sys2Proof.Machine

/-! ### SWAIT, SSIGNAL and FENCE (R60, R412 to R414) -/

theorem syncHolds_iff (eq : Bool) (value v : Nat) : syncHolds eq value v = true ↔ (if eq then v = value else value ≤ v) := by
  cases eq <;> simp [syncHolds]

/-- A counter of another tenant reads as 0: only a wait for 0 holds on it. -/
theorem syncHolds_zero (eq : Bool) (value : Nat) : syncHolds eq value 0 = true ↔ value = 0 := by
  rw [syncHolds_iff]
  cases eq
  · simp
  · simp [eq_comm]

section Swait

variable {c : Ctx} {b : Block}

theorem swait_holds (hown : counterOwner b (bitsOf c.e.a 0 16) = c.tenant)
    (h : syncHolds (c.e.a.testBit 16) c.opB (counterValue b (bitsOf c.e.a 0 16)) = true) :
    swait c b = .done St.ok (some (leBytes 8 (counterValue b (bitsOf c.e.a 0 16)))) b := by
  rw [swait, if_pos hown, if_pos h]

theorem swait_waits (hown : counterOwner b (bitsOf c.e.a 0 16) = c.tenant)
    (h : ¬ syncHolds (c.e.a.testBit 16) c.opB (counterValue b (bitsOf c.e.a 0 16)) = true) :
    swait c b = .wait (.sync (bitsOf c.e.a 0 16) (c.e.a.testBit 16) c.opB true) b := by
  rw [swait, if_pos hown, if_neg h]

theorem swait_foreign_zero (hown : counterOwner b (bitsOf c.e.a 0 16) ≠ c.tenant) (h : c.opB = 0) :
    swait c b = .done St.ok (some (leBytes 8 0)) (violation 8 c.tenant c.ring (bitsOf c.e.a 0 16) b) := by
  rw [swait, if_neg hown, if_pos ((syncHolds_zero _ _).2 h)]

theorem swait_foreign (hown : counterOwner b (bitsOf c.e.a 0 16) ≠ c.tenant) (h : c.opB ≠ 0) :
    swait c b = .wait (.sync (bitsOf c.e.a 0 16) (c.e.a.testBit 16) c.opB false)
      (violation 8 c.tenant c.ring (bitsOf c.e.a 0 16) b) := by
  rw [swait, if_neg hown, if_neg (mt (syncHolds_zero _ _).1 h)]

end Swait

theorem ssignal_eq (c : Ctx) (b : Block) :
    ssignal c b = .done St.ok none
      (if counterOwner b (bitsOf c.e.a 0 16) = c.tenant then
        setCounter (bitsOf c.e.a 0 16) (if c.e.a.testBit 16 then c.opB else counterValue b (bitsOf c.e.a 0 16) + c.opB) b
      else violation 8 c.tenant c.ring (bitsOf c.e.a 0 16) b) := by
  unfold ssignal
  split
  · next hown => rw [if_pos hown]; rfl
  · next hown => rw [if_neg hown]

theorem fence_ends {c : Ctx} {b : Block} (h : c.e.a.testBit 0 = false ∨ earlierDone b c.rid c.req = true) :
    fence c b = .done St.ok none b := by
  rw [fence, if_neg]
  obtain h | h := h <;> simp [h]

theorem fence_waits {c : Ctx} {b : Block} (hwide : c.e.a.testBit 0 = true) (h : earlierDone b c.rid c.req = false) :
    fence c b = .wait .retry b := by
  rw [fence, if_pos (by rw [hwide, h]; rfl)]

/-- Settles O13, by the owner of the counter and by whether the condition holds. -/
theorem syncInstructionsActOnCounters : Obligations.SyncInstructionsActOnCounters := by
  refine ⟨fun s rid c b hrun => ⟨fun hown h => ?_, fun hown h => ?_, fun hown h => ?_, fun hown h => ?_⟩,
    fun s rid c b hrun => ?_, fun s rid c b hrun h => ?_, fun s rid c b hrun hwide h => ?_⟩
  · exact exec_ends hrun (swait_holds hown ((syncHolds_iff _ _ _).2 h))
  · exact exec_waits hrun (swait_waits hown (mt (syncHolds_iff _ _ _).1 h))
  · exact exec_ends hrun (swait_foreign_zero hown h)
  · exact exec_waits hrun (swait_foreign hown h)
  · exact exec_ends hrun (ssignal_eq c b)
  · obtain rfl := runs_rid hrun
    exact exec_ends hrun (fence_ends h)
  · obtain rfl := runs_rid hrun
    exact exec_waits hrun (fence_waits hwide h)

/-! ### The presented source (R404) -/

theorem runningPrio_eq (b : Block) (t : Nat) : runningPrio b t = ((intStack b t).head?.map (·.2)).getD 64 := by
  unfold runningPrio
  cases intStack b t <;> rfl

theorem eligible_iff (b : Block) (t : Nat) (x : IntSrc) : eligible b t x = true ↔ x.pending = true ∧ x.active = false ∧
    x.enable = true ∧ x.target = t ∧ x.prio < runningPrio b t ∧ x.prio < b.getFi F.INT_TGT_STAT_threshold t := by
  simp only [eligible, Bool.and_eq_true, Bool.not_eq_true', decide_eq_true_eq, and_assoc]

/-- A source that never fired is eligible for no target. -/
theorem eligible_reset (b : Block) (t : Nat) : eligible b t IntSrc.reset = false := rfl

/-- `r` is the best of the eligible sources of a table: the lowest priority number, then the lowest source number. -/
structure BestOf (b : Block) (t : Nat) (l : Tab IntSrc) (r : Option (Nat × Nat)) : Prop where
  none : r = none → ∀ e ∈ l, eligible b t e.2 = false
  listed : ∀ n p, r = some (n, p) → ∃ x, (n, x) ∈ l ∧ eligible b t x = true ∧ x.prio = p
  least : ∀ n p, r = some (n, p) → ∀ e ∈ l, eligible b t e.2 = true → p < e.2.prio ∨ (p = e.2.prio ∧ n ≤ e.1)

theorem bestOf_skip {b : Block} {t : Nat} {l : Tab IntSrc} {r : Option (Nat × Nat)} (h : BestOf b t l r) {e : Nat × IntSrc}
    (he : eligible b t e.2 = false) : BestOf b t (l ++ [e]) r where
  none hr e' he' := by
    obtain hold | rfl := List.mem_append.1 he' |>.imp_right List.mem_singleton.1
    · exact h.none hr e' hold
    · exact he
  listed n p hr := by
    obtain ⟨x, hx, hspec⟩ := h.listed n p hr
    exact ⟨x, List.mem_append_left _ hx, hspec⟩
  least n p hr e' he' hel := by
    obtain hold | rfl := List.mem_append.1 he' |>.imp_right List.mem_singleton.1
    · exact h.least n p hr e' hold hel
    · exact absurd hel (by rw [he]; decide)

/-- A later eligible source takes the place of the best only with a lower priority number. -/
theorem bestOf_meet {b : Block} {t : Nat} {l : Tab IntSrc} {r : Option (Nat × Nat)} (h : BestOf b t l r) {e : Nat × IntSrc}
    (he : eligible b t e.2 = true) (hlast : ∀ e' ∈ l, e'.1 < e.1) : BestOf b t (l ++ [e]) (betterSrc r (e.1, e.2.prio)) := by
  have hlisted : ∃ x, (e.1, x) ∈ l ++ [e] ∧ eligible b t x = true ∧ x.prio = e.2.prio :=
    ⟨e.2, List.mem_append_right _ (List.mem_singleton.2 rfl), he, rfl⟩
  cases r with
  | none =>
    refine ⟨fun hr => (Option.some_ne_none _ hr).elim, fun n p hr => ?_, fun n p hr e' he' hel => ?_⟩
    · cases hr
      exact hlisted
    · cases hr
      obtain hold | rfl := List.mem_append.1 he' |>.imp_right List.mem_singleton.1
      · exact absurd hel (by rw [h.none rfl e' hold]; decide)
      · exact Or.inr ⟨rfl, le_rfl⟩
  | some a =>
    obtain ⟨x, hx, hspec⟩ := h.listed a.1 a.2 rfl
    have hleast := h.least a.1 a.2 rfl
    by_cases hlower : e.2.prio < a.2
    · rw [betterSrc, if_pos hlower]
      refine ⟨fun hr => (Option.some_ne_none _ hr).elim, fun n p hr => ?_, fun n p hr e' he' hel => ?_⟩
      · cases hr
        exact hlisted
      · cases hr
        obtain hold | rfl := List.mem_append.1 he' |>.imp_right List.mem_singleton.1
        · have := hleast e' hold hel
          omega
        · exact Or.inr ⟨rfl, le_rfl⟩
    · rw [betterSrc, if_neg hlower]
      refine ⟨fun hr => (Option.some_ne_none _ hr).elim, fun n p hr => ?_, fun n p hr e' he' hel => ?_⟩
      · cases hr
        exact ⟨x, List.mem_append_left _ hx, hspec⟩
      · cases hr
        obtain hold | rfl := List.mem_append.1 he' |>.imp_right List.mem_singleton.1
        · exact hleast e' hold hel
        · have := hlast _ hx
          omega

theorem tsorted_pairwise {α : Type} {t : Tab α} (h : tsorted t = true) : t.Pairwise (·.1 < ·.1) := by
  induction t with
  | nil => exact List.Pairwise.nil
  | cons e t ih =>
    obtain ⟨hfirst, hrest⟩ := (tsorted_cons e.1 e.2 t).1 h
    exact List.Pairwise.cons hfirst (ih hrest)

/-- The presented source of a target is the best of the table, which stands in the order of the source numbers. -/
theorem presented_bestOf (b : Block) (t : Nat) (h : tsorted b.intr.srcs = true) : BestOf b t b.intr.srcs (presented b t) := by
  rw [presented]
  generalize b.intr.srcs = l at h
  replace h := tsorted_pairwise h
  induction l using List.reverseRecOn with
  | nil => exact ⟨fun _ e he => absurd he (List.not_mem_nil), fun _ _ hr => (nomatch hr), fun _ _ hr => (nomatch hr)⟩
  | append_singleton l e ih =>
    obtain ⟨hl, -, hlast⟩ := List.pairwise_append.1 h
    rw [List.foldl_append, List.foldl_cons, List.foldl_nil]
    split
    · next he => exact bestOf_meet (ih hl) he fun e' he' => hlast e' he' e (List.mem_singleton.2 rfl)
    · next he => exact bestOf_skip (ih hl) (Bool.not_eq_true _ ▸ he)

/-- An eligible source stands in the table. -/
theorem eligible_listed {b : Block} {t m : Nat} (h : eligible b t (intSrc b m) = true) : (m, intSrc b m) ∈ b.intr.srcs := by
  cases hm : tget b.intr.srcs m with
  | none =>
    rw [intSrc, tgetD, hm] at h
    exact absurd h (by rw [Option.getD_none, eligible_reset]; decide)
  | some x =>
    have hx : intSrc b m = x := by rw [intSrc, tgetD, hm]; rfl
    exact hx ▸ mem_of_tget hm

theorem presented_some {b : Block} {t n p : Nat} (hs : tsorted b.intr.srcs = true) (h : presented b t = some (n, p)) :
    eligible b t (intSrc b n) = true ∧ (intSrc b n).prio = p ∧
      ∀ m, eligible b t (intSrc b m) = true → p < (intSrc b m).prio ∨ (p = (intSrc b m).prio ∧ n ≤ m) := by
  have hbest := presented_bestOf b t hs
  obtain ⟨x, hx, hel, hprio⟩ := hbest.listed n p h
  have hsrc : intSrc b n = x := by rw [intSrc, tgetD, tget_of_mem hs hx]; rfl
  exact ⟨by rwa [hsrc], by rwa [hsrc], fun m hm => hbest.least n p h _ (eligible_listed hm) hm⟩

theorem presented_none {b : Block} {t : Nat} (hs : tsorted b.intr.srcs = true) (h : presented b t = none) (m : Nat) :
    eligible b t (intSrc b m) = false := by
  by_contra hel
  rw [Bool.not_eq_false] at hel
  rw [(presented_bestOf b t hs).none h _ (eligible_listed hel)] at hel
  exact absurd hel (by decide)

/-! ### Claim and EOI (R404, R405) -/

theorem intSrc_setIntSrc (n m : Nat) (x : IntSrc) (b : Block) : intSrc (setIntSrc n x b) m = if m = n then x else intSrc b m :=
  tgetD_tset _ _ _ _ _

theorem intSrc_congr {b b' : Block} (h : b'.intr.srcs = b.intr.srcs) (m : Nat) : intSrc b' m = intSrc b m := by
  rw [intSrc, intSrc, h]

theorem intStack_congr {b b' : Block} (h : b'.intr.prioStacks = b.intr.prioStacks) (u : Nat) : intStack b' u = intStack b u := by
  rw [intStack, intStack, h]

/-- A target has its message due again (R407): the last act of a claim and of an EOI. -/
def targetSignals (t : Nat) (b : Block) : Block := signalTargets (if 8 ≤ t then b.setFi F.INT_TGT_STAT_msg_prio t 64 else b)

theorem targetSignals_signalsOnly (t : Nat) (b : Block) : SignalsOnly b (targetSignals t b) := by
  refine SignalsOnly.trans ?_ (signalTargets_signalsOnly _)
  split
  · exact ⟨rfl, fun g j hg => getFi_setFi_other hg b t 64 j⟩
  · exact .refl b

theorem targetSignals_intr (t : Nat) (b : Block) : (targetSignals t b).intr = b.intr := by
  rw [targetSignals, signalTargets_intr]
  split <;> rfl

theorem targetSignals_rdata (t : Nat) (b : Block) : (targetSignals t b).rdata = b.rdata := by
  rw [(targetSignals_signalsOnly t b).frame]

/-- The module once a target has claimed a source, before its message is due again. -/
def claimed (t n p : Nat) (b : Block) : Block :=
  let b := setIntSrc n { intSrc b n with pending := false, active := true } b
  { b with
    rdata := claimWord (some (n, p))
    intr := { b.intr with prioStacks := tset b.intr.prioStacks t ((n, p) :: intStack b t) } }

theorem claimTarget_some {t n p : Nat} {b : Block} (h : presented b t = some (n, p)) :
    claimTarget t b = targetSignals t (claimed t n p b) := by
  unfold claimTarget
  rw [h]
  rfl

theorem claimTarget_none {t : Nat} {b : Block} (h : presented b t = none) : claimTarget t b = { b with rdata := 0 } := by
  unfold claimTarget
  rw [h]
  rfl

/-- A source of a priority number below the running priority may stand on the stack. -/
theorem stackFalls_cons {b : Block} {t : Nat} {n p : Nat} (h : stackFalls (intStack b t)) (hp : p < runningPrio b t) :
    stackFalls ((n, p) :: intStack b t) := by
  rw [runningPrio_eq] at hp
  refine List.Pairwise.cons ?_ h
  cases hst : intStack b t with
  | nil => simpa [hst] using hp
  | cons e st =>
    rw [hst, stackFalls] at h
    obtain ⟨hfirst, -⟩ := List.pairwise_cons.1 h
    have hpe : p < e.2 := by simpa [hst] using hp
    exact List.forall_mem_cons.2 ⟨hpe, fun x hx => hpe.trans (hfirst x hx)⟩

/-- A stack that falls from 64 holds at most 64 priorities. -/
theorem stackFalls_length {st : List (Nat × Nat)} (h : stackFalls st) : st.length ≤ 64 := by
  obtain ⟨hfalls, -, hbound⟩ := List.pairwise_append.1 h
  have hnodup : (st.map Prod.snd).Nodup := hfalls.imp Nat.ne_of_lt
  have hsub : st.map Prod.snd ⊆ List.range 64 := fun x hx => List.mem_range.2 (hbound x hx 64 (List.mem_singleton.2 rfl))
  simpa using (List.subperm_of_subset hnodup hsub).length_le

/-- Settles O48: the presented source is the best of the table (`presented_bestOf`), and a claim stacks it below the
running priority. -/
theorem interruptsArePresentedAndClaimed : Obligations.InterruptsArePresentedAndClaimed := by
  refine ⟨runningPrio_eq, eligible_iff, fun b t hs => ⟨fun n p h => presented_some hs h, fun h => presented_none hs h⟩,
    fun s t hup h => ?_, fun s t n p hup h => ⟨targetSignals t.toNat (claimed t.toNat n p s.toBlock), ?_⟩, fun st => stackFalls_length⟩
  · rw [exec_intClaim, act_up _ rfl hup, claimTarget_none h]
  · have hsignals := targetSignals_signalsOnly t.toNat (claimed t.toNat n p s.toBlock)
    have hintr := targetSignals_intr t.toNat (claimed t.toNat n p s.toBlock)
    have hsrc : ∀ m, intSrc (claimed t.toNat n p s.toBlock) m =
        if m = n then { intSrc s.toBlock n with pending := false, active := true } else intSrc s.toBlock m :=
      fun m => intSrc_setIntSrc n m _ _
    have hstack : ∀ u, intStack (claimed t.toNat n p s.toBlock) u =
        if u = t.toNat then (n, p) :: intStack s.toBlock t.toNat else intStack s.toBlock u := fun u => tgetD_tset _ _ _ _ _
    simp only [intSrc_congr (congrArg IntrState.srcs hintr), intStack_congr (congrArg IntrState.prioStacks hintr), hsrc, hstack,
      if_true]
    refine ⟨by rw [exec_intClaim, act_up _ rfl hup, claimTarget_some h], targetSignals_rdata _ _, trivial, fun m hm => if_neg hm,
      trivial, fun u hu => if_neg hu, fun hs hfalls => ?_, (congrArg IntrState.counters hintr).trans rfl, hsignals.ste, hsignals.ses,
      hsignals.fe, hsignals.mem⟩
    obtain ⟨hel, hprio, -⟩ := presented_some hs h
    obtain ⟨-, -, -, -, hbelow, -⟩ := (eligible_iff _ _ _).1 hel
    exact stackFalls_cons hfalls (hprio ▸ hbelow)

/-- The module once a target has dropped the top of its stack. -/
def unstacked (t : Nat) (st : List (Nat × Nat)) (b : Block) : Block :=
  { b with intr := { b.intr with prioStacks := tset b.intr.prioStacks t st } }

theorem eoiTarget_top {t n p : Nat} {st : List (Nat × Nat)} {b : Block} (h : intStack b t = (n, p) :: st) :
    eoiTarget t n b = targetSignals t (endOfInterrupt n (unstacked t st b)) := by
  unfold eoiTarget
  rw [h]
  exact if_pos rfl

/-- An EOI that names another source than the top, or finds the stack empty, is counted (R405). -/
theorem eoiTarget_other {t n : Nat} {b : Block} (h : (intStack b t).head?.map (·.1) ≠ some n) :
    eoiTarget t n b = b.bump F.INT_STAT_eoi_err := by
  unfold eoiTarget
  cases hst : intStack b t with
  | nil => rfl
  | cons e st =>
    rw [hst] at h
    exact if_neg fun he => h (congrArg some he)

theorem endOfInterrupt_edge {n : Nat} {b : Block} (h : isLevelSrc n = false) :
    endOfInterrupt n b = setIntSrc n { intSrc b n with active := false } b := by
  simp only [endOfInterrupt, h, Bool.false_and, Bool.false_eq_true, if_false]

/-- A level source ends, and is pending again while its condition holds; with no storm limit that is all. -/
theorem endOfInterrupt_level {n : Nat} {b : Block} (h : isLevelSrc n = true) (hstorm : b.getF F.INT_CFG_storm_n = 0) :
    ∃ x, endOfInterrupt n b = setIntSrc n x b ∧ x.active = false ∧ x.pending = b.intr.levels.contains n := by
  by_cases hon : b.intr.levels.contains n = true
  · refine ⟨{ intSrc b n with active := false, pending := true, stormRun := min ((intSrc b n).stormRun + 1) 0xFF }, ?_, rfl, hon.symm⟩
    simp only [endOfInterrupt, h, hon, hstorm, Bool.and_self, ne_eq, not_true_eq_false, false_and, if_true, if_false]
  · rw [Bool.not_eq_true] at hon
    refine ⟨{ intSrc b n with active := false, pending := false }, ?_, rfl, hon.symm⟩
    simp only [endOfInterrupt, h, hon, Bool.and_false, Bool.false_eq_true, if_true, if_false]

theorem endOfInterrupt_setIntSrc_signals {t n : Nat} {x : IntSrc} {st : List (Nat × Nat)} {b b' : Block}
    (h : b' = targetSignals t (setIntSrc n x (unstacked t st b))) :
    intStack b' t = st ∧ intSrc b' n = x ∧ (∀ m, m ≠ n → intSrc b' m = intSrc b m) ∧ SignalsOnly b b' := by
  subst h
  have hintr := targetSignals_intr t (setIntSrc n x (unstacked t st b))
  refine ⟨?_, ?_, fun m hm => ?_, ?_⟩
  · rw [intStack_congr (congrArg IntrState.prioStacks hintr)]
    exact (tgetD_tset _ _ _ _ _).trans (if_pos rfl)
  · rw [intSrc_congr (congrArg IntrState.srcs hintr), intSrc_setIntSrc, if_pos rfl]
  · rw [intSrc_congr (congrArg IntrState.srcs hintr), intSrc_setIntSrc, if_neg hm]
    rfl
  · exact (signalsOnly_intr _ b).trans ((setIntSrc_signalsOnly n x _).trans (targetSignals_signalsOnly t _))

/-- Settles O49: an EOI of the top unstacks it and ends its source; any other is counted. -/
theorem interruptsAreEnded : Obligations.InterruptsAreEnded := by
  refine ⟨fun s t v n p st hup hn hst hedge => ?_, fun s t v n p st hup hn hst hlevel hstorm => ?_, fun s t v hup hother => ?_⟩
  · obtain ⟨hstack, hsrc, hothers, hsignals⟩ := endOfInterrupt_setIntSrc_signals (t := t.toNat) (n := n) (st := st) (b := s.toBlock)
      (x := { intSrc s.toBlock n with active := false }) rfl
    refine ⟨_, ?_, hstack, hsrc, hothers, ?_, hsignals.ste, hsignals.ses, hsignals.fe⟩
    · rw [exec_intEoi, act_up _ rfl hup, hn, eoiTarget_top hst, endOfInterrupt_edge hedge]
      rfl
    · rw [eligible_iff, hsrc, runningPrio_eq, hstack, hsignals.fields _ _ (by decide)]
      simp only [true_and]
  · obtain ⟨x, hx, hactive, hpending⟩ := endOfInterrupt_level (b := unstacked t.toNat st s.toBlock) hlevel hstorm
    obtain ⟨hstack, hsrc, hothers, -⟩ := endOfInterrupt_setIntSrc_signals (t := t.toNat) (n := n) (st := st) (b := s.toBlock)
      (x := x) rfl
    refine ⟨_, ?_, hstack, by rw [hsrc, hactive], by rw [hsrc, hpending]; rfl, hothers⟩
    rw [exec_intEoi, act_up _ rfl hup, hn, eoiTarget_top hst, hx]
  · rw [exec_intEoi, act_up _ rfl hup, eoiTarget_other hother]

/-! ### Sources (R400, R401, R410) -/

theorem exec_intSrcConfig_up {s : State} (n : BitVec 11) (v : BitVec 64) (hup : s.toBlock.up = true) :
    exec (.intSrcConfig n v) s = .next (s.put (signalTargets (setIntSrc n.toNat { intSrc s.toBlock n.toNat with
      enable := v.getLsbD 0, target := bitsOf v.toNat 4 4, prio := bitsOf v.toNat 8 6 } s.toBlock))) := by
  have hon : decide (bitsOf v.toNat 0 1 = 1) = v.getLsbD 0 := by
    rw [bitsOf_zero, BitVec.getLsbD, Nat.testBit_zero]
    rfl
  rw [exec_intSrcConfig, act_up _ rfl hup, srcConfig, hon]

/-- The soft sources are edge sources, none of them reserved. -/
theorem soft_fires {x : Nat} (hx : x < 256) : (isReservedSrc (0x700 + x) || isLevelSrc (0x700 + x)) = false := by
  rw [Bool.or_eq_false_iff]
  constructor
  · simp only [isReservedSrc, Bool.or_eq_false_iff, Bool.and_eq_false_iff, decide_eq_false_iff_not]
    omega
  · rw [isLevelSrc, ← Bool.not_eq_true, List.contains_iff_mem]
    simp only [Src.timeStale, Src.framesLow, Src.stageLow, Src.serialLow, Src.bistOverdue, Src.spokeLow, Src.hubDegraded,
      Src.fuseLow, Src.pmcThrottle, List.mem_cons, List.not_mem_nil, or_false]
    omega

theorem edge_pending (x : IntSrc) : (edge x).pending = true := by
  unfold edge
  split
  · assumption
  · rfl

theorem fire_soft_awake {x : Nat} {b : Block} (hx : x < 256) (hawake : b.getF F.PMC_STAT_pstate ≠ pstateStandby) :
    fire (Src.soft x) b = signalTargets (setIntSrc (0x700 + x) (edge (intSrc b (0x700 + x))) b) := by
  simp only [fire, Src.soft, soft_fires hx, Bool.false_eq_true, if_false, if_neg hawake]

theorem fire_soft_standby {x : Nat} {b : Block} (hx : x < 256) (hstandby : b.getF F.PMC_STAT_pstate = pstateStandby) :
    fire (Src.soft x) b = { b with intr := { b.intr with latched := b.intr.latched ++ [0x700 + x] } } := by
  have hlatch : 0x700 + x = Src.portEvent ∨ 0x700 + x = Src.pmcBraked ∨ 0x700 ≤ 0x700 + x := by omega
  simp only [fire, Src.soft, soft_fires hx, Bool.false_eq_true, if_false, if_pos hstandby]
  exact if_pos hlatch

theorem intSrc_signalled (n m : Nat) (x : IntSrc) (b : Block) :
    intSrc (signalTargets (setIntSrc n x b)) m = if m = n then x else intSrc b m := by
  rw [intSrc_congr (congrArg IntrState.srcs (signalTargets_intr _)), intSrc_setIntSrc]

/-! ### Counters (R412, R413) -/

/-- A counter written, before the waits on it are judged. -/
def counterSet (c v : Nat) (b : Block) : Block :=
  { b with intr := { b.intr with counters := if v = 0 then tdel b.intr.counters c else tset b.intr.counters c v } }

theorem counterValue_counterSet (c v : Nat) (b : Block) (c' : Nat) :
    counterValue (counterSet c v b) c' = if c' = c then v else counterValue b c' := by
  rw [counterValue, counterSet]
  split
  · next h0 =>
    subst h0
    exact tgetD_tdel _ _ _ _
  · exact tgetD_tset _ _ _ _ _

/-- With no wait registered on a counter there is nothing to release. -/
theorem releaseWaits_none {c : Nat} {b : Block} (hreqs : ∀ e ∈ b.fe.reqs, ∀ c' eq w r, e.2.wait = .sync c' eq w r → c' ≠ c)
    (hslots : ∀ w, w < 256 → b.getFi F.INT_WATCH_CFG_armed w = 1 → b.getFi F.INT_WATCH_CFG_counter w ≠ c) :
    releaseWaits c b = b := by
  have hfold : ∀ {α : Type} (f : Block → α → Block) (l : List α), (∀ a ∈ l, f b a = b) → l.foldl f b = b := by
    intro α f l
    induction l with
    | nil => exact fun _ => rfl
    | cons a l ih =>
      intro h
      rw [List.foldl_cons, h a List.mem_cons_self, ih fun a' ha' => h a' (List.mem_cons_of_mem _ ha')]
  unfold releaseWaits
  dsimp only
  rw [hfold _ b.fe.reqs]
  · refine hfold _ _ fun w hw => ?_
    split
    · next hc =>
      have hoff : ¬ b.getFi F.INT_WATCH_CFG_armed w = 1 := fun hon => hslots w (List.mem_range.1 hw) hon hc
      rw [judgeWatch, if_neg fun h => hoff h.1]
    · rfl
  · intro e he
    split
    · split
      · next hwait => rw [if_neg fun h => hreqs e he _ _ _ _ hwait h.1]
      · rfl
    · rfl

theorem setCounter_alone {c v : Nat} {b : Block} (hv : v < 2 ^ 64)
    (hreqs : ∀ e ∈ b.fe.reqs, ∀ c' eq w r, e.2.wait = .sync c' eq w r → c' ≠ c)
    (hslots : ∀ w, w < 256 → b.getFi F.INT_WATCH_CFG_armed w = 1 → b.getFi F.INT_WATCH_CFG_counter w ≠ c) :
    setCounter c v b = counterSet c v b := by
  rw [setCounter, Nat.mod_eq_of_lt hv]
  exact releaseWaits_none (b := counterSet c v b) hreqs hslots

/-! ### Owners of the counters (R412) -/

theorem groupWaited_ownGroup (g g' t : Nat) (b : Block) : groupWaited (ownGroup g' t b) g = groupWaited b g := by
  unfold ownGroup
  split
  · rfl
  · rfl

theorem ownGroup_owner (g t c : Nat) (b : Block) :
    counterOwner (ownGroup g t b) c = if c / 16 = g ∧ groupWaited b g = false then t else counterOwner b c := by
  unfold ownGroup
  by_cases hwaited : groupWaited b g = true
  · rw [if_pos hwaited, if_neg fun h => absurd (hwaited.symm.trans h.2) (by decide)]
  · rw [if_neg hwaited]
    rw [Bool.not_eq_true] at hwaited
    simp only [hwaited, and_true]
    by_cases hown : t = g
    · subst hown
      rw [counterOwner, if_pos rfl, tgetD_tdel]
      split
      · next he => exact he
      · rfl
    · rw [counterOwner, if_neg hown, tgetD_tset]
      rfl

theorem ownGroup_rest (g t : Nat) (b : Block) : (ownGroup g t b).fe = b.fe ∧ (ownGroup g t b).flds = b.flds ∧
    (ownGroup g t b).cmem = b.cmem := by
  unfold ownGroup
  split
  · exact ⟨rfl, rfl, rfl⟩
  · exact ⟨rfl, rfl, rfl⟩

/-- A write of INT_SYNC_OWN, by the counter: its group takes the owner written for it unless it is waited on. -/
theorem ownWrite_owner (j v c : Nat) (b : Block) :
    counterOwner (ownWrite j v b) c =
      if c / 64 = j ∧ groupWaited b (c / 16) = false then bitsOf v (16 * (c / 16 % 4)) 12 else counterOwner b c := by
  simp only [ownWrite, List.foldl_cons, List.foldl_nil, ownGroup_owner, groupWaited_ownGroup]
  by_cases hj : c / 64 = j
  · obtain h | h | h | h : c / 16 = 4 * j + 0 ∨ c / 16 = 4 * j + 1 ∨ c / 16 = 4 * j + 2 ∨ c / 16 = 4 * j + 3 := by omega
    all_goals simp [hj, h, Nat.add_mod]
  · have hother : ∀ i, i < 4 → c / 16 ≠ 4 * j + i := fun i hi => by omega
    simp only [hj, hother 0 (by decide), hother 1 (by decide), hother 2 (by decide), hother 3 (by decide), false_and, if_false]

theorem ownWrite_rest (j v : Nat) (b : Block) : (ownWrite j v b).fe = b.fe ∧ (ownWrite j v b).flds = b.flds ∧
    (ownWrite j v b).cmem = b.cmem :=
  ⟨foldl_keeps Block.fe (fun _ _ => (ownGroup_rest _ _ _).1) _ _, foldl_keeps Block.flds (fun _ _ => (ownGroup_rest _ _ _).2.1) _ _,
    foldl_keeps Block.cmem (fun _ _ => (ownGroup_rest _ _ _).2.2) _ _⟩

/-! ### Watch slots (R414) -/

/-- A watch slot as it is written, before it is compared. -/
def watchSet (w v : Nat) (b : Block) : Block :=
  let b := (b.setFi F.INT_WATCH_CFG_counter w (bitsOf v 0 16)).setFi F.INT_WATCH_CFG_eq w (bitsOf v 16 1)
  (if v.testBit 18 then b.setFi F.INT_WATCH_CFG_fired w 0 else b).setFi F.INT_WATCH_CFG_armed w (bitsOf v 17 1)

theorem watchSet_spec (w v : Nat) (b : Block) :
    (watchSet w v b).getFi F.INT_WATCH_CFG_counter w = bitsOf v 0 16 ∧
    (watchSet w v b).getFi F.INT_WATCH_CFG_eq w = bitsOf v 16 1 ∧
    (watchSet w v b).getFi F.INT_WATCH_CFG_armed w = bitsOf v 17 1 ∧
    (watchSet w v b).getFi F.INT_WATCH_CFG_fired w = (if v.testBit 18 then 0 else b.getFi F.INT_WATCH_CFG_fired w) ∧
    (watchSet w v b).getFi F.INT_WATCH_VAL_value w = b.getFi F.INT_WATCH_VAL_value w ∧
    (watchSet w v b).intr = b.intr ∧ (watchSet w v b).fe = b.fe := by
  unfold watchSet
  dsimp only
  refine ⟨?_, ?_, getFi_setFi_bits _ F.INT_WATCH_CFG_armed w v 17, ?_, ?_, ?_, ?_⟩
  all_goals split
  · simp (disch := decide) only [getFi_setFi_other]
    exact getFi_setFi_bits _ F.INT_WATCH_CFG_counter w v 0
  · simp (disch := decide) only [getFi_setFi_other]
    exact getFi_setFi_bits _ F.INT_WATCH_CFG_counter w v 0
  · simp (disch := decide) only [getFi_setFi_other]
    exact getFi_setFi_bits _ F.INT_WATCH_CFG_eq w v 16
  · simp (disch := decide) only [getFi_setFi_other]
    exact getFi_setFi_bits _ F.INT_WATCH_CFG_eq w v 16
  · simp (disch := decide) only [getFi_setFi_other]
    exact getFi_setFi_self _ F.INT_WATCH_CFG_fired w 0
  · simp (disch := decide) only [getFi_setFi_other]
  · simp (disch := decide) only [getFi_setFi_other]
  · simp (disch := decide) only [getFi_setFi_other]
  · rfl
  · rfl
  · rfl
  · rfl

theorem watchWrite_eq (w v : Nat) (b : Block) : watchWrite w v b = judgeWatch w (watchSet w v b) := rfl

theorem fire_counters (n : Nat) (b : Block) : (fire n b).intr.counters = b.intr.counters := by
  unfold fire
  split
  · rfl
  · split
    · split <;> rfl
    · rw [signalTargets_intr]
      rfl

/-- A slot that fires is disarmed; its source's edge is work of the interrupt controller alone, and no counter's. -/
theorem fireWatch_spec (w : Nat) (b : Block) :
    (fireWatch w b).getFi F.INT_WATCH_CFG_counter w = b.getFi F.INT_WATCH_CFG_counter w ∧
    (fireWatch w b).getFi F.INT_WATCH_CFG_eq w = b.getFi F.INT_WATCH_CFG_eq w ∧
    (fireWatch w b).getFi F.INT_WATCH_CFG_armed w = 0 ∧ (fireWatch w b).getFi F.INT_WATCH_CFG_fired w = 1 ∧
    (fireWatch w b).intr.counters = b.intr.counters ∧ (fireWatch w b).fe = b.fe := by
  have hsignals := fire_signalsOnly (Src.syncWatch w) ((b.setFi F.INT_WATCH_CFG_armed w 0).setFi F.INT_WATCH_CFG_fired w 1)
  rw [fireWatch, hsignals.fields _ _ (by decide), hsignals.fields _ _ (by decide), hsignals.fields _ _ (by decide),
    hsignals.fields _ _ (by decide)]
  refine ⟨?_, ?_, ?_, getFi_setFi_self _ F.INT_WATCH_CFG_fired w 1, fire_counters _ _, hsignals.fe⟩
  · simp (disch := decide) only [getFi_setFi_other]
  · simp (disch := decide) only [getFi_setFi_other]
  · rw [getFi_setFi_other (by decide)]
    exact getFi_setFi_self _ F.INT_WATCH_CFG_armed w 0

theorem bit_eq_decide (v i : Nat) : v.testBit i = decide (bitsOf v i 1 = 1) := by
  rw [Nat.testBit_eq_decide_div_mod_eq]
  rfl

theorem bitsOf_bit (v i : Nat) : bitsOf v i 1 = if v.testBit i then 1 else 0 := by
  have hlt : bitsOf v i 1 < 2 := bitsOf_lt v i 1
  simp only [bit_eq_decide, decide_eq_true_eq]
  split <;> omega

/-- A slot fires as it is written where it is armed and its condition holds. -/
theorem watchWrite_cases (w v : Nat) (b : Block) :
    watchWrite w v b =
      if v.testBit 17 && syncHolds (v.testBit 16) (b.getFi F.INT_WATCH_VAL_value w) (counterValue b (bitsOf v 0 16)) then
        fireWatch w (watchSet w v b)
      else watchSet w v b := by
  obtain ⟨hcounter, heq, harmed, -, hvalue, hintr, -⟩ := watchSet_spec w v b
  have hcount : counterValue (watchSet w v b) (bitsOf v 0 16) = counterValue b (bitsOf v 0 16) := by
    rw [counterValue, counterValue, hintr]
  rw [watchWrite_eq, judgeWatch, hcounter, heq, harmed, hvalue, hcount, bit_eq_decide v 17, bit_eq_decide v 16]
  simp only [Bool.and_eq_true, decide_eq_true_eq]

/-- Settles O50: a write of a source, a counter, an owner or a watch slot, each with what it leaves as it was. -/
theorem sourcesAndCounters : Obligations.SourcesAndCounters := by
  refine ⟨⟨fun s n v hup => ⟨_, exec_intSrcConfig_up n v hup, ?_, fun m hm => ?_⟩, fun s v hup hawake => ?_, fun s v hup hstandby => ?_⟩,
    fun s c v hup => ?_, fun b c v hv hreqs hslots => ?_, fun s j v hup => ?_, fun s w v hup => ?_⟩
  · rw [intSrc_signalled, if_pos rfl]
  · rw [intSrc_signalled, if_neg hm]
  · refine ⟨_, by rw [exec_intSoft, act_up _ rfl hup, fire_soft_awake (bitsOf_lt _ _ _) hawake], ?_, fun m hm => ?_⟩
    · rw [intSrc_signalled, if_pos rfl, edge_pending]
    · rw [intSrc_signalled, if_neg hm]
  · rw [exec_intSoft, act_up _ rfl hup, fire_soft_standby (bitsOf_lt _ _ _) hstandby]
  · rw [exec_syncCntWrite, actR_up _ rfl hup]
  · rw [setCounter_alone hv hreqs hslots]
    exact ⟨(counterValue_counterSet c v b c).trans (if_pos rfl),
      fun c' hc => (counterValue_counterSet c v b c').trans (if_neg hc), rfl, rfl, rfl, rfl⟩
  · obtain ⟨hfe, hflds, hcmem⟩ := ownWrite_rest j.toNat v.toNat s.toBlock
    refine ⟨_, by rw [exec_syncOwnWrite, act_up _ rfl hup], fun i k hi hk => ?_, fun c hc => ?_, hfe, hflds, hcmem⟩
    · have hword : (16 * (4 * j.toNat + i) + k) / 64 = j.toNat := by omega
      have hgroup : (16 * (4 * j.toNat + i) + k) / 16 = 4 * j.toNat + i := by omega
      have hfield : (4 * j.toNat + i) % 4 = i := by omega
      rw [ownWrite_owner, hword, hgroup, hfield]
      cases groupWaited s.toBlock (4 * j.toNat + i) <;> simp
    · rw [ownWrite_owner, if_neg fun h => hc h.1]
  · intro b holds
    obtain ⟨hcounter, heq, harmed, hfired, -, hintr, hfe⟩ := watchSet_spec w.toNat v.toNat b
    refine ⟨_, by rw [exec_watchArm, act_up _ rfl hup], ?_⟩
    have hcases : watchWrite w.toNat v.toNat b =
        if v.getLsbD 17 && holds then fireWatch w.toNat (watchSet w.toNat v.toNat b) else watchSet w.toNat v.toNat b :=
      watchWrite_cases w.toNat v.toNat b
    rw [hcases]
    by_cases hfires : (v.getLsbD 17 && holds) = true
    · obtain ⟨hcounter', heq', harmed', hfired', hcounters', hfe'⟩ := fireWatch_spec w.toNat (watchSet w.toNat v.toNat b)
      rw [if_pos hfires, if_pos hfires]
      refine ⟨hcounter'.trans hcounter, heq'.trans heq, ?_, hfired', hcounters'.trans (by rw [hintr]), hfe'.trans hfe⟩
      obtain ⟨-, hholds⟩ := Bool.and_eq_true_iff.1 hfires
      rw [harmed', hholds, Bool.not_true, Bool.and_false]
      rfl
    · rw [if_neg hfires, if_neg hfires]
      refine ⟨hcounter, heq, harmed.trans ?_, hfired, by rw [hintr], hfe⟩
      rw [bitsOf_bit, ← BitVec.getLsbD]
      cases hbit : v.getLsbD 17
      · rfl
      · rw [hbit, Bool.true_and, Bool.not_eq_true] at hfires
        rw [hfires]
        rfl

end Sys2Proof.Machine

/-! PROOFS of the families 14_tenancy_scheduling and 18_power: CADENCE hints (O14), power and energy (O51), heat and the brake
(O52), the ends of the brake and of STANDBY (O53). -/

namespace Sys2Proof.Machine

/-! ### CADENCE (R422, R423) -/

section Cadence

variable {c : Ctx} {b : Block}

theorem cadence_malformed (h : bitsOf c.e.a 0 16 * 10000 = 0 ∨ bitsOf c.e.a 16 8 = 0 ∨ 100 < bitsOf c.e.a 16 8) :
    cadence c b = .done St.malformed none b := by
  rw [cadence]
  exact if_pos h

/-- A hint that is well formed is held, or dropped and counted. -/
theorem cadence_ends (hlong : 0 < bitsOf c.e.a 0 16 * 10000) (hshare : 1 ≤ bitsOf c.e.a 16 8) (hmost : bitsOf c.e.a 16 8 ≤ 100) :
    cadence c b = .done St.ok none
      (if c.opB + bitsOf c.e.a 0 16 * 10000 ≤ b.now ∨ 16 ≤ (b.pmc.hints.filter fun e => decide (e.2.tenant = c.tenant)).length
          ∨ 1024 ≤ b.pmc.hints.length then b.bump F.PMC_CNT_cadence_drop
       else { b with pmc := { b.pmc with
        hints := tset b.pmc.hints (freshKey b.pmc.hints) ⟨c.tenant, c.opB, bitsOf c.e.a 0 16 * 10000, bitsOf c.e.a 16 8, false⟩ } }) := by
  have hgood : ¬ (bitsOf c.e.a 0 16 * 10000 = 0 ∨ bitsOf c.e.a 16 8 = 0 ∨ 100 < bitsOf c.e.a 16 8) := by omega
  unfold cadence
  dsimp only
  rw [if_neg hgood]
  split
  · rfl
  · rfl

end Cadence

theorem windowStarts_held {n : Nat} {h : Hint} {b : Block} (hheld : tget b.pmc.hints n = some h) :
    windowStarts n b =
      if b.stale = true ∨ b.now + b.getF F.PMC_CFG_cad_lead_us * 1000 < h.start then b
      else { b with pmc := { b.pmc with hints := tset b.pmc.hints n { h with active := true } } } := by
  unfold windowStarts
  rw [hheld]
  rfl

theorem windowEnds_held {n : Nat} {h : Hint} {b : Block} (hheld : tget b.pmc.hints n = some h) :
    windowEnds n b =
      if h.start + h.duration ≤ b.now then { b with pmc := { b.pmc with hints := tdel b.pmc.hints n } } else b := by
  unfold windowEnds
  rw [hheld]
  rfl

/-- Settles O14, by the checks of a hint and by its window. -/
theorem cadenceHoldsHint : Obligations.CadenceHoldsHint := by
  refine ⟨fun s rid c b hrun => ⟨fun hbad => ?_, fun hlong hshare hmost => ?_⟩, fun s n h hup hheld => ⟨?_, ?_⟩⟩
  · exact exec_ends hrun (cadence_malformed hbad)
  · exact exec_ends hrun (cadence_ends hlong hshare hmost)
  · rw [exec_cadenceWindowStart, act_up _ rfl hup, windowStarts_held hheld]
  · rw [exec_cadenceWindowEnd, act_up _ rfl hup, windowEnds_held hheld]

/-! ### The cap shared (R417, R418) -/

section Share

variable (demand : Nat → Nat)

theorem shareBudget_keys (ds : List Nat) (budget : Nat) : (shareBudget demand ds budget).map Prod.fst = ds := by
  induction ds generalizing budget with
  | nil => rfl
  | cons d ds ih => exact congrArg (d :: ·) (ih _)

/-- Each domain has its floor at least, and no more than it asks for beyond it. -/
theorem shareBudget_bounds (ds : List Nat) (budget : Nat) :
    ∀ g ∈ shareBudget demand ds budget, domFloor g.1 ≤ g.2 ∧ g.2 ≤ max (domFloor g.1) (demand g.1) := by
  induction ds generalizing budget with
  | nil => exact fun g hg => absurd hg List.not_mem_nil
  | cons d ds ih =>
    refine List.forall_mem_cons.2 ⟨⟨le_max_left _ _, ?_⟩, ih _⟩
    exact max_le_max_left _ (Nat.min_le_left _ _)

/-- With room for the floors the shares together stay within the budget. -/
theorem shareBudget_sum {ds : List Nat} {budget : Nat} (h : (ds.map domFloor).sum ≤ budget) :
    ((shareBudget demand ds budget).map Prod.snd).sum ≤ budget := by
  induction ds generalizing budget with
  | nil => exact Nat.zero_le _
  | cons d ds ih =>
    rw [List.map_cons, List.sum_cons] at h
    have hgive : max (domFloor d) (min (demand d) (budget - (ds.map domFloor).sum)) ≤ budget - (ds.map domFloor).sum := by omega
    have hrest := ih (budget := budget - max (domFloor d) (min (demand d) (budget - (ds.map domFloor).sum))) (by omega)
    rw [shareBudget, List.map_cons, List.sum_cons]
    omega

end Share

/-- A share that stands in the list is what its domain is given. -/
theorem givenTo_mem {gs : List (Nat × Nat)} (hnodup : (gs.map Prod.fst).Nodup) {g : Nat × Nat} (hg : g ∈ gs) :
    givenTo gs g.1 = g.2 := by
  induction gs with
  | nil => exact absurd hg List.not_mem_nil
  | cons e gs ih =>
    obtain ⟨hfresh, hrest⟩ := List.nodup_cons.1 hnodup
    rw [givenTo, List.find?_cons]
    obtain rfl | hold := List.mem_cons.1 hg
    · simp
    · have hne : e.1 ≠ g.1 := fun he => hfresh (he ▸ List.mem_map_of_mem hold)
      simp only [hne, decide_false]
      exact ih hrest hold

theorem map_givenTo {gs : List (Nat × Nat)} (hnodup : (gs.map Prod.fst).Nodup) :
    (gs.map Prod.fst).map (givenTo gs) = gs.map Prod.snd := by
  rw [List.map_map]
  exact List.map_congr_left fun g hg => givenTo_mem hnodup hg

/-- The order of service is a permutation of the domains, in equalised mode too (R420). -/
theorem domOrder_perm {b : Block}
    (h : [b.getF F.PMC_CFG_order0, b.getF F.PMC_CFG_order1, b.getF F.PMC_CFG_order2].Perm [0, 1, 2]) :
    (domOrder b).Perm [0, 1, 2] := by
  unfold domOrder
  dsimp only
  split
  · have hfilter := h.filter (· ≠ 2)
    exact (hfilter.cons 2).trans (by decide)
  · exact h

/-- Every domain of a permutation is given a share of the list. -/
theorem givenTo_spec {demand : Nat → Nat} {ds : List Nat} (hperm : ds.Perm [0, 1, 2]) (budget : Nat) {d : Nat} (hd : d < 3) :
    (d, givenTo (shareBudget demand ds budget) d) ∈ shareBudget demand ds budget := by
  have hkeys := shareBudget_keys demand ds budget
  have hnodup : ((shareBudget demand ds budget).map Prod.fst).Nodup := by
    rw [hkeys]
    exact hperm.nodup_iff.2 (by decide)
  have hmem : d ∈ (shareBudget demand ds budget).map Prod.fst := by
    rw [hkeys, hperm.mem_iff]
    simp only [List.mem_cons, List.not_mem_nil, or_false]
    omega
  obtain ⟨g, hg, rfl⟩ := List.mem_map.1 hmem
  rwa [givenTo_mem hnodup hg]

/-- The shares of the three domains add up to those of the list. -/
theorem givenTo_sum {demand : Nat → Nat} {ds : List Nat} (hperm : ds.Perm [0, 1, 2]) (budget : Nat) :
    givenTo (shareBudget demand ds budget) 0 + givenTo (shareBudget demand ds budget) 1 + givenTo (shareBudget demand ds budget) 2 =
      ((shareBudget demand ds budget).map Prod.snd).sum := by
  have hkeys := shareBudget_keys demand ds budget
  have hnodup : ((shareBudget demand ds budget).map Prod.fst).Nodup := by
    rw [hkeys]
    exact hperm.nodup_iff.2 (by decide)
  have hsum := (hperm.map (givenTo (shareBudget demand ds budget))).sum_eq
  rw [← map_givenTo hnodup, hkeys, hsum]
  simp only [List.map_cons, List.map_nil, List.sum_cons, List.sum_nil]
  omega

/-- The first of the order has what it asks for as far as the floors of the others leave room. -/
theorem givenTo_first {demand : Nat → Nat} {ds : List Nat} (hperm : ds.Perm [0, 1, 2]) (budget : Nat) {d : Nat}
    (hd : ds.head? = some d) :
    givenTo (shareBudget demand ds budget) d = max (domFloor d) (min (demand d) (budget - (380 - domFloor d))) := by
  cases ds with
  | nil => cases hd
  | cons e ds =>
    cases hd
    have hfloors : domFloor d + (ds.map domFloor).sum = 380 := (hperm.map domFloor).sum_eq
    rw [shareBudget, givenTo, List.find?_cons]
    simp only [decide_true, Option.map_some, Option.getD_some]
    rw [← hfloors, Nat.add_sub_cancel_left]

/-! ### A sample of the rails (R418, Table 18.1) -/

theorem ceilingFor_bounds (demand give moment : Nat) : 100 ≤ ceilingFor demand give moment ∧ ceilingFor demand give moment ≤ 700 := by
  unfold ceilingFor
  split
  · decide
  · omega

/-- The fields that show the ceilings, and those that signal a change of them. -/
def statusFields : List Fld := [F.PMC_STAT_ceil_mhz, F.PMC_CNT_throttles, F.PMC_STAT_thermal, F.PMC_STAT_eq_broken_seen,
  F.PMC_CNT_eq_breaks, F.PMC_STAT_eq_broken, F.INT_TGT_STAT_msg_prio]

/-- `b'` is `b` with the ceilings brought up to date: status fields and PMC_THROTTLE alone. -/
structure StatusOnly (b b' : Block) : Prop where
  frame : b' = { b with flds := b'.flds, cmem := b'.cmem, intr := b'.intr }
  fields : ∀ (g : Fld) (j : Nat), g.key ∉ statusFields.map (·.key) → b'.getFi g j = b.getFi g j

theorem StatusOnly.trans {a b c : Block} (h : StatusOnly a b) (h' : StatusOnly b c) : StatusOnly a c where
  frame := by rw [h'.frame, h.frame]
  fields g j hg := (h'.fields g j hg).trans (h.fields g j hg)

theorem statusOnly_setFi {f : Fld} (hf : f ∈ statusFields) (i v : Nat) (b : Block) : StatusOnly b (b.setFi f i v) where
  frame := rfl
  fields g j hg := by
    refine getFi_setFi_other (fun he => hg ?_) b i v j
    rw [he]
    exact List.mem_map_of_mem hf

theorem statusOnly_setLevel (n : Nat) (on : Bool) (b : Block) : StatusOnly b (setLevel n on b) where
  frame := (setLevel_signalsOnly n on b).frame
  fields g j hg := by
    refine (setLevel_signalsOnly n on b).fields g j fun he => hg ?_
    rw [he]
    decide

/-- A change that depends on a condition. -/
theorem StatusOnly.ite {a b c : Block} {p : Prop} [Decidable p] (h : StatusOnly a b) (h' : StatusOnly b c) :
    StatusOnly a (if p then c else b) := by
  split
  · exact h.trans h'
  · exact h

theorem settlePower_statusOnly (b : Block) : StatusOnly b (settlePower b) := by
  have hset : ∀ {f : Fld}, f ∈ statusFields → ∀ v b, StatusOnly b (b.setF f v) := fun hf v b => statusOnly_setFi hf 0 v b
  have hbump : ∀ {f : Fld}, f ∈ statusFields → ∀ b, StatusOnly b (b.bump f) := fun hf b => statusOnly_setFi hf 0 _ b
  unfold settlePower
  dsimp only
  refine StatusOnly.trans ?_ (statusOnly_setLevel _ _ _)
  refine StatusOnly.trans ?_ (hset (f := F.PMC_STAT_eq_broken) (by decide) _ _)
  refine StatusOnly.ite ?_ ((hset (f := F.PMC_STAT_eq_broken_seen) (by decide) _ _).trans (hbump (f := F.PMC_CNT_eq_breaks) (by decide) _))
  refine StatusOnly.trans ?_ (hset (f := F.PMC_STAT_thermal) (by decide) _ _)
  exact StatusOnly.ite (hset (f := F.PMC_STAT_ceil_mhz) (by decide) _ _) (hbump (f := F.PMC_CNT_throttles) (by decide) _)

/-- What a domain asks for in a sample: compute, the share of the windows that are open at the least (R423). -/
def sampleDemand (m : PowerSample) (b : Block) (d : Nat) : Nat :=
  if d = 0 then m.demandLinks else if d = 1 then m.demandMem else max m.demandCompute (hintShare b * capWatts b / 100)

/-- The shares of a sample. -/
def sampleShares (m : PowerSample) (b : Block) : List (Nat × Nat) :=
  shareBudget (sampleDemand m b) (domOrder b) (capWatts b - m.fixed)

theorem pmcSample_spec (m : PowerSample) (b : Block) :
    let b' := pmcSample m b
    let gs := sampleShares m b
    (100 ≤ b'.pmc.capMhz ∧ b'.pmc.capMhz ≤ 700) ∧ b'.pmc.give = (givenTo gs 0, givenTo gs 1, givenTo gs 2) ∧
    b'.getF F.PMC_POWER_input_w = min m.input 0xFFFF ∧ b'.getF F.PMC_POWER_compute_w = min m.computeW 0xFFF ∧
    b'.getF F.PMC_POWER_mem_w = min m.memW 0xFFF ∧ b'.getF F.PMC_POWER_links_w = min m.linksW 0xFFF ∧
    b'.getF F.PMC_POWER_fixed_w = min m.fixed 0xFFF ∧ b'.ses = b.ses ∧ b'.fe = b.fe ∧ b'.ste = b.ste := by
  have hshown : ∀ (f : Fld) (n k : Nat) (b : Block), k < 2 ^ f.width → (b.setF f (min n k)).getF f = min n k :=
    fun f n k b hk => (getF_setF_self b f _).trans (Nat.mod_eq_of_lt (by omega))
  unfold pmcSample
  dsimp only
  refine ⟨?_, ?_, ?_, ?_, ?_, ?_, ?_, ?_, ?_, ?_⟩
  · rw [(settlePower_statusOnly _).frame]
    exact ceilingFor_bounds _ _ _
  · rw [(settlePower_statusOnly _).frame]
    rfl
  · refine ((settlePower_statusOnly _).fields F.PMC_POWER_input_w 0 (by decide)).trans ?_
    simp (disch := decide) only [getFi_setF_other]
    exact hshown _ _ _ _ (by decide)
  · refine ((settlePower_statusOnly _).fields F.PMC_POWER_compute_w 0 (by decide)).trans ?_
    simp (disch := decide) only [getFi_setF_other]
    exact hshown _ _ _ _ (by decide)
  · refine ((settlePower_statusOnly _).fields F.PMC_POWER_mem_w 0 (by decide)).trans ?_
    simp (disch := decide) only [getFi_setF_other]
    exact hshown _ _ _ _ (by decide)
  · refine ((settlePower_statusOnly _).fields F.PMC_POWER_links_w 0 (by decide)).trans ?_
    simp (disch := decide) only [getFi_setF_other]
    exact hshown _ _ _ _ (by decide)
  · refine ((settlePower_statusOnly _).fields F.PMC_POWER_fixed_w 0 (by decide)).trans ?_
    exact hshown _ _ _ _ (by decide)
  · rw [(settlePower_statusOnly _).frame]
    rfl
  · rw [(settlePower_statusOnly _).frame]
    rfl
  · rw [(settlePower_statusOnly _).frame]
    rfl

/-! ### Energy (R424) -/

/-- Energy charged to rings in proportion to their tokens. -/
def chargeRings (energy total : Nat) (rings : List (Nat × Nat)) (b : Block) : Block :=
  rings.foldl (fun b r => b.bumpFi F.PMC_E_RING_energy_uj (r.1 % 65536) (energy * r.2 / total)) b

theorem chargeRings_frame (energy total : Nat) (rings : List (Nat × Nat)) (b : Block) :
    chargeRings energy total rings b = { b with flds := (chargeRings energy total rings b).flds } := by
  induction rings generalizing b with
  | nil => rfl
  | cons r rings ih =>
    rw [chargeRings, List.foldl_cons]
    exact ih _

theorem chargeRings_other {g : Fld} (hg : g.key ≠ F.PMC_E_RING_energy_uj.key) (energy total : Nat) (rings : List (Nat × Nat))
    (b : Block) (j : Nat) : (chargeRings energy total rings b).getFi g j = b.getFi g j :=
  foldl_keeps (fun b => b.getFi g j) (fun b _ => getFi_bumpFi_other hg b _ _ j) rings b

theorem getFi_bumpFi_place {f : Fld} {i j : Nat} (h : j ≠ i) (b : Block) (n : Nat) : (b.bumpFi f i n).getFi f j = b.getFi f j :=
  getFi_setFi_ne b f f i j _ fun he => h (Prod.mk.inj he).2

theorem chargeRings_unlisted {energy total r : Nat} {rings : List (Nat × Nat)} (hsmall : ∀ e ∈ rings, e.1 < 65536)
    (hr : r ∉ rings.map (·.1)) (b : Block) :
    (chargeRings energy total rings b).getFi F.PMC_E_RING_energy_uj r = b.getFi F.PMC_E_RING_energy_uj r := by
  induction rings generalizing b with
  | nil => rfl
  | cons e rings ih =>
    obtain ⟨hne, hrest⟩ := not_or.1 (mt List.mem_cons.2 hr)
    have hplace : r ≠ e.1 % 65536 := by rwa [Nat.mod_eq_of_lt (hsmall e List.mem_cons_self)]
    rw [chargeRings, List.foldl_cons]
    exact (ih (fun e' he => hsmall e' (List.mem_cons_of_mem _ he)) hrest _).trans (getFi_bumpFi_place hplace b _)

theorem chargeRings_listed {energy total : Nat} {rings : List (Nat × Nat)} (hsmall : ∀ e ∈ rings, e.1 < 65536)
    (hnodup : (rings.map (·.1)).Nodup) (b : Block) {e : Nat × Nat} (he : e ∈ rings) :
    (chargeRings energy total rings b).getFi F.PMC_E_RING_energy_uj e.1 =
      min (b.getFi F.PMC_E_RING_energy_uj e.1 + energy * e.2 / total) (2 ^ F.PMC_E_RING_energy_uj.width - 1) := by
  induction rings generalizing b with
  | nil => exact absurd he List.not_mem_nil
  | cons r rings ih =>
    obtain ⟨hfresh, hrest⟩ := List.nodup_cons.1 hnodup
    have hr : r.1 % 65536 = r.1 := Nat.mod_eq_of_lt (hsmall r List.mem_cons_self)
    have hlater : ∀ e' ∈ rings, e'.1 < 65536 := fun e' he' => hsmall e' (List.mem_cons_of_mem _ he')
    rw [chargeRings, List.foldl_cons, hr]
    obtain rfl | hold := List.mem_cons.1 he
    · exact (chargeRings_unlisted hlater hfresh _).trans (getFi_bumpFi_self _ _ _ _)
    · have hne : e.1 ≠ r.1 := fun heq => hfresh (List.mem_map.2 ⟨e, hold, heq⟩)
      exact (ih hlater hrest _ hold).trans (by rw [getFi_bumpFi_place hne])

theorem chargeEnergy_step {t energy : Nat} {rings : List (Nat × Nat)} {b : Block} (ht : t < 4096) :
    chargeEnergy (.step t energy rings) b =
      chargeRings energy (rings.map (·.2)).sum rings (b.bumpFi F.PMC_E_TEN_energy_uj t energy) := by
  rw [chargeEnergy, Nat.mod_eq_of_lt ht]
  rfl

/-- Settles O51: shares in order keep the floors and the budget by induction over the order; ring energies by induction
over the rings. -/
theorem powerIsSharedAndCounted : Obligations.PowerIsSharedAndCounted := by
  refine ⟨⟨fun b demand budget horder hroom => ?_, fun s m hup => ?_⟩, fun s k hup hk => ?_, fun s t energy hup ht => ?_,
    fun s t r energy hup ht hr => ?_, fun s t energy rings hup ht hsmall hnodup _ => ?_, fun s energy hup => ?_⟩
  · have hperm := domOrder_perm horder
    have hfloors : ((domOrder b).map domFloor).sum = 380 := (hperm.map domFloor).sum_eq
    refine ⟨?_, fun d hd => shareBudget_bounds demand (domOrder b) budget _ (givenTo_spec hperm budget hd),
      fun d hd => givenTo_first hperm budget hd⟩
    rw [givenTo_sum hperm budget]
    exact shareBudget_sum demand (hfloors ▸ hroom)
  · obtain ⟨⟨hlow, hhigh⟩, hgive, hrest⟩ := pmcSample_spec m s.toBlock
    exact ⟨_, by rw [exec_pmcSample, act_up _ rfl hup], hlow, hhigh, hgive, hrest⟩
  · rw [exec_supplyDroop, act_up _ (show (UnitRef.spoke k).wf = true from decide_eq_true hk) hup]
  · rw [exec_energyUpdate, act_up _ rfl hup, chargeEnergy, Nat.mod_eq_of_lt ht]
  · rw [exec_energyUpdate, act_up _ rfl hup, chargeEnergy, Nat.mod_eq_of_lt ht, Nat.mod_eq_of_lt hr]
  · refine ⟨_, by rw [exec_energyUpdate, act_up _ rfl hup, chargeEnergy_step ht], ?_, fun e he => ?_, fun r hr => ?_, ?_⟩
    · rw [chargeRings_other (by decide), getFi_bumpFi_self]
    · rw [chargeRings_listed hsmall hnodup _ he, getFi_bumpFi_other (by decide)]
    · rw [chargeRings_unlisted hsmall hr, getFi_bumpFi_other (by decide)]
    · rw [chargeRings_frame]
      rfl
  · rw [exec_energyUpdate, act_up _ rfl hup, chargeEnergy]

/-! ### Temperature (R426, R427) -/

theorem sensorUnit_wf {i : Nat} (h : i < numSensors) : (UnitRef.sensor i).wf = true := decide_eq_true h

theorem siteUnit_wf {site : Nat} (h : site < 22) : (UnitRef.sensor site).wf = true := sensorUnit_wf (h.trans (by decide))

theorem tempOf_toNat (t : BitVec 11) : tempOf t.toNat = t.toInt := by
  have hsize : t.toNat < 2048 := t.isLt
  simp only [tempOf, BitVec.toInt, Int.ofNat_eq_natCast]
  split <;> split <;> omega

/-- A sensor as a temperature leaves it. -/
def sensed (i temp : Nat) (x : Sensor) : Sensor :=
  let hot := decide (Int.ofNat (8 * x.throttleC) ≤ tempOf temp)
  let trip := decide (Int.ofNat (8 * min x.tripC (sensorReset i).tripC) ≤ tempOf temp)
  { x with temp := temp, throttling := hot, tripped := hot && (trip || x.tripped) }

/-- With THERM_TRIP_N driven already, or before boot, a trip starts nothing. -/
theorem senseTemp_quiet {i temp : Nat} {b : Block} (h : tripDriven b = true ∨ b.up = false) :
    senseTemp i temp b = setSensor i (sensed i temp (sensor b i)) b := by
  have hquiet : ¬ ((tripDriven (setSensor i (sensed i temp (sensor b i)) b) && !tripDriven b && b.up) = true) := by
    obtain h | h := h <;> simp [h]
  rw [senseTemp]
  exact if_neg hquiet

/-! ### Limits (R426) -/

theorem settlePower_pmc (b : Block) : (settlePower b).pmc = b.pmc := by rw [(settlePower_statusOnly b).frame]

/-- A site's limit set: at its full value it is none. -/
theorem thermalLimit_setLimit (site v n : Nat) (b : Block) :
    thermalLimit (setLimit site v b) n = if n = site then min fullLimit v else thermalLimit b n := by
  have hlimits : (setLimit site v b).pmc.limits =
      if fullLimit ≤ v then tdel b.pmc.limits site else tset b.pmc.limits site v := by
    rw [setLimit, settlePower_pmc]
    rfl
  rw [thermalLimit, hlimits]
  split
  · next hfull =>
    rw [tgetD_tdel, Nat.min_eq_left hfull]
    rfl
  · next hless =>
    rw [tgetD_tset, Nat.min_eq_right (Nat.le_of_not_le hless)]
    rfl

theorem thermalLimit_throttleDown {site : Nat} {b : Block} (hlimit : thermalLimit b site ≤ fullLimit) (n : Nat) :
    thermalLimit (throttleDown site b) n =
      if n = site ∧ ∃ i ∈ siteSensors site, (sensor b i).throttling = true then
        max (limitFloor site) (thermalLimit b site - 210)
      else thermalLimit b n := by
  have hbelow : max (limitFloor site) (thermalLimit b site - 210) ≤ fullLimit := by
    have hfloor : limitFloor site ≤ fullLimit := by
      unfold limitFloor fullLimit
      split <;> decide
    omega
  by_cases hhot : ∃ i ∈ siteSensors site, (sensor b i).throttling = true
  · rw [throttleDown, if_pos (List.any_eq_true.2 hhot), thermalLimit_setLimit, Nat.min_eq_right hbelow]
    simp only [hhot, and_true]
  · rw [throttleDown, if_neg (mt List.any_eq_true.1 hhot)]
    simp only [hhot, and_false, if_false]

theorem thermalLimit_throttleUp (site : Nat) (b : Block) (n : Nat) :
    thermalLimit (throttleUp site b) n =
      if n = site ∧ ∀ i ∈ siteSensors site, tempOf (sensor b i).temp < Int.ofNat (8 * (sensor b i).throttleC) - 24 then
        min fullLimit (thermalLimit b site + 210)
      else thermalLimit b n := by
  have hall : ((siteSensors site).all fun i => decide (tempOf (sensor b i).temp < Int.ofNat (8 * (sensor b i).throttleC) - 24)) = true ↔
      ∀ i ∈ siteSensors site, tempOf (sensor b i).temp < Int.ofNat (8 * (sensor b i).throttleC) - 24 := by
    simp only [List.all_eq_true, decide_eq_true_eq]
  by_cases hcool : ∀ i ∈ siteSensors site, tempOf (sensor b i).temp < Int.ofNat (8 * (sensor b i).throttleC) - 24
  · rw [throttleUp, if_pos (hall.2 hcool), thermalLimit_setLimit]
    by_cases hn : n = site
    · rw [if_pos hn, if_pos ⟨hn, hcool⟩]
    · rw [if_neg hn, if_neg fun h => hn h.1]
  · rw [throttleUp, if_neg (mt hall.1 hcool), if_neg fun h => hcool h.2]

/-! ### The hard brake (R428) -/

/-- The brake's cause, counted and signalled. -/
def brakeSignalled (cause : Nat) (b : Block) : Block := fire Src.pmcBraked ((b.setF F.PMC_STAT_cause cause).bump F.PMC_CNT_brakes)

theorem brakeSignalled_other {g : Fld} (hcause : g.key ≠ F.PMC_STAT_cause.key) (hcount : g.key ≠ F.PMC_CNT_brakes.key)
    (hprio : g.key ≠ F.INT_TGT_STAT_msg_prio.key) (cause : Nat) (b : Block) : (brakeSignalled cause b).getF g = b.getF g := by
  rw [brakeSignalled, (fire_signalsOnly _ _).getF hprio]
  exact (getFi_bump_ne _ 0 hcount).trans (getFi_setF_other hcause b cause 0)

theorem brakeSignalled_cause {cause : Nat} (h : cause < 4) (b : Block) : (brakeSignalled cause b).getF F.PMC_STAT_cause = cause := by
  rw [brakeSignalled, (fire_signalsOnly _ _).getF (by decide)]
  exact (getFi_bump_ne _ 0 (by decide)).trans ((getFi_setFi_self b F.PMC_STAT_cause 0 cause).trans (Nat.mod_eq_of_lt h))

theorem startBrake_running {cause : Nat} {b : Block} (hrun : b.getF F.PMC_STAT_pstate = psRun) (hcmd : b.getF F.PMC_CMD_state ≠ 1) :
    startBrake cause b = (brakeSignalled cause b).setF F.PMC_STAT_pstate psBraking := by
  have hcmd' : ¬ (brakeSignalled cause b).getF F.PMC_CMD_state = 1 := by
    rwa [brakeSignalled_other (by decide) (by decide) (by decide)]
  unfold startBrake
  dsimp only
  rw [hrun, if_neg (by decide), ← brakeSignalled, if_neg hcmd', if_neg (by decide)]

theorem startBrake_leaving {cause : Nat} {b : Block} (hleaving : b.getF F.PMC_STAT_pstate = psLeaving)
    (hcmd : b.getF F.PMC_CMD_state = 1) :
    startBrake cause b =
      (((brakeSignalled cause b).setF F.PMC_CMD_state 3).setF F.PMC_CMD_err 4).setF F.PMC_STAT_pstate psBraking := by
  have hcmd' : (brakeSignalled cause b).getF F.PMC_CMD_state = 1 := by
    rwa [brakeSignalled_other (by decide) (by decide) (by decide)]
  unfold startBrake
  dsimp only
  rw [hleaving, if_neg (by decide), ← brakeSignalled, if_pos hcmd', if_neg (by decide)]

theorem coolantFalls_running {b : Block} (hup : b.up = true) (hrun : b.getF F.PMC_STAT_pstate = psRun)
    (hcmd : b.getF F.PMC_CMD_state ≠ 1) :
    coolantFalls b = (brakeSignalled 1 { b with pmc := { b.pmc with coolantOk := false, okUs := 0 } }).setF
      F.PMC_STAT_pstate psBraking := (if_pos hup).trans (startBrake_running hrun hcmd)

theorem tripFalls_running {b : Block} (hup : b.up = true) (hrun : b.getF F.PMC_STAT_pstate = psRun)
    (hcmd : b.getF F.PMC_CMD_state ≠ 1) :
    tripFalls b = (brakeSignalled 2 { b with pmc := { b.pmc with tripLow := true } }).setF F.PMC_STAT_pstate psBraking :=
  (if_pos hup).trans (startBrake_running hrun hcmd)

theorem enterBraked_braking {b : Block} (h : b.getF F.PMC_STAT_pstate = psBraking) :
    enterBraked b = (setRails wheelRails false (b.ste.pelotons.foldl (fun b e => brakeStep e.1 e.2 b) (stopSpokes b))).setF
      F.PMC_STAT_pstate psBraked := by
  rw [enterBraked, if_neg (not_not.2 h)]

theorem enterBraked_other {b : Block} (h : b.getF F.PMC_STAT_pstate ≠ psBraking) : enterBraked b = b := by
  rw [enterBraked, if_pos h]

theorem setRails_off (rails : List Nat) (b : Block) : ∀ r ∈ rails, r ∉ (setRails rails false b).mod.railsUp := by
  intro r hr hup
  have hkept : (!rails.contains r) = true := (List.mem_filter.1 hup).2
  rw [List.contains_iff_mem.2 hr] at hkept
  exact absurd hkept (by decide)

/-- Settles O52: limits by what `setLimit` sets, the brake by the power state it meets. -/
theorem heatLimitsAndBrakes : Obligations.HeatLimitsAndBrakes := by
  refine ⟨⟨fun s i temp hi => ⟨?_, ?_, ?_⟩, fun b i temp hquiet => ?_, fun s site hup hsite hlimit => ?_⟩,
    fun s hup hrun hcmd => ⟨?_, ?_⟩, fun b cause hleaving hcmd hcause => ?_, fun s => ⟨?_, ?_⟩, fun s hup hbraking => ?_,
    fun s hup hother => ?_⟩
  · rw [exec_throttleSet, actB_wf _ (sensorUnit_wf hi)]
  · rw [exec_sensorTrip, actB_wf _ (sensorUnit_wf hi)]
  · rw [exec_sensorBelowThrottle, actB_wf _ (sensorUnit_wf hi)]
  · refine ⟨sensed i temp.toNat (sensor b i), senseTemp_quiet hquiet, rfl, rfl, rfl, ?_, ?_⟩
    · simp only [sensed, tempOf_toNat, decide_eq_true_eq]
    · simp only [sensed, tempOf_toNat, Bool.and_eq_true, Bool.or_eq_true, decide_eq_true_eq]
  · refine ⟨_, _, by rw [exec_throttleStepDown, act_up _ (siteUnit_wf hsite) hup],
      by rw [exec_throttleStepUp, act_up _ (siteUnit_wf hsite) hup], ?_, ?_, fun n hn => ⟨?_, ?_⟩⟩
    · rw [thermalLimit_throttleDown hlimit]
      simp only [true_and]
    · rw [thermalLimit_throttleUp]
      simp only [true_and]
    · rw [thermalLimit_throttleDown hlimit, if_neg fun h => hn h.1]
    · rw [thermalLimit_throttleUp, if_neg fun h => hn h.1]
  · rw [exec_coolantOkFall, actB_wf _ rfl, coolantFalls_running hup hrun hcmd]
    rfl
  · rw [exec_thermTripNLow, actB_wf _ rfl, tripFalls_running hup hrun hcmd]
    rfl
  · rw [startBrake_leaving hleaving hcmd]
    refine ⟨getF_setF_self _ F.PMC_STAT_pstate psBraking, ?_, ?_, ?_⟩
    · simp (disch := decide) only [getF_setF_other]
      exact brakeSignalled_cause hcause b
    · simp (disch := decide) only [getF_setF_other]
      exact getF_setF_self _ F.PMC_CMD_state 3
    · rw [getF_setF_other (by decide)]
      exact getF_setF_self _ F.PMC_CMD_err 4
  · rw [exec_coolantOkRise, actB_wf _ rfl]
    rfl
  · rw [exec_thermTripNRise, actB_wf _ rfl]
    rfl
  · refine ⟨_, by rw [exec_brakedEnter, act_up _ rfl hup, enterBraked_braking hbraking], getF_setF_self _ F.PMC_STAT_pstate psBraked,
      fun r hr => ?_, rfl⟩
    exact setRails_off _ _ r hr
  · rw [exec_brakedEnter, act_up _ rfl hup, enterBraked_other hother]
    rfl

/-! ### The ends of the brake and of STANDBY (R430, R431, Table 18.10) -/

theorem unbrakeErr_early {b : Block} (h : b.getF F.PMC_STAT_pstate ≠ psBraked) : unbrakeErr b = 4 := if_pos h

/-- COOLANT_OK has been high for two seconds. -/
theorem coolantGood {b : Block} (hok : b.pmc.coolantOk = true) (hlong : 2000000 ≤ b.pmc.okUs) :
    ¬ (b.pmc.coolantOk = false ∨ b.pmc.okUs < 2000000) := by simp [hok, Nat.not_lt.2 hlong]

section Braked

variable {b : Block} (hbraked : b.getF F.PMC_STAT_pstate = psBraked)
include hbraked

theorem unbrakeErr_coolant (h : b.pmc.coolantOk = false ∨ b.pmc.okUs < 2000000) : unbrakeErr b = 1 := by
  rw [unbrakeErr, if_neg (not_not.2 hbraked), if_pos h]

variable (hok : b.pmc.coolantOk = true) (hlong : 2000000 ≤ b.pmc.okUs)
include hok hlong

theorem unbrakeErr_trip (h : tripIsLow b = true) : unbrakeErr b = 2 := by
  rw [unbrakeErr, if_neg (not_not.2 hbraked), if_neg (coolantGood hok hlong), if_pos (Or.inl h)]

theorem unbrakeErr_none (htrip : tripIsLow b = false) (hcool : ∀ e ∈ b.pmc.sensors, e.2.throttling = false) : unbrakeErr b = 0 := by
  have hheat : ¬ (tripIsLow b = true ∨ (b.pmc.sensors.any fun e => e.2.throttling) = true) := by
    rw [List.any_eq_true]
    rintro (h | ⟨e, he, hhot⟩)
    · exact absurd (h.symm.trans htrip) (by decide)
    · exact absurd (hhot.symm.trans (hcool e he)) (by decide)
  rw [unbrakeErr, if_neg (not_not.2 hbraked), if_neg (coolantGood hok hlong), if_neg hheat]

end Braked

theorem unbrake_leaves {b : Block} (h : unbrakeErr b = 0) (hrun : b.pmc.fromStandby = false) :
    unbrake b = ((b.setF F.PMC_STAT_pstate psLeaving).setF F.PMC_CMD_state 1).setF F.PMC_CMD_err 0 := by
  simp only [unbrake, h, hrun, Bool.false_eq_true, if_false]

theorem unbrake_refused {b : Block} {e : Nat} (h : unbrakeErr b = e + 1) : unbrake b = pmcEnds (e + 1) b := by
  simp only [unbrake, h]

theorem exec_unbrake_mgmt {s : State} (hup : s.toBlock.up = true) : exec (.unbrake .mgmt) s = .next (s.put (unbrake s.toBlock)) := by
  rw [exec_unbrake, act_up _ rfl hup, if_pos isMgmt_mgmt]

theorem exec_standby_mgmt {s : State} (hup : s.toBlock.up = true) :
    exec (.standby .mgmt) s = .next (s.put (rest (standby s.toBlock))) := by
  rw [exec_standby, actR_up _ rfl hup, if_pos isMgmt_mgmt]

theorem leaveComplete_leaving {b : Block} (h : b.getF F.PMC_STAT_pstate = psLeaving) :
    leaveComplete b =
      let b' := pmcEnds 0 ((setRails wheelRails true b).setF F.PMC_STAT_pstate psRun)
      if b.isSet F.CMP_ID_isolated then b' else resumeWork b' := by
  have hfenced : (pmcEnds 0 ((setRails wheelRails true b).setF F.PMC_STAT_pstate psRun)).isSet F.CMP_ID_isolated =
      b.isSet F.CMP_ID_isolated := by
    simp (disch := decide) only [Block.isSet, pmcEnds, getF_setF_other]
    rfl
  rw [leaveComplete, if_neg (not_not.2 h)]
  dsimp only
  rw [hfenced]

/-- A port taken out of service as the module enters STANDBY: fields of other registers are as they were. -/
theorem standbyPort_other {g : Fld} (hstate : g.key ≠ F.FLL_PORT_STAT_state.key) (hprio : g.key ≠ F.INT_TGT_STAT_msg_prio.key)
    (p st : Nat) (b : Block) (j : Nat) : (standbyPort p st b).getFi g j = b.getFi g j := by
  unfold standbyPort
  split
  · rfl
  · rw [(fire_signalsOnly _ _).fields g j hprio]
    exact getFi_setFi_other hstate b p st j

theorem standbyPort_state {st : Nat} (hst : st < 8) (p j : Nat) (b : Block) :
    (standbyPort p st b).getFi F.FLL_PORT_STAT_state j = if j = p then st else b.getFi F.FLL_PORT_STAT_state j := by
  unfold standbyPort
  split
  · next hsame =>
    split
    · next hj => rw [hj, hsame]
    · rfl
  · rw [(fire_signalsOnly _ _).fields _ _ (by decide)]
    split
    · next hj =>
      rw [hj]
      exact (getFi_setFi_self b F.FLL_PORT_STAT_state p st).trans (Nat.mod_eq_of_lt hst)
    · next hj => exact getFi_setFi_ne b F.FLL_PORT_STAT_state F.FLL_PORT_STAT_state p j st fun he => hj (Prod.mk.inj he).2

/-- Ports taken down one after the other. -/
def portsDown (ps : List Nat) (b : Block) : Block := ps.foldl (fun b p => standbyPort p psDown b) b

theorem portsDown_state (ps : List Nat) (j : Nat) (b : Block) :
    (portsDown ps b).getFi F.FLL_PORT_STAT_state j = if j ∈ ps then psDown else b.getFi F.FLL_PORT_STAT_state j := by
  induction ps generalizing b with
  | nil => simp [portsDown]
  | cons p ps ih =>
    rw [portsDown, List.foldl_cons]
    refine (ih _).trans ?_
    rw [standbyPort_state (by decide)]
    by_cases hlater : j ∈ ps
    · rw [if_pos hlater, if_pos (List.mem_cons_of_mem _ hlater)]
    · rw [if_neg hlater]
      simp only [List.mem_cons, hlater, or_false]

theorem portsDown_other {g : Fld} (hstate : g.key ≠ F.FLL_PORT_STAT_state.key) (hprio : g.key ≠ F.INT_TGT_STAT_msg_prio.key)
    (ps : List Nat) (b : Block) (j : Nat) : (portsDown ps b).getFi g j = b.getFi g j :=
  foldl_keeps (fun b => b.getFi g j) (fun b p => standbyPort_other hstate hprio p psDown b j) ps b

/-- The ports as STANDBY has them: 1 to 17 down, port 0 idle at half width where it was up (R431). -/
def standbyPorts (b : Block) : Block :=
  if portUp (portsDown otherPorts b) 0 then standbyPort 0 psDegraded (portsDown otherPorts b) else portsDown otherPorts b

theorem standbyPorts_other {g : Fld} (hstate : g.key ≠ F.FLL_PORT_STAT_state.key) (hprio : g.key ≠ F.INT_TGT_STAT_msg_prio.key)
    (b : Block) (j : Nat) : (standbyPorts b).getFi g j = b.getFi g j := by
  unfold standbyPorts
  split
  · rw [standbyPort_other hstate hprio, portsDown_other hstate hprio]
  · exact portsDown_other hstate hprio _ b j

theorem standbyPorts_down {p : Nat} (hp : p ∈ otherPorts) (b : Block) :
    (standbyPorts b).getFi F.FLL_PORT_STAT_state p = psDown := by
  have hdown : (portsDown otherPorts b).getFi F.FLL_PORT_STAT_state p = psDown := by rw [portsDown_state, if_pos hp]
  have hzero : p ≠ 0 := fun h0 => absurd (h0 ▸ hp) (by decide)
  unfold standbyPorts
  split
  · rw [standbyPort_state (by decide), if_neg hzero, hdown]
  · exact hdown

/-- The rest of STANDBY: no chain on any Spoke, the wheel rails off, the command done. -/
def fallAsleep (b : Block) : Block := pmcEnds 0 (setRails wheelRails false { b with spk := { b.spk with spokes := [] } })

/-- The module in STANDBY. -/
def inStandby (b : Block) : Block := fallAsleep (standbyPorts (b.setF F.PMC_STAT_pstate pstateStandby))

theorem standby_idle {b : Block} (hrun : b.getF F.PMC_STAT_pstate = psRun) (hidle : standbyIdle b = true) :
    standby b = inStandby b := by
  unfold standby inStandby fallAsleep standbyPorts portsDown
  rw [if_neg (not_not.2 hrun), if_neg (by rw [hidle]; decide)]

theorem standby_busy {b : Block} (hrun : b.getF F.PMC_STAT_pstate = psRun) (hbusy : standbyIdle b = false) :
    standby b = pmcEnds 3 b := by
  rw [standby, if_neg (not_not.2 hrun), if_pos hbusy]

theorem standby_notRun {b : Block} (h : b.getF F.PMC_STAT_pstate ≠ psRun) : standby b = pmcEnds 4 b := by
  rw [standby, if_pos h]

theorem getF_pmcEnds {g : Fld} (hstate : g.key ≠ F.PMC_CMD_state.key) (herr : g.key ≠ F.PMC_CMD_err.key) (e : Nat) (b : Block)
    (j : Nat) : (pmcEnds e b).getFi g j = b.getFi g j := by
  rw [pmcEnds, getFi_setF_other herr, getFi_setF_other hstate]

theorem fallAsleep_spec (b : Block) :
    (fallAsleep b).spk.spokes = [] ∧ (∀ r ∈ wheelRails, r ∉ (fallAsleep b).mod.railsUp) ∧
    (fallAsleep b).getF F.PMC_CMD_state = 2 ∧
    ∀ (g : Fld) (j : Nat), g.key ≠ F.PMC_CMD_state.key → g.key ≠ F.PMC_CMD_err.key → (fallAsleep b).getFi g j = b.getFi g j := by
  refine ⟨rfl, setRails_off _ _, ?_, fun g j hstate herr => getF_pmcEnds hstate herr 0 _ j⟩
  rw [fallAsleep, pmcEnds, getF_setF_other (by decide)]
  exact getF_setF_self _ F.PMC_CMD_state 2

theorem inStandby_spec (b : Block) :
    (inStandby b).getF F.PMC_STAT_pstate = pstateStandby ∧ (inStandby b).spk.spokes = [] ∧
    (∀ r ∈ wheelRails, r ∉ (inStandby b).mod.railsUp) ∧ (inStandby b).getF F.PMC_CMD_state = 2 ∧
    ∀ p ∈ otherPorts, (inStandby b).getFi F.FLL_PORT_STAT_state p = psDown := by
  obtain ⟨hspokes, hrails, hdone, hfields⟩ := fallAsleep_spec (standbyPorts (b.setF F.PMC_STAT_pstate pstateStandby))
  refine ⟨?_, hspokes, hrails, hdone, fun p hp => ?_⟩
  · exact (hfields F.PMC_STAT_pstate 0 (by decide) (by decide)).trans ((standbyPorts_other (by decide) (by decide) _ 0).trans
      (getF_setF_self b F.PMC_STAT_pstate pstateStandby))
  · exact (hfields F.FLL_PORT_STAT_state p (by decide) (by decide)).trans (standbyPorts_down hp _)

/-- Settles O53: `unbrake` by its error, `standby` by the state of its ports (`inStandby_spec`), `wake` by the power state. -/
theorem brakeAndStandbyEnd : Obligations.BrakeAndStandbyEnd := by
  refine ⟨fun s hup hbraked hok hlong htrip hcool hrun => ?_,
    fun s hup => ⟨fun hearly => ?_, fun hbraked hcoolant => ?_, fun hbraked hok hlong htrip => ?_⟩, fun s hup hleaving => ?_,
    fun s hup hrun => ⟨fun hbusy => ?_, fun hidle => ⟨inStandby s.toBlock, ?_, inStandby_spec s.toBlock⟩⟩, fun s hup hnot => ?_,
    fun s hup => ?_, fun s t hup => ⟨?_, ?_, ?_⟩⟩
  · rw [exec_unbrake_mgmt hup, unbrake_leaves (unbrakeErr_none hbraked hok hlong htrip hcool) hrun]
  · rw [exec_unbrake_mgmt hup, unbrake_refused (unbrakeErr_early hearly)]
  · rw [exec_unbrake_mgmt hup, unbrake_refused (unbrakeErr_coolant hbraked hcoolant)]
  · rw [exec_unbrake_mgmt hup, unbrake_refused (unbrakeErr_trip hbraked hok hlong htrip)]
  · dsimp only
    rw [exec_leaveComplete, actR_up _ rfl hup, leaveComplete_leaving hleaving]
  · rw [exec_standby_mgmt hup, standby_busy hrun hbusy]
  · rw [exec_standby_mgmt hup, standby_idle hrun hidle]
  · rw [exec_standby_mgmt hup, standby_notRun hnot]
  · rw [exec_wake, actR_up _ rfl hup, wake]
    simp only [isMgmt_mgmt, Bool.true_eq_false, if_false, decide_eq_true_eq]
  · rw [exec_unbrake, act_up _ rfl hup]
    rfl
  · rw [exec_standby, actR_up _ rfl hup]
    rfl
  · rw [exec_wake, actR_up _ rfl hup]
    rfl

end Sys2Proof.Machine

/-! PROOFS of the families 18_power and 19_module_interface: the power sequence (O54), the board's reset, boot and services (O55). -/

namespace Sys2Proof.Machine

/-! ### What the internal reset keeps (R355, R440, R441) -/

theorem ftGet_none_of_not_mem {l : FieldTab} {j : Nat × Nat} (h : j ∉ l.map Prod.fst) : ftGet l j = none := by
  induction l with
  | nil => rfl
  | cons e l ih =>
    obtain ⟨hne, hrest⟩ := not_or.1 (mt List.mem_cons.2 h)
    rw [ftGet, if_neg hne, ih hrest]

/-- Fields set one after the other: each reads as it was set, every other as before. -/
theorem ftGet_foldl_ftSet {l : FieldTab} (hnodup : (l.map Prod.fst).Nodup) (t : FieldTab) (j : Nat × Nat) :
    ftGet (l.foldl (fun t e => ftSet t e.1 e.2) t) j = (ftGet l j).or (ftGet t j) := by
  induction l generalizing t with
  | nil => rfl
  | cons e l ih =>
    obtain ⟨hfresh, hrest⟩ := List.nodup_cons.1 hnodup
    rw [List.foldl_cons, ih hrest, ftGet_ftSet, ftGet]
    by_cases hj : j = e.1
    · have hnone : ftGet l j = none := by
        rw [hj]
        exact ftGet_none_of_not_mem hfresh
      rw [if_pos hj, if_pos hj, hnone, Option.none_or, Option.some_or]
    · rw [if_neg hj, if_neg hj]

/-- A field that a reset does not keep is at its reset value after it. -/
theorem getFi_resetBlock {f : Fld} (hf : ∀ g ∈ keptFields, g.key ≠ f.key) (b : Block) (i : Nat) :
    (resetBlock b).getFi f i = Block.reset.getFi f i := by
  have hkept : ftGet (b.flds.filter fun e => keptFields.any fun g => decide (e.1.1 = g.key)) (f.key, i) = none := by
    refine ftGet_none_of_not_mem fun hmem => ?_
    obtain ⟨e, he, hkey⟩ := List.mem_map.1 hmem
    obtain ⟨-, hany⟩ := List.mem_filter.1 he
    obtain ⟨g, hg, hsame⟩ := List.any_eq_true.1 hany
    exact hf g hg ((of_decide_eq_true hsame).symm.trans (congrArg Prod.fst hkey))
  rw [Block.getFi, resetBlock]
  dsimp only
  rw [ftGet_foldl_ftSet (by decide), hkept, Option.or_none]
  rfl

theorem setF_up (f : Fld) (v : Nat) (b : Block) : (b.setF f v).up = b.up := rfl

/-! ### The power sequence (R438 to R440, Tables 19.5, 19.6) -/

theorem vinApplied_dead {mv : Nat} {b : Block} (hfine : b.mod.overvolt = false) (hlow : 38500 ≤ mv) (hhigh : mv < 58000)
    (hdead : b.mod.stage = .dead) :
    vinApplied mv b = { b with mod := { b.mod with vinMv := mv, stage := if b.mod.pwrEn then .up 2 else .input } } := by
  have hrange : ¬ (b.mod.overvolt = true ∨ mv < 38500 ∨ 58000 ≤ mv) := by
    rw [hfine]
    simp only [Bool.false_eq_true, false_or]
    omega
  rw [vinApplied, if_neg hrange]
  exact if_pos (Or.inl hdead)

theorem pwrEnRises_input {b : Block} (h : b.mod.stage = .input) :
    pwrEnRises b = { b with mod := { b.mod with pwrEn := true, stage := .up 2 } } := if_pos h

theorem powerReset_spec (cause : Nat) (b : Block) :
    (powerReset cause b).up = false ∧ (powerReset cause b).mod.pwrGood = false ∧ (powerReset cause b).mod.released = false ∧
    (powerReset cause b).mod.pwrEn = b.mod.pwrEn ∧ (powerReset cause b).mod.railsUp = b.mod.railsUp ∧
    (powerReset cause b).mod.overvolt = b.mod.overvolt ∧ (powerReset cause b).cmem = b.cmem ∧
    (powerReset cause b).rtp = rtpKept b ∧ (powerReset cause b).ses.slots = [] ∧ (powerReset cause b).fe.reqs = [] :=
  ⟨rfl, rfl, rfl, rfl, rfl, rfl, rfl, rfl, rfl, rfl⟩

theorem powerReset_cause {cause : Nat} (h : cause < 8) (b : Block) :
    (powerReset cause b).getF F.MOD_BOARD_reset_cause = cause ∧ (powerReset cause b).getF F.MOD_BOARD_fault_rail = 0 := by
  rw [powerReset]
  constructor
  · rw [getF_setF_other (by decide)]
    exact (getF_setF_self _ F.MOD_BOARD_reset_cause cause).trans (Nat.mod_eq_of_lt h)
  · exact getF_setF_self _ F.MOD_BOARD_fault_rail 0

theorem setStage_mod (st : PowerStage) (b : Block) : (setStage st b).mod = { b.mod with stage := st } := rfl

theorem setStage_up (st : PowerStage) (b : Block) : (setStage st b).up = b.up := rfl

theorem getF_setStage (st : PowerStage) (b : Block) (g : Fld) : (setStage st b).getF g = b.getF g := rfl

/-- The module with PWR_EN low. -/
def disabled (b : Block) : Block := { b with mod := { b.mod with pwrEn := false } }

theorem pwrEnFalls_good {b : Block} (h : b.mod.stage = .good) :
    pwrEnFalls b = setStage (.down 2) (powerReset 2 (disabled b)) := by
  have hdown : downFrom b.mod.stage = .down 2 := by
    rw [h]
    rfl
  have hfalls : ¬ downFrom b.mod.stage = b.mod.stage := by
    rw [h]
    decide
  rw [← hdown]
  exact if_neg hfalls

/-! ### A loss of power (R435) -/

/-- The rails that a loss of power takes down. -/
def lostRails : List Nat := stageRails 3 ++ stageRails 4 ++ wheelRails

/-- A rail that was lost, noted in `fault_rail` (Table 19.12). -/
def noteRail (cause : LossCause) (b : Block) : Block :=
  match cause with
  | .rail i => b.setF F.MOD_BOARD_fault_rail i
  | _ => b

theorem loseInput_frame (cause : LossCause) (b : Block) :
    (loseInput cause b).mod.stage = b.mod.stage ∧ (loseInput cause b).mod.railsUp = b.mod.railsUp ∧
    (loseInput cause b).cmem = b.cmem ∧
    (loseInput cause b).mod.overvolt = (b.mod.overvolt || decide (cause = .overvoltage)) := by
  cases cause with
  | overvoltage => exact ⟨rfl, rfl, rfl, (Bool.or_true _).symm⟩
  | inputLow | rail | vio => exact ⟨rfl, rfl, rfl, (Bool.or_false _).symm⟩

theorem noteRail_frame (cause : LossCause) (b : Block) :
    (noteRail cause b).mod = b.mod ∧ (noteRail cause b).up = b.up ∧ (noteRail cause b).cmem = b.cmem ∧
    (noteRail cause b).getF F.MOD_BOARD_reset_cause = b.getF F.MOD_BOARD_reset_cause := by
  cases cause with
  | rail i => exact ⟨rfl, rfl, rfl, getF_setF_other (by decide) b i⟩
  | inputLow | overvoltage | vio => exact ⟨rfl, rfl, rfl, rfl⟩

/-- `fault_rail` after a loss (Table 19.12). -/
def lossRail (cause : LossCause) : Nat :=
  match cause with
  | .rail i => i
  | _ => 0

theorem noteRail_fault {cause : LossCause} {b : Block} (hrail : ∀ i, cause = .rail i → i < 16)
    (hnone : b.getF F.MOD_BOARD_fault_rail = 0) : (noteRail cause b).getF F.MOD_BOARD_fault_rail = lossRail cause := by
  cases cause with
  | rail i => exact (getF_setF_self b F.MOD_BOARD_fault_rail i).trans (Nat.mod_eq_of_lt (hrail i rfl))
  | inputLow | overvoltage | vio => exact hnone

/-- The module as a loss of power leaves it. -/
def powerGone (cause : LossCause) (b : Block) : Block :=
  setRails lostRails false (powerReset (lossCode cause) (loseInput cause b))

theorem lossApplies_up {cause : LossCause} {b : Block} (hup : ∀ i, cause = .rail i → i ∈ b.mod.railsUp) :
    lossApplies cause b = true := by
  cases cause with
  | rail i => exact List.contains_iff_mem.2 (hup i rfl)
  | inputLow | overvoltage | vio => rfl

theorem powerLost_down {cause : LossCause} {b : Block} (hdead : b.mod.stage ≠ .dead) (hinput : b.mod.stage ≠ .input)
    (hup : ∀ i, cause = .rail i → i ∈ b.mod.railsUp) :
    powerLost cause b = setStage (.down 4) (noteRail cause (powerGone cause b)) := by
  have happlies : ¬ (lossApplies cause b = false ∨ b.mod.stage = .dead) := by simp [lossApplies_up hup, hdead]
  obtain ⟨hstage, -⟩ := loseInput_frame cause b
  rw [powerLost, if_neg happlies]
  dsimp only
  rw [if_neg (by rwa [hstage])]
  cases cause <;> rfl

theorem powerLost_off {i : Nat} {b : Block} (h : i ∉ b.mod.railsUp) : powerLost (.rail i) b = b := by
  have hoff : lossApplies (.rail i) b = false := by
    rw [lossApplies, ← Bool.not_eq_true]
    exact mt List.contains_iff_mem.1 h
  rw [powerLost, if_pos (Or.inl hoff)]

theorem setRails_mod (rails : List Nat) (b : Block) : (setRails rails false b).mod =
    { b.mod with railsUp := b.mod.railsUp.filter fun r => !rails.contains r } := rfl

theorem setRails_up (rails : List Nat) (on : Bool) (b : Block) : (setRails rails on b).up = b.up := rfl

theorem getF_setRails (rails : List Nat) (on : Bool) (b : Block) (g : Fld) : (setRails rails on b).getF g = b.getF g := rfl

/-- The rails that stay up are V_AON and V_NOR, or none of the module's. -/
theorem lostRails_filter {rails : List Nat} {r : Nat} (hr : r ∈ rails.filter fun r => !lostRails.contains r) :
    r ∈ rails ∧ (r ≤ 1 ∨ 14 ≤ r) := by
  obtain ⟨hup, hkept⟩ := List.mem_filter.1 hr
  refine ⟨hup, ?_⟩
  have hnot : r ∉ lostRails := by
    rw [Bool.not_eq_true', ← Bool.not_eq_true] at hkept
    exact mt List.contains_iff_mem.2 hkept
  simp only [lostRails, stageRails, wheelRails, List.cons_append, List.nil_append, List.mem_cons, List.not_mem_nil, or_false] at hnot
  omega

theorem lossCode_lt (cause : LossCause) : lossCode cause < 8 := by
  unfold lossCode
  split <;> decide

theorem overvoltageEnds_restarts {mv : Nat} {b : Block} (hover : b.mod.overvolt = true) (hhigh : mv ≤ 55500) (hlow : 37000 ≤ mv)
    (hdead : b.mod.stage = .dead) :
    overvoltageEnds mv b =
      { b with mod := { b.mod with overvolt := false, vinMv := mv, stage := if b.mod.pwrEn then .up 2 else .input } } := by
  have hfallen : ¬ (b.mod.overvolt = false ∨ 55500 < mv) := by
    rw [hover]
    simp only [Bool.true_eq_false, false_or]
    omega
  rw [overvoltageEnds, if_neg hfallen, if_neg (Nat.not_lt.2 hlow)]
  exact if_pos ⟨hdead, hlow⟩

/-- Settles O54: each event is worked out in the stage it meets; a reset as power goes leaves what `powerReset_spec` lists. -/
theorem powerIsSequenced : Obligations.PowerIsSequenced := by
  refine ⟨⟨fun s mv hfine hlow hhigh hdead => ?_, fun s h => ?_, fun s => ⟨railStage s.toBlock, by rw [exec_railStageDone, actB_wf _ rfl], ?_⟩,
    fun s hgood => ?_⟩, fun s cause hdead hinput hup hrail => ?_, fun s i hoff => ?_, fun s mv hover hhigh hlow hdead => ?_,
    fun s mv h => ?_⟩
  · rw [exec_vinApply, actB_wf _ rfl, vinApplied_dead hfine hlow hhigh hdead]
  · rw [exec_pwrEnRise, actB_wf _ rfl, pwrEnRises_input h]
  · refine ⟨fun h => ?_, fun h => ?_, fun h => ?_, fun h => ?_, fun h => ?_, fun h => ?_, fun h => ?_, fun h => ?_⟩
    all_goals
      unfold railStage
      rw [h]
      rfl
  · obtain ⟨hup, hpg, hreleased, hpen, -, -, hcmem, hrtp, hslots, hreqs⟩ := powerReset_spec 2 (disabled s.toBlock)
    obtain ⟨hcause, hfault⟩ := powerReset_cause (cause := 2) (by decide) (disabled s.toBlock)
    refine ⟨setStage (.down 2) (powerReset 2 (disabled s.toBlock)), by rw [exec_pwrEnFall, actB_wf _ rfl, pwrEnFalls_good hgood], ?_⟩
    rw [setStage_mod, setStage_up, getF_setStage, getF_setStage, setStage_cmem, setStage_rtp, setStage_ses, setStage_fe, hup, hcause,
      hfault, hcmem, hrtp, hslots, hreqs]
    exact ⟨rfl, hpen, hpg, hreleased, rfl, rfl, rfl, rfl, rfl, rfl, rfl, rfl⟩
  · obtain ⟨-, hrails, hcmem, hovervolt⟩ := loseInput_frame cause s.toBlock
    obtain ⟨hdown, hpg, -, -, hrailsUp, hover, hcmem', -⟩ := powerReset_spec (lossCode cause) (loseInput cause s.toBlock)
    obtain ⟨hmod, hup', hcmem'', hcause'⟩ := noteRail_frame cause (powerGone cause s.toBlock)
    obtain ⟨hcause, hfault⟩ := powerReset_cause (lossCode_lt cause) (loseInput cause s.toBlock)
    refine ⟨setStage (.down 4) (noteRail cause (powerGone cause s.toBlock)),
      by rw [exec_powerLoss, actB_wf _ rfl, powerLost_down hdead hinput hup], ?_⟩
    have hgone : (powerGone cause s.toBlock).getF F.MOD_BOARD_fault_rail = 0 := by rw [powerGone, getF_setRails, hfault]
    rw [setStage_mod, setStage_up, getF_setStage, getF_setStage, setStage_cmem, hmod, hup', hcause', hcmem'', noteRail_fault hrail hgone,
      powerGone, setRails_mod, setRails_up, getF_setRails, setRails_cmem, hcause, hdown, hcmem', hcmem]
    refine ⟨rfl, hpg, rfl, fun r hr => ?_, ?_, ?_, hover.trans hovervolt, rfl⟩
    · have hkept := lostRails_filter hr
      rwa [hrailsUp, hrails] at hkept
    · cases cause <;> rfl
    · cases cause <;> rfl
  · rw [exec_powerLoss, actB_wf _ rfl, powerLost_off hoff]
    rfl
  · rw [exec_overvoltageRestart, actB_wf _ rfl, overvoltageEnds_restarts hover hhigh hlow hdead]
  · rw [exec_overvoltageRestart, actB_wf _ rfl, overvoltageEnds, if_pos h]
    rfl

/-! ### Reset and its release (R441 to R443) -/

/-- The module as a reset meets it: MOD_RESET_N low, and the wheel rails up again where the coolant is good. -/
def resetMet (b : Block) : Block :=
  let b := { b with mod := { b.mod with modResetN := false } }
  if b.pmc.coolantOk then setRails wheelRails true b else b

theorem resetFalls_good {b : Block} (h : b.mod.pwrGood = true) :
    resetFalls b = (resetBlock (resetMet b)).setF F.MOD_BOARD_reset_cause 1 := if_pos h

theorem resetMet_spec (b : Block) : (resetMet b).mod.stage = b.mod.stage ∧ (resetMet b).mod.modResetN = false ∧
    (resetMet b).rtp = b.rtp ∧ (resetMet b).brp = b.brp ∧ (resetMet b).cmem = b.cmem := by
  unfold resetMet
  dsimp only
  split
  · exact ⟨rfl, rfl, rfl, rfl, rfl⟩
  · exact ⟨rfl, rfl, rfl, rfl, rfl⟩

theorem resetBlock_spec (b : Block) :
    (resetBlock b).mod.released = false ∧ (resetBlock b).mod.modResetN = b.mod.modResetN ∧
    (resetBlock b).mod.stage = b.mod.stage ∧ (resetBlock b).ses.slots = [] ∧ (resetBlock b).fe.reqs = [] ∧
    (resetBlock b).ste = Block.reset.ste ∧ (resetBlock b).spk = Block.reset.spk ∧ (resetBlock b).intr = Block.reset.intr ∧
    (resetBlock b).rtp = rtpKept b ∧ (resetBlock b).brp.patches = b.brp.patches ∧ (resetBlock b).cmem = b.cmem :=
  ⟨rfl, rfl, rfl, rfl, rfl, rfl, rfl, rfl, rfl, rfl, rfl⟩

theorem resetRises_spec {x : Straps} {b : Block} (hgood : b.mod.pwrGood = true) (hheld : b.mod.released = false) :
    (resetRises x b).mod.released = true ∧ (resetRises x b).mod.modResetN = true ∧
    (resetRises x b).getF F.CMP_ID_module_id = x.traySlot.toNat % 2 ^ F.CMP_ID_module_id.width ∧
    (resetRises x b).getF F.MOD_BOARD_tray_slot = x.traySlot.toNat % 2 ^ F.MOD_BOARD_tray_slot.width ∧
    (resetRises x b).getF F.MOD_BOARD_boot_sel = (if x.bootSel then 1 else 0) := by
  have hrises : resetRises x b = updMod (fun m => { m with released := true })
      ((((updMod (fun m => { m with modResetN := true }) b).setF F.MOD_BOARD_tray_slot x.traySlot.toNat).setF F.MOD_BOARD_boot_sel
        (if x.bootSel then 1 else 0)).setF F.CMP_ID_module_id x.traySlot.toNat) := if_pos ⟨hgood, hheld⟩
  have hfield : ∀ (f : ModState → ModState) (b : Block) (g : Fld), (updMod f b).getF g = b.getF g := fun _ _ _ => rfl
  rw [hrises, hfield, hfield, hfield]
  refine ⟨rfl, rfl, getF_setF_self _ F.CMP_ID_module_id _, ?_, ?_⟩
  · simp (disch := decide) only [getF_setF_other]
    exact getF_setF_self _ F.MOD_BOARD_tray_slot _
  · rw [getF_setF_other (by decide), getF_setF_self]
    split <;> rfl

/-! ### Boot (R357, Table 15.3) -/

theorem slotPasses_sound {x : BootOutcome} {b : Block} {n : Nat} {slot : Bool} (h : slotPasses x b n slot = true) :
    (imageIn b slot n).valid = true ∧ ratchet b n ≤ (imageIn b slot n).svn := by
  simp only [slotPasses, Bool.and_eq_true, decide_eq_true_eq] at h
  exact h.1

theorem bootSlot_sound {x : BootOutcome} {b : Block} {n : Nat} {slot : Bool} (h : bootSlot x b n = some slot) :
    (imageIn b slot n).valid = true ∧ ratchet b n ≤ (imageIn b slot n).svn := by
  unfold bootSlot at h
  dsimp only at h
  split at h
  · next hfirst => exact slotPasses_sound (Option.some.inj h ▸ hfirst)
  · split at h
    · next hsecond => exact slotPasses_sound (Option.some.inj h ▸ hsecond)
    · cases h

section Boot

variable {x : BootOutcome} {b : Block} (hreleased : b.mod.released = true) (hready : b.rtp.ready = false)
  (hrecovery : b.rtp.recovery = false)

include hreleased hready hrecovery

theorem boot_due : ¬ (b.mod.released = false ∨ b.rtp.ready = true ∨ b.rtp.recovery = true) := by
  simp [hreleased, hready, hrecovery]

theorem bootCompletes_ready {s0 s1 s2 : Bool} (h0 : bootSlot x b 0 = some s0) (h1 : bootSlot x b 1 = some s1)
    (h2 : bootSlot x b 2 = some s2) :
    bootCompletes x b = bootBrake (bootReady x.failedSpokes [s0, s1, s2]
      ((s0 != firstSlotB b 0) || (s1 != firstSlotB b 1) || (s2 != firstSlotB b 2))
      { b with rtp := { b.rtp with boots := (b.rtp.boots + 1) % 2 ^ 32 } }) := by
  rw [bootCompletes, if_neg (boot_due hreleased hready hrecovery)]
  simp only [h0, h1, h2]
  rfl

theorem bootCompletes_recovery (h0 : bootSlot x b 0 = none) :
    bootCompletes x b =
      { b with rtp := { b.rtp with recovery := true }, mod := { b.mod with recovery := [], slotAFirst := false } } := by
  rw [bootCompletes, if_neg (boot_due hreleased hready hrecovery)]
  simp only [h0]
  rfl

end Boot

/-! ### Monitors (R448, R453) -/

theorem railWarns_spec {rail mv : Nat} {w : Bool} {b : Block} (hrail : rail ≠ 14) :
    (railWarns rail w mv b).getFi F.MOD_RAIL_warn rail = (if w then 1 else 0) ∧
    (railWarns rail w mv b).getFi F.MOD_RAIL_mv rail = mv % 2 ^ F.MOD_RAIL_mv.width ∧
    ((railWarns rail w mv b).getFi F.MOD_RAIL_warn_seen rail =
      if w = true ∧ b.getFi F.MOD_RAIL_warn rail = 0 then 1 else b.getFi F.MOD_RAIL_warn_seen rail) ∧
    (railWarns rail w mv b).mod = b.mod ∧ (railWarns rail w mv b).rtp = b.rtp := by
  have hwarn : (if w = true then 1 else 0) % 2 ^ F.MOD_RAIL_warn.width = if w then 1 else 0 := by cases w <;> rfl
  have hbefore : (b.setFi F.MOD_RAIL_mv rail mv).getFi F.MOD_RAIL_warn rail = b.getFi F.MOD_RAIL_warn rail :=
    getFi_setFi_other (by decide) b rail mv rail
  unfold railWarns
  dsimp only
  rw [if_neg hrail, hbefore]
  refine ⟨(getFi_setFi_self _ F.MOD_RAIL_warn rail _).trans hwarn, ?_, ?_, ?_, ?_⟩
  all_goals split
  · rw [getFi_setFi_other (by decide), getFi_setFi_other (by decide), getFi_setFi_self]
  · rw [getFi_setFi_other (by decide), getFi_setFi_self]
  · rw [getFi_setFi_other (by decide)]
    exact getFi_setFi_self _ F.MOD_RAIL_warn_seen rail 1
  · rw [getFi_setFi_other (by decide), getFi_setFi_other (by decide)]
  · rfl
  · rfl
  · rfl
  · rfl

/-- A bit of the four that show the clocks set or cleared: the other three are as they were. -/
theorem clockBit_set : ∀ m < 16, ∀ g < 4, ∀ k < 4, m.testBit g = false →
    ((m + 2 ^ g) % 16).testBit k = if k = g then true else m.testBit k := by decide

theorem clockBit_clear : ∀ m < 16, ∀ g < 4, ∀ k < 4, m.testBit g = true →
    2 ^ g ≤ m ∧ ((m - 2 ^ g) % 16).testBit k = if k = g then false else m.testBit k := by decide

theorem testBit_low {v k : Nat} (hk : k < 4) : (v % 16).testBit k = v.testBit k := by
  have hmod := Nat.testBit_mod_two_pow v 4 k
  simpa [hk] using hmod

/-- A clock's bit changed to `ok`, in a register of four bits. -/
theorem clockBit_changed {v g k : Nat} {ok : Bool} (hg : g < 4) (hk : k < 4) (h : v.testBit g ≠ ok) :
    ((if ok then v + 2 ^ g else v - 2 ^ g) % 16).testBit k = if k = g then ok else v.testBit k := by
  have hsmall : v % 16 < 16 := Nat.mod_lt _ (by decide)
  cases ok with
  | true =>
    have hoff : (v % 16).testBit g = false := by
      rw [testBit_low hg]
      simpa using h
    have hset := clockBit_set (v % 16) hsmall g hg k hk hoff
    rw [Nat.mod_add_mod, testBit_low (v := v) hk] at hset
    exact hset
  | false =>
    have hon : (v % 16).testBit g = true := by
      rw [testBit_low hg]
      simpa using h
    obtain ⟨hle, hcleared⟩ := clockBit_clear (v % 16) hsmall g hg k hk hon
    have hsub : (v % 16 - 2 ^ g) % 16 = (v - 2 ^ g) % 16 := by omega
    rw [hsub, testBit_low (v := v) hk] at hcleared
    exact hcleared

theorem clockChanges_bit {g k : Nat} {ok : Bool} {b : Block} (hdown : b.up = false) (hg : g < 4) (hk : k < 4) :
    ((clockChanges g ok b).getF F.MOD_BOARD_refclk_ok).testBit k =
      if k = g then ok else (b.getF F.MOD_BOARD_refclk_ok).testBit k := by
  unfold clockChanges
  dsimp only
  by_cases hsame : (b.getF F.MOD_BOARD_refclk_ok).testBit g = ok
  · rw [if_pos hsame, if_pos (Or.inr hdown)]
    split
    · next hkg => rw [hkg, hsame]
    · rfl
  · rw [if_neg hsame]
    have hquiet : ok = true ∨ (b.setF F.MOD_BOARD_refclk_ok
      (if ok then b.getF F.MOD_BOARD_refclk_ok + 2 ^ g else b.getF F.MOD_BOARD_refclk_ok - 2 ^ g)).up = false := Or.inr hdown
    rw [if_pos hquiet, getF_setF_self]
    exact clockBit_changed hg hk hsame

/-! ### The management bus and the debug port (R444, R446, R449) -/

section Recovery

variable {b : Block} (hreleased : b.mod.released = true)
include hreleased

theorem recoveryData_normal (hnormal : b.rtp.recovery = false) (off : Nat) (bs : Bytes) :
    recoveryData off bs b = { b with mod := { b.mod with busStatus := 3 } } := by
  rw [recoveryData, if_neg (by rw [hreleased]; decide), if_pos hnormal]
  rfl

theorem recoveryCommit_normal (hnormal : b.rtp.recovery = false) (n : Nat) :
    recoveryCommit n b = { b with mod := { b.mod with busStatus := 3 } } := by
  rw [recoveryCommit, if_neg (by rw [hreleased]; decide), if_pos hnormal]
  rfl

variable (hrecovery : b.rtp.recovery = true)
include hrecovery

/-- A piece of 64 bytes gathers with the others. -/
theorem recoveryData_gathers {off : Nat} (haligned : off % 64 = 0) (hfits : off + 64 ≤ recoveryLimit b) (bs : Bytes) :
    recoveryData off bs b =
      { b with mod := { b.mod with recovery := cellWrite b.mod.recovery off (padTo 64 bs), busStatus := 0 } } := by
  have hplace : ¬ (off % 64 ≠ 0 ∨ recoveryLimit b < off + 64) := by omega
  rw [recoveryData, if_neg (by rw [hreleased]; decide), if_neg (by rw [hrecovery]; decide), if_neg hplace]
  rfl

theorem recoveryCommit_cases (n : Nat) :
    recoveryCommit n b =
      if imageErr b 0 (cellRead b.mod.recovery 0 n) ≠ 0 then { b with mod := { b.mod with busStatus := 3 } }
      else { b with
        rtp := { b.rtp with slotA := b.rtp.slotA.set 0 (slotOf (cellRead b.mod.recovery 0 n)), recovery := false }
        mod := { b.mod with recovery := [], slotAFirst := true, busStatus := 0 } } := by
  rw [recoveryCommit, if_neg (by rw [hreleased]; decide), if_neg (by rw [hrecovery]; decide)]
  rfl

end Recovery

theorem jtagAllowed_other {ir : JtagInstr} (hid : ir ≠ .idcode) (hby : ir ≠ .bypass) (b : Block) :
    jtagAllowed b ir = (b.rtp.debugOpen && !b.rtp.conf) := by
  cases ir with
  | idcode => exact absurd rfl hid
  | bypass => exact absurd rfl hby
  | sample | extest | coreHalt | coreRegs => rfl

theorem jtagLoad_other {ir : JtagInstr} (hid : ir ≠ .idcode) (hby : ir ≠ .bypass) (b : Block) :
    jtagLoad ir b = { b with mod := { b.mod with jtag := some (if b.rtp.debugOpen && !b.rtp.conf then ir else .bypass) } } := by
  have hplain : ¬ (if b.rtp.debugOpen && !b.rtp.conf then ir else .bypass) = JtagInstr.idcode := by
    split
    · exact hid
    · decide
  unfold jtagLoad
  dsimp only
  rw [jtagAllowed_other hid hby, if_neg hplain]
  rfl

/-- Settles O55: a reset keeps the kept fields alone (`getFi_resetBlock`); boot, monitors, recovery and debug port by
their outcomes. -/
theorem boardResetsBootsAndServes : Obligations.BoardResetsBootsAndServes := by
  refine ⟨⟨fun s hgood => ?_, fun s x hgood hheld => ⟨_, rfl, resetRises_spec hgood hheld⟩,
      fun s x s0 s1 s2 hreleased hready hrecovery h0 h1 h2 => ?_, fun s x hreleased hready hrecovery h0 => ?_,
      fun b x n slot => bootSlot_sound⟩,
    fun s r w mv hr => ?_, fun s w mv => ?_, fun s g ok hdown => ?_, fun s a => ?_, fun s off bs hreleased hrecovery haligned hfits => ?_,
    fun s n hreleased hrecovery => ?_, fun s n off bs hreleased hnormal => ⟨?_, ?_⟩, fun s => ⟨rfl, rfl, rfl⟩, fun s ir hid hby => ?_⟩
  · obtain ⟨hstage, hlow, hrtp, hbrp, hcmem⟩ := resetMet_spec s.toBlock
    obtain ⟨hreleased, hresetN, hstage', hslots, hreqs, hste, hspk, hintr, hrtp', hbrp', hcmem'⟩ := resetBlock_spec (resetMet s.toBlock)
    refine ⟨(resetBlock (resetMet s.toBlock)).setF F.MOD_BOARD_reset_cause 1,
      by rw [exec_modResetNFall, actB_wf _ rfl, resetFalls_good hgood], ?_⟩
    have hfields : ∀ (f : Fld) (i : Nat), (∀ g ∈ keptFields, g.key ≠ f.key) →
        ((resetBlock (resetMet s.toBlock)).setF F.MOD_BOARD_reset_cause 1).getFi f i = Block.reset.getFi f i := fun f i hf => by
      rw [getFi_setF_other (hf F.MOD_BOARD_reset_cause (by decide)).symm, getFi_resetBlock hf]
    rw [setF_up, setF_mod, setF_ses, setF_fe, setF_ste, setF_spk, setF_intr, setF_rtp, setF_brp, setF_cmem, hreleased, hresetN,
      hstage', hslots, hreqs, hste, hspk, hintr, hrtp', hbrp', hcmem', hlow, hstage, hbrp, hcmem, rtpKept, hrtp]
    exact ⟨rfl, rfl, rfl, rfl, getF_setF_self _ F.MOD_BOARD_reset_cause 1, rfl, rfl, rfl, rfl, rfl, rfl, rfl, rfl, rfl, rfl, rfl,
      hfields⟩
  · rw [exec_bootComplete, actB_wf _ rfl, bootCompletes_ready hreleased hready hrecovery h0 h1 h2]
  · rw [exec_bootComplete, actB_wf _ rfl, bootCompletes_recovery hreleased hready hrecovery h0]
  · have hrail : r.toNat ≠ 14 := fun h => hr (BitVec.eq_of_toNat_eq h)
    exact ⟨_, by rw [exec_railWarn, actB_wf _ rfl], railWarns_spec hrail⟩
  · rw [exec_railWarn, actB_wf _ rfl]
    rfl
  · exact ⟨_, by rw [exec_refclkChange, actB_wf _ rfl], fun k hk => clockChanges_bit hdown g.isLt hk⟩
  · rw [exec_i3cAddressAssign, actB_wf _ rfl]
    rfl
  · rw [exec_recData, actB_wf _ rfl, recoveryData_gathers hreleased hrecovery haligned hfits]
  · rw [exec_recCommit, actB_wf _ rfl, recoveryCommit_cases hreleased hrecovery]
  · rw [exec_recCommit, actB_wf _ rfl, recoveryCommit_normal hreleased hnormal]
  · rw [exec_recData, actB_wf _ rfl, recoveryData_normal hreleased hnormal]
  · rw [exec_jtagInstruction, actB_wf _ rfl, jtagLoad_other hid hby]

end Sys2Proof.Machine
